-- ==== Sys2Proof/Word.lean ====
section
/-! DEFINITION. The word types of the S960 and the sparse finite map used for everything that is sparse. -/

namespace Sys2Proof

/-- A scalar or drift register value, a virtual address, a counter (03 R47). -/
abbrev Word := BitVec 64

/-- The bits of a vector register, latch, held value or mask (03 R53). -/
abbrev VBits := BitVec 2048

/-- One instruction word (18 R288). -/
abbrev IWord := BitVec 32

/-- A byte. -/
abbrev Byte := BitVec 8

/-- A sparse map with natural-number keys: keys strictly rising. What an absent key reads as is
said where the map is read. -/
abbrev SMap (α : Type) := List (Nat × α)

end Sys2Proof
end

