-- ==== Sys2Proof/Config.lean ====
section
/-! DEFINITION. What the spec leaves open: the free values and the report's signature, as constants
without a body (log entries 6 and 8, DESIGN CHOICE). -/

namespace Sys2Proof.Config

/-- R95: the stream key the hub draws, for the n-th draw (log entry 6, DESIGN CHOICE). -/
opaque freeKey : Nat → BitVec 64

/-- R23, R193 and every other value the spec leaves unstated: the n-th free byte (log entry 6, DESIGN CHOICE). -/
opaque freeByte : Nat → BitVec 8

/-- R270: the signature (r, s) of the report bytes under the device key (log entry 8, DESIGN CHOICE). -/
opaque signR : List (BitVec 8) → BitVec 384

/-- R270: the second half of the signature (log entry 8, DESIGN CHOICE). -/
opaque signS : List (BitVec 8) → BitVec 384

/-- R231: whether the spare rows that are left, after so many remapped rows of a stack, lie below the firmware's
threshold (log entry 6, DESIGN CHOICE). -/
opaque rowsLow : Nat → Bool

/-- R231, R273: whether the spare rows of a stack are spent after so many remapped rows (log entry 81, DESIGN CHOICE,
DESIGN CHOICE). -/
opaque rowsGone : Nat → Bool

end Sys2Proof.Config
end

