-- ==== Sys2Proof/Machine/Float.lean ====
section
/-! DEFINITION. Exact floating-point values and their single rounding (03 R44-R51, R56-R59). A finite value is
kept exact as a sign, a natural significand and a binary exponent; every operation computes exactly and rounds
once at its end. -/

namespace Sys2Proof.Machine

/-- An exact value: NaN, an infinity, or (-1)^neg * m * 2^e. -/
inductive FVal where
  | nan
  | inf (neg : Bool)
  | fin (neg : Bool) (m : Nat) (e : Int)
  deriving DecidableEq, Repr

/-- R57: the rounding modes of the rnd field. -/
inductive Rnd where
  | rne | rtz | rdn | rup
  deriving DecidableEq, Repr

/-- R57: the mode a rounding field selects. -/
def rndOf (r : BitVec 2) : Rnd :=
  match r.toNat with
  | 0 => .rne
  | 1 => .rtz
  | 2 => .rdn
  | _ => .rup

/-- R44: the four IEEE-like formats. -/
inductive FFmt where
  | f32 | bf16 | f8e4 | f8e5
  deriving DecidableEq, Repr

/-- R44: the exponent width. -/
def FFmt.ebits : FFmt → Nat
  | .f32 | .bf16 => 8
  | .f8e4 => 4
  | .f8e5 => 5

/-- R44: the fraction width. -/
def FFmt.fbits : FFmt → Nat
  | .f32 => 23
  | .bf16 => 7
  | .f8e4 => 3
  | .f8e5 => 2

/-- R44: the exponent bias. -/
def FFmt.bias : FFmt → Nat
  | .f32 | .bf16 => 127
  | .f8e4 => 7
  | .f8e5 => 15

/-- R44: the code of the largest finite value. -/
def FFmt.maxCode : FFmt → Nat
  | .f32 => 0x7F7FFFFF
  | .bf16 => 0x7F7F
  | .f8e4 => 0x7E
  | .f8e5 => 0x7B

/-- R45: the code of positive infinity; F8E4 has none. -/
def FFmt.infCode : FFmt → Option Nat
  | .f32 => some 0x7F800000
  | .bf16 => some 0x7F80
  | .f8e4 => none
  | .f8e5 => some 0x7C

/-- R45: the NaN that the S960 produces. -/
def FFmt.nanCode : FFmt → Nat
  | .f32 => 0x7FC00000
  | .bf16 => 0x7FC0
  | .f8e4 => 0x7F
  | .f8e5 => 0x7E

/-- The bit position of the sign. -/
def FFmt.signPos (f : FFmt) : Nat := f.ebits + f.fbits

/-- R44, R45: the value of a code. -/
def decodeF (f : FFmt) (code : Nat) : FVal :=
  let neg := code / 2 ^ f.signPos % 2 == 1
  let mag := code % 2 ^ f.signPos
  if mag ≤ f.maxCode then
    let ex := mag / 2 ^ f.fbits
    let fr := mag % 2 ^ f.fbits
    if ex = 0 then .fin neg fr (1 - (f.bias : Int) - f.fbits)
    else .fin neg (2 ^ f.fbits + fr) ((ex : Int) - f.bias - f.fbits)
  else if f.infCode = some mag then .inf neg
  else .nan

/-- m * 2^k rounded to an integer in a mode, for a value of the given sign; `sticky` says that a nonzero
part below m was already cut. -/
def roundScaled (r : Rnd) (neg : Bool) (m : Nat) (k : Int) : Nat :=
  if 0 ≤ k then m * 2 ^ k.toNat
  else
    let s := (-k).toNat
    let q := m / 2 ^ s
    let rem := m % 2 ^ s
    let up : Bool :=
      match r with
      | .rne => decide (2 ^ s < 2 * rem) || (2 * rem == 2 ^ s && q % 2 == 1)
      | .rtz => false
      | .rdn => neg && rem != 0
      | .rup => !neg && rem != 0
    if up then q + 1 else q

/-- The sign bit of a code. -/
def signBit (f : FFmt) (neg : Bool) : Nat := if neg then 2 ^ f.signPos else 0

/-- What a magnitude above the largest finite value becomes: saturation (R58), or IEEE 754 for the mode (R56). -/
def overflowCode (f : FFmt) (r : Rnd) (sat neg : Bool) : Nat :=
  let toInf : Bool :=
    match r with
    | .rne => true
    | .rtz => false
    | .rdn => neg
    | .rup => !neg
  match f.infCode with
  | some c => if toInf && !sat then c else f.maxCode
  | none => f.maxCode

/-- R56, R58: the code of an exact finite value rounded once to a format. -/
def roundF (f : FFmt) (r : Rnd) (sat : Bool) (neg : Bool) (m : Nat) (e : Int) : Nat :=
  if m = 0 then signBit f neg
  else
    let ulpMin : Int := 1 - (f.bias : Int) - f.fbits
    let ulp : Int := max ulpMin ((Nat.log2 m : Int) + e - f.fbits)
    let q := roundScaled r neg m (e - ulp)
    let code := (ulp - ulpMin).toNat * 2 ^ f.fbits + q
    signBit f neg + (if code ≤ f.maxCode then code else overflowCode f r sat neg)

/-- R45, R56, R58: the code of a value rounded once; `sat` for a narrowing conversion, which also turns an
infinity into the largest finite value. -/
def encodeF (f : FFmt) (r : Rnd) (sat : Bool) (v : FVal) : Nat :=
  match v with
  | .nan => f.nanCode
  | .inf neg =>
    signBit f neg + (match f.infCode with
      | some c => if sat then f.maxCode else c
      | none => f.maxCode)
  | .fin neg m e => roundF f r sat neg m e

/-- A signed integer as a sign and a magnitude at an exponent; zero is positive. -/
def ofIntScaled (v : Int) (e : Int) : FVal := .fin (decide (v < 0)) v.natAbs e

/-- A value's significand with its sign, at a smaller exponent. -/
def signedAt (neg : Bool) (m : Nat) (e lo : Int) : Int :=
  let v : Int := (m * 2 ^ (e - lo).toNat : Nat)
  if neg then -v else v

/-- The exact sum (R56); a zero sum of unlike signs is +0, or -0 when rounding down (R393). -/
def FVal.add (r : Rnd) (x y : FVal) : FVal :=
  match x, y with
  | .nan, _ | _, .nan => .nan
  | .inf a, .inf b => if a = b then .inf a else .nan
  | .inf a, _ => .inf a
  | _, .inf b => .inf b
  | .fin a m e, .fin b n g =>
    let lo := min e g
    let v := signedAt a m e lo + signedAt b n g lo
    if v = 0 then
      if m = 0 && n = 0 && a = b then .fin a 0 0 else .fin (r == .rdn) 0 0
    else ofIntScaled v lo

/-- The negated value. -/
def FVal.neg (x : FVal) : FVal :=
  match x with
  | .nan => .nan
  | .inf a => .inf (!a)
  | .fin a m e => .fin (!a) m e

/-- The exact product; 0 times an infinity is NaN (R56, R65). -/
def FVal.mul (x y : FVal) : FVal :=
  match x, y with
  | .nan, _ | _, .nan => .nan
  | .inf a, .inf b => .inf (a != b)
  | .inf a, .fin b n _ => if n = 0 then .nan else .inf (a != b)
  | .fin a m _, .inf b => if m = 0 then .nan else .inf (a != b)
  | .fin a m e, .fin b n g => .fin (a != b) (m * n) (e + g)

/-- A value times 2^n, exact. -/
def FVal.scale (x : FVal) (n : Int) : FVal :=
  match x with
  | .fin a m e => .fin a m (e + n)
  | _ => x

/-- The code of num/den * 2^e rounded once: the quotient is taken far below the format's last place, with a
sticky bit for what is cut. -/
def roundRatio (f : FFmt) (r : Rnd) (sat neg : Bool) (num den : Nat) (e : Int) : Nat :=
  let s := Nat.log2 den + 64
  let q := num * 2 ^ s / den
  let sticky := if num * 2 ^ s % den = 0 then 0 else 1
  roundF f r sat neg (2 * q + sticky) (e - s - 1)

/-- The exact quotient of two values, rounded once to nearest (R193). -/
def fdiv (f : FFmt) (x y : FVal) : Nat :=
  match x, y with
  | .nan, _ | _, .nan => f.nanCode
  | .inf a, .inf _ => encodeF f .rne false (if a then .nan else .nan)
  | .inf a, .fin b _ _ => encodeF f .rne false (.inf (a != b))
  | .fin a _ _, .inf b => signBit f (a != b)
  | .fin a m e, .fin b n g =>
    if n = 0 then (if m = 0 then f.nanCode else encodeF f .rne false (.inf (a != b)))
    else if m = 0 then signBit f (a != b)
    else roundRatio f .rne false (a != b) m n (e - g)

/-- Numeric order of two values that are not NaN, -0 equal to +0: less than. -/
def FVal.lt (x y : FVal) : Bool :=
  match x, y with
  | .nan, _ | _, .nan => false
  | .inf a, .inf b => a && !b
  | .inf a, .fin _ _ _ => a
  | .fin _ _ _, .inf b => !b
  | .fin a m e, .fin b n g =>
    let lo := min e g
    decide (signedAt a m e lo < signedAt b n g lo)

/-- Numeric equality of two values that are not NaN, -0 equal to +0. -/
def FVal.eq (x y : FVal) : Bool :=
  match x, y with
  | .nan, _ | _, .nan => false
  | _, _ => !(x.lt y) && !(y.lt x)

/-- The sign of a value; NaN counts as positive. -/
def FVal.isNeg (x : FVal) : Bool :=
  match x with
  | .nan => false
  | .inf a => a
  | .fin a _ _ => a

/-- R56: the IEEE 754 minimum, with -0 below +0 and NaN in giving NaN. -/
def FVal.min (x y : FVal) : FVal :=
  match x, y with
  | .nan, _ | _, .nan => .nan
  | _, _ => if x.lt y then x else if y.lt x then y else if x.isNeg then x else y

/-- R56: the IEEE 754 maximum. -/
def FVal.max (x y : FVal) : FVal :=
  match x, y with
  | .nan, _ | _, .nan => .nan
  | _, _ => if x.lt y then y else if y.lt x then x else if x.isNeg then y else x

/-- R59, R398: a finite value rounded to an integer in a mode. -/
def roundInt (r : Rnd) (neg : Bool) (m : Nat) (e : Int) : Int :=
  let q : Int := roundScaled r neg m e
  if neg then -q else q

/-- R398: a code rounded to an integral value of its own format. -/
def integralF (f : FFmt) (r : Rnd) (code : Nat) : Nat :=
  match decodeF f code with
  | .nan => f.nanCode
  | .inf _ => code
  | .fin neg m e => if 0 ≤ e then code else roundF f r false neg (roundScaled r neg m e) 0

/-- R49: one term of a DP8 byte in units of 2^-6. -/
def dp8Term (s c : Nat) : Int :=
  if c = 7 then 0 else if s = 1 then -(2 ^ (6 - c) : Nat) else (2 ^ (6 - c) : Nat)

/-- R49: the value of a DP8 byte, exact; hs = 1 with hc = 7 is NaN. -/
def decodeDp8 (b : Nat) : FVal :=
  let hs := b / 128 % 2
  let hc := b / 16 % 8
  let ls := b / 8 % 2
  let lc := b % 8
  if hs = 1 && hc = 7 then .nan else ofIntScaled (dp8Term hs hc + dp8Term ls lc) (-6)

/-- R50: a canonical byte that is not NaN. -/
def dp8Canonical (b : Nat) : Bool :=
  let hs := b / 128 % 2
  let hc := b / 16 % 8
  let ls := b / 8 % 2
  let lc := b % 8
  b == 0x77 ||
  (decide (hc ≤ 6) && ls == 0 && lc == 7) ||
  (hs == ls && decide (lc ≤ 6) && (decide (hc < lc) || (hc == 0 && lc == 0))) ||
  (hs != ls && decide (lc ≤ 6) && decide (hc + 3 ≤ lc))

/-- R50: the canonical non-negative bytes with their values in units of 2^-6. -/
def dp8Table : List (Nat × Nat) :=
  (List.range 128).filterMap fun b =>
    if dp8Canonical b then some (b, (dp8Term (b / 128) (b / 16 % 8) + dp8Term (b / 8 % 2) (b % 8)).toNat)
    else none

/-- The best byte of a table for a magnitude m * 2^e (in units of 2^-6): the largest value not above it when
`down`, else the smallest value not below it. -/
def dp8Pick (t : List (Nat × Nat)) (down : Bool) (m : Nat) (e : Int) : Option (Nat × Nat) :=
  t.foldl (fun best p =>
    let c : FVal := .fin false p.2 0
    let x : FVal := .fin false m e
    let fits : Bool := if down then !(x.lt c) else !(c.lt x)
    if !fits then best
    else match best with
      | none => some p
      | some b => if (if down then decide (b.2 < p.2) else decide (p.2 < b.2)) then some p else best) none

/-- The negated byte of a canonical DP8 byte; zero stays 0x77. -/
def dp8Negate (b : Nat) : Nat :=
  if b = 0x77 then b
  else
    let ls := if b % 8 = 7 then 0 else (1 - b / 8 % 2)
    (b % 128 / 16) * 16 + 128 + ls * 8 + b % 8

/-- R51: a conversion to DP8. -/
def encodeDp8 (r : Rnd) (v : FVal) : Nat :=
  match v with
  | .nan => 0xF0
  | .inf neg => if neg then 0x88 else 0x00
  | .fin neg m e =>
    let e6 := e + 6
    let lo := dp8Pick dp8Table true m e6
    let hi := dp8Pick dp8Table false m e6
    let pickUp : Bool :=
      match lo, hi with
      | some l, some h =>
        (match r with
        | .rne =>
          let x : FVal := .fin false (2 * m) e6
          (FVal.fin false (l.2 + h.2) 0).lt x
        | .rtz => false
        | .rdn => neg
        | .rup => !neg)
      | _, _ => false
    let b := match (if pickUp then hi else lo) with
      | some p => p.1
      | none => 0x77
    if neg then dp8Negate b else b

end Sys2Proof.Machine
end

