-- ==== Sys2Proof/Machine/Elementary.lean ====
section
/-! DEFINITION. The elementary functions of R68 and the activation functions of R86: exact rational results
rounded once, and transcendental results taken in fixed point far below the last place of FP32 before the one
rounding (log entry 7, DEDUCED). -/

namespace Sys2Proof.Machine

/-- The integer square root by binary digits: the largest r built from the bits n-1 .. 0 with r*r at most v. -/
def isqrtBits (v : Nat) (n r : Nat) : Nat :=
  match n with
  | 0 => r
  | n + 1 => let c := r + 2 ^ n; isqrtBits v n (if c * c ≤ v then c else r)

/-- R68: the correctly rounded reciprocal square root of a positive finite value. -/
def rsqrtPos (m : Nat) (e : Int) : Nat :=
  let odd := e % 2 ≠ 0
  let m := if odd then 2 * m else m
  let e := if odd then e - 1 else e
  let k := Nat.log2 m / 2 + 48
  let q := isqrtBits (2 ^ (2 * k) / m) (k + 1) 0
  let sticky := if q * q * m = 2 ^ (2 * k) then 0 else 1
  roundF .f32 .rne false false (2 * q + sticky) (-(e / 2) - k - 1)

/-- Fixed-point precision of 2^f and of the logarithm. -/
def expPrec : Nat := 320

/-- ln 2 in units of 2^-320. -/
def ln2Fix : Nat := 0xb17217f7d1cf79abc9e3b39803f2f6af40f343267298b62d8a0d175b8baafa2be7b876206debac98

/-- log2 e in units of 2^-448. -/
def log2eFix : Nat :=
  0x171547652b82fe1777d0ffda0d23a7d11d6aef551bad2b4b1164a2cd9a342648fbc3887eeaa2ed9ac49b25eeb82d7c167d52173cc1895213f

/-- 1/sqrt(2 pi) in units of 2^-704. -/
def invSqrt2PiFix : Nat :=
  0x662114cf50d942343f2cf1402eae38bfd3829f30512706d8c0471b4802639d2e9df8ac55447d3db723f5d3abb374e88deb14277970be1513278e993445f08cff98282e1fd947ce4b4ecdbd6e65c23395cacb544de69eea32

/-- The Taylor sum of e^y: y in units of 2^-320, the running term and sum in the same units. -/
def expTaylor (y : Nat) : (fuel n term sum : Nat) → Nat
  | 0, _, _, sum => sum
  | fuel + 1, n, term, sum =>
    let t := term * y / 2 ^ expPrec / n
    expTaylor y fuel (n + 1) t (sum + t)

/-- 2^f in units of 2^-320, for f in [0, 1) in the same units. -/
def exp2Frac (f : Nat) : Nat :=
  expTaylor (f * ln2Fix / 2 ^ expPrec) 80 1 (2 ^ expPrec) (2 ^ expPrec)

/-- A signed fixed-point number in units of 2^-p as its floor and its fraction in units of 2^-p. -/
def floorFrac (v : Int) (p : Nat) : Int × Nat := (v / 2 ^ p, (v % 2 ^ p).toNat)

/-- R68: 2^x of a finite value, rounded once.
Log entry 7, DEDUCED. -/
def exp2Fin (neg : Bool) (m : Nat) (e : Int) : Nat :=
  if m ≠ 0 && decide (9 < (Nat.log2 m : Int) + e) then
    -- beyond 2^9 in magnitude: overflow or below every subnormal
    (if neg then 0 else encodeF .f32 .rne false (.inf false))
  else
    let lo : Int := min e (-(expPrec : Int))
    let v := signedAt neg m e lo
    let p := (-lo).toNat
    let (n, f) := floorFrac v p
    if f = 0 then roundF .f32 .rne false false 1 n
    else roundF .f32 .rne false false (2 * exp2Frac (f / 2 ^ (p - expPrec)) + 1) (n - expPrec - 1)

/-- The series of 2 atanh t over its odd powers, in units of 2^-320: t2 is the square of t. -/
def atanhSeries (t2 : Nat) : (fuel n power sum : Nat) → Nat
  | 0, _, _, sum => sum
  | fuel + 1, n, power, sum => atanhSeries t2 fuel (n + 2) (power * t2 / 2 ^ expPrec) (sum + power / n)

/-- R68: log2 of a positive finite value, rounded once; exact for a power of two. -/
def log2Pos (m : Nat) (e : Int) : Nat :=
  let k := Nat.log2 m
  let n : Int := k + e
  if m = 2 ^ k then encodeF .f32 .rne false (ofIntScaled n 0)
  else
    let t := (m - 2 ^ k) * 2 ^ expPrec / (m + 2 ^ k)
    let ln := 2 * atanhSeries (t * t / 2 ^ expPrec) 110 1 t 0
    let frac := ln * 2 ^ expPrec / ln2Fix
    encodeF .f32 .rne false (ofIntScaled (2 * (n * 2 ^ expPrec + frac) + 1) (-(expPrec : Int) - 1))

/-- R68: VRCP. -/
def vrcpF (code : Nat) : Nat :=
  match decodeF .f32 code with
  | .nan => FFmt.nanCode .f32
  | .inf neg => signBit .f32 neg
  | .fin neg m e =>
    if m = 0 then encodeF .f32 .rne false (.inf neg) else roundRatio .f32 .rne false neg 1 m (-e)

/-- R68: VRSQ. -/
def vrsqF (code : Nat) : Nat :=
  match decodeF .f32 code with
  | .nan => FFmt.nanCode .f32
  | .inf neg => if neg then FFmt.nanCode .f32 else 0
  | .fin neg m e =>
    if m = 0 then encodeF .f32 .rne false (.inf neg)
    else if neg then FFmt.nanCode .f32
    else rsqrtPos m e

/-- R68: VEXP2. -/
def vexp2F (code : Nat) : Nat :=
  match decodeF .f32 code with
  | .nan => FFmt.nanCode .f32
  | .inf neg => if neg then 0 else 0x7F800000
  | .fin neg m e => exp2Fin neg m e

/-- R68: VLOG2. -/
def vlog2F (code : Nat) : Nat :=
  match decodeF .f32 code with
  | .nan => FFmt.nanCode .f32
  | .inf neg => if neg then FFmt.nanCode .f32 else 0x7F800000
  | .fin neg m e =>
    if m = 0 then 0xFF800000
    else if neg then FFmt.nanCode .f32
    else log2Pos m e

/-- The alternating series of the normal distribution: a is x*x/2 in units of 2^-704; the term is
x^(2n+1)/(n! 2^n) with its sign, divided by 2n+1 as it is added. -/
def phiSeries (a : Nat) : (fuel n : Nat) → (term sum : Int) → Int
  | 0, _, _, sum => sum
  | fuel + 1, n, term, sum =>
    phiSeries a fuel (n + 1) (-(term * a / 2 ^ 704 / (n + 1))) (sum + term / (2 * n + 1))

/-- The standard normal distribution function in units of 2^-704, for x in the same units with |x| < 16. -/
def phiFix (x : Int) : Int :=
  let a := (x * x / 2 ^ 705).toNat
  2 ^ 703 + phiSeries a 900 0 x 0 * invSqrt2PiFix / 2 ^ 704

/-- R86: gelu of a finite value: x times Phi(x), rounded once. -/
def geluFin (neg : Bool) (m : Nat) (e : Int) : Nat :=
  if m = 0 then signBit .f32 neg
  else if 4 ≤ (Nat.log2 m : Int) + e then
    (if neg then signBit .f32 true else roundF .f32 .rne false false m e)
  else
    let p := phiFix (signedAt neg m e (-704))
    roundF .f32 .rne false neg (m * (2 * p.toNat + 1)) (e - 705)

/-- R86: silu of a finite value: x / (1 + e^-x), rounded once. -/
def siluFin (neg : Bool) (m : Nat) (e : Int) : Nat :=
  if m = 0 then signBit .f32 neg
  else if 7 ≤ (Nat.log2 m : Int) + e then
    (if neg then signBit .f32 true else roundF .f32 .rne false false m e)
  else
    -- e^-x = 2^(n + f) with n + f = -x * log2 e
    let y : Int := -(signedAt neg m e (-448)) * log2eFix / 2 ^ 448
    let (n, f) := floorFrac y 448
    let ex := exp2Frac (f / 2 ^ 128)
    -- 1 + e^-x in units of 2^-640
    let den := 2 ^ 640 + (if 0 ≤ n then ex * 2 ^ 320 * 2 ^ n.toNat else ex * 2 ^ 320 / 2 ^ (-n).toNat)
    roundRatio .f32 .rne false neg (m * 2 ^ 640) den e

/-- R86, R313: the activation function of MEPI on an FP32 code: 0 none, 1 relu, 2 gelu, 3 silu. -/
def activate (act : Nat) (code : Nat) : Nat :=
  match act with
  | 1 =>
    (match decodeF .f32 code with
    | .nan => code
    | v => if (FVal.fin false 0 0).lt v then code else 0)
  | 2 =>
    (match decodeF .f32 code with
    | .nan => FFmt.nanCode .f32
    | .inf neg => if neg then signBit .f32 true else code
    | .fin neg m e => geluFin neg m e)
  | 3 =>
    (match decodeF .f32 code with
    | .nan => FFmt.nanCode .f32
    | .inf neg => if neg then signBit .f32 true else code
    | .fin neg m e => siluFin neg m e)
  | _ => code

end Sys2Proof.Machine
end

