-- ==== Sys2Proof/Machine/Lanes.lean ====
section
/-! DEFINITION. Format tags, the lanes of a vector register (03 R52, R53), element values and conversions
(R58, R59), lane arithmetic (R56), reduction trees (R66, R67) and the elementary lane functions. -/

namespace Sys2Proof.Machine

/-- A format tag code (R52). -/
abbrev Tag := BitVec 4

/-- R52: the lane width of a tag; 0 for NONE and the reserved codes. -/
def tagWidth (t : Tag) : Nat :=
  match t.toNat with
  | 1 | 8 | 11 => 32
  | 2 | 7 | 10 => 16
  | 3 | 4 | 5 | 6 | 9 => 8
  | 12 => 64
  | 13 => 1
  | _ => 0

/-- R52: the lane count of a tag. -/
def tagLanes (t : Tag) : Nat := if tagWidth t = 0 then 0 else 2048 / tagWidth t

/-- R47, R52: a two's-complement integer tag. -/
def tagSigned (t : Tag) : Bool := t == 6 || t == 7 || t == 8 || t == 12

/-- R47, R52: an unsigned (natural) tag. -/
def tagNat (t : Tag) : Bool := t == 9 || t == 10 || t == 11

/-- An integer or natural tag. -/
def tagInt (t : Tag) : Bool := tagSigned t || tagNat t

/-- F32 or BF16. -/
def tagFloat (t : Tag) : Bool := t == 1 || t == 2

/-- R55: the tags of VADD's group. -/
def tagArith (t : Tag) : Bool := tagFloat t || tagInt t

/-- The floating format of a tag. -/
def tagFmt (t : Tag) : Option FFmt :=
  match t.toNat with
  | 1 => some .f32
  | 2 => some .bf16
  | 3 => some .f8e4
  | 4 => some .f8e5
  | _ => none

/-- Two's-complement value of the low w bits. -/
def signedOf (w x : Nat) : Int := (BitVec.ofNat w x).toInt

/-- The low w bits of an integer. -/
def wrapTo (w : Nat) (v : Int) : Nat := (v % 2 ^ w).toNat

/-- R53: lane l of a register, lane width w. -/
def laneAt (w : Nat) (v : VBits) (l : Nat) : Nat := v.toNat / 2 ^ (w * l) % 2 ^ w

/-- R53: all lanes of a register. -/
def lanesOf (w : Nat) (v : VBits) : List Nat := (List.range (2048 / w)).map (laneAt w v)

/-- The number whose lanes, least significant first, are the list. -/
def packLanes (w : Nat) : List Nat → Nat
  | [] => 0
  | x :: xs => x % 2 ^ w + 2 ^ w * packLanes w xs

/-- R53: the register image of lanes; lanes left out are 0. -/
def ofLanes (w : Nat) (xs : List Nat) : VBits := BitVec.ofNat 2048 (packLanes w xs)

/-- R53, R377: the merge of a result into a register: enabled lanes take the new value. -/
def mergeBits (w : Nat) (k new old : VBits) : VBits :=
  ofLanes w ((List.range (2048 / w)).map fun l => if k.getLsbD l then laneAt w new l else laneAt w old l)

/-- R53: the bits of the lanes that a mask enables. -/
def laneMask (w : Nat) (k : VBits) : VBits :=
  if k = BitVec.allOnes 2048 then k
  else ofLanes w ((List.range (2048 / w)).map fun l => if k.getLsbD l then 2 ^ w - 1 else 0)

/-- The exact value of an element (R44-R51, R389: DP8 unscaled, integers exact). -/
def elemValue (t : Tag) (x : Nat) : FVal :=
  match tagFmt t with
  | some f => decodeF f x
  | none =>
    if t == 5 then decodeDp8 x
    else if tagSigned t then ofIntScaled (signedOf (tagWidth t) x) 0
    else .fin false (x % 2 ^ tagWidth t) 0

/-- R58: a conversion is narrowing unless every value of the source is exact in the target; no conversion to
F8E5 produces an infinity. -/
def narrowing (src dst : Tag) : Bool :=
  if dst == 1 then !(src == 1 || src == 2 || src == 3 || src == 4 || src == 5)
  else if dst == 2 then !(src == 2 || src == 3 || src == 4 || src == 5)
  else true

/-- The smallest and largest value of an integer or natural tag. -/
def intRange (t : Tag) : Int × Int :=
  let w := tagWidth t
  if tagSigned t then (-(2 ^ (w - 1) : Nat), (2 ^ (w - 1) : Nat) - 1) else (0, (2 ^ w : Nat) - 1)

/-- Clamp to a tag's range. -/
def clampTo (t : Tag) (v : Int) : Int := max (intRange t).1 (min (intRange t).2 v)

/-- R58, R59, R389: one element converted, with the NANINT flag.
Log entry 18, DEDUCED. -/
def convertElem (src : Tag) (x : Nat) (dst : Tag) (r : Rnd) : Nat × Bool :=
  let v := elemValue src x
  match tagFmt dst with
  | some f => (encodeF f r (match v with | .inf _ => narrowing src dst | _ => true) v, false)
  | none =>
    if dst == 5 then (encodeDp8 r v, false)
    else
      match v with
      | .nan => (0, true)
      | .inf neg => (wrapTo (tagWidth dst) (if neg then (intRange dst).1 else (intRange dst).2), false)
      | .fin neg m e => (wrapTo (tagWidth dst) (clampTo dst (roundInt r neg m e)), false)

/-- R56: a floating binary operation rounded once to the source format. -/
def floatOp (t : Tag) (r : Rnd) (f : FVal → FVal → FVal) (a b : Nat) : Nat :=
  match tagFmt t with
  | some fm => encodeF fm r false (f (decodeF fm a) (decodeF fm b))
  | none => 0

/-- VADD's lane function (R383, R66). -/
def laneAdd (t : Tag) (r : Rnd) (a b : Nat) : Nat :=
  if tagFloat t then floatOp t r (FVal.add r) a b else (a + b) % 2 ^ tagWidth t

/-- VSUB's lane function (R383). -/
def laneSub (t : Tag) (r : Rnd) (a b : Nat) : Nat :=
  if tagFloat t then floatOp t r (fun x y => FVal.add r x y.neg) a b
  else wrapTo (tagWidth t) ((a : Int) - b)

/-- VMUL's lane function (R383). -/
def laneMul (t : Tag) (r : Rnd) (a b : Nat) : Nat :=
  if tagFloat t then floatOp t r FVal.mul a b else a * b % 2 ^ tagWidth t

/-- The integer value of a lane under its tag. -/
def laneInt (t : Tag) (x : Nat) : Int := if tagSigned t then signedOf (tagWidth t) x else (x : Int)

/-- VMIN's lane function (R383, R56). -/
def laneMin (t : Tag) (a b : Nat) : Nat :=
  if tagFloat t then floatOp t .rne FVal.min a b else if laneInt t b < laneInt t a then b else a

/-- VMAX's lane function (R383, R56). -/
def laneMax (t : Tag) (a b : Nat) : Nat :=
  if tagFloat t then floatOp t .rne FVal.max a b else if laneInt t a < laneInt t b then b else a

/-- R393: a*b + c with one rounding; `np` negates the product and `nc` negates c. -/
def laneFma (t : Tag) (r : Rnd) (np nc : Bool) (a b c : Nat) : Nat :=
  match tagFmt t with
  | some fm =>
    let p := (decodeF fm a).mul (decodeF fm b)
    let p := if np then p.neg else p
    let c := decodeF fm c
    encodeF fm r false (FVal.add r p (if nc then c.neg else c))
  | none => 0

/-- R382: VABS. -/
def laneAbs (t : Tag) (x : Nat) : Nat :=
  match tagFmt t with
  | some fm => (match decodeF fm x with
    | .nan => fm.nanCode
    | _ => x % 2 ^ fm.signPos)
  | none => if tagSigned t then wrapTo (tagWidth t) (laneInt t x).natAbs else x

/-- R382: VNEG. -/
def laneNeg (t : Tag) (x : Nat) : Nat :=
  match tagFmt t with
  | some fm => (match decodeF fm x with
    | .nan => fm.nanCode
    | _ => (x + 2 ^ fm.signPos) % 2 ^ (fm.signPos + 1))
  | none => wrapTo (tagWidth t) (-(x : Int))

/-- R311, R387: VCMP's conditions. -/
def laneCmp (t : Tag) (cond : Nat) (a b : Nat) : Bool :=
  let x : FVal := if tagFloat t then elemValue t a else ofIntScaled (laneInt t a) 0
  let y : FVal := if tagFloat t then elemValue t b else ofIntScaled (laneInt t b) 0
  let un := x == .nan || y == .nan
  match cond with
  | 0 => x.eq y
  | 1 => !(x.eq y)
  | 2 => x.lt y
  | 3 => !un && !(y.lt x)
  | 4 => y.lt x
  | 5 => !un && !(x.lt y)
  | 6 => un
  | _ => !un

/-- R386: the class bit of a floating lane. -/
def laneClass (t : Tag) (x : Nat) : Nat :=
  match tagFmt t with
  | some fm => (match decodeF fm x with
    | .nan => 256
    | .inf neg => if neg then 1 else 128
    | .fin neg m _ =>
      if m = 0 then (if neg then 8 else 16)
      else if m < 2 ^ fm.fbits then (if neg then 4 else 32)
      else (if neg then 2 else 64))
  | none => 0

/-- R400: a lane times 2^n, rounded once. -/
def laneScale (t : Tag) (r : Rnd) (x n : Nat) : Nat :=
  match tagFmt t with
  | some fm => encodeF fm r false ((decodeF fm x).scale (signedOf (tagWidth t) n))
  | none => 0

/-- R190: the number of one bits below bit n. -/
def popCount (x : Nat) : (n : Nat) → Nat
  | 0 => 0
  | n + 1 => popCount x n + (if x.testBit n then 1 else 0)

/-- R94: the last three steps of the hash, modulo 2^64. -/
def mix64 (h : Nat) : Nat :=
  let h := (h ^^^ (h >>> 30)) * 0xBF58476D1CE4E5B9 % 2 ^ 64
  let h := (h ^^^ (h >>> 27)) * 0x94D049BB133111EB % 2 ^ 64
  h ^^^ (h >>> 31)

/-- R395: VHASH. -/
def laneHash (a b : Nat) : Nat := mix64 (a * 2 ^ 32 + b) / 2 ^ 32

/-- One level of the tree of R66: neighbours combined. -/
def pairUp {α : Type} (f : α → α → α) : List α → List α
  | a :: b :: xs => f a b :: pairUp f xs
  | xs => xs

/-- R66: the tree over a power-of-two list; `levels` is its binary logarithm. -/
def treeReduce {α : Type} (f : α → α → α) (dflt : α) : (levels : Nat) → List α → α
  | 0, xs => xs.headD dflt
  | n + 1, xs => treeReduce f dflt n (pairUp f xs)

/-- R66: the identity of VRMAX and VRMIN. -/
def extremeIdent (t : Tag) (forMax : Bool) : Nat :=
  match tagFmt t with
  | some fm => encodeF fm .rne false (.inf forMax)
  | none => wrapTo (tagWidth t) (if forMax then (intRange t).1 else (intRange t).2)

/-- R67: one step of the sweep: each i with (i+1) mod 2^(d+1) = 0 shifted by `off` takes its partner. -/
def scanUp (f : Nat → Nat → Nat) (d : Nat) (xs : List Nat) : List Nat :=
  (List.range xs.length).map fun i =>
    if (i + 1) % 2 ^ (d + 1) = 0 then f (xs.getD (i - 2 ^ d) 0) (xs.getD i 0) else xs.getD i 0

/-- R67: one step of the down-sweep. -/
def scanDown (f : Nat → Nat → Nat) (d : Nat) (xs : List Nat) : List Nat :=
  (List.range xs.length).map fun j =>
    if 2 ^ d ≤ j && (j - 2 ^ d + 1) % 2 ^ (d + 1) = 0 then f (xs.getD j 0) (xs.getD (j - 2 ^ d) 0)
    else xs.getD j 0

/-- R67: up-sweep over d = 0 .. m-1, then down-sweep over d = m-2 .. 0. -/
def scanSweep (f : Nat → Nat → Nat) (m : Nat) (xs : List Nat) : List Nat :=
  let up := (List.range m).foldl (fun xs d => scanUp f d xs) xs
  (List.range (m - 1)).reverse.foldl (fun xs d => scanDown f d xs) up

/-! ### Ranking (10 R184) -/

/-- R184: the fill value of an empty entry. -/
def fillValue (t : Tag) : Nat := if t == 1 then 0x7FC00000 else if t == 8 then 0x80000000 else 0

/-- R184: the index of an empty entry. -/
def emptyIndex : Nat := 0xFFFFFFFF

/-- R184: value a ranks strictly above value b under a tag. -/
def valueAbove (t : Tag) (a b : Nat) : Bool :=
  if t == 1 then
    match decodeF .f32 a, decodeF .f32 b with
    | .nan, _ => false
    | _, .nan => true
    | x, y => y.lt x
  else decide (laneInt t b < laneInt t a)

/-- R184: entry (value, index) a ranks strictly above entry b. -/
def entryAbove (t : Tag) (a b : Nat × Nat) : Bool :=
  if a.2 = emptyIndex then false
  else if b.2 = emptyIndex then true
  else valueAbove t a.1 b.1 || (!(valueAbove t b.1 a.1) && decide (a.2 < b.2))

/-- Insert an entry in rank order, after those that rank equal. -/
def insertRank (t : Tag) (x : Nat × Nat) : List (Nat × Nat) → List (Nat × Nat)
  | [] => [x]
  | y :: ys => if entryAbove t x y then x :: y :: ys else y :: insertRank t x ys

/-- Entries in the order of R184. -/
def rankSort (t : Tag) (xs : List (Nat × Nat)) : List (Nat × Nat) := xs.foldl (fun s x => insertRank t x s) []

/-- R185: a list of entries as value and index lanes, filled to 64. -/
def listLanes (t : Tag) (xs : List (Nat × Nat)) : List Nat × List Nat :=
  let fill := 64 - xs.length
  (xs.map (·.1) ++ List.replicate fill (fillValue t), xs.map (·.2) ++ List.replicate fill emptyIndex)

end Sys2Proof.Machine
end

