-- ==== Sys2Proof/Machine/Flurry.lean ====
section
/-! DEFINITION. The Flurry generator: hash, element values, rotary phases (03 R69-R72, 04 R92-R96) and the two
checksums (11 R223, R235). -/

namespace Sys2Proof.Machine

/-- R92: one generator register. -/
structure Gen where
  seed : Word
  scope : BitVec 32
  row0 : BitVec 32
  col0 : BitVec 32
  band : BitVec 32
  scale : BitVec 8
  kind : BitVec 3
  fmt : BitVec 2
  mix : Bool
  deriving DecidableEq, Repr

/-- R92: a generator at task start. -/
def Gen.start : Gen :=
  { seed := 0, scope := 0, row0 := 0, col0 := 0, band := 0, scale := 127, kind := 0, fmt := 0, mix := false }

/-- R94: the hash of a logical element. -/
def flurryHash (key scope row col : Nat) : Nat :=
  mix64 ((key ^^^ (scope * 0x9E3779B97F4A7C15 % 2 ^ 64)) ^^^ (row * 2 ^ 32 + col))

/-- R71: the phase power by binary digits of e. -/
def phasePow : (fuel e pw b : Nat) → Nat
  | 0, _, pw, _ => pw
  | fuel + 1, e, pw, b =>
    phasePow fuel (e / 2) (if e % 2 = 1 then pw * b / 2 ^ 32 else pw) (b * b / 2 ^ 32)

/-- R72: the constants A[k]. -/
def cordicA (k : Nat) : Int :=
  match k with
  | 0 => 0x3243F6A9
  | 1 => 0x1DAC6705
  | 2 => 0x0FADBAFD
  | 3 => 0x07F56EA7
  | 4 => 0x03FEAB77
  | 5 => 0x01FFD55C
  | 6 => 0x00FFFAAB
  | 7 => 0x007FFF55
  | 8 => 0x003FFFEB
  | 9 => 0x001FFFFD
  | k => 2 ^ (30 - k)

/-- R72: the CORDIC steps k .. 23. -/
def cordic : (fuel k : Nat) → (x y z : Int) → Int × Int
  | 0, _, x, y, _ => (x, y)
  | fuel + 1, k, x, y, z =>
    if 0 ≤ z then cordic fuel (k + 1) (x - y / 2 ^ k) (y + x / 2 ^ k) (z - cordicA k)
    else cordic fuel (k + 1) (x + y / 2 ^ k) (y - x / 2 ^ k) (z + cordicA k)

/-- R72: cosine (in units of 2^-30) and sine of a phase. -/
def phaseCosSin (phi : Nat) : Int × Int :=
  let z : Int := phi % 2 ^ 30 * 0x6487ED51 / 2 ^ 30
  let (x, y) := cordic 24 0 0x26DD3B6A 0 z
  match phi / 2 ^ 30 % 4 with
  | 0 => (x, y)
  | 1 => (-y, x)
  | 2 => (-x, -y)
  | _ => (y, -x)

/-- R70: the Gaussian value of a hash. -/
def gaussValue (h : Nat) : FVal :=
  let s : Int := (h % 65536 + h / 2 ^ 16 % 65536 + h / 2 ^ 32 % 65536 + h / 2 ^ 48 % 65536 : Nat)
  let p := (s - 131072) * 113512
  (decodeF .f32 (encodeF .f32 .rne false (ofIntScaled p 0))).scale (-32)

/-- R69, R71, R94: the exact value of a generator at logical element (i, j); the key is the stream key. -/
def genExact (g : Gen) (key : Word) (i j : Nat) : FVal :=
  let row := (i + g.row0.toNat) % 2 ^ 32
  let col := (j + g.col0.toNat) % 2 ^ 32
  let h := flurryHash (if g.mix then g.seed ^^^ key else g.seed).toNat g.scope.toNat row col
  match g.kind.toNat with
  | 0 => .fin (decide (2 ^ 63 ≤ h)) 1 0
  | 1 => .fin false (h / 2 ^ 48) (-16)
  | 2 => gaussValue h
  | 3 | 4 =>
    let w0 := g.seed.toNat % 2 ^ 32
    let qr := g.seed.toNat / 2 ^ 32
    let wq := w0 * phasePow 32 (col / 2) (2 ^ 32) qr / 2 ^ 32
    let cs := phaseCosSin (row * wq % 2 ^ 32)
    ofIntScaled (if g.kind = 3 then cs.1 else cs.2) (-30)
  | 5 => .fin false (if col ≤ row then 1 else 0) 0
  | _ => .fin false (if col ≤ row ∧ row - col < g.band.toNat then 1 else 0) 0

/-- R92, R97: the tag of a generator's output format. -/
def genTag (g : Gen) : Tag :=
  match g.fmt.toNat with
  | 0 => 3
  | 1 => 2
  | _ => 1

/-- R96: the matrix format code of a generator's FMT. -/
def genCode (g : Gen) : Nat :=
  match g.fmt.toNat with
  | 0 => 0
  | 1 => 3
  | _ => 4

/-- R69: the element a generator gives, as a code of its output format. -/
def genElem (g : Gen) (key : Word) (i j : Nat) : Nat :=
  let f : FFmt := match g.fmt.toNat with
    | 0 => .f8e4
    | 1 => .bf16
    | _ => .f32
  if g.scale = 255 then f.nanCode
  else encodeF f .rne true ((genExact g key i j).scale ((g.scale.toNat : Int) - 127))

/-- R235: CRC-64, polynomial 0x42F0E1EBA9EA3693, unreflected: eight bit steps. -/
def crc64Bits : (n : Nat) → Nat → Nat
  | 0, c => c
  | n + 1, c => crc64Bits n (if 2 ^ 63 ≤ c then (c * 2 % 2 ^ 64) ^^^ 0x42F0E1EBA9EA3693 else c * 2)

/-- R235: the digest over bytes. -/
def crc64 (c : Nat) (bs : List Byte) : Nat :=
  bs.foldl (fun c b => crc64Bits 8 (c ^^^ (b.toNat * 2 ^ 56))) c

/-- R223: CRC-32 with a reflected polynomial: eight bit steps. -/
def crc32Bits : (n : Nat) → Nat → Nat
  | 0, c => c
  | n + 1, c => crc32Bits n (if c % 2 = 1 then (c / 2) ^^^ 0xEDB88320 else c / 2)

/-- R223: the running CRC-32 over bytes; it starts at 0xFFFFFFFF, and `crc32End` closes it. -/
def crc32 (c : Nat) (bs : List Byte) : Nat := bs.foldl (fun c b => crc32Bits 8 (c ^^^ b.toNat)) c

/-- R223: the value of a running CRC-32. -/
def crc32End (c : Nat) : Nat := c ^^^ 0xFFFFFFFF

end Sys2Proof.Machine
end

