-- ==== Sys2Proof/Machine/Profiles.lean ====
section
/-! DEFINITION. The numerics profiles NP1 to NP6 (03 R61-R65), their format pairs (04 R73, R74), the sums of MRED
(R88) and the epilogue of one element (R86). -/

namespace Sys2Proof.Machine

/-- The 256 words of 32 bits of an accumulator row. -/
abbrev AccRow := BitVec 8192

/-- Column j of an accumulator row. -/
def accCol (r : AccRow) (j : Nat) : Nat := r.toNat / 2 ^ (32 * j) % 2 ^ 32

/-- An accumulator row of its columns. -/
def accOf (xs : List Nat) : AccRow := BitVec.ofNat 8192 (packLanes 32 xs)

/-- R73: the tag of the elements of a matrix format code. -/
def codeTag (c : Nat) : Tag :=
  match c with
  | 0 | 5 => 3
  | 1 | 6 => 4
  | 2 => 6
  | 3 => 2
  | 4 => 1
  | 7 => 5
  | _ => 0

/-- R73: lines of a weight row. -/
def weightLines (c : Nat) : Nat := if c = 4 then 4 else 2

/-- R73: lines of an activation row. -/
def actLines (c : Nat) : Nat := if c = 3 then 2 else if c = 4 then 4 else 1

/-- R73: bytes of an element. -/
def codeBytes (c : Nat) : Nat := if c = 3 then 2 else if c = 4 then 4 else 1

/-- R73: codes 5 to 7 carry block scales. -/
def codeScaled (c : Nat) : Bool := c == 5 || c == 6 || c == 7

/-- R74: the pairs of weight and activation code that a profile accepts. -/
def pairOk (np w a : Nat) : Bool :=
  match np with
  | 1 => (w == 0 || w == 1 || w == 5 || w == 6) && (a == 0 || a == 1 || a == 5 || a == 6)
  | 2 => w == 7 && (a == 0 || a == 2 || a == 5)
  | 3 => w == 3 && a == 3
  | 4 => w == 2 && a == 2
  | 5 => w == 4 && a == 4
  | 6 => (w == 0 || w == 1) && (a == 0 || a == 1)
  | _ => false

/-- R74: the columns a profile writes. -/
def profileCols (np : Nat) : Nat := if np = 3 ∨ np = 5 then 128 else 256

/-- R74: the tile tag of a profile: I32 for NP4, F32 for the others. -/
def profileTag (np : Nat) : Tag := if np = 4 then 8 else 1

/-- R62: the window sum of exact products. -/
def windowSum (off : Nat) (ps : List FVal) : FVal :=
  let top := ps.foldl (fun (t : Option Int) p =>
    match p with
    | .fin _ m e =>
      if m = 0 then t
      else
        let x : Int := (Nat.log2 m : Int) + e
        some (match t with
          | none => x
          | some y => max x y)
    | _ => t) none
  match top with
  | none => .fin false 0 0
  | some e0 =>
    let lsb := e0 - off
    let s : Int := ps.foldl (fun acc p =>
      match p with
      | .fin neg m e =>
        let q : Int := if lsb ≤ e then (m * 2 ^ (e - lsb).toNat : Nat) else (m / 2 ^ (lsb - e).toNat : Nat)
        if neg then acc - q else acc + q
      | _ => acc) 0
    ofIntScaled s lsb

/-- R65: the value of a group before its scales. -/
def groupValue (off : Nat) (ps : List FVal) : FVal :=
  let pos := ps.any (· == .inf false)
  let neg := ps.any (· == .inf true)
  if ps.any (· == .nan) || (pos && neg) then .nan
  else if pos then .inf false
  else if neg then .inf true
  else windowSum off ps

/-- R65: a value times an E8M0 scale; 0xFF is NaN. -/
def timesScale (v : FVal) (s : Nat) : FVal := if s = 255 then .nan else v.scale ((s : Int) - 127)

/-- R63: an FP32 addition rounded to nearest even. -/
def addRne (a b : Nat) : Nat := laneAdd 1 .rne a b

/-- R63: the tree of group values: neighbours, then neighbours of those. -/
def groupTree (levels : Nat) (gs : List Nat) : Nat := treeReduce addRne 0 levels gs

/-- R64: part 0 (hi), 1 (mid) or 2 (lo) of an FP32 element, as a BF16 code. -/
def splitPart (part code : Nat) : Nat :=
  match decodeF .f32 code with
  | .fin neg m e =>
    let x : FVal := .fin neg m e
    let hi := encodeF .bf16 .rtz true x
    let r1 := FVal.add .rne x (decodeF .bf16 hi).neg
    let mid := encodeF .bf16 .rtz true r1
    let r2 := FVal.add .rne r1 (decodeF .bf16 mid).neg
    (match part with
    | 0 => hi
    | 1 => mid
    | _ => encodeF .bf16 .rne true r2)
  | v => if part = 0 then encodeF .bf16 .rne false v else 0

/-- R64: a non-finite FP32 element. -/
def nonFinite (code : Nat) : Bool := code / 2 ^ 23 % 256 == 255

/-- The operands of one output element: weight and activation codes along k, and the scales of a block. -/
structure DotIn where
  w : List Nat
  a : List Nat
  ws : List Nat
  as : List Nat
  deriving DecidableEq, Repr

/-- R63, R65: the products of one weight and activation pair; DP8 weights give two terms. -/
def products (wcode acode : Nat) (w a : Nat) : List FVal :=
  let av := elemValue (codeTag acode) a
  if wcode = 7 then
    match decodeDp8 w with
    | .nan => [.nan]
    | _ => [av.mul (ofIntScaled (dp8Term (w / 128 % 2) (w / 16 % 8)) (-6)),
            av.mul (ofIntScaled (dp8Term (w / 8 % 2) (w % 8)) (-6))]
  else [(elemValue (codeTag wcode) w).mul av]

/-- A list cut into groups of n. -/
def chunks {α : Type} (n : Nat) : (fuel : Nat) → List α → List (List α)
  | 0, _ => []
  | fuel + 1, xs => if xs.isEmpty then [] else xs.take n :: chunks n fuel (xs.drop n)

/-- R63: the group values of a floating profile, each rounded to FP32. -/
def groupVals (n off wcode acode : Nat) (d : DotIn) : List Nat :=
  let gs := (chunks n 128 (List.zip d.w d.a)).map fun g => groupValue off (g.flatMap fun p => products wcode acode p.1 p.2)
  (List.range gs.length).map fun b =>
    let v := gs.getD b .nan
    let v := if codeScaled wcode then timesScale v (d.ws.getD b 0) else v
    let v := if codeScaled acode then timesScale v (d.as.getD b 0) else v
    encodeF .f32 .rne false v

/-- R63, R64: one NP3 accumulation of BF16 parts; `masked` counts non-finite FP32 elements as +0. -/
def np3Pass (wp ap : Nat) (masked : Bool) (d : DotIn) (acc : Nat) : Nat :=
  let part (p x : Nat) : Nat := if masked && nonFinite x then 0 else splitPart p x
  let d' : DotIn := { d with w := d.w.map (part wp), a := d.a.map (part ap) }
  addRne acc (groupTree 3 (groupVals 16 42 3 3 d'))

/-- R64: the passes of NP5 in order. -/
def np5Passes : List (Nat × Nat × Bool) :=
  [(0, 0, false), (0, 1, true), (1, 0, true), (0, 2, true), (2, 0, true), (1, 1, true)]

/-- R63: the value an accumulator element takes from one pass, with the NP4 clamp. -/
def profileElem (np wcode acode : Nat) (d : DotIn) (acc : Nat) : Nat × Bool :=
  match np with
  | 1 => (addRne acc (groupTree 2 (groupVals 32 57 wcode acode d)), false)
  | 2 => (addRne acc (groupTree 2 (groupVals 32 56 wcode acode d)), false)
  | 3 => (addRne acc (groupTree 3 (groupVals 16 42 3 3 d)), false)
  | 4 =>
    let s : Int := (List.zip d.w d.a).foldl (fun s p => s + signedOf 8 p.1 * signedOf 8 p.2) 0
    let v := signedOf 32 acc + s
    (wrapTo 32 (clampTo 8 v), v != clampTo 8 v)
  | 5 => (np5Passes.foldl (fun acc p => np3Pass p.1 p.2.1 p.2.2 d acc) acc, false)
  | _ =>
    let g := groupValue 87 ((List.zip d.w d.a).flatMap fun p => products wcode acode p.1 p.2)
    (encodeF .f32 .rne false (FVal.add .rne (decodeF .f32 acc) g), false)

/-- R82: the state of an NP5 element after its first n passes. -/
def np5After (n : Nat) (d : DotIn) (acc : Nat) : Nat :=
  (np5Passes.take n).foldl (fun acc p => np3Pass p.1 p.2.1 p.2.2 d acc) acc

/-- R88: the sum of MRED over the four cell positions, with the I32 clamp. -/
def mredElem (t : Tag) (c0 c1 c2 c3 : Nat) : Nat × Bool :=
  if t == 1 then (addRne (addRne c0 c1) (addRne c2 c3), false)
  else
    let a := signedOf 32 c0 + signedOf 32 c1
    let b := signedOf 32 c2 + signedOf 32 c3
    let s := clampTo 8 a + clampTo 8 b
    (wrapTo 32 (clampTo 8 s), a != clampTo 8 a || b != clampTo 8 b || s != clampTo 8 s)

/-- R86: one element of the epilogue: tile tag, code, optional scale and bias, activation, output tag. -/
def epilogueElem (tile : Tag) (x : Nat) (param : Option (Nat × Nat)) (act : Nat) (out : Tag) : Nat × Bool :=
  let plainInt := tile == 8 && param.isNone && act == 0 && !((tagFmt out).isSome)
  if plainInt then convertElem 8 x out .rne
  else
    let x := if tile == 8 then (convertElem 8 x 1 .rne).1 else x
    let x := match param with
      | some (sc, bi) => laneFma 1 .rne false false x sc bi
      | none => x
    convertElem 1 (activate act x) out .rne

end Sys2Proof.Machine
end

