-- ==== Sys2Proof/Syntax.lean ====
section
/-! DEFINITION. The instruction set: operand fields of the six formats, the data an agent's step carries,
and `Instr`, with one constructor for each row of the opcode table. -/

namespace Sys2Proof

/-- S format, register form: sd, sa, sb and the guard or selector field (18 R293). -/
structure SOp where
  d : BitVec 6
  a : BitVec 6
  b : BitVec 6
  g : BitVec 4
  deriving DecidableEq, Repr

/-- S format, immediate form (18 R293). -/
structure SImm where
  d : BitVec 6
  a : BitVec 6
  imm : BitVec 10
  deriving DecidableEq, Repr

/-- L format, imm19 layout (18 R295). -/
structure LImm where
  g : BitVec 4
  imm : BitVec 19
  deriving DecidableEq, Repr

/-- L format, sa layout (18 R295). -/
structure LReg where
  g : BitVec 4
  a : BitVec 6
  imm : BitVec 13
  deriving DecidableEq, Repr

/-- X format (18 R294). -/
structure XOp where
  d : BitVec 6
  a : BitVec 6
  g : BitVec 4
  sub : BitVec 6
  imm : BitVec 32
  deriving DecidableEq, Repr

/-- V format (18 R296). -/
structure VOp where
  vd : BitVec 9
  w : Bool
  g : BitVec 4
  km : BitVec 3
  ha : Bool
  hb : Bool
  hc : Bool
  a : BitVec 10
  b : BitVec 10
  c : BitVec 10
  rnd : BitVec 2
  deriving DecidableEq, Repr

/-- M format (18 R298). `gen?` is the G bit. -/
structure MOp where
  np : BitVec 4
  acc : BitVec 3
  plane : BitVec 2
  mode : BitVec 3
  g : BitVec 4
  sn : BitVec 6
  line : BitVec 16
  useGen : Bool
  gen : BitVec 3
  t : Bool
  rows : BitVec 8
  rsv : BitVec 3
  deriving DecidableEq, Repr

/-- C format (18 R299). -/
structure COp where
  data : BitVec 9
  sa : BitVec 6
  cb : BitVec 3
  g : BitVec 4
  fmt : BitVec 4
  hint : BitVec 2
  scope : BitVec 3
  sb : BitVec 6
  imm : BitVec 17
  deriving DecidableEq, Repr

/-- Kinds of record that fault a barrier (05 R114, R115). -/
inductive RecKind where
  | translation | protection | uncorrectable
  deriving DecidableEq, Repr

/-- A tagged message (08 R152). -/
structure Message where
  tag : BitVec 48
  dest : BitVec 8
  payload : Word
  rtag : BitVec 48
  rdest : BitVec 8
  deriving DecidableEq, Repr

/-- An XROUTE on a link (10 R198, 14 R253): the number its sender knows it by, the expert, and its rows. -/
structure Route where
  id : Nat
  expert : Nat
  n : Nat
  rowBytes : Nat
  rows : List (BitVec 8)
  deriving DecidableEq, Repr

/-- What a flit carries for this device (14 R247): its type, whether the CRC holds, its sequence number, its clock
deltas, the message of a message flit, the channel and bytes of the send that a data flit completes, the channel and
length of the receive that a credit flit announces, the channel on which the last line of a send of this device has
landed (R251), an XROUTE that a data flit completes, and the answer to one of this device: RESULT, or a fault (R253). -/
structure Flit where
  type : BitVec 8
  crcOk : Bool
  seq : Nat
  deltas : List (Nat × Nat)
  msg : Option Message
  link : Option (Nat × List (BitVec 8))
  credit : Option (Nat × Nat)
  landed : Option Nat := none
  route : Option Route := none
  answer : Option (Nat × Option (BitVec 64)) := none
  deriving DecidableEq, Repr

/-- A write that left another die, with the clock it carries (06 R142). -/
structure StampedWrite where
  stamp : List Nat
  source : Nat
  addr : Nat
  bytes : List Byte
  deriving DecidableEq, Repr

/-- Where an error was detected, as a machine-check bank records it (11 R228). -/
structure ErrorSite where
  bank : Nat
  unit : BitVec 7
  addr : Word
  synd : BitVec 16
  deriving DecidableEq, Repr

/-- Who consumed an uncorrectable word (11 R226). -/
inductive Consumer where
  | primary (core : Nat)
  | drift (core thread : Nat)
  | engine (op : Nat)
  | moraine (task : Nat)
  deriving DecidableEq, Repr

/-- A host or guest access over a coherent port (14 R244, R261, R263). -/
inductive Coherent where
  | read (addr len : Nat)
  | write (addr : Nat) (bytes : List Byte)
  | invalidate (addr : Nat)
  deriving DecidableEq, Repr


/-- An instruction of the S960, or one step of the part's own agents: one constructor for each row of
the opcode table, in its order. -/
inductive Instr where
  -- S class (19 R306)
  /-- R368: No operation that leaves the scalar slot announced to the drift threads. -/
  | nop
  /-- R368: No operation that withholds the scalar slot from the drift threads. -/
  | nopW
  /-- R317: Scalar add modulo 2^64, landing at issue+1. -/
  | add (o : SOp)
  /-- R317: Scalar subtract modulo 2^64. -/
  | sub (o : SOp)
  /-- R317: Low 64 bits of the product, latency 3. -/
  | mul (o : SOp)
  /-- R317: High 64 bits of the signed 128-bit product. -/
  | mulh (o : SOp)
  /-- R317: High 64 bits of the unsigned 128-bit product. -/
  | mulhn (o : SOp)
  /-- R317: Signed quotient rounded toward zero, latency 20, no fault on zero divisor. -/
  | div (o : SOp)
  /-- R317: Unsigned quotient, latency 20. -/
  | divn (o : SOp)
  /-- R317: Signed minimum. -/
  | min_ (o : SOp)
  /-- R317: Signed maximum. -/
  | max_ (o : SOp)
  /-- R317: Unsigned minimum. -/
  | minn (o : SOp)
  /-- R317: Unsigned maximum. -/
  | maxn (o : SOp)
  /-- R317: Bitwise AND. -/
  | and_ (o : SOp)
  /-- R317: Bitwise OR. -/
  | or_ (o : SOp)
  /-- R317: Bitwise XOR. -/
  | xor_ (o : SOp)
  /-- R317: Shift left by s[sb][5:0]. -/
  | shl (o : SOp)
  /-- R317: Logical shift right by s[sb][5:0]. -/
  | shr (o : SOp)
  /-- R317: Arithmetic shift right by s[sb][5:0]. -/
  | sar (o : SOp)
  /-- R327: Count leading zero bits of s[sa]. -/
  | clz (o : SOp)
  /-- R327: Count one bits of s[sa]. -/
  | popc (o : SOp)
  /-- R372: Select s[sa] or s[sb] by a predicate selector; always writes sD. -/
  | sel (o : SOp)
  /-- R327: Copy s[sa] to sD. -/
  | mov (o : SOp)
  /-- R328: Compare two scalars under a condition and write a predicate (and its complement for p1-p7). -/
  | cmp (o : SOp)
  /-- R362: Predicate AND. -/
  | pand (o : SOp)
  /-- R362: Predicate OR. -/
  | por (o : SOp)
  /-- R362: Predicate XOR. -/
  | pxor (o : SOp)
  /-- R362: Predicate pA AND NOT pB. -/
  | pandn (o : SOp)
  /-- R362: Copy a predicate. -/
  | movp (o : SOp)
  /-- R362: Set a predicate to s[sa] != 0. -/
  | setp (o : SOp)
  /-- R318: Add a sign-extended 10-bit immediate. -/
  | addi (o : SImm)
  /-- R318: AND with a sign-extended immediate. -/
  | andi (o : SImm)
  /-- R318: OR with a sign-extended immediate. -/
  | ori (o : SImm)
  /-- R318: XOR with a sign-extended immediate. -/
  | xori (o : SImm)
  /-- R318: Shift left by an immediate 0 to 63. -/
  | shli (o : SImm)
  /-- R318: Logical shift right by an immediate 0 to 63. -/
  | shri (o : SImm)
  /-- R318: Arithmetic shift right by an immediate 0 to 63. -/
  | sari (o : SImm)
  /-- R318: Load a sign-extended 10-bit immediate. -/
  | movi (o : SImm)
  /-- R328: Predicate from signed equality with an immediate. -/
  | cmpeqi (o : SImm)
  /-- R328: Predicate from signed less-than an immediate. -/
  | cmplti (o : SImm)
  /-- R328: Predicate from signed less-or-equal an immediate. -/
  | cmplei (o : SImm)
  /-- R328: Predicate from unsigned less-than a sign-extended immediate. -/
  | cmpltni (o : SImm)
  -- L class (19 R309)
  /-- R325: PC-relative branch with one delay bundle. -/
  | br (o : LImm)
  /-- R325: Register-indirect branch to s[sa] + 4*imm13. -/
  | bri (o : LReg)
  /-- R325: Branch to a branch-target register. -/
  | brb (o : LReg)
  /-- R325: PC-relative call linking into s62 (d30 in drift code). -/
  | call (o : LImm)
  /-- R325: Return to s62 (d30 in drift code). -/
  | ret (o : LReg)
  /-- R347: Start a hardware-pipelined loop with trip count, stages and kernel length. -/
  | loop (o : LReg)
  /-- R346: Pin the following n bundles into the loop buffer. -/
  | lmark (o : LImm)
  /-- R379: End the task: land results, wait on barriers, implicit TRET, free the bank. -/
  | taskend (o : LImm)
  /-- R403: Yield the core to the other bank's ready task, draining and switching. -/
  | yield (o : LImm)
  -- X class (19 R308)
  /-- R319: Load a sign-extended 32-bit immediate. -/
  | movl (o : XOp)
  /-- R319: Set bits 63:32 of sD, keeping bits 31:0. -/
  | movh (o : XOp)
  /-- R319: Add a sign-extended 32-bit immediate. -/
  | addl (o : XOp)
  /-- R344: Validate a tensor descriptor and write it into the bank's tensor table. -/
  | ldt (o : XOp)
  /-- R350: Multi-way branch on four tested predicates with leaf guards. -/
  | mbr (o : XOp)
  /-- R356: Read a system register into sD at issue+2. -/
  | mfsr (o : XOp)
  /-- R356: Write a system register, effective from issue+2. -/
  | mtsr (o : XOp)
  /-- R380: Take a trap with a code: freeze, write frame, enter the handler at TVEC. -/
  | trap (o : XOp)
  /-- R334: Return from a handler, restoring the frame and replaying Rime entries. -/
  | eret (o : XOp)
  /-- R326: Guarded-mode checkpoint: release held writes and re-arm shadow state. -/
  | ckpt (o : XOp)
  /-- R332: Fold a scalar into the task's audit digest. -/
  | digest (o : XOp)
  /-- R340: Request more vector units or accumulator tiles for the bank. -/
  | grow (o : XOp)
  /-- R340: Release vector units or accumulator tiles from the bank. -/
  | shrink (o : XOp)
  /-- R320: Send an arm block to the hub to arm a launch slot. -/
  | arm (o : XOp)
  /-- R320: Disarm a launch slot, dropping its queued fires. -/
  | disarm (o : XOp)
  /-- R329: Update a launch condition word as a release at DEVICE scope. -/
  | condw (o : XOp)
  /-- R381: Retire the task's outputs, marking undeclared output units. -/
  | tret (o : XOp)
  /-- R333: Start a drift thread at a label. -/
  | dstart (o : XOp)
  /-- R333: Stop the issuing drift thread. -/
  | dstop (o : XOp)
  /-- R338: Set one field of a Flurry generator register. -/
  | genset (o : XOp)
  /-- R373: Start logic BIST and/or march test of a cell. -/
  | selftest (o : XOp)
  -- V class (19 R310)
  /-- R383: Lane-wise add. -/
  | vadd (o : VOp)
  /-- R383: Lane-wise subtract. -/
  | vsub (o : VOp)
  /-- R383: Lane-wise multiply. -/
  | vmul (o : VOp)
  /-- R393: Fused a*b+c with one rounding. -/
  | vfma (o : VOp)
  /-- R393: Fused a*b-c with one rounding. -/
  | vfms (o : VOp)
  /-- R393: Fused -(a*b)+c with one rounding. -/
  | vfnma (o : VOp)
  /-- R383: Lane-wise minimum. -/
  | vmin (o : VOp)
  /-- R383: Lane-wise maximum. -/
  | vmax (o : VOp)
  /-- R382: Lane-wise absolute value. -/
  | vabs (o : VOp)
  /-- R382: Lane-wise negation. -/
  | vneg (o : VOp)
  /-- R384: Bitwise AND of vectors. -/
  | vand (o : VOp)
  /-- R384: Bitwise OR of vectors. -/
  | vor (o : VOp)
  /-- R384: Bitwise XOR of vectors. -/
  | vxor (o : VOp)
  /-- R399: Lane-wise shift left. -/
  | vshl (o : VOp)
  /-- R399: Lane-wise logical shift right. -/
  | vshr (o : VOp)
  /-- R399: Lane-wise arithmetic shift right. -/
  | vsar (o : VOp)
  /-- R387: Lane-wise compare into a mask register. -/
  | vcmp (o : VOp)
  /-- R401: Select lanes of A or B by a mask. -/
  | vsel (o : VOp)
  /-- R385: Vector move. -/
  | vmov (o : VOp)
  /-- R385: Broadcast lane 0 to every lane. -/
  | vbcast (o : VOp)
  /-- R385: Write lane indices as N32. -/
  | viota (o : VOp)
  /-- R396: Permute lanes by an index vector. -/
  | vperm (o : VOp)
  /-- R396: Slide lanes by a scalar count. -/
  | vslide (o : VOp)
  /-- R389: Convert lanes to a target tag with rounding and saturation. -/
  | vcvt (o : VOp)
  /-- R195: Quantise 256 elements to F8E4 with E8M0 block scales. -/
  | vqnt (o : VOp)
  /-- R391: Dequantise F8 elements with block scales into four F32 registers. -/
  | vdqnt (o : VOp)
  /-- R400: Multiply lanes by a power of two. -/
  | vscl (o : VOp)
  /-- R392: Correctly rounded reciprocal. -/
  | vrcp (o : VOp)
  /-- R392: Correctly rounded reciprocal square root. -/
  | vrsq (o : VOp)
  /-- R392: Correctly rounded 2^x. -/
  | vexp2 (o : VOp)
  /-- R392: Correctly rounded log2 x. -/
  | vlog2 (o : VOp)
  /-- R397: Fixed-tree sum reduction into lane 0. -/
  | vrsum (o : VOp)
  /-- R397: Fixed-tree maximum reduction. -/
  | vrmax (o : VOp)
  /-- R397: Fixed-tree minimum reduction. -/
  | vrmin (o : VOp)
  /-- R397: Inclusive prefix sum by a fixed sweep. -/
  | vscan (o : VOp)
  /-- R388: Sort lanes with indices under the total order. -/
  | vsort (o : VOp)
  /-- R388: Select the top k lanes with indices and sums. -/
  | vtopk (o : VOp)
  /-- R388: Merge two top-k lists keeping the first k. -/
  | vmergek (o : VOp)
  /-- R388: Compact lanes above a threshold with their indices and count. -/
  | vcomp (o : VOp)
  /-- R190: Population count per lane or over a mask. -/
  | vpopc (o : VOp)
  /-- R396: Shift lanes up one and insert a scalar in lane 0. -/
  | vmovs (o : VOp)
  /-- R395: Per-lane 64-bit mix hash of two 32-bit values. -/
  | vhash (o : VOp)
  /-- R394: Place Flurry generator values in a vector register. -/
  | vgen (o : VOp)
  /-- R386: Classify floating lanes into one-hot class bits. -/
  | vclass (o : VOp)
  /-- R398: Round floating lanes to integral values. -/
  | vrnd (o : VOp)
  /-- R390: Replace a register's tag without changing bits. -/
  | vtag (o : VOp)
  -- M class (19 R312)
  /-- R358: Load the shadow weight plane from scratchpad or a generator. -/
  | mldw (o : MOp)
  /-- R355: Exchange front and shadow weight planes. -/
  | mflip (o : MOp)
  /-- R360: Stream activation rows past the front plane, accumulating into a tile. -/
  | mmul (o : MOp)
  /-- R360: Stream activation rows into a tile starting from zero. -/
  | mmulz (o : MOp)
  /-- R349: Set ROWB, the straddle row boundary. -/
  | mbnd (o : MOp)
  /-- R353: Convert accumulator rows with scale, bias and activation and write scratchpad. -/
  | mepi (o : MOp)
  /-- R363: Read 64 columns of an accumulator row into a vector register. -/
  | mrda (o : MOp)
  /-- R363: Write a vector register into 64 columns of an accumulator row. -/
  | mwra (o : MOp)
  /-- R367: Zero an accumulator tile and set its tag. -/
  | mzero (o : MOp)
  /-- R364: Reduce the tiles of a cell into position 0 in fixed order. -/
  | mred (o : MOp)
  -- C class (19 R314)
  /-- R342: Scalar load of a tagged width. -/
  | ld (o : COp)
  /-- R342: Scalar store of a tagged width. -/
  | st (o : COp)
  /-- R345: Load 256 bytes into a vector register, setting its tag. -/
  | ldv (o : COp)
  /-- R345: Store a vector register after checking its tag. -/
  | stv (o : COp)
  /-- R337: Gather 64 four-byte granules by index. -/
  | gath (o : COp)
  /-- R337: Scatter 64 four-byte granules by index. -/
  | scat (o : COp)
  /-- R330: Start an engine copy between scratchpad and tensor or flat memory. -/
  | cpy (o : COp)
  /-- R331: Wait on a completion barrier, freezing the engines, raising its fault. -/
  | cpyw (o : COp)
  /-- R351: Read global lines once and deliver them to several cores of the die. -/
  | mcast (o : COp)
  /-- R369: Pin a range of local-store lines as scratchpad. -/
  | pin (o : COp)
  /-- R369: Release pinned lines of the bank. -/
  | unpin (o : COp)
  /-- R321: Indivisible read-modify-write on a 64- or 32-bit word. -/
  | atom (o : COp)
  /-- R336: Write a flag word, optionally as a release. -/
  | flagw (o : COp)
  /-- R336: Read a flag word, optionally as an acquire. -/
  | flagr (o : COp)
  /-- R335: Release, acquire or both at a scope. -/
  | fence (o : COp)
  /-- R322: Counting rendezvous: release, atomic add, wait for a count, acquire. -/
  | barr (o : COp)
  /-- R366: Send a tagged message as a release. -/
  | msend (o : COp)
  /-- R348: Post a link send on a port and channel. -/
  | lsend (o : COp)
  /-- R348: Post a link receive on a port and channel. -/
  | lrecv (o : COp)
  /-- R348: Post a link receive that adds incoming elements into local FP32 words. -/
  | lradd (o : COp)
  /-- R374: Start a Moraine subscription walk filling ring slots. -/
  | subs (o : COp)
  /-- R374: Free a subscription slot or release an output unit for pull. -/
  | slotdn (o : COp)
  /-- R323: Start a base-die fixed-tree reduction of N buffers with a completion flag. -/
  | bdred (o : COp)
  /-- R324: Start base-die top-k gate selection with softmax weights. -/
  | bdtopk (o : COp)
  /-- R402: Send token rows to an expert's home receive area, possibly firing its launch. -/
  | xroute (o : COp)
  /-- R339: Post a 64-byte packet to a guest queue. -/
  | gpost (o : COp)
  /-- R371: Prefetch a global line into L2 or the drift cache. -/
  | pref (o : COp)
  /-- R341: Write back modified lines of the core's caches. -/
  | wbl (o : COp)
  /-- R341: Write back and invalidate lines of the core's caches. -/
  | invl (o : COp)
  -- steps of the other agents (95)
  /-- R16: An exposed result lands in its register and latch at its latency. -/
  | resultWriteback
  /-- R10: Kernel iteration boundary shifts stage predicates and rotation, or ends the loop. -/
  | loopIteration
  /-- R34: The barrel fills announced slots with ready drift threads, refusing and counting conflicts. -/
  | driftSlotFill
  /-- R35: A drift operation completes and its thread becomes ready. -/
  | driftOpComplete (core thread : Nat)
  /-- R38: A 256-cycle window starts and the drift token grant is fixed. -/
  | tokenWindow (grant : Nat)
  /-- R113: An engine delivery line lands whole in scratchpad, held behind tracked reads. -/
  | engineLineLand (op : Nat)
  /-- R114: An engine operation completes and its barrier count falls. -/
  | engineOpComplete (op : Nat)
  /-- R114: An engine operation meets a translation event, protection fault or uncorrectable read and faults its barrier. -/
  | engineOpFault (op : Nat) (kind : RecKind) (va : Nat)
  /-- R119: The supervisor marks an event answered, resuming the operation and readying the bank. -/
  | eventAnswer (ev : Nat) (entry : BitVec 64)
  /-- R30: The core switches banks over 160 cycles, moving plane saves. -/
  | bankSwitch
  /-- R178: A waiting or higher-priority bank takes the core at a boundary. -/
  | bankResume
  /-- R218: TIMER reaches 0 and sets PEND.TIMER. -/
  | timerExpiry
  /-- R208: An enabled pending interrupt is taken at a freeze point with Rime capture and trap entry. -/
  | interrupt
  /-- R153: The hub matches an arriving tagged message: start, queue or drop with error reply. -/
  | taggedMessage (m : Message)
  /-- R151: The hub acts on an ARM request and writes RESULT as a release. -/
  | armResult (core : Nat)
  /-- R155: A launch leaves the partition queue and the walker enters node 0. -/
  | launchStart (part : Nat)
  /-- R156: A launch ends: status block, completion message, next queued fire. -/
  | launchEnd (launch : Nat)
  /-- R206: A fault ends the launch: banks stop, engines drain, resources released. -/
  | faultEndLaunch (launch : Nat)
  /-- R165: The walker enters a TASKSET and posts its tasks. -/
  | nodeTaskset (launch branch : Nat)
  /-- R164: After earlier tasks end, branch on a condition word. -/
  | nodeCond (launch branch : Nat)
  /-- R164: After earlier tasks end, loop on a condition word up to a limit. -/
  | nodeWhile (launch branch : Nat)
  /-- R167: After earlier tasks end, choose a capacity-bucket successor. -/
  | nodeBucket (launch branch : Nat)
  /-- R164: A branch arrives at a JOIN, continuing after COUNT arrivals. -/
  | nodeJoin (launch branch : Nat)
  /-- R165: After earlier tasks end, send a message block as a release. -/
  | nodeMessage (launch branch : Nat)
  /-- R165: Start self-test on idle cells of the partition. -/
  | nodeTest (launch branch : Nat)
  /-- R177: The walker places a stencil-ready task on a cell, core and bank. -/
  | taskPlace (part : Nat)
  /-- R171: A Moraine controller delivers a declared input tile into ring units. -/
  | moraineDelivery (task input : Nat)
  /-- R172: A task starts the cycle after its last input is resident, with initial state. -/
  | taskStart (task : Nat)
  /-- R175: A controller completes the pull of an output unit into its tile. -/
  | outputPullDone (task output : Nat)
  /-- R174: A subscription slot lands and STAT is written as a release. -/
  | subsSlotFill (op : Nat)
  /-- R179: A waiting task's effective priority rises every 2^20 cycles. -/
  | priorityAging (task : Nat)
  /-- R219: A bank is frozen and its context saved by the hub to the partition save area. -/
  | preemption
  /-- R219: A saved task is restored on a cell and its Rime entries replayed. -/
  | taskResume (part : Nat)
  /-- R250: A send and a receive on one port and channel pair and the transfer starts. -/
  | linkPair (port channel : Nat)
  /-- R251: The last line of a paired transfer lands and both barriers complete. -/
  | linkTransferDone (port channel : Nat)
  /-- R247: A fabric flit arrives and is checked and applied. -/
  | flitReceive (port : Nat) (f : Flit)
  /-- R248: A link lane fails: move to the spare or take the port down. -/
  | laneFail (port lane : Nat)
  /-- R142: A die applies a stamped write once its predecessors are applied and merges the clock. -/
  | stampedWriteApply (die : Nat) (w : StampedWrite)
  /-- R245: A host write to the message port delivers a tagged message or is dropped. -/
  | messagePortWrite (offset size : Nat) (m : Message)
  /-- R154: Reading LNDROP returns and clears the drop counters. -/
  | lndropRead
  /-- R246: Reading MPCNT returns and clears the message-port counters. -/
  | mpcntRead
  /-- R268: Writing RSTCTL.COLD runs the reset and boot sequence. -/
  | coldReset
  /-- R268: Power-on runs fuse read, image verify, training, zeroing and boot. -/
  | powerOn
  /-- R270: A host request writes a signed attestation report. -/
  | attestRequest (nonce : BitVec 384)
  /-- R238: Writing REPLCTL.RESUME resumes a halted replica queue. -/
  | replctlResume
  /-- R267: A write to a hub register without behaviour of its own. -/
  | registerWrite (offset : Nat) (value : BitVec 64)
  /-- R261: The guest writes FVAL to a packet's flag as a release. -/
  | guestCompletion (packet : Nat)
  /-- R261: The guest writes FVAL OR 2^63 and logs in bank 31. -/
  | guestFault (packet : Nat) (code : BitVec 16) (severity : BitVec 2)
  /-- R261: The guest reports power and temperature on the sideband. -/
  | guestReport (watts temp : BitVec 8)
  /-- R261: The guest requests a translation from the hub service. -/
  | guestTranslation (va : Nat)
  /-- R261: The guest acknowledges a translation invalidation. -/
  | guestInvalAck (va : Nat)
  /-- R263: The hub fences a guest that broke its contract. -/
  | guestFence
  /-- R271: A die power manager steps the die clock. -/
  | clockThrottle (die : Nat) (up : Bool)
  /-- R272: A sensor reaches 95 C and the clock steps down. -/
  | thermalHot (temp : BitVec 8)
  /-- R272: A sensor reaches 110 C: fatal error in bank 16. -/
  | thermalTrip (temp : BitVec 8)
  /-- R225: A single-bit error is corrected and logged. -/
  | eccCorrected (e : ErrorSite)
  /-- R226: An uncorrectable word is consumed: contained error and repair. -/
  | uncorrectableError (e : ErrorSite) (consumer : Consumer)
  /-- R225: A residue or parity check fires in a datapath or register file. -/
  | datapathError (core : Nat)
  /-- R236: An audit rerun is placed on another cell at priority 0. -/
  | auditRerun (task : Nat)
  /-- R236: Digests are compared and suspicion scores updated. -/
  | auditDecide (task : Nat)
  /-- R232: A cell self-test ends, returning or retiring the cell. -/
  | selftestDone (cell : Nat) (pass : Bool)
  /-- R231: A spare cell replaces a retired one once the partition has no launch. -/
  | spareSubstitute (part : Nat)
  /-- R274: The hub writes the service record to flash after a change. -/
  | serviceRecordWrite
  /-- R237: At a step boundary a replica halts and sends its step digest. -/
  | replicaStep (part : Nat)
  /-- R238: Replica digests are compared and queues resumed or halted. -/
  | replicaCompare (part : Nat) (digests : List (BitVec 64))
  /-- R274: The supply is lost, and a service-record change made less than a second before is lost with it. -/
  | powerFailure
  /-- R244: The host reads or writes device HBM through CXL.mem, or snoops and back-invalidates through CXL.cache. -/
  | cxlMemAccess (a : Coherent)
  /-- R263: The guest makes a coherent read or write over the coherent port, stamped as clock component 17. -/
  | guestCoherentAccess (a : Coherent)
  /-- R218: Another core's supervisor sets PEND.SOFT on this core through the hub. -/
  | pendSoftSet (core : Nat)
  /-- R176: Firmware takes cells from a partition, moves them between partitions, or gives cells to an empty partition whose waiting tasks are then placed. -/
  | partitionCellMove (cell : Nat) (dst : Option Nat)
  deriving DecidableEq, Repr

end Sys2Proof
end

