-- ==== Sys2Proof/Machine/State.lean ====
section
/-! DEFINITION. The state of the whole device as plain data, the fault and refusal reasons, and the state after
reset. The core whose turn it is stands in `State.core`; the others stand in `State.others`. The two context banks
of a core stand as the running one, `Core.bank`, and the other one, `Core.other`. -/

namespace Sys2Proof.Machine

/-- A byte memory: (address, byte) pairs, addresses strictly rising, no byte 0; an unlisted address reads 0. -/
abbrev Mem := List Host.Cell

/-- The reasons a step can stop with a fault. The model has none of its own: every fault of the spec is state. -/
inductive Fault where
  /-- The core whose turn it is does not exist on this package (core number 256 or more). Raised by the step
  only; safe: the spec has no such core. -/
  | noSuchCore
  deriving DecidableEq, Repr

/-- The reasons an instruction can be refused. -/
inductive Refusal where
  /-- The instruction has no meaning yet. Raised by an arm of `exec`; safe. -/
  | notModelled (mnemonic : String)
  deriving DecidableEq, Repr

/-! ### Registers -/

/-- R52: a vector register with its tag. -/
structure VReg where
  bits : VBits
  tag : Tag
  deriving DecidableEq, Repr

/-- R19, R21, R22: a latch or held value; not valid means lost. -/
structure Latch where
  bits : VBits
  tag : Tag
  valid : Bool
  deriving DecidableEq, Repr

/-- R19: a scalar latch. -/
structure SLatch where
  val : Word
  valid : Bool
  deriving DecidableEq, Repr

/-- R60, R203: STATUS. -/
structure Status where
  nanint : Bool
  isat : Bool
  latchlost : Bool
  sup : Bool
  ie : Bool
  guard : Bool
  debug : Bool
  deriving DecidableEq, Repr

/-- R24, R43, R159: LC and the running loop: N, stages S, length L, the next bundle's index in the kernel, the
iteration number, its first bundle, and the EPI of a loop record's kernel. -/
structure LoopState where
  active : Bool
  left : Nat
  drain : Nat
  trip : Nat
  stages : Nat
  len : Nat
  idx : Nat
  iter : Nat
  start : Word
  exit : Option Word
  deriving DecidableEq, Repr

/-- R25: the loop buffer's pinned range. -/
structure LoopBuf where
  first : Word
  count : Nat
  valid : Bool
  deriving DecidableEq, Repr

/-- R108: a tensor descriptor. -/
structure Tensor where
  rank : Nat
  fmt : Tag
  layout : Nat
  edge : Nat
  ext : List Nat
  tile : List Nat
  ttb : Word
  deriving DecidableEq, Repr

/-- R83, R85: an accumulator tile: its tag and its rows (an absent row is 0). -/
structure Tile where
  tag : Tag
  rows : SMap AccRow
  deriving DecidableEq, Repr

/-- R73, R80: a weight plane: format code (none is NONE), 128 rows, 8 scale lines, and the number of the physical
plane, which MFLIP moves with it. -/
structure Plane where
  code : Option Nat
  rows : List VBits
  scales : List (BitVec 1024)
  id : Nat
  deriving DecidableEq, Repr

/-- R30, R80: the planes WA and WB, front and shadow; `paired` while code 4 binds them. -/
structure Planes where
  waF : Plane
  waS : Plane
  wbF : Plane
  wbS : Plane
  paired : Bool
  deriving DecidableEq, Repr

/-! ### Results in flight -/

/-- What a result in flight does when it lands. -/
inductive Eff where
  /-- Write a scalar register (a write to s0 is discarded) and enter scalar latch 0. -/
  | s (n : Nat) (v : Word)
  /-- Write a scalar register without a latch (LD, FLAGR, PIN). -/
  | sPlain (n : Nat) (v : Word)
  /-- Merge into a physical vector register the bits that k selects, and enter the unit's latch. -/
  | v (phys : Nat) (tag : Tag) (bits k : VBits)
  /-- W = 1: the unit's latch only. -/
  | vlatch (tag : Tag) (bits : VBits)
  /-- Write a predicate, with its complement when the write stood outside a kernel; of unit 2, enter the scalar latch. -/
  | p (n : Nat) (v compl : Bool)
  /-- Write enabled bits of a mask, clearing from `lanes` up. -/
  | k (n : Nat) (bits en : VBits) (lanes : Nat)
  /-- Write a branch-target register. -/
  | b (n : Nat) (v : Word)
  /-- MTSR's effect. -/
  | sys (num : Nat) (v : Word)
  /-- A new allotment of vector units, or of tiles. -/
  | allot (tiles : Bool) (n : Nat)
  /-- A generator field. -/
  | gen (n field : Nat) (v : Word)
  /-- ROWB. -/
  | rowb (n : Nat)
  /-- MFLIP. -/
  | flip (wa wb : Bool)
  /-- MLDW's shadow plane is ready: plane 0 WA, 1 WB, or both for code 4. -/
  | shadow (plane code : Nat) (wa wb : List VBits) (scales : List (BitVec 1024))
  /-- Lines become pinned by the bank, reading zero when newly pinned. -/
  | pin (first n : Nat)
  /-- Lines are released. -/
  | unpin (first n : Nat)
  /-- LDT's entry. -/
  | ldt (id : Nat) (t : Tensor)
  /-- MZERO. -/
  | tileZero (acc : Nat) (tag : Tag)
  /-- The first columns of an accumulator row, with the tile tag it sets. -/
  | accRow (acc row cols : Nat) (v : AccRow) (tag : Option Tag)
  /-- MWRA's segment. -/
  | seg (acc row seg : Nat) (bits : VBits)
  /-- Bytes of the local window; `rel` is the scope of a FLAGW.rel. -/
  | store (addr : Nat) (bytes : List Byte) (rel : Option Nat)
  /-- A primary ATOM on a pinned line: operation, operand, comparand, barrier, the operation's number. -/
  | atom (addr op : Nat) (x cmp : Word) (cb opId : Nat) (fixed : Option (List Byte × Word) := none)
  deriving DecidableEq, Repr

/-- A result in flight: due tick, issue order, effect, latch unit (0 V0, 1 V1, 3 epilogue, 4 none), flags; `pub` for
a store that a performed release has made visible to the core's drift threads and engines before it lands (R126). -/
structure Pend where
  due : Nat
  seq : Nat
  eff : Eff
  unit : Nat
  flags : BitVec 3
  pub : Bool := false
  deriving DecidableEq, Repr

/-- R81, R82: an MMUL or MMULZ stream with its captured operands; `next` is the next step to read. -/
structure Stream where
  seq : Nat
  issue : Nat
  acc : Nat
  np : Nat
  code : Nat
  base : Nat
  rows : Nat
  zero : Bool
  gen : Option (Gen × Word × Bool)
  sel : Nat
  rowb : Nat
  wa : Plane
  wb : Plane
  next : Nat
  old : AccRow
  act : List Nat
  scl : List Byte
  deriving DecidableEq, Repr

/-- R86, R87: an issued MEPI. -/
structure Epi where
  seq : Nat
  issue : Nat
  acc : Nat
  rows : Nat
  dest : Nat
  out : Tag
  act : Nat
  param : Option (List Nat × List Nat)
  next : Nat
  deriving DecidableEq, Repr

/-- R79: an issued MLDW; the rows read so far, newest last. -/
structure Loader where
  seq : Nat
  issue : Nat
  plane : Nat
  code : Nat
  base : Nat
  gen : Option (Gen × Word × Bool)
  wa : List VBits
  wb : List VBits
  scales : List (BitVec 1024)
  next : Nat
  deriving DecidableEq, Repr

/-- R88, R364: an issued MRED with the rows this member has read; `seq` is its ordinal in the task. -/
structure Mred where
  seq : Nat
  issue : Nat
  acc : Nat
  rows : Nat
  tag : Tag
  out : List AccRow
  deriving DecidableEq, Repr

/-- R114: a barrier's fault record. -/
structure FaultRec where
  kind : RecKind
  va : Nat
  line : Nat
  op : Nat
  deriving DecidableEq, Repr

/-- Where a barrier result lands: a scalar register, or an 8-byte word of the window (R198). -/
inductive BarDest where
  | reg (n : Nat)
  | word (addr : Nat)
  deriving DecidableEq, Repr

/-- R115, R209: a barrier result: the operation, its destination, and its value once it exists; `land` is the barrier
at whose CPYW it lands, where a frame entry has named another than its operation's (R216). -/
structure BarRes where
  op : Nat
  dest : BarDest
  val : Option Word
  land : Option Nat := none
  deriving DecidableEq, Repr

/-- R114: a completion barrier; `coll` once a link receive has completed on it, whose CPYW may end a collective
(R138, R252). -/
structure Barrier where
  count : Nat
  record : Option FaultRec
  results : List BarRes
  waits : Nat
  acq : List Nat
  coll : Bool := false
  deriving DecidableEq, Repr

/-- R14: a locked code image: base address and words. -/
structure Image where
  base : Nat
  words : List IWord
  deriving DecidableEq, Repr

/-- R159: the kernel of a loop record. -/
structure RecKernel where
  ker : Word
  epi : Word
  trip : Nat
  stages : Nat
  len : Nat
  deriving DecidableEq, Repr

/-- Where a bank resumes after an answered translation event: the bundle at pc issues again, a CPYW waits
again, or TASKEND waits again. -/
inductive Resume where
  | reissue
  | cpyw (cb : Nat)
  | ending
  deriving DecidableEq, Repr

/-- R205, R206: the fault a meaning has just raised, for the bundle it stands in; `late` when it is raised as it is
detected, and not by the bundle at pc; `nested` when an ERET raises it. -/
structure Raised where
  cause : Nat
  thread : Option Nat
  cb : Nat
  addr : Nat
  aux : Nat
  late : Bool := false
  nested : Bool := false
  deriving DecidableEq, Repr

/-- A bundle whose CPYW waits: its address, the barrier it waits on and those of its further CPYWs, and what its other
instructions left for the bundle after it: a loop, a TRAP's code, and whether it holds a control transfer or a branch. -/
structure CpywWait where
  pc : Word
  cbs : List Nat
  loop : Option (LoopState × Word)
  trap : Option Nat
  ctl : Bool
  br : Bool
  deriving DecidableEq, Repr

/-- What a trap sets aside until ERET (R209, R210): the freeze tick, the results that no frame entry holds, the
matrix engine's tracking, the loop, the generators (R92), and the operations behind the frame's barrier entries, the
first of which is entry `rimeBase`; with the address of the bundle that resumes and whether the bundle before it held a control transfer
or a branch (R18). -/
structure Parked where
  tick : Nat
  pc : Word
  prevCtl : Bool
  prevBr : Bool
  pend : List Pend
  mreds : List Mred
  holds : List (Nat × Nat)
  tracked : List (Nat × Nat)
  planeUse : List (Nat × Nat)
  epiBusy : Nat
  streamBusy : Nat
  mredBusy : Nat
  loadBusy : Nat
  loop : LoopState
  gens : Vector Gen 8
  bars : List Nat
  rimeBase : Nat
  waitPc : Option CpywWait
  deriving DecidableEq, Repr

/-- What a bank is doing. -/
inductive BankRun where
  /-- It holds no task. -/
  | empty
  /-- It holds a task whose inputs are not resident yet (R172). -/
  | placed
  /-- It issues bundles while it is the running bank. -/
  | active
  /-- A CPYW waits on a barrier (R17, R115). -/
  | cpyw (cb : Nat)
  /-- TASKEND waits on its barriers (R162). -/
  | ending
  /-- It waits on a translation event (R117); `back` is where it resumes. -/
  | event (ev : Nat) (back : Resume)
  /-- A fault has stopped it (R206). -/
  | stopped
  deriving DecidableEq, Repr

/-- R174: an active subscription: its operation, tensor, slots, box and status word, the slots delivered, a bit for
each slot that may be filled, and its barrier. -/
structure Sub where
  op : Nat
  tid : Nat
  tensor : Tensor
  first : Nat
  nslot : Nat
  size : Nat
  start : List Nat
  box : List Nat
  stat : Nat
  delivered : Nat
  freed : Nat
  hint : Nat
  cb : Nat
  deriving DecidableEq, Repr

/-- R157, R162: what a bank knows of the task it runs. -/
structure BankTask where
  task : Nat
  launch : Nat
  part : Nat
  x : Nat
  y : Nat
  gang : Option Nat
  member : Nat
  tret : Bool
  digest : List Word
  inUnits : List Nat
  outUnits : List Nat
  marked : List Nat
  pulled : List Nat
  deriving DecidableEq, Repr

/-- R140: what a guarded bank's hold buffer holds until the next CKPT: a write, a release, an ATOM (operation, operand,
comparand), the update of a condition word (launch, word, operation, operand), the arrival of an XROUTE at its home's
header (its receive area and the home's tag), the add of a BARR (its operation, its hint and where its word lies, none while
its page is not present), a line for another core's window (core, address, launch), or the rows that an XROUTE sends through
a port (its operation). -/
inductive HeldWrite where
  | write (pa : Nat) (bytes : List Byte)
  | release (scope : Nat)
  | atom (pa op : Nat) (x cmp : Word)
  | cond (launch word sub : Nat) (v : Word)
  | arrive (pa rbuf tag : Nat)
  | barr (op hint : Nat) (pa : Option Nat)
  | window (core a launch : Nat) (bytes : List Byte)
  | route (port op : Nat) (r : Route)
  deriving DecidableEq, Repr

/-- R223: the guarded reruns of a bank: which run, the first signature and bundle count, the signature so far, and
whether a check has fired; `arrived` once a member of a gang
stands at the end of the run; `origin` on the member whose check fired first. -/
structure Rerun where
  run : Nat
  sig1 : Nat
  n1 : Nat
  sig : Nat
  fired : Bool
  arrived : Bool := false
  origin : Bool := false
  deriving DecidableEq, Repr

/-- One context bank (R28). `taken` is the bundle at which it last took its core, and gives way at no sooner one (R178). -/
structure Bank where
  s : Vector Word 64
  p : Vector Bool 16
  k : Vector VBits 8
  b : Vector Word 8
  v : SMap VReg
  acc : SMap Tile
  cbs : Vector Barrier 8
  gens : Vector Gen 8
  status : Status
  rotSize : Nat
  rotBase : Nat
  loop : LoopState
  vu : Nat
  at_ : Nat
  loopBuf : LoopBuf
  lat0 : Vector Latch 4
  lat1 : Vector Latch 4
  latE : Vector Latch 4
  latS : Vector SLatch 4
  held0 : Vector Latch 3
  held1 : Vector Latch 3
  rowb : Nat
  tensors : SMap Tensor
  pins : BitVec 65536
  epc : Word
  cause : Word
  tvec : Word
  tfbase : Nat
  stencil : Word
  resslot : Word
  resbank : Word
  resnet : Word
  respwr : Word
  pos : Nat
  glog : Nat
  saved : Planes
  -- the sequencer
  pc : Word
  next : Word
  branch : Option Word
  newBranch : Option Word
  newLoop : Option (LoopState × Word)
  newTrap : Option Nat
  curYield : Bool
  curCkpt : Bool
  byBranch : Bool
  prevCtl : Bool
  prevBr : Bool
  curCtl : Bool
  curBr : Bool
  isMbr : Bool
  mid : Bool
  leaf : Option Nat
  vslot : Nat
  cslot : Nat
  sub : Nat
  image : Image
  kernel : Option RecKernel
  run : BankRun
  stall : Nat
  handler : Bool
  atLoop : Bool
  atIter : Bool
  waitPc : Option CpywWait
  waitFrom : Nat
  waitTo : Nat
  -- results in flight
  tick : Nat
  pend : List Pend
  parked : List Parked
  raised : Option Raised
  released : Bool
  taken : Option Nat
  gstep : Nat
  streams : List Stream
  epis : List Epi
  loader : Option Loader
  mreds : List Mred
  mredN : Nat
  epiBusy : Nat
  streamBusy : Nat
  mredBusy : Nat
  loadBusy : Nat
  holds : List (Nat × Nat)
  tracked : List (Nat × Nat)
  planeUse : List (Nat × Nat)
  claims : List (Nat × Nat)
  fence : Nat
  -- the task
  task : Option BankTask
  subs : List Sub
  -- guarded mode
  bundles : Nat
  heldWrites : List HeldWrite
  undo : List (Nat × BitVec 1024)
  sysUndo : List (Nat × Word)
  rerun : Option Rerun
  deriving DecidableEq, Repr

/-- R31: what a drift operation does when it completes. -/
inductive DriftEff where
  | none
  | d (n : Nat) (v : Word)
  | p (n : Nat) (v : Bool)
  | store (addr : Nat) (bytes : List Byte) (rel : Option Nat)
  | atom (addr op : Nat) (x cmp : Word) (rd : Nat)
  | gatom (va op : Nat) (x cmp : Word) (rd hint : Nat)
  | gload (va width : Nat) (signed : Bool) (rd hint : Nat) (acq : Option Nat)
  | gstore (va : Nat) (bytes : List Byte) (hint : Nat) (rel : Option Nat)
  | hubLoad (off rd : Nat)
  | hubStore (off : Nat) (v : Word)
  | msg (m : Message)
  | link (op : Nat)
  deriving DecidableEq, Repr

/-- R31, R35: one drift thread; an outstanding operation with its completion cycle (none: variable). `sup`: it was
started from the supervisor image and fetches there (R14; log entry 84, DEDUCED). -/
structure Thread where
  pc : Word
  next : Word
  byBranch : Bool
  d : Vector Word 32
  p : Vector Bool 4
  running : Bool
  bank : Nat
  task : Nat
  sup : Bool
  busy : Bool
  due : Option Nat
  eff : DriftEff
  waitEv : Option Nat
  deriving DecidableEq, Repr

/-- R100, R104: a cached line: line address, retention hint, and for each of its 64-byte sectors whether it is present
and whether it is modified. -/
structure CacheLine where
  line : Nat
  hint : Nat
  valid : BitVec 2
  dirty : BitVec 2
  deriving DecidableEq, Repr

/-- R33, R36: the slots announced for drift threads in this cycle, and whether the primary uses its bank ports and
the network injection slot in it. -/
structure Slots where
  scalar : Bool
  copy0 : Bool
  copy1 : Bool
  ports : Bool
  net : Bool
  deriving DecidableEq, Repr

/-- R151: a request in a core's hub queue. -/
inductive HubReq where
  | arm (slot : Nat) (block : List Byte) (result : Nat) (bank : Nat)
  | disarm (slot : Nat)
  deriving DecidableEq, Repr

/-- What the primary did in a cycle: it issued a bundle, or let a cycle pass in which latencies count, or was
frozen. -/
inductive Phase where
  | issued
  | idle
  | frozen
  deriving DecidableEq, Repr

/-- Whose turn it is. -/
inductive Turn where
  | event (i : Instr)
  | core (c : Nat)
  | drift (n : Nat)
  | endCycle (p : Phase)
  deriving DecidableEq, Repr

/-- R111: a cached tile translation: bank, tensor, tile and the tile-table entry. -/
structure TileXlat where
  bank : Nat
  tid : Nat
  tile : Nat
  entry : Nat
  deriving DecidableEq, Repr

/-- One core (R2, R28, R31). `switching` is 161 while a switch is due, 162 while a pre-emption is, and counts the
cycles left of a switch under way (R30). `delivered` are the ports engines have used in this cycle and `netUsed`
whether one has used the injection slot (R37); `due` the engine steps that come after the primary's part of the
cycle, in which `serving` holds. `xlats` are the cached tile translations (R111). `resDue` are the residue counters that
rise at the end of this cycle (R37), and `expired` says that TIMER has reached 0 in it (R218). -/
structure Core where
  bank : Bank
  other : Bank
  curBank : Nat
  store : Mem
  planes : Planes
  threads : Vector Thread 8
  lastThread : Nat
  slots : Slots
  tokens : Nat
  grant : Nat
  dcache : List CacheLine
  ways : List CacheLine
  inten : BitVec 4
  pend : BitVec 4
  timer : Word
  cycle : Nat
  resting : Bool
  delivered : List Nat
  netUsed : Bool
  due : List Turn
  serving : Bool
  xlats : List TileXlat
  resDue : List Nat
  expired : Bool
  sup : Image
  switching : Option Nat
  hubq : List HubReq
  shadow : Option Bank
  shadowOther : Option Bank
  deriving DecidableEq, Repr

/-! ### The package -/

/-- The kinds of engine operation and what each captured at issue. -/
inductive OpKind where
  /-- R112: kind, local address, tensor, first coordinates, box, global address (the tensor's number for kinds 0
  and 1), and bytes of the local range. -/
  | cpy (kind loc : Nat) (t : Option Tensor) (coord box : List Nat) (gaddr len : Nat)
  /-- R116: source, destination, core mask, line count. -/
  | mcast (src dst mask lines launch : Nat)
  /-- R121: global ATOM. -/
  | atom (va op : Nat) (x cmp : Word) (reg : Nat)
  /-- R133: global FLAGW. -/
  | flagw (va : Nat) (v : Word) (rel : Option Nat)
  /-- R133: global FLAGR. -/
  | flagr (va reg : Nat) (acq : Option Nat)
  /-- R135: BARR: address, count, destination, scope, done the add. -/
  | barr (va : Nat) (cnt : Word) (reg scope : Nat) (old : Option Word) (held : Bool)
  /-- R152: MSEND. -/
  | msend (m : Message)
  /-- R249: port, channel, local start, length. -/
  | lsend (port ch loc len : Nat)
  | lrecv (port ch loc len : Nat)
  | lradd (port ch loc len fmt : Nat)
  /-- R174: SUBS; the walk stands in the bank's `subs`. -/
  | subs
  /-- R255: destination, length, format, flag, value, scope, sources. -/
  | bdred (dst len fmt flag : Nat) (fval : Word) (scope : Nat) (srcs : List Nat)
  /-- R192: source, destination, rows, experts, stride, k, format, index base. -/
  | bdtopk (src dst rows n stride k fmt ibase : Nat)
  /-- R198: expert, local rows, count, row bytes, result address. -/
  | xroute (expert loc nrows rowbytes result : Nat)
  /-- R259: the packet and GPOST's destination. -/
  | gpost (packet : List Byte) (reg : Nat)
  /-- R341: WBL, or INVL when `inval`. -/
  | cache (first n : Nat) (inval : Bool)
  deriving DecidableEq, Repr

/-- R114: an engine operation in flight. `done` counts finished lines or steps; `stop` while it has stopped on a
translation event or a fault; `old` holds the address it stopped on, or a value it has read; `paired` for a link
transfer that has its other half; `data` the bytes of a link transfer; `saved` names the task and member whose saved
context holds it; `seq` is the primary's issue order at its issue. -/
structure EngineOp where
  id : Nat
  seq : Nat
  core : Nat
  bank : Nat
  cb : Nat
  drift : Option Nat
  user : Bool
  part : Nat
  hint : Nat
  kind : OpKind
  done : Nat
  old : Nat
  stop : Option RecKind
  paired : Bool
  data : List Byte
  saved : Option (Nat × Nat)
  deriving DecidableEq, Repr

/-- R114: the operation has stopped. -/
def EngineOp.halted (o : EngineOp) : Bool := o.stop.isSome

/-- Who issues the instruction that runs. -/
inductive Agent where
  | primary
  | drift (n : Nat)
  deriving DecidableEq, Repr

/-- R126, R127: one entry of the ordering record. -/
inductive OrdEvent where
  | release (core : Nat) (thread : Option Nat) (scope : Nat)
  | acquire (core : Nat) (thread : Option Nat) (scope : Nat)
  | hubRelease (scope : Nat)
  | guestRelease (scope : Nat)
  | dieRelease (die scope : Nat)
  | dieAcquire (die scope : Nat)
  | hostRelease
  | save (core bank : Nat)
  deriving DecidableEq, Repr

/-- R117, R119: a translation event in the hub's queue; `tile` the tensor and tile a delivery or a pull waits for, and
`desc` the tensor's descriptor as it stood then; `part` the partition where no launch or core says it. -/
structure Event where
  id : Nat
  launch : Option Nat
  core : Nat
  bank : Nat
  op : Option Nat
  thread : Option Nat
  va : Nat
  tile : Option (Nat × Nat)
  guest : Bool
  desc : Option Tensor := none
  part : Option Nat := none
  deriving DecidableEq, Repr

/-- R150, R153: an arming slot. -/
structure ArmSlot where
  armed : Bool
  tag : Nat
  part : Nat
  prio : Nat
  graph : Nat
  args : Word
  rtag : Nat
  rdest : Nat
  flags : Nat
  stat : Nat
  queued : List Message
  running : Option Nat
  deriving DecidableEq, Repr

/-- R164: where a branch of a graph stands. -/
inductive BranchAt where
  | node (n : Nat)
  | ended
  deriving DecidableEq, Repr

/-- A branch of a launch's walk; `waitEv` while it waits on a translation event; `block` the bytes of the node it has
entered, none read while empty; `mark` the number of tasks posted before; `msg` the block of a MESSAGE node. -/
structure Branch where
  id : Nat
  at_ : BranchAt
  waitEv : Option Nat
  block : List Byte
  mark : Nat
  msg : List Byte
  deriving DecidableEq, Repr

/-- R168: the scoreboard of an entered TASKSET. -/
structure Board where
  node : Nat
  w : Nat
  h : Nat
  retired : List Nat
  deriving DecidableEq, Repr

/-- R155, R164: a launch; `fabric` when the message that fired it has crossed the fabric (R137). -/
structure Launch where
  id : Nat
  slot : Nat
  fabric : Bool
  payload : Word
  key : Word
  queued : Bool
  cond : Vector Word 16
  branches : List Branch
  nextBranch : Nat
  passes : SMap Nat
  joins : SMap Nat
  boards : List Board
  entries : SMap Nat
  fault : Option Raised
  faultAt : Option (Nat × Nat × Nat × Nat × Word)
  digests : List (List Nat × Word)
  endEv : Option Nat
  deriving DecidableEq, Repr

/-- R157: a tile reference. -/
structure TileRef where
  tensor : Nat
  dx : Int
  dy : Int
  swap : Bool
  cores : Nat
  deriving DecidableEq, Repr

/-- R157: a loop record. -/
structure LoopRec where
  code : Nat
  pro : Nat
  ker : Nat
  epi : Nat
  trip : Nat
  stages : Nat
  kind : Nat
  rot : Nat
  vu : Nat
  at_ : Nat
  klen : Nat
  ins : List TileRef
  outs : List TileRef
  deriving DecidableEq, Repr

/-- The life of a posted task. -/
inductive TaskRun where
  | posted
  | placed
  | running
  | retired
  | ended
  | saved
  deriving DecidableEq, Repr

/-- R165: a posted task; `since` is the cycle from which its wait for a place counts (R179), none while it does not
wait; `landed` the lines of each input that have landed (R171), and `qth` the partition's QTH when it was placed (R233). -/
structure Task where
  id : Nat
  launch : Nat
  node : Nat
  entry : Nat
  x : Nat
  y : Nat
  stencil : Word
  prod : Option Nat
  recAddr : Nat
  lrec : Option LoopRec
  prio : Nat
  waited : Nat
  since : Option Nat
  run : TaskRun
  retired : Bool
  cores : List Nat
  bank : Nat
  landed : SMap Nat
  resident : List Nat
  pulls : List Nat
  trets : List Nat
  ends : List Nat
  digest : Option Word
  folds : List (Nat × List Word)
  outData : List (Nat × Nat × Nat × List Byte)
  audit : Option Nat
  auditOf : Option Nat
  banned : List Nat
  started : Nat
  qth : Nat
  waitEv : Option Nat
  deriving DecidableEq, Repr

/-- R234, R236: the audit of a task: the cells and digests of its runs, the input tiles in the audit reserve with the
home dies that hold them, and its rerun's number while one waits or runs. -/
structure Audit where
  task : Nat
  launch : Nat
  cells : List Nat
  digests : List Word
  data : List (Nat × List Byte)
  dies : List Nat
  ends : Bool
  rerun : Option Nat
  decided : Bool
  deriving DecidableEq, Repr

/-- R219: a saved context. -/
structure Saved where
  task : Nat
  member : Nat
  bank : Bank
  lines : Mem
  planes : Planes
  threads : List (Nat × Thread)
  guestSave : Bool
  deriving DecidableEq, Repr

/-- R41, R179, R220: a gang's decision log: for each bundle the lead issued, its address and what its control
decided, and whether an interrupt, a pre-emption or a switch of banks is taken before it; `at_` is the lead's CYCLE. -/
structure GangStep where
  at_ : Nat
  pc : Word
  guard : Bool
  target : Word
  count : Nat
  rows : Nat
  leaf : Option Nat
  irq : Bool
  pre : Bool
  switch : Bool := false
  deriving DecidableEq, Repr

/-- R40: a gang. -/
structure Gang where
  id : Nat
  cores : List Nat
  bank : Nat
  steps : List GangStep
  deriving DecidableEq, Repr

/-- R176, R233: a partition; `quarantined` while a step digest in the minority keeps its cells from new tasks (R238). -/
structure Partition where
  root : Nat
  halted : Bool
  quarantined : Bool
  pfEn : Bool
  pfBlk : Nat
  pfThr : Nat
  spans : List (Nat × Nat)
  audRate : Nat
  audSeed : Word
  audAct : Bool
  qth : Nat
  saved : List Saved
  deriving DecidableEq, Repr

/-- R176, R231, R232: what a cell is. -/
inductive CellRun where
  | absent
  | spare
  | enabled
  | quarantined
  | retired
  deriving DecidableEq, Repr

/-- A cell: its state, partition, suspicion score, and the test it runs (its requesting core). -/
structure Cell where
  run : CellRun
  part : Option Nat
  susp : Nat
  testing : Option (Nat × Option Nat)
  deriving DecidableEq, Repr

/-- R227, R228: a machine-check bank. -/
structure McBank where
  valid : Bool
  ovf : Bool
  sev : Nat
  src : Nat
  unit : Nat
  code : Nat
  addr : Word
  count : Nat
  synd : Nat
  en : Bool
  notify : Bool
  deriving DecidableEq, Repr

/-- R237, R267: REPLCTL and the register fields of the hub; `replPart` is the partition that a step boundary has
halted, `fencedPart` the one that a fence of the guest has. -/
structure HubRegs where
  ready : Bool
  prevFatal : Bool
  bootCode : Nat
  rev : Nat
  capw : Nat
  thermMax : Nat
  thermHot : Bool
  replSlot : Nat
  replN : Nat
  replPorts : Nat
  replHalted : Bool
  replDigest : Word
  replPart : Nat
  guestPart : Nat
  fencedPart : Nat
  guestEn : Bool
  guestFenced : Bool
  guestWatts : Nat
  guestTemp : Nat
  ringBase : Nat
  ringLog : Nat
  ringIrq : Bool
  head : Nat
  tail : Nat
  msgBad : Nat
  msgFull : Nat
  msgRing : Nat
  unmatched : Nat
  overflow : Nat
  svcRows : Bool
  svcChan : Bool
  svcLanes : Bool
  svcThreshold : Nat
  fatal : Bool
  msix : Nat
  deriving DecidableEq, Repr

/-- The hub (08, 11, 16); `keys` are the stream keys that launches have drawn (R95). -/
structure Hub where
  regs : HubRegs
  slots : SMap ArmSlot
  launchCount : Nat
  keys : List Word
  launches : List Launch
  tasks : List Task
  nextTask : Nat
  starts : Nat
  audits : List Audit
  gangs : List Gang
  parts : Vector Partition 4
  cells : Vector Cell 64
  events : List Event
  nextEvent : Nat
  mc : Vector McBank 32
  portQueue : List Message
  attest : Mem
  expertBase : Nat
  device : Nat
  deriving DecidableEq, Repr

/-- R253: an XROUTE of this device or of a neighbour that has left through a port and has no answer yet: the number it
left with, and the operation here that waits for the answer, or the port and the number it came with. -/
structure RouteWait where
  id : Nat
  op : Option Nat
  back : Nat × Nat
  deriving DecidableEq, Repr

/-- R247, R248, R250, R253: a fabric port: its lane map (the lane that the spare one stands for), port down, next
sequence number, the partition of each channel, unpaired sends and receives (channel, operation), sends that have arrived
(channel, bytes), receives the neighbour has posted (channel, length), messages and link data that have left, the channels on
which a receive has landed whole, the XROUTEs and answers that have left, with those that wait for an answer, the neighbour's
XROUTEs that wait for a page (and the event), and the stamp last received on the link (R142). -/
structure Port where
  spareFor : Option Nat
  down : Bool
  expect : Nat
  owners : SMap Nat
  sends : List (Nat × Nat)
  recvs : List (Nat × Nat)
  incoming : List (Nat × List Byte)
  credits : List (Nat × Nat)
  outgoing : List Message
  sent : List (Nat × List Byte)
  landed : List Nat
  routes : List Route
  answers : List (Nat × Option Word)
  waits : List RouteWait
  stalled : List (Route × Nat)
  stamp : List Nat
  deriving DecidableEq, Repr

/-- R259: a guest packet the guest has not completed. -/
structure Packet where
  id : Nat
  bytes : List Byte
  launch : Option Nat
  deriving DecidableEq, Repr

/-- R258, R261, R262, R263: the guest; `paused` the (launch, queue) pairs that a PREEMPT has stopped, `acks` the FVAL
it has written for each, and `fenceDue` the packets of a fence whose flags wait for their page, with the event. -/
structure Guest where
  present : Bool
  attested : Bool
  queues : SMap (List Packet)
  nextPacket : Nat
  held : List Nat
  invalidating : List Nat
  paused : List (Nat × Nat)
  acks : List (Nat × Nat × Word)
  fenceDue : List (Nat × Packet)
  deriving DecidableEq, Repr

/-- What the firmware sets up as it comes up, for which the spec names no register: this device's number and the base of
its slice of the expert location table (R196), the partition of each (port, channel) pair (R249), the security version
to which it raises the fused counter (R269), and the supervisor images of cores that run another than the firmware's
own (R14, R268). -/
structure Setup where
  device : Nat
  sliceBase : Nat
  channels : List (Nat × Nat × Nat)
  version : Nat
  sups : List (Nat × Image)
  deriving DecidableEq, Repr

/-- R274: the service record: retired cells, SUSP scores, lane maps (port, lane that the spare one stands for),
remapped rows, each named by an address in it, and remapped pseudo-channels (stack, spare). -/
structure Record where
  retired : List Nat
  susp : List (Nat × Nat)
  lanes : List (Nat × Nat)
  rows : List Nat
  chans : List (Nat × Nat)
  deriving DecidableEq, Repr

/-- R268, R269, R274: the fuses, the flash with the firmware image and its 256-byte header, and the service record as it
stands and as flash holds it. -/
structure Service where
  keyHash : BitVec 384
  pubKey : List Byte
  header : List Byte
  firmware : Image
  fuseVersion : Nat
  harvest : Nat
  trainOk : Bool
  life : Nat
  rom : List Byte
  guestCert : List Byte
  setup : Setup
  record : Record
  flash : Record
  dirty : Bool
  deriving DecidableEq, Repr

/-- The state of the device. -/
structure State where
  core : Core
  cur : Nat
  others : SMap Core
  agent : Agent
  agenda : List Turn
  mem : Mem
  ops : List EngineOp
  nextOp : Nat
  clocks : List (List Nat)
  held : List (Nat × StampedWrite)
  l2 : List (Nat × CacheLine)
  llc : List (Nat × CacheLine)
  reserve : List (Nat × Nat)
  ord : List OrdEvent
  hub : Hub
  ports : SMap Port
  guest : Guest
  svc : Service
  dieClock : List Nat
  free : Nat
  deriving DecidableEq, Repr

/-! ### Reset -/

/-- A lost latch (R22). -/
def Latch.lost : Latch := { bits := 0, tag := 0, valid := false }

/-- A lost scalar latch. -/
def SLatch.lost : SLatch := { val := 0, valid := false }

/-- R114: a complete barrier. -/
def Barrier.clear : Barrier := { count := 0, record := none, results := [], waits := 0, acq := [] }

/-- R80: a plane never loaded carries code NONE. -/
def Plane.none (id : Nat) : Plane := { code := Option.none, rows := [], scales := [], id := id }

/-- Planes never loaded. -/
def Planes.none : Planes :=
  { waF := Plane.none 0, waS := Plane.none 1, wbF := Plane.none 2, wbS := Plane.none 3, paired := false }

/-- No loop runs (R43). -/
def LoopState.off : LoopState :=
  { active := false, left := 0, drain := 0, trip := 0, stages := 0, len := 0, idx := 0, iter := 0, start := 0,
    exit := none }

/-- R160: the predicates at task start: p0 and p9 to p15 are 1. -/
def startPreds : Vector Bool 16 :=
  #v[true, false, false, false, false, false, false, false, false, true, true, true, true, true, true, true]

/-- R28, R160: a bank that holds no task.
Log entry 3, DESIGN CHOICE. -/
def Bank.clear : Bank :=
  { s := Vector.replicate 64 0, p := startPreds, k := (Vector.replicate 8 0).set 0 (BitVec.allOnes 2048),
    b := Vector.replicate 8 0, v := [], acc := [], cbs := Vector.replicate 8 Barrier.clear,
    gens := Vector.replicate 8 Gen.start,
    status := { nanint := false, isat := false, latchlost := false, sup := false, ie := false, guard := false,
                debug := false },
    rotSize := 0, rotBase := 0, loop := LoopState.off, vu := 0, at_ := 0,
    loopBuf := { first := 0, count := 0, valid := false },
    lat0 := Vector.replicate 4 Latch.lost, lat1 := Vector.replicate 4 Latch.lost,
    latE := Vector.replicate 4 Latch.lost, latS := Vector.replicate 4 SLatch.lost,
    held0 := Vector.replicate 3 Latch.lost, held1 := Vector.replicate 3 Latch.lost,
    rowb := 0, tensors := [], pins := 0, epc := 0, cause := 0, tvec := 0, tfbase := 0, stencil := 0,
    resslot := 0, resbank := 0, resnet := 0, respwr := 0, pos := 0, glog := 0, saved := Planes.none,
    pc := 0, next := 0, branch := none, newBranch := none, newLoop := none, newTrap := none, curYield := false, curCkpt := false, byBranch := false, prevCtl := false, prevBr := false,
    curCtl := false, curBr := false, isMbr := false, mid := false, leaf := none, vslot := 0, cslot := 0, sub := 0,
    image := { base := 0, words := [] }, kernel := none, run := .empty, stall := 0, handler := false,
    atLoop := false, atIter := false, waitPc := none, waitFrom := 0, waitTo := 0, tick := 0, pend := [], parked := [], raised := none, released := false, taken := none, gstep := 0, streams := [], epis := [], loader := none, mreds := [], mredN := 0,
    epiBusy := 0, streamBusy := 0, mredBusy := 0, loadBusy := 0, holds := [], tracked := [], planeUse := [], claims := [],
    fence := 0,
    task := none, subs := [], bundles := 0, heldWrites := [], undo := [], sysUndo := [], rerun := none }

/-- R31: a stopped thread with its registers 0. -/
def Thread.clear : Thread :=
  { pc := 0, next := 0, byBranch := true, d := Vector.replicate 32 0, p := (Vector.replicate 4 false).set 0 true,
    running := false, bank := 0, task := 0, sup := false, busy := false, due := none, eff := .none, waitEv := none }

/-- A core that holds no task. -/
def Core.clear : Core :=
  { bank := Bank.clear, other := Bank.clear, curBank := 0, store := [], planes := Planes.none,
    threads := Vector.replicate 8 Thread.clear, lastThread := 7,
    slots := { scalar := false, copy0 := false, copy1 := false, ports := false, net := false }, tokens := 512, grant := 512, dcache := [],
    ways := [], inten := 0, pend := 0, timer := 0, cycle := 0, resting := true, delivered := [],
    netUsed := false, due := [], serving := false, xlats := [], resDue := [], expired := false, sup := { base := 0xFF00000000000000, words := [] },
    switching := none, hubq := [], shadow := none,
    shadowOther := none }

/-- R233, R120: a partition at reset. -/
def Partition.clear : Partition :=
  { root := 0, halted := false, quarantined := false, pfEn := true, pfBlk := 20, pfThr := 128, spans := [], audRate := 0, audSeed := 0,
    audAct := false, qth := 64, saved := [] }

/-- R228: a machine-check bank at reset. -/
def McBank.clear : McBank :=
  { valid := false, ovf := false, sev := 0, src := 0, unit := 0, code := 0, addr := 0, count := 0, synd := 0,
    en := true, notify := false }

/-- R227: the machine-check banks at reset; banks 26 to 30 are reserved. -/
def mcClear : Vector McBank 32 :=
  Vector.ofFn fun i : Fin 32 =>
    if 26 ≤ i.val && decide (i.val ≤ 30) then { McBank.clear with en := false } else McBank.clear

/-- A cell before the harvest map is applied (R268 step 5). -/
def Cell.clear : Cell := { run := .absent, part := none, susp := 0, testing := none }

/-- R231: the cells at reset: none is enabled yet, and the four spare cells are left. -/
def cellsClear : Vector Cell 64 :=
  Vector.ofFn fun i : Fin 64 => if i.val < 60 then Cell.clear else { Cell.clear with run := .spare }

/-- The hub's registers at reset (16 R267 and the maps it names). The silicon revision of HUBID is 0.
Log entry 96, DESIGN CHOICE. -/
def HubRegs.clear : HubRegs :=
  { ready := false, prevFatal := false, bootCode := 0, rev := 0, capw := 0, thermMax := 0, thermHot := false,
    replSlot := 0, replN := 0, replPorts := 0, replHalted := false, replDigest := 0, replPart := 0, guestPart := 0,
    fencedPart := 0,    guestEn := false, guestFenced := false, guestWatts := 0, guestTemp := 0, ringBase := 0, ringLog := 0,
    ringIrq := false, head := 0, tail := 0, msgBad := 0, msgFull := 0, msgRing := 0, unmatched := 0, overflow := 0,
    svcRows := false, svcChan := false, svcLanes := false, svcThreshold := 0, fatal := false, msix := 0 }

/-- The hub at reset. -/
def Hub.clear : Hub :=
  { regs := HubRegs.clear, slots := [], launchCount := 0, keys := [], launches := [], tasks := [], nextTask := 0, starts := 0, audits := [],
    gangs := [], parts := Vector.replicate 4 Partition.clear, cells := cellsClear, events := [],
    nextEvent := 0, mc := mcClear, portQueue := [], attest := [], expertBase := 0,
    device := 0 }

/-- A fabric port at reset. -/
def Port.clear : Port :=
  { spareFor := none, down := false, expect := 0, owners := [], sends := [], recvs := [], incoming := [],
    credits := [], outgoing := [], sent := [], landed := [], routes := [], answers := [], waits := [], stalled := [],
    stamp := List.replicate 18 0 }

/-- The guest at reset. -/
def Guest.clear : Guest :=
  { present := false, attested := false, queues := [], nextPacket := 0, held := [],
    invalidating := [], paused := [], acks := [], fenceDue := [] }

/-- No entry in a service record. -/
def Record.clear : Record := { retired := [], susp := [], lanes := [], rows := [], chans := [] }

/-- A number as bytes, most significant first. -/
def bytesBe (n v : Nat) : List Byte := (List.range n).map fun i => BitVec.ofNat 8 (v / 256 ^ (n - 1 - i))

/-- R4, R269: the public key of the model's image: the base point of brainpoolP384r1, as x and y, little-endian (log entry
8, DESIGN CHOICE). -/
def baseKey : List Byte :=
  (bytesBe 48 0x1D1C64F068CF45FFA2A63A81B7C13F6B8847A3E77EF14FE3DB7FCAFE0CBD10E8E826E03436D646AAEF87B2E247D4AF1E).reverse ++
  (bytesBe 48 0x8ABE1D7520F9C2A45CB1EB8E95CFD55262B70B29FEEC5864E19C054FF99129280E4646217791811142820341263C5315).reverse

/-- R269: the header of an image without words and with version 0, signed with the key whose secret is 1 (log entry
8). -/
def emptyHeader : List Byte :=
  [0x57, 0x4D, 0x46, 0x50] ++ List.replicate 12 0 ++
  bytesBe 48 0x38B060A751AC96384CD9327EB1B1E36A21FDB71114BE07434C0CC7BF63F6E1DA274EDEBFE76F65FBD51AD2F14898B95B ++
  List.replicate 64 0 ++
  (bytesBe 48 0x1D1C64F068CF45FFA2A63A81B7C13F6B8847A3E77EF14FE3DB7FCAFE0CBD10E8E826E03436D646AAEF87B2E247D4AF1E).reverse ++
  (bytesBe 48 0x35FA54F3F914E5FD980C2C2253F3172FF8A4F740E5B9C97932E8026D6C5811C74D05E75E1B90E8F792487CA8CAA7210F).reverse ++
  List.replicate 32 0

/-- R1, R268: fuses and flash as the model takes them (log entry 8, DESIGN CHOICE): a good image,
cells 0 to 59 in the harvest map. -/
def Service.clear : Service :=
  { keyHash := 0xA31AAA10C138D35E5CCB4829F86D0175D4AE5F8BD2275D7BCD5AF60F49748E5BE8154047B52F1F1EDCD670019CD5898F,
    pubKey := baseKey, header := emptyHeader, firmware := { base := 0xFF00000000000000, words := [] },
    fuseVersion := 0, harvest := 2 ^ 60 - 1, trainOk := true, life := 0, rom := [], guestCert := [],
    setup := { device := 0, sliceBase := 0, channels := [], version := 0, sups := [] }, record := Record.clear,
    flash := Record.clear, dirty := false }

/-- The machine right after reset: no core has issued (R268), the hub's registers hold their reset values, and
the next turn is the power-on sequence. -/
def State.reset : State :=
  { core := Core.clear, cur := 0, others := [], agent := .primary, agenda := [.event .powerOn], mem := [],
    ops := [], nextOp := 0,
    clocks := List.replicate 18 (List.replicate 18 0), held := [], l2 := [], llc := [], reserve := [], ord := [],
    hub := Hub.clear, ports := [], guest := Guest.clear, svc := Service.clear,
    dieClock := [1800, 1800, 1800, 1800], free := 0 }

end Sys2Proof.Machine
end

