-- ==== Sys2Proof/Machine/Mem.lean ====
section
/-! DEFINITION. Sparse maps and byte memories, and little-endian words (00 R4). -/

namespace Sys2Proof.Machine

/-- The value at a key. -/
def sget {α : Type} (m : SMap α) (k : Nat) : Option α :=
  match m with
  | [] => none
  | (j, v) :: m => if j = k then some v else sget m k

/-- The map with a key set, keys rising. -/
def sput {α : Type} (m : SMap α) (k : Nat) (v : α) : SMap α :=
  match m with
  | [] => [(k, v)]
  | (j, w) :: m => if j < k then (j, w) :: sput m k v else if j = k then (k, v) :: m else (k, v) :: (j, w) :: m

/-- The map without a key. -/
def sdel {α : Type} (m : SMap α) (k : Nat) : SMap α := m.filter fun e => e.1 != k

/-- The byte at an address; an unlisted address reads 0 (log entry 5, DESIGN CHOICE). -/
def memByte (m : Mem) (a : Nat) : Byte :=
  match m with
  | [] => 0
  | (j, v) :: m => if j = a then v else memByte m a

/-- Remove the entry of an address from a memory whose addresses rise. -/
def memDel (m : Mem) (a : Nat) : Mem :=
  match m with
  | [] => []
  | (j, v) :: m => if j = a then m else if j < a then (j, v) :: memDel m a else (j, v) :: m

/-- Set a byte that is not 0. -/
def memIns (m : Mem) (a : Nat) (b : Byte) : Mem :=
  match m with
  | [] => [(a, b)]
  | (j, v) :: m => if j < a then (j, v) :: memIns m a b else if j = a then (a, b) :: m else (a, b) :: (j, v) :: m

/-- The memory with a byte written, in canonical form: writing 0 removes the entry. -/
def memPut (m : Mem) (a : Nat) (b : Byte) : Mem := if b = 0 then memDel m a else memIns m a b

/-- The canonical form from a lower bound up: addresses rise strictly and no byte is 0. -/
def memWfFrom (lo : Nat) (m : Mem) : Bool :=
  match m with
  | [] => true
  | (j, v) :: m => decide (lo ≤ j) && v != 0 && memWfFrom (j + 1) m

/-- The canonical form of a memory. -/
def Mem.wf (m : Mem) : Bool := memWfFrom 0 m

/-- n bytes from an address. -/
def readBytes (m : Mem) (a n : Nat) : List Byte := (List.range n).map fun i => memByte m (a + i)

/-- Bytes written from an address, ascending. -/
def writeBytes (m : Mem) (a : Nat) (bs : List Byte) : Mem :=
  match bs with
  | [] => m
  | b :: bs => writeBytes (memPut m a b) (a + 1) bs

/-- The bytes of a range become 0. -/
def zeroRange (m : Mem) (a n : Nat) : Mem := m.filter fun e => !(decide (a ≤ e.1) && decide (e.1 < a + n))

/-- R4: the little-endian number of bytes. -/
def leNat (bs : List Byte) : Nat :=
  match bs with
  | [] => 0
  | b :: bs => b.toNat + 256 * leNat bs

/-- R4: n little-endian bytes of a number. -/
def leBytes (n v : Nat) : List Byte :=
  match n with
  | 0 => []
  | n + 1 => BitVec.ofNat 8 v :: leBytes n (v / 256)

/-- The little-endian number of n bytes of a memory. -/
def readNat (m : Mem) (a n : Nat) : Nat := leNat (readBytes m a n)

/-- n bytes from offset `o` of a captured block, as a number. -/
def field (bs : List Byte) (o n : Nat) : Nat := leNat ((bs.drop o).take n)

/-- Bytes o to o+n-1 of a block are 0. -/
def zeroBytes (bs : List Byte) (o n : Nat) : Bool := field bs o n == 0

/-- Bits hi:lo of a number. -/
def bitsAt (v lo n : Nat) : Nat := v / 2 ^ lo % 2 ^ n

/-- The 2048 bits of 256 bytes (R53). -/
def vbitsOf (bs : List Byte) : VBits := BitVec.ofNat 2048 (leNat bs)

/-- The 256 bytes of 2048 bits (R53). -/
def vbytes (v : VBits) : List Byte := leBytes 256 v.toNat

end Sys2Proof.Machine
end

