-- ==== Sys2Proof/Machine/Ecdsa.lean ====
section
/-! DEFINITION. ECDSA over the curve brainpoolP384r1 of RFC 5639 with SHA-384: the verification of a signature
(16 R269, R270). -/

namespace Sys2Proof.Machine

/-- The prime of the field. -/
def ecP : Nat := 0x8CB91E82A3386D280F5D6F7E50E641DF152F7109ED5456B412B1DA197FB71123ACD3A729901D1A71874700133107EC53

/-- The coefficient A of the curve y^2 = x^3 + A x + B. -/
def ecA : Nat := 0x7BC382C63D8C150C3C72080ACE05AFA0C2BEA28E4FB22787139165EFBA91F90F8AA5814A503AD4EB04A8C7DD22CE2826

/-- The coefficient B. -/
def ecB : Nat := 0x04A8C7DD22CE28268B39B55416F0447C2FB77DE107DCD2A62E880EA53EEB62D57CB4390295DBC9943AB78696FA504C11

/-- The order of the base point. -/
def ecN : Nat := 0x8CB91E82A3386D280F5D6F7E50E641DF152F7109ED5456B31F166E6CAC0425A7CF3AB6AF6B7FC3103B883202E9046565

/-- A point as x / z^2 and y / z^3; z = 0 is the point at infinity. -/
structure EcPoint where
  x : Nat
  y : Nat
  z : Nat
  deriving DecidableEq, Repr

/-- The base point. -/
def ecG : EcPoint :=
  { x := field baseKey 0 48, y := field baseKey 48 48, z := 1 }

/-- A difference modulo p. -/
def ecSub (a b : Nat) : Nat := (a + (ecP - b % ecP)) % ecP

/-- Twice a point. -/
def EcPoint.double (a : EcPoint) : EcPoint :=
  let yy := a.y * a.y % ecP
  let s := 4 * a.x * yy % ecP
  let zz := a.z * a.z % ecP
  let m := (3 * a.x * a.x + ecA * (zz * zz % ecP)) % ecP
  let x := ecSub (m * m) (2 * s)
  { x := x, y := ecSub (m * ecSub s x) (8 * (yy * yy % ecP)), z := 2 * a.y * a.z % ecP }

/-- The sum of two points. -/
def EcPoint.add (a b : EcPoint) : EcPoint :=
  if a.z = 0 then b
  else if b.z = 0 then a
  else
    let az := a.z * a.z % ecP
    let bz := b.z * b.z % ecP
    let u := a.x * bz % ecP
    let h := ecSub (b.x * az) u
    let s := a.y * (bz * b.z % ecP) % ecP
    let r := ecSub (b.y * (az * a.z % ecP)) s
    if h = 0 then (if r = 0 then a.double else { x := 1, y := 1, z := 0 })
    else
      let hh := h * h % ecP
      let hhh := hh * h % ecP
      let v := u * hh % ecP
      let x := ecSub (r * r) (hhh + 2 * v)
      { x := x, y := ecSub (r * ecSub v x) (s * hhh), z := h * (a.z * b.z % ecP) % ecP }

/-- The bits of a 384-bit number, most significant first. -/
def ecBits (n : Nat) : List Bool := (List.range 384).map fun i => n.testBit (383 - i)

/-- A power modulo m. -/
def powMod (a n m : Nat) : Nat :=
  (ecBits n).foldl (fun x b => if b then x * x % m * a % m else x * x % m) 1

/-- u G + v Q. -/
def ecSum (u v : Nat) (q : EcPoint) : EcPoint :=
  let both := ecG.add q
  (List.zip (ecBits u) (ecBits v)).foldl (fun (a : EcPoint) x =>
    let d := a.double
    if x.1 && x.2 then d.add both else if x.1 then d.add ecG else if x.2 then d.add q else d) { x := 1, y := 1, z := 0 }

/-- A point of the curve other than infinity. -/
def ecOnCurve (x y : Nat) : Bool :=
  decide (x < ecP) && decide (y < ecP) && y * y % ecP == (x * x % ecP * x + ecA * x + ecB) % ecP

/-- R4, R269: a signature (r, s) over a digest verifies under a public key, x and y in 48 bytes each, little-endian.
Log entry 80, PRESUMED. -/
def ecdsaOk (key digest : List Byte) (r s : Nat) : Bool :=
  let x := field key 0 48
  let y := field key 48 48
  if key.length != 96 || !(ecOnCurve x y) || r == 0 || s == 0 || decide (ecN ≤ r) || decide (ecN ≤ s) then false
  else
    let w := powMod s (ecN - 2) ecN
    let p := ecSum (beNat digest * w % ecN) (r * w % ecN) { x := x, y := y, z := 1 }
    let zi := powMod p.z (ecP - 2) ecP
    p.z != 0 && p.x * (zi * zi % ecP) % ecP % ecN == r

/-- R4, R269: the signature in two 48-byte little-endian integers, over the bytes a list holds. -/
def signedBy (key bytes r s : List Byte) : Bool := ecdsaOk key (sha384 bytes) (field r 0 48) (field s 0 48)

end Sys2Proof.Machine
end

