-- ==== Sys2Proof/Machine/Cache.lean ====
section
/-! DEFINITION. The levels that global accesses pass through: drift cache, unpinned ways, L2 and memory-side cache
(05 R100, R102, R104, R106). They hold which lines are resident, with their hints, and no values
(log entry 4, DESIGN CHOICE). -/

namespace Sys2Proof.Machine

/-- The die a core lies on. -/
def dieOf (core : Nat) : Nat := core / 64

/-- R106: the index of the line a set of lines gives up: the last that is not sticky, else the last. -/
def victim (ls : List CacheLine) : Option CacheLine :=
  match (ls.filter fun l => l.hint != 2).getLast? with
  | some l => some l
  | none => ls.getLast?

/-- R106: a ninth sticky line of a set demotes the oldest sticky one. -/
def demote (ls : List CacheLine) : List CacheLine :=
  let st := ls.filter fun l => l.hint == 2
  if st.length ≤ 8 then ls
  else
    match st.getLast? with
    | none => ls
    | some o => ls.map fun l => if l.line = o.line then { l with hint := 0 } else l

/-- R2, R106: lines of a set give way until fewer than n are left, the victims first. -/
def makeRoom (n : Nat) (ls : List CacheLine) : List CacheLine :=
  (List.range ls.length).foldl (fun (ls : List CacheLine) _ =>
    if n ≤ ls.length then ls.filter (fun x => some x.line != (victim ls).map (·.line)) else ls) ls

/-- R104, R106: sectors of a line allocated or touched in a cache of `sets` sets and `ways` ways; the most recent
first. -/
def cacheTouch (c : List CacheLine) (sets ways line hint : Nat) (sec dirty : BitVec 2) : List CacheLine :=
  let same (l : CacheLine) : Bool := l.line % sets == line % sets
  let was := c.find? fun l => l.line == line
  let rest := c.filter fun l => l.line != line
  if hint = 3 && was.isNone then c
  else
    let l : CacheLine := { line := line, hint := hint, valid := sec ||| (was.map (·.valid)).getD 0,
                           dirty := dirty ||| (was.map (·.dirty)).getD 0 }
    let mine := rest.filter same
    let mine := makeRoom ways mine
    demote (if hint = 1 then mine ++ [l] else l :: mine) ++ rest.filter fun l => !(same l)

/-- The modified lines that a change of a cache has evicted. -/
def writtenBack (old new : List CacheLine) : List CacheLine :=
  old.filter fun l => l.dirty != 0 && !(new.any fun x => x.line == l.line)

/-- Sectors of a line are resident. -/
def holdsSectors (c : List CacheLine) (line : Nat) (sec : BitVec 2) : Bool :=
  c.any fun l => l.line == line && l.valid &&& sec == sec

/-- R100: the 64-byte sector of a physical address in its line. -/
def sectorOf (pa : Nat) : BitVec 2 := if pa / 64 % 2 = 0 then 1 else 2

/-- The lines of a shared cache that one of its units holds. -/
def unitLines (c : List (Nat × CacheLine)) (u : Nat) : List CacheLine := (c.filter fun e => e.1 == u).map (·.2)

/-- The lines of one unit of a shared cache replaced. -/
def putUnit (c : List (Nat × CacheLine)) (u : Nat) (ls : List CacheLine) : List (Nat × CacheLine) :=
  ls.map (fun l => (u, l)) ++ c.filter fun e => e.1 != u

/-- What a level passes on to the next: the line it has not got, and the modified lines it has evicted. -/
def passOn (s : State) (next : State → CacheLine → State) (old new : List CacheLine) (miss : Bool)
    (l : CacheLine) : State :=
  (writtenBack old new).foldl next (if miss then next s l else s)

/-- R104: a line of HBM enters the memory-side cache of its base die: 256 MiB, which the model takes as 131,072 sets
of 16 ways.
Log entry 65, DESIGN CHOICE. -/
def State.touchLlc (s : State) (l : CacheLine) : State :=
  if 0x0C000000000 ≤ 128 * l.line then s
  else
    let u := 128 * l.line / 2 ^ 36
    { s with llc := putUnit s.llc u (cacheTouch (unitLines s.llc u) 131072 16 l.line l.hint 3
        (if l.dirty = 0 then 0 else 3)) }

/-- R104: a line enters the L2 of a die: 96 MiB, which the model takes as 4,096 sets of 192 ways.
Log entry 65, DESIGN CHOICE. -/
def State.fillL2 (s : State) (die : Nat) (l : CacheLine) : State :=
  let old := unitLines s.l2 die
  let new := cacheTouch old 4096 192 l.line l.hint 3 (if l.dirty = 0 then 0 else 3)
  passOn { s with l2 := putUnit s.l2 die new } State.touchLlc old new (!(holdsSectors old l.line 3))
    { l with dirty := if l.hint = 3 then l.dirty else 0 }

/-- R2, R104, R106: an access of a die's engine to a physical address passes the L2, whose sets and ways are the model's
choice.
Log entry 65, DESIGN CHOICE. -/
def State.touchL2 (s : State) (die pa hint : Nat) (dirty : BitVec 2 := 0) : State :=
  s.fillL2 die { line := pa / 128, hint := hint, valid := 3, dirty := dirty }

/-- R100: the ways of a set that neither bank pins. -/
def freeWays (p : BitVec 65536) (set : Nat) : Nat :=
  16 - ((List.range 16).filter fun i => p.getLsbD (4096 * i + set)).length

/-- R100, R122: a line enters the unpinned ways of the core's local store, by sectors. -/
def State.fillWays (s : State) (l : CacheLine) : State :=
  let old := s.core.ways
  let n := freeWays (s.core.bank.pins ||| s.core.other.pins) (l.line % 4096)
  let new := cacheTouch old 4096 n l.line l.hint l.valid l.dirty
  passOn { s with core := { s.core with ways := new } } (fun s l => s.fillL2 (dieOf s.cur) l) old new
    (!(holdsSectors old l.line l.valid)) { l with dirty := if l.hint = 3 then l.dirty else 0 }

/-- R104, R122: the line of an ATOM enters the unpinned ways, owned alone by the core: every other core gives it up. -/
def State.touchWays (s : State) (pa hint : Nat) : State :=
  let s := { s with others := s.others.map fun (x : Nat × Core) =>
    (x.1, { x.2 with ways := x.2.ways.filter fun l => l.line != pa / 128,
                     dcache := x.2.dcache.filter fun l => l.line != pa / 128 }) }
  s.fillWays { line := pa / 128, hint := hint, valid := sectorOf pa, dirty := sectorOf pa }

/-- R35, R104: a line is resident in the core's drift cache. -/
def Core.driftHit (c : Core) (pa : Nat) : Bool := c.dcache.any fun l => l.line == pa / 128

/-- R104: the line of a drift access enters the drift cache; a miss and an evicted line pass through the ways. -/
def State.touchDrift (s : State) (pa hint : Nat) (dirty : Bool) : State :=
  let old := s.core.dcache
  let d : BitVec 2 := if dirty then sectorOf pa else 0
  let new := cacheTouch old 64 8 (pa / 128) hint 3 d
  passOn { s with core := { s.core with dcache := new } } State.fillWays old new (!(holdsSectors old (pa / 128) 3))
    { line := pa / 128, hint := hint, valid := 3, dirty := if hint = 3 then d else 0 }

/-- R102: the lines that still fit the ways a set has unpinned; the victims go first. -/
def fitWays (pins : BitVec 65536) (c : List CacheLine) : List CacheLine :=
  c.foldl (fun (c : List CacheLine) (l : CacheLine) =>
    let mine := c.filter fun x => x.line % 4096 == l.line % 4096
    if freeWays pins (l.line % 4096) < mine.length then
      c.filter fun x => some x.line != (victim mine).map (·.line)
    else c) c

/-- R102: the global lines a pin evicts leave through the victim path: modified ones go on to the L2. -/
def State.evictWays (s : State) : State :=
  let new := fitWays (s.core.bank.pins ||| s.core.other.pins) s.core.ways
  passOn { s with core := { s.core with ways := new } } (fun s l => s.fillL2 (dieOf s.cur) l) s.core.ways new false
    { line := 0, hint := 0, valid := 0, dirty := 0 }

end Sys2Proof.Machine
end

