-- ==== Sys2Proof/Machine/Regs.lean ====
section
/-! DEFINITION. The named operations over registers, latches, results in flight and releases (02 R15-R22, R28). -/

namespace Sys2Proof.Machine

/-- The outcome of a step of this machine. -/
abbrev Out := Host.Outcome State Fault Refusal

/-! ### Updating the core whose turn it is -/

/-- Replace the running bank. -/
def State.setBank (s : State) (b : Bank) : State := { s with core := { s.core with bank := b } }

/-- Replace the core. -/
def State.setCore (s : State) (c : Core) : State := { s with core := c }

/-- Replace the hub. -/
def State.setHub (s : State) (h : Hub) : State := { s with hub := h }

/-- Replace the hub's registers. -/
def State.setRegs (s : State) (r : HubRegs) : State := { s with hub := { s.hub with regs := r } }

/-- Append turns to the agenda.
Log entry 2, DESIGN CHOICE. -/
def State.later (s : State) (ts : List Turn) : State := { s with agenda := s.agenda ++ ts }

/-- A turn of a core is due, unless one is already. -/
def State.rouse (s : State) (c : Nat) : State := if s.agenda.contains (.core c) then s else s.later [.core c]

/-- The core in `core` goes on at once: its turn is the next one. -/
def State.again (s : State) : State := { s with agenda := .core s.cur :: s.agenda.filter (· != .core s.cur) }

/-- R15, R301: a scalar register; s0 reads zero. -/
def Bank.sreg (b : Bank) (n : BitVec 6) : Word := if n = 0 then 0 else b.s[n.toNat]

/-- A scalar register by number. -/
def Bank.sregN (b : Bank) (n : Nat) : Word := b.sreg (BitVec.ofNat 6 n)

/-- R301: write a scalar register; a write to s0 is discarded. -/
def Bank.setS (b : Bank) (n : Nat) (v : Word) : Bank :=
  if h : n < 64 then (if n = 0 then b else { b with s := b.s.set n v }) else b

/-- R28: a predicate; p0 is always true. -/
def Bank.pred (b : Bank) (n : BitVec 4) : Bool := if n = 0 then true else b.p[n.toNat]

/-- R301: write a predicate; a write to p0 is discarded. -/
def Bank.setP (b : Bank) (n : Nat) (v : Bool) : Bank :=
  if h : n < 16 then (if n = 0 then b else { b with p := b.p.set n v }) else b

/-- R28: a mask; k0 is all ones. -/
def Bank.mask (b : Bank) (n : BitVec 3) : VBits := if n = 0 then BitVec.allOnes 2048 else b.k[n.toNat]

/-- R301: write a mask; a write to k0 is discarded. -/
def Bank.setK (b : Bank) (n : Nat) (v : VBits) : Bank :=
  if h : n < 8 then (if n = 0 then b else { b with k := b.k.set n v }) else b

/-- A branch-target register. -/
def Bank.breg (b : Bank) (n : Nat) : Word := if h : n < 8 then b.b[n] else 0

/-- Write a branch-target register. -/
def Bank.setB (b : Bank) (n : Nat) (v : Word) : Bank := if h : n < 8 then { b with b := b.b.set n v } else b

/-- A physical vector register; one never written reads zero with tag NONE (R160). -/
def Bank.vreg (b : Bank) (n : Nat) : VReg := (sget b.v n).getD { bits := 0, tag := 0 }

/-- Write a physical vector register. -/
def Bank.setV (b : Bank) (n : Nat) (r : VReg) : Bank := { b with v := sput b.v n r }

/-- R23: the physical register that a name refers to. -/
def Bank.phys (b : Bank) (n : Nat) : Nat :=
  if n < b.rotSize then (n + b.rotBase) % b.rotSize else n

/-- An accumulator tile; one never written holds zeros with tag NONE. -/
def Bank.tile (b : Bank) (n : Nat) : Tile := (sget b.acc n).getD { tag := 0, rows := [] }

/-- A row of a tile. -/
def Tile.row (t : Tile) (r : Nat) : AccRow := (sget t.rows r).getD 0

/-- A barrier. -/
def Bank.cb (b : Bank) (n : Nat) : Barrier := if h : n < 8 then b.cbs[n] else Barrier.clear

/-- Replace a barrier. -/
def Bank.setCb (b : Bank) (n : Nat) (c : Barrier) : Bank := if h : n < 8 then { b with cbs := b.cbs.set n c } else b

/-- R114: complete: no operation outstanding and no record. -/
def Barrier.complete (c : Barrier) : Bool := c.count == 0 && c.record.isNone && c.waits == 0

/-- A generator register. -/
def Bank.gen (b : Bank) (n : Nat) : Gen := if h : n < 8 then b.gens[n] else Gen.start

/-- R31: a drift register; d0 reads zero. -/
def Thread.dreg (t : Thread) (n : BitVec 6) : Word :=
  if h : n.toNat < 32 then (if n = 0 then 0 else t.d[n.toNat]) else 0

/-- R301: write a drift register; a write to d0 is discarded. -/
def Thread.setD (t : Thread) (n : Nat) (v : Word) : Thread :=
  if h : n < 32 then (if n = 0 then t else { t with d := t.d.set n v }) else t

/-- R31: a drift predicate; dp0 is always true. -/
def Thread.pred (t : Thread) (n : Nat) : Bool := if n = 0 then true else if h : n < 4 then t.p[n] else false

/-- Write a drift predicate; a write to dp0 is discarded. -/
def Thread.setP (t : Thread) (n : Nat) (v : Bool) : Thread :=
  if h : n < 4 then (if n = 0 then t else { t with p := t.p.set n v }) else t

/-- A drift thread. -/
def Core.thread (c : Core) (n : Nat) : Thread := if h : n < 8 then c.threads[n] else Thread.clear

/-- Replace a drift thread. -/
def Core.setThread (c : Core) (n : Nat) (t : Thread) : Core :=
  if h : n < 8 then { c with threads := c.threads.set n t } else c

/-- The thread whose turn it is, for a drift agent. -/
def State.thread (s : State) : Thread :=
  match s.agent with
  | .primary => Thread.clear
  | .drift n => s.core.thread n

/-- Change the thread whose turn it is. -/
def State.setThread (s : State) (t : Thread) : State :=
  match s.agent with
  | .primary => s
  | .drift n => s.setCore (s.core.setThread n t)

/-- A drift thread issues. -/
def State.isDrift (s : State) : Bool := match s.agent with | .primary => false | .drift _ => true

/-- The scalar register an instruction's field names: s of the bank, or d of the thread. -/
def State.rs (s : State) (n : BitVec 6) : Word :=
  match s.agent with
  | .primary => s.core.bank.sreg n
  | .drift t => (s.core.thread t).dreg n

/-- R202: the running bank is in supervisor mode, for its primary and for its drift threads. -/
def State.sup? (s : State) : Bool := s.core.bank.status.sup

/-- The cell a core belongs to. -/
def cellOf (core : Nat) : Nat := core / 4

/-- The partition of a core: its cell's; 0 for a cell of none. -/
def Hub.partOfCore (h : Hub) (core : Nat) : Nat :=
  if hc : cellOf core < 64 then (h.cells[cellOf core]).part.getD 0 else 0

/-- R176: the partition of the running task; a firmware task's is its core's. -/
def State.part (s : State) : Nat :=
  match s.core.bank.task with
  | some t => t.part
  | none => s.hub.partOfCore s.cur

/-! ### Results in flight (02 R15-R17) -/

/-- The issue order of the instruction that runs: its tick, then its place in the bundle. -/
def Bank.seq (b : Bank) : Nat := b.tick * 16 + b.sub

/-- Add a result in flight in issue order. -/
def insertPend (e : Pend) : List Pend → List Pend
  | [] => [e]
  | x :: xs => if x.seq ≤ e.seq then x :: insertPend e xs else e :: x :: xs

/-- Insert a result in order of its due tick, after those due with it. -/
def insertDue (e : Pend) : List Pend → List Pend
  | [] => [e]
  | x :: xs => if x.due ≤ e.due then x :: insertDue e xs else e :: x :: xs

/-- Results in the order in which they land. -/
def byDue (ps : List Pend) : List Pend := ps.foldl (fun xs e => insertDue e xs) []

/-- A result that lands `lat` ticks after issue. -/
def Bank.addPend (b : Bank) (lat : Nat) (e : Eff) (unit : Nat) (flags : BitVec 3) : Bank :=
  { b with pend := b.pend ++ [{ due := b.tick + lat, seq := b.seq, eff := e, unit := unit, flags := flags }] }

/-- The state with a result in flight. -/
def State.result (s : State) (lat : Nat) (e : Eff) : State := s.setBank (s.core.bank.addPend lat e 4 0)

/-- R19: a value enters age 0 of a latch and the older entries move up. -/
def shiftIn {α : Type} (v : Vector α 4) (x : α) : Vector α 4 := #v[x, v[0], v[1], v[2]]

/-- R19: a vector result enters a unit's latch. -/
def Bank.latchIn (b : Bank) (unit : Nat) (x : VReg) : Bank :=
  let l : Latch := { bits := x.bits, tag := x.tag, valid := true }
  match unit with
  | 0 => { b with lat0 := shiftIn b.lat0 l }
  | 1 => { b with lat1 := shiftIn b.lat1 l }
  | 3 => { b with latE := shiftIn b.latE l }
  | _ => b

/-- R19: an S- or X-class result enters the scalar latch. -/
def Bank.latchS (b : Bank) (v : Word) : Bank := { b with latS := shiftIn b.latS { val := v, valid := true } }

/-- R60: STATUS flags set: [0] NANINT, [1] ISAT, [2] LATCHLOST. -/
def Bank.setFlags (b : Bank) (f : BitVec 3) : Bank :=
  { b with status := { b.status with nanint := b.status.nanint || f.getLsbD 0, isat := b.status.isat || f.getLsbD 1,
                                     latchlost := b.status.latchlost || f.getLsbD 2 } }

/-- R377: the register value after a merge of the bits that k selects. -/
def mergedV (old : VReg) (tag : Tag) (bits k : VBits) : VReg :=
  { bits := (bits &&& k) ||| (old.bits &&& ~~~k), tag := tag }

/-- R387: a mask after VCMP: enabled bits replaced, bits from `lanes` up cleared. -/
def mergedK (old bits en : VBits) (lanes : Nat) : VBits :=
  ((bits &&& en) ||| (old &&& ~~~en)) &&& BitVec.ofNat 2048 (2 ^ lanes - 1)

/-- R92, R93: a generator with one field replaced by the low bits of a value. -/
def Gen.put (g : Gen) (fld : Nat) (v : Word) : Gen :=
  match fld with
  | 0 => { g with kind := v.setWidth 3 }
  | 1 => { g with seed := v }
  | 2 => { g with scope := v.setWidth 32 }
  | 3 => { g with row0 := v.setWidth 32 }
  | 4 => { g with col0 := v.setWidth 32 }
  | 5 => { g with band := v.setWidth 32 }
  | 6 => { g with scale := v.setWidth 8 }
  | 7 => { g with fmt := v.setWidth 2 }
  | _ => { g with mix := v.getLsbD 0 }

/-- R80: exchange front and shadow of the named planes; both while code 4 pairs them. -/
def Planes.flip (p : Planes) (wa wb : Bool) : Planes :=
  let wa' := wa || p.paired
  let wb' := wb || p.paired
  { p with waF := if wa' then p.waS else p.waF, waS := if wa' then p.waF else p.waS,
           wbF := if wb' then p.wbS else p.wbF, wbS := if wb' then p.wbF else p.wbS }

/-- A plane loses its FP32 half when code 4's pairing ends (R358). -/
def Plane.drop4 (p : Plane) : Plane := if p.code = some 4 then { p with code := Option.none } else p

/-- R79, R358: a loaded shadow plane becomes ready. A code other than 4 ends a pairing. -/
def Planes.load (p : Planes) (plane code : Nat) (wa wb : List VBits) (scales : List (BitVec 1024)) : Planes :=
  let mk (rows : List VBits) (old : Plane) : Plane :=
    { code := some code, rows := rows, scales := scales, id := old.id }
  if code = 4 then { p with waS := mk wa p.waS, wbS := mk wb p.wbS, paired := true }
  else
    let q := if p.paired then
        { p with waF := p.waF.drop4, waS := p.waS.drop4, wbF := p.wbF.drop4, wbS := p.wbS.drop4, paired := false }
      else p
    if plane = 0 then { q with waS := mk wa p.waS } else { q with wbS := mk wa p.wbS }

/-- R85: MWRA's 64 columns of a row. -/
def putSeg (r : AccRow) (seg : Nat) (bits : VBits) : AccRow :=
  accOf ((List.range 256).map fun j => if j / 64 = seg then laneAt 32 bits (j % 64) else accCol r j)

/-- A row of a tile written, with the tag it sets. -/
def Bank.putRow (b : Bank) (a r : Nat) (v : AccRow) (tag : Option Tag) : Bank :=
  let t := b.tile a
  { b with acc := sput b.acc a { tag := tag.getD t.tag, rows := sput t.rows r v } }

/-- R74: the first columns of a row replaced, the others kept. -/
def keepCols (old new : AccRow) (cols : Nat) : AccRow :=
  if 256 ≤ cols then new
  else BitVec.ofNat 8192 (new.toNat % 2 ^ (32 * cols) + old.toNat / 2 ^ (32 * cols) * 2 ^ (32 * cols))

/-- R102: the pinned lines with a range added. -/
def pinRange (p : BitVec 65536) (first n : Nat) : BitVec 65536 :=
  p ||| BitVec.ofNat 65536 ((2 ^ n - 1) * 2 ^ first)

/-- R103: the pinned lines with a range removed. -/
def unpinRange (p : BitVec 65536) (first n : Nat) : BitVec 65536 :=
  p &&& ~~~(BitVec.ofNat 65536 ((2 ^ n - 1) * 2 ^ first))

/-- R102: newly pinned lines of a range read zero. -/
def zeroNew (store : Mem) (p : BitVec 65536) (first n : Nat) : Mem :=
  store.filter fun e => !(decide (first ≤ e.1 / 128) && decide (e.1 / 128 < first + n)) || p.getLsbD (e.1 / 128)

/-- R29, R340: a new allotment: registers or tiles beyond it are lost, and those it newly grants read zero with tag
NONE, whatever has landed beyond the old one. -/
def Bank.setAllot (b : Bank) (tiles : Bool) (n : Nat) : Bank :=
  if tiles then { b with at_ := n, acc := b.acc.filter fun e => decide (e.1 < min n b.at_) }
  else { b with vu := n, v := b.v.filter fun e => decide (e.1 < 32 * min n b.vu) }

/-! ### Releases and acquires (06 R123-R131, R142; log entry 4, DESIGN CHOICE) -/

/-- The index of the clock component of the core's die, raised by one. -/
def bumpClock (clocks : List (List Nat)) (die : Nat) : List (List Nat) :=
  clocks.mapIdx fun i c => if i = die then c.mapIdx (fun j x => if j = die then x + 1 else x) else c

/-- The thread of the agent that acts, for the ordering record. -/
def State.agentThread (s : State) : Option Nat := match s.agent with | .primary => none | .drift n => some n

/-- R126, R142: a release by the agent that acts; at DEVICE and FABRIC scope its die's clock component rises. -/
def State.releaseNow (s : State) (scope : Nat) : State :=
  { s with ord := s.ord ++ [.release s.cur s.agentThread scope],
           clocks := if 3 ≤ scope then bumpClock s.clocks (dieOf s.cur) else s.clocks }

/-- R140: a release of a guarded bank beyond CORE scope waits in the hold buffer. -/
def State.release (s : State) (scope : Nat) : State :=
  let b := s.core.bank
  if b.status.guard && decide (1 ≤ scope) then
    s.setBank { b with heldWrites := b.heldWrites ++ [.release scope] }
  else s.releaseNow scope

/-- R127: an acquire by the agent that acts. -/
def State.acquire (s : State) (scope : Nat) : State :=
  { s with ord := s.ord ++ [.acquire s.cur s.agentThread scope] }

/-- A release by the hub. -/
def State.hubRelease (s : State) (scope : Nat) : State :=
  { s with ord := s.ord ++ [.hubRelease scope], clocks := bumpClock s.clocks 16 }

/-! ### System registers written with effect at issue + 2 (18 R302, R357) -/

/-- Change a partition. -/
def Hub.mapPart (h : Hub) (p : Nat) (f : Partition → Partition) : Hub :=
  if hp : p < 4 then { h with parts := h.parts.set p (f h.parts[p]) } else h

/-- MTSR's effect on a register number; 0x100 is STATUS written in user mode. PEND.TIMER ends set in the cycle in which
TIMER has reached 0 (R357). -/
def State.putSys (s : State) (num : Nat) (v : Word) : State :=
  let c := s.core
  let b := c.bank
  match num with
  | 0x00 =>
    s.setBank { b with status := { b.status with
      nanint := b.status.nanint && !(v.getLsbD 0), isat := b.status.isat && !(v.getLsbD 1),
      latchlost := b.status.latchlost && !(v.getLsbD 2), ie := v.getLsbD 9 } }
  | 0x100 =>
    s.setBank { b with status := { b.status with
      nanint := b.status.nanint && !(v.getLsbD 0), isat := b.status.isat && !(v.getLsbD 1),
      latchlost := b.status.latchlost && !(v.getLsbD 2) } }
  | 0x06 => s.setBank { b with rotSize := v.toNat % 256, rotBase := 0 }
  | 0x08 => s.setBank { b with epc := v }
  | 0x0A => s.setBank { b with tvec := v }
  | 0x0B => s.setBank { b with tfbase := v.toNat / 128 % 65536 }
  | 0x0C => s.setCore { c with inten := v.setWidth 4 }
  | 0x0D => s.setCore { c with pend := c.pend &&& ~~~(v.setWidth 4) ||| (if c.expired then 1 else 0) }
  | 0x0F => s.setCore { c with timer := v }
  | 0x11 => s.setBank { b with resslot := v }
  | 0x12 => s.setBank { b with resbank := v }
  | 0x13 => s.setBank { b with resnet := v }
  | 0x14 => s.setBank { b with respwr := v }
  | 0x18 => s.setHub (s.hub.mapPart s.part fun p => { p with audRate := v.toNat % 2 ^ 17 })
  | 0x19 => s.setHub (s.hub.mapPart s.part fun p => { p with audSeed := v })
  | 0x1A => s.setHub (s.hub.mapPart s.part fun p => { p with audAct := v.getLsbD 0 })
  | 0x1C => s.setHub (s.hub.mapPart s.part fun p => { p with qth := v.toNat % 256 })
  | _ => s

/-! ### Atomic operations (05 R121) -/

/-- R121: what the memory word becomes, by operation code. -/
def atomNew (op : Nat) (old x cmp : Word) : Word :=
  match op with
  | 0 => old + x
  | 1 => if old.slt x then old else x
  | 2 => if old.slt x then x else old
  | 3 => if old.ult x then old else x
  | 4 => if old.ult x then x else old
  | 5 => old &&& x
  | 6 => old ||| x
  | 7 => old ^^^ x
  | 8 => x
  | 9 => if old = cmp then x else old
  | _ => BitVec.ofNat 64 (addRne (old.toNat % 2 ^ 32) (x.toNat % 2 ^ 32))

/-- R121: the width of an ATOM's word in bytes. -/
def atomBytes (op : Nat) : Nat := if op = 10 then 4 else 8

/-- R174: the tiles of a subscription's walk. -/
def Sub.tiles (u : Sub) : Nat := u.box.foldl (· * ·) 1

/-- R174: the fills of a walk. -/
def Sub.fills (u : Sub) : Nat := (u.tiles + 2 ^ u.size - 1) / 2 ^ u.size

/-- R114, R115: an operation on a barrier finishes, its register result now known. -/
def Barrier.finish (c : Barrier) (op : Nat) (v : Option Word) : Barrier :=
  { c with count := c.count - 1,
           results := c.results.map fun r => if r.op = op then { r with val := v } else r }

/-- R114, R374: an operation on barrier n finishes; with the barrier complete, the subscriptions on it whose walks are
over end. -/
def Bank.finishOn (b : Bank) (n op : Nat) (v : Option Word) : Bank :=
  let b := b.setCb n ((b.cb n).finish op v)
  { b with subs := b.subs.filter fun u => !((b.cb u.cb).complete && decide (u.fills ≤ u.delivered)) }

/-! ### Landing (02 R15) -/

/-- R222: what a system register that a core or a partition holds reads as. -/
def State.sharedReg (s : State) (num : Nat) : Option Word :=
  let p := if h : s.part < 4 then s.hub.parts[s.part] else Partition.clear
  match num with
  | 0x0C => some (s.core.inten.setWidth 64)
  | 0x0D => some (s.core.pend.setWidth 64)
  | 0x0F => some s.core.timer
  | 0x18 => some (BitVec.ofNat 64 p.audRate)
  | 0x19 => some p.audSeed
  | 0x1A => some (if p.audAct then 1 else 0)
  | 0x1C => some (BitVec.ofNat 64 p.qth)
  | _ => none

/-- R222: the first write of a guarded bank to such a register since its CKPT keeps the old contents. -/
def State.logSys (s : State) (num : Nat) : State :=
  let b := s.core.bank
  match s.sharedReg num with
  | some v =>
    if b.status.guard && !(b.sysUndo.any fun x => x.1 == num) then
      s.setBank { b with sysUndo := b.sysUndo ++ [(num, v)] }
    else s
  | none => s

/-- R222: a kept register takes its old contents again; of PEND, the bits that were set then. -/
def State.undoSys (s : State) (x : Nat × Word) : State :=
  if x.1 = 0x0D then s.setCore { s.core with pend := s.core.pend ||| x.2.setWidth 4 } else s.putSys x.1 x.2

/-- A write to the window in flight: a store, or an ATOM on a pinned line. -/
def Eff.isWrite : Eff → Bool
  | .store _ _ _ | .atom _ _ _ _ _ _ _ => true
  | _ => false

/-- R121: an ATOM's word in a memory becomes its new value. -/
def atomOn (m : Mem) (pa op : Nat) (x cmp : Word) : List Byte :=
  leBytes (atomBytes op) (atomNew op (BitVec.ofNat 64 (readNat m pa (atomBytes op))) x cmp).toNat

/-- A window with a write in flight landed. -/
def overlay (m : Mem) (e : Pend) : Mem :=
  match e.eff with
  | .store a bs _ => writeBytes m a bs
  | .atom a op x cmp _ _ f => writeBytes m a (match f with
      | some y => y.1
      | none => atomOn m a op x cmp)
  | _ => m

/-- R122, R124: an ATOM in flight has performed for the others of its core: its bytes and its old value stand. -/
def Core.fixAtom (c : Core) (e : Pend) : Pend :=
  match e.eff with
  | .atom a op x cmp cb id none =>
    let m := ((byDue c.bank.pend).takeWhile fun y => y != e).foldl overlay c.store
    { e with eff := .atom a op x cmp cb id (some (atomOn m a op x cmp, BitVec.ofNat 64 (readNat m a (atomBytes op)))) }
  | _ => e

/-- R124, R126, R134: the writes in flight that issued before a performed release become visible to the core's drift threads
and engines; they still land at their ticks. So do those that a trap has set aside. -/
def Core.publish (c : Core) (upto : Nat) : Core :=
  let see (e : Pend) : Pend := if e.eff.isWrite && decide (e.seq < upto) then { c.fixAtom e with pub := true } else e
  { c with bank := { c.bank with
      pend := c.bank.pend.map see, parked := c.bank.parked.map fun q => { q with pend := q.pend.map see } } }

/-- R134: a write that issued after a FENCE.rel is visible: what issued before the fence is visible too. -/
def Core.afterFence (c : Core) (seq : Nat) : Core := if c.bank.fence ≤ seq then c.publish c.bank.fence else c

/-- R126, R136: a release by the agent that acts. The primary's writes in flight that it covers are visible from it on. -/
def State.releaseHere (s : State) (scope : Nat) : State :=
  let s := s.release scope
  match s.agent with
  | .primary => s.setCore (s.core.publish s.core.bank.seq)
  | .drift _ => s

/-- The effect of one result in flight. -/
def State.landOne (s : State) (e : Pend) : State :=
  let c := s.core
  let b := c.bank
  match e.eff with
  | .s n v => s.setBank ((b.setS n v).latchS v)
  | .sPlain n v => s.setBank (b.setS n v)
  | .v n tag bits k =>
    let r := mergedV (b.vreg n) tag bits k
    s.setBank ((b.setV n r).latchIn e.unit r)
  | .vlatch tag bits => s.setBank (b.latchIn e.unit { bits := bits, tag := tag })
  | .p n v compl =>
    let b := b.setP n v
    let b := if compl then b.setP (n + 8) (!v) else b
    s.setBank (if e.unit = 2 then b.latchS (if v then 1 else 0) else b)
  | .k n bits en lanes => s.setBank (b.setK n (mergedK (b.mask (BitVec.ofNat 3 n)) bits en lanes))
  | .b n v => s.setBank (b.setB n v)
  | .sys num v => (s.logSys num).putSys num v
  | .allot tiles n => s.setBank (b.setAllot tiles n)
  | .gen n fld v => s.setBank (if h : n < 8 then { b with gens := b.gens.set n ((b.gens[n]).put fld v) } else b)
  | .rowb n => s.setBank { b with rowb := n }
  | .flip wa wb => s.setCore { c with planes := c.planes.flip wa wb }
  | .shadow plane code wa wb scales =>
    s.setCore { c with planes := c.planes.load plane code wa wb scales, bank := { b with loader := none } }
  | .pin first n =>
    (s.setCore { c with store := zeroNew c.store b.pins first n,
                        bank := { b with pins := pinRange b.pins first n } }).evictWays
  | .unpin first n => s.setBank { b with pins := unpinRange b.pins first n }
  | .ldt id t => s.setCore { c with bank := { b with tensors := sput b.tensors id t },
                                    xlats := c.xlats.filter fun x => !(x.bank == c.curBank && x.tid == id) }
  | .tileZero a tag => s.setBank { b with acc := sput b.acc a { tag := tag, rows := [] } }
  | .accRow a r cols v tag => s.setBank (b.putRow a r (keepCols ((b.tile a).row r) v cols) tag)
  | .seg a r sg bits => s.setBank (b.putRow a r (putSeg ((b.tile a).row r) sg bits) none)
  | .store a bytes rel =>
    let s := match rel with
      | some sc => (s.release sc).setCore ((s.release sc).core.publish e.seq)
      | none => s
    s.setCore (Core.afterFence { s.core with store := writeBytes s.core.store a bytes } e.seq)
  | .atom a op x cmp cb id f =>
    let w := f.getD (atomOn c.store a op x cmp, BitVec.ofNat 64 (readNat c.store a (atomBytes op)))
    s.setCore (Core.afterFence { c with store := writeBytes c.store a w.1, bank := b.finishOn cb id (some w.2) } e.seq)

/-- The tick after the last tracked read of a line, or `t` when none comes at or after it. -/
def Bank.afterReads (b : Bank) (line t : Nat) : Nat :=
  b.tracked.foldl (fun m r => if r.1 = line && decide (t ≤ r.2) then max m (r.2 + 1) else m) t

/-- R122, R321: an ATOM whose line a tracked stream still has to read when it falls due performs in the tick after the
last of these reads, where it claims its port. -/
def Bank.holdAtoms (b : Bank) : Bank :=
  b.pend.foldl (fun b e =>
    match e.eff with
    | .atom a _ _ _ _ _ _ =>
      let land := b.afterReads (a / 128) b.tick
      if e.due ≤ b.tick && b.tick < land then
        { b with pend := b.pend.map (fun x => if x == e then { e with due := land } else x),
                 claims := b.claims ++ [(land, a / 128 % 16)] }
      else b
    | _ => b) b

/-- R5, R15, R60: every result due by the bank's tick lands in issue order; STATUS flags are set last. -/
def State.landDue (s : State) : State :=
  let b := s.core.bank
  let due := b.pend.filter fun e => decide (e.due ≤ b.tick)
  let rest := b.pend.filter fun e => !(decide (e.due ≤ b.tick))
  let s := due.foldl State.landOne (s.setBank { b with pend := rest })
  s.setBank (due.foldl (fun b e => b.setFlags e.flags) s.core.bank)

end Sys2Proof.Machine
end

