-- ==== Sys2Proof/Machine/Access.lean ====
section
/-! DEFINITION. The access checks (05 R98-R100), translation (R105, R107), the ports and hazards of the local store
(02 R36, 04 R78, R89), and global memory as the agents read and write it. -/

namespace Sys2Proof.Machine

/-! ### The access check R99 -/

/-- R98: bits 63:57 equal bit 56. -/
def canonical (a : Nat) : Bool := decide (a < 2 ^ 56) || decide (2 ^ 64 - 2 ^ 56 ≤ a)

/-- R99 step 1: the first and last byte are canonical and the last lies in the half of the first. -/
def step1 (a len : Nat) : Bool :=
  canonical a && (if a < 2 ^ 56 then decide (a + len - 1 < 2 ^ 56) else decide (a + len - 1 < 2 ^ 64))

/-- The window's size (R98). -/
def windowBytes : Nat := 0x800000

/-- R99 steps 1 to 3; an empty range is checked as its first byte. -/
def checkSteps13 (user : Bool) (a len al : Nat) : Option Nat :=
  if !(step1 a (max len 1)) then some 0x07
  else if user && decide (2 ^ 56 ≤ a) then some 0x0C
  else if a % al ≠ 0 then some 0x08
  else none

/-- R267: the hub register window. -/
def inHubWindow (a : Nat) : Bool := decide (0xFFFFFFFFFFFF0000 ≤ a)

/-- The lines a range touches. -/
def linesOf (a len : Nat) : List Nat :=
  if len = 0 then [] else (List.range ((a + len - 1) / 128 - a / 128 + 1)).map (a / 128 + ·)

/-- The mask of the lines first .. first + n - 1. -/
def lineMask (first n : Nat) : BitVec 65536 := BitVec.ofNat 65536 ((2 ^ n - 1) * 2 ^ first)

/-- R99 steps 4 and 5 over a range of window lines: 0x06 when a line is pinned by neither bank, 0x0D when one is
pinned by the other bank.
Log entry 60, DEDUCED. -/
def checkLines (own other : BitVec 65536) (first n : Nat) : Option Nat :=
  let m := lineMask first n
  if m &&& ~~~(own ||| other) ≠ 0 then some 0x06
  else if m &&& ~~~own ≠ 0 then some 0x0D
  else none


/-- R99: an access that must lie wholly in the local window; in the hub register window it raises 0x08 (R267). -/
def State.checkLocal (s : State) (a len al : Nat) : Option Nat :=
  match checkSteps13 (!s.sup?) a len al with
  | some c => some c
  | none =>
    if inHubWindow (a + len - 1) then some 0x08
    else if windowBytes < a + len then some 0x06
    else if len = 0 then none
    else checkLines s.core.bank.pins s.core.other.pins (a / 128) ((a + len - 1) / 128 - a / 128 + 1)

/-- R98: an address in the window. -/
def inWindow (a : Nat) : Bool := decide (a < windowBytes)

/-- R98: an address in the hole. -/
def inHole (a : Nat) : Bool := decide (windowBytes ≤ a) && decide (a < 2 ^ 32)


/-- The effective address of a C-format operand: base plus offset modulo 2^64 (R99). -/
def State.ea (s : State) (o : COp) : Nat := (s.rs o.sa + o.imm.signExtend 64).toNat

/-- R99: a global access: steps 1 to 3, and 0x06 in the window or the hole. A scalar access to the hub window other
than the ones R267 allows is misaligned. -/
def State.checkGlobal (s : State) (a len al : Nat) : Option Nat :=
  match checkSteps13 (!s.sup?) a len al with
  | some c => some c
  | none => if decide (a < 2 ^ 32) then some 0x06 else if inHubWindow (a + len - 1) then some 0x08 else none

/-! ### Translation (05 R105, R107) -/

/-- What a translation gives. -/
inductive Xlat where
  | ok (pa : Nat)
  | absent
  | denied
  | unbacked (pa : Nat)
  deriving DecidableEq, Repr

/-- R105, R263: physical addresses that something backs; `guestShut` while no guest answers. -/
def backed (guestShut : Bool) (pa : Nat) : Bool :=
  decide (pa < 0x0C000000000) || (decide (0x10000000000 ≤ pa) && decide (pa < 0x20000000000)) ||
  (decide (0x20000000000 ≤ pa) && decide (pa < 0x28000000000) && !guestShut)

/-- R263: no guest is present, or it is fenced: its memory range accepts no traffic. -/
def State.guestShut (s : State) : Bool := s.hub.regs.guestFenced || !s.guest.present

/-- R107: the rights an access needs. -/
structure Rights where
  write : Bool
  user : Bool
  read : Bool
  deriving DecidableEq, Repr

/-- R105, R107: the walk: the indices still to use and the table's address; a table word that nothing backs gets an
error response. -/
def walk (m : Mem) (shut : Bool) (r : Rights) (off : Nat) : List Nat → Nat → Xlat
  | [], _ => .denied
  | [i], t =>
    let e := readNat m (t + 8 * i) 8
    if !(backed shut (t + 8 * i)) then .unbacked (t + 8 * i)
    else if e % 2 = 0 then .absent
    else if bitsAt e 6 10 ≠ 0 || bitsAt e 52 12 ≠ 0 then .denied
    else if (r.read && bitsAt e 1 1 == 0) || (r.write && bitsAt e 2 1 == 0) || (r.user && bitsAt e 3 1 == 0) then
      .denied
    else .ok (bitsAt e 16 36 * 65536 + off)
  | i :: is, t =>
    let e := readNat m (t + 8 * i) 8
    if !(backed shut (t + 8 * i)) then .unbacked (t + 8 * i)
    else if e % 2 = 0 then .absent
    else if bitsAt e 1 12 ≠ 0 || bitsAt e 52 12 ≠ 0 then .denied
    else walk m shut r off is (bitsAt e 13 39 * 8192)

/-- R107: the four table indices of a virtual address. -/
def walkIndices (va : Nat) : List Nat := [bitsAt va 46 11, bitsAt va 36 10, bitsAt va 26 10, bitsAt va 16 10]

/-- The partition's table root (R107). -/
def State.root (s : State) (part : Nat) : Nat := if h : part < 4 then (s.hub.parts[part]).root else 0

/-- R105, R107: translate a flat global address for a partition. -/
def State.translate (s : State) (part va : Nat) (r : Rights) : Xlat :=
  match walk s.mem s.guestShut r (va % 65536) (walkIndices va) (s.root part) with
  | .ok pa => if backed s.guestShut pa then .ok pa else .unbacked pa
  | x => x

/-! ### Ports, tracked reads and held output units -/

/-- R78: claim the ports of lines at a tick. -/
def Bank.claim (b : Bank) (tick : Nat) (lines : List Nat) : Bank :=
  { b with claims := b.claims ++ lines.map fun l => (tick, l % 16) }

/-- R124, R126: a write of the primary in flight is visible to an operation of a place in the primary's order: a release has
made it visible, or it precedes the operation. -/
def Pend.seenBy (seq : Nat) (e : Pend) : Bool := e.pub || decide (e.seq < seq)

/-- R129, R209: so is a write that a trap has set aside; an operation that issued after the trap sees it only once it is
published. -/
def Parked.seenBy (q : Parked) (seq : Nat) : Nat := if seq < 16 * (q.tick + 1) then seq else 0

/-- R124, R126, R128, R129: the window as an agent of the core other than the primary sees it: with the primary's writes
that a release has made visible, and with those that precede the operation it acts for in the primary's order. -/
def Core.seenBefore (c : Core) (seq : Nat) : Mem :=
  let here := byDue (c.bank.pend.filter (Pend.seenBy seq))
  let aside := c.bank.parked.flatMap fun q => byDue (q.pend.filter (Pend.seenBy (q.seenBy seq)))
  (here ++ aside).foldl overlay c.store

/-- R126: the window as the core's drift threads see it. -/
def Core.seen (c : Core) : Mem := c.seenBefore 0

/-- Bytes of a store in flight at the addresses of a later write take its values. -/
def patchBytes (a : Nat) (bs : List Byte) (x : Nat) (ys : List Byte) : List Byte :=
  ys.zipIdx.map fun y => if a ≤ x + y.2 && decide (x + y.2 < a + bs.length) then bs.getD (x + y.2 - a) 0 else y.1

/-- A write in flight after a later write to the same bytes. -/
def Pend.patch (a : Nat) (bs : List Byte) (e : Pend) : Pend :=
  match e.eff with
  | .store x ys rel => { e with eff := .store x (patchBytes a bs x ys) rel }
  | .atom x op v cmp cb id (some y) => { e with eff := .atom x op v cmp cb id (some (patchBytes a bs x y.1, y.2)) }
  | _ => e

/-- R124, R126, R128: a write to the window by an agent of the core other than the primary. It follows the writes that a
release has made visible, and those that precede the operation it acts for in the primary's order, so these keep its
bytes when they land; one that lands in the same cycle comes after it with its own (R343). -/
def Core.putSeen (c : Core) (a : Nat) (bs : List Byte) (seq : Nat := 0) : Core :=
  let late (e : Pend) : Pend :=
    if Pend.seenBy seq e && decide (c.bank.tick < e.due) then Pend.patch a bs (c.fixAtom e) else e
  let aside (q : Parked) : Parked :=
    { q with pend := q.pend.map fun e => if Pend.seenBy (q.seenBy seq) e then Pend.patch a bs e else e }
  { c with store := writeBytes c.store a bs,
           bank := { c.bank with pend := c.bank.pend.map late, parked := c.bank.parked.map aside } }

/-- R36, R37: the primary uses the port of a line at this tick. -/
def Bank.portTaken (b : Bank) (line : Nat) : Bool := b.claims.any fun c => c.1 == b.tick && c.2 == line % 16

/-- R78, R82: the first tick whose tracked reads the matrix engine has not made: the bank's tick, or the next one once an
issued stream or load has read in this tick. -/
def Bank.readTick (b : Bank) : Nat :=
  if (b.streams.any fun st => decide (st.issue ≤ b.tick) && decide (b.tick - st.issue < st.next)) ||
      (b.loader.any fun l => decide (l.issue ≤ b.tick) && decide (b.tick - l.issue < l.next)) then b.tick + 1
  else b.tick

/-- R78, R210: a stream or a load still has to read a line at a tick or later. With every issued one over, or read ahead
by a freeze, none has. -/
def Bank.stillReads (b : Bank) (line tick : Nat) : Bool :=
  (!b.streams.isEmpty || b.loader.isSome) && b.tracked.any fun t => t.1 == line && decide (tick ≤ t.2)

/-- R89: a write of lines landing at a tick would land at or before a tracked read. -/
def Bank.hazard (b : Bank) (lines : List Nat) (land : Nat) : Bool :=
  b.tracked.any fun t => decide (land ≤ t.2) && lines.contains t.1

/-- R170: the address of ring unit u of bank b. -/
def unitAddr (bank u : Nat) : Nat := 0x700000 - bank * 0x100000 + u * 0x10000

/-- R175: a write touches a declared output unit whose pull is due and not complete. -/
def State.unitHeld (s : State) (a len : Nat) : Bool :=
  match s.core.bank.task with
  | none => false
  | some t => t.outUnits.any fun u =>
      t.marked.contains u && !(t.pulled.contains u) &&
      decide (a < unitAddr s.core.curBank u + 65536) && decide (unitAddr s.core.curBank u < a + len)

/-- R222: the lines of a guarded bank's write that the undo log does not hold yet. -/
def State.newUndo (s : State) (lines : List Nat) : List Nat :=
  if s.core.bank.status.guard then lines.filter fun l => !(s.core.bank.undo.any fun u => u.1 == l) else []

/-- A line's bytes as bits. -/
def lineBits (m : Mem) (l : Nat) : BitVec 1024 := BitVec.ofNat 1024 (readNat m (128 * l) 128)

/-- R222: log the old contents of lines a guarded bank writes for the first time since its CKPT. -/
def State.logUndo (s : State) (lines : List Nat) : State :=
  let b := s.core.bank
  s.setBank { b with undo := b.undo ++ (s.newUndo lines).map fun l => (l, lineBits s.core.store l) }

/-- The checks of a primary write to the window: output units (0x0A), tracked streams (0x0A), and the undo log's
size in guarded mode (0x21). -/
def State.storeCheck (s : State) (a len land : Nat) : Option Nat :=
  if s.unitHeld a len || s.core.bank.hazard (linesOf a len) land then some 0x0A
  else if 512 < s.core.bank.undo.length + (s.newUndo (linesOf a len)).length then some 0x21
  else none

/-- A primary write of bytes to the window, landing `lat` ticks after issue on its claimed ports. -/
def State.storeAt (s : State) (lat a : Nat) (bytes : List Byte) (rel : Option Nat) : State :=
  let ls := linesOf a bytes.length
  let s := s.logUndo ls
  let b := s.core.bank
  s.setBank ((b.claim (b.tick + lat) ls).addPend lat (.store a bytes rel) 4 0)

/-! ### Machine checks (11 R227-R230) -/

/-- R227: an error recorded in a machine-check bank: a record of the same or a lower severity keeps the old one. -/
def McBank.log (m : McBank) (sev src unit code : Nat) (addr : Word) (synd : Nat) : McBank :=
  if !m.en then m
  else if m.valid && decide (sev ≤ m.sev) then
    { m with ovf := true, count := if m.code = code then m.count + 1 else m.count }
  else { m with valid := true, ovf := m.ovf || m.valid, sev := sev, src := src, unit := unit, code := code,
                addr := addr, count := 1, synd := synd }

/-- R227: banks 26 to 30 are reserved: they read zero and record nothing. -/
def mcReserved (n : Nat) : Bool := decide (26 ≤ n) && decide (n ≤ 30)

/-- R227, R228: log an error in bank n. -/
def Hub.mcLog (h : Hub) (n sev src unit code : Nat) (addr : Word) (synd : Nat) : Hub :=
  if hn : n < 32 then
    (if mcReserved n then h else { h with mc := h.mc.set n ((h.mc[n]).log sev src unit code addr synd) })
  else h

/-- R218: a PEND bit of a core is set. -/
def State.setPend (s : State) (c bit : Nat) : State :=
  let f (x : Core) : Core := { x with pend := x.pend ||| BitVec.ofNat 4 (2 ^ bit) }
  if c = s.cur then s.setCore (f s.core)
  else { s with others := sput s.others c (f ((sget s.others c).getD Core.clear)) }

/-- The cores of a partition's cells; of every cell for none. -/
def Hub.coresOf (h : Hub) (part : Option Nat) : List Nat :=
  (List.range 64).flatMap fun n =>
    if hn : n < 64 then
      let c := h.cells[n]
      if c.run == .enabled && c.part.isSome && (part.isNone || c.part == part) then (List.range 4).map (4 * n + ·) else []
    else []

/-- R218, R228: an error logged in bank n, with PEND.MCHK on the cores of the affected partition when the bank
notifies.
Log entry 40, DEDUCED. -/
def State.logMc (s : State) (n sev src unit code : Nat) (addr : Word) (synd : Nat) (part : Option Nat) : State :=
  let s := s.setHub (s.hub.mcLog n sev src unit code addr synd)
  let tell := if hn : n < 32 then (s.hub.mc[n]).en && (s.hub.mc[n]).notify else false
  if tell then (s.hub.coresOf part).foldl (fun s c => s.setPend c 2) s else s

/-- R226, R229: an error response to a partition's agent, logged in the hub's bank with its address. -/
def State.logErrorFor (s : State) (part addr : Nat) : State :=
  s.logMc 16 2 16 0 0x0020 (BitVec.ofNat 64 addr) 0 (some part)

/-- R226, R229: an error response to the agent that acts. -/
def State.logErrorResponse (s : State) (addr : Nat) : State := s.logErrorFor s.part addr

/-! ### Global memory -/

/-- The home die's clock component of a physical address: its stack's base die, the guest, or the hub (R105, R138,
R142). -/
def homeOf (pa : Nat) : Nat :=
  if pa < 0x0C000000000 then 4 + pa / 2 ^ 36
  else if 0x20000000000 ≤ pa && decide (pa < 0x28000000000) then 17 else 16

/-- R142: the component-wise maximum. -/
def mergeClock (a b : List Nat) : List Nat := (List.range 18).map fun c => max (a.getD c 0) (b.getD c 0)

/-- R142: a write that leaves die `src` for die `dst` carries the clock of the one into that of the other. -/
def State.carry (s : State) (src dst : Nat) : State :=
  if src = dst then s
  else { s with clocks := s.clocks.mapIdx fun i x => if i = dst then mergeClock x (s.clocks.getD src []) else x }

/-- Write bytes to physical memory.
Log entry 4, DESIGN CHOICE. -/
def State.putMem (s : State) (pa : Nat) (bytes : List Byte) : State := { s with mem := writeBytes s.mem pa bytes }

/-- R122: lines that another agent writes leave the unpinned ways of the cores that hold them; `own` when the writer is no
core, so that the core that acts gives them up too. -/
def State.disown (s : State) (lines : List Nat) (own : Bool) : State :=
  let drop (c : Core) : Core := { c with ways := c.ways.filter fun l => !(lines.contains l.line) }
  { s with others := s.others.map (fun (x : Nat × Core) => (x.1, drop x.2)), core := if own then drop s.core else s.core }

/-- R122, R142: a write to physical memory by an agent of die `src`: it carries that die's clock to the line's home, and no
other core owns its lines any more. -/
def State.putFrom (s : State) (src pa : Nat) (bytes : List Byte) : State :=
  ((s.putMem pa bytes).disown (linesOf pa bytes.length) (decide (4 ≤ src))).carry src (homeOf pa)

/-- R104, R106: the lines of a range of physical memory pass the memory-side caches for an agent that no compute die serves. -/
def State.touchHome (s : State) (pa len hint : Nat) (write : Bool) : State :=
  (linesOf pa len).foldl (fun s l =>
    s.touchLlc { line := l, hint := hint, valid := 3, dirty := if write then 3 else 0 }) s

/-- R179: the cycle that the hub counts by: that of the core that is furthest.
Log entry 82, DEDUCED. -/
def State.now (s : State) : Nat := s.others.foldl (fun n x => max n x.2.cycle) s.core.cycle

/-- R140: the lines of the hold buffer that a held write needs, each in its space: physical memory, one for the words of
BARRs whose page is not present, one for each core's window, and one for each XROUTE that leaves through a port. -/
def HeldWrite.lines : HeldWrite → List (Nat × Nat)
  | .write pa bytes => (linesOf pa bytes.length).map (0, ·)
  | .atom pa op _ _ => (linesOf pa (atomBytes op)).map (0, ·)
  | .arrive pa _ _ => (linesOf (pa + 8) 8).map (0, ·)
  | .barr _ _ (some pa) => [(0, pa / 128)]
  | .barr op _ none => [(1, op)]
  | .window c a _ bytes => (linesOf a bytes.length).map (2 + c, ·)
  | .route _ op r => (linesOf 0 r.rows.length).map (258 + op, ·)
  | .release _ | .cond _ _ _ _ => []

/-- R140: global memory with a held write performed. -/
def HeldWrite.onMem (m : Mem) : HeldWrite → Mem
  | .write pa bytes => writeBytes m pa bytes
  | .atom pa op x cmp => writeBytes m pa (atomOn m pa op x cmp)
  | .arrive pa _ _ => writeBytes m (pa + 8) (leBytes 8 (readNat m (pa + 8) 8 + 1))
  | .barr _ _ (some pa) => writeBytes m pa (atomOn m pa 0 1 0)
  | .barr _ _ none | .window _ _ _ _ | .route _ _ _ | .release _ | .cond _ _ _ _ => m

/-- R140: a bank with a further write in its hold buffer. -/
def Bank.holding (b : Bank) (w : HeldWrite) : Bank := { b with heldWrites := b.heldWrites ++ [w] }

/-- R140: the lines held for a CKPT. -/
def Bank.heldLines (b : Bank) : List (Nat × Nat) := (b.heldWrites.flatMap HeldWrite.lines).eraseDups

end Sys2Proof.Machine
end

