-- ==== Sys2Proof/Machine/MatrixOps.lean ====
section
/-! DEFINITION. What the matrix engine does in one tick: reads of weight rows, activation rows and accumulator rows,
and the row results they put in flight (04 R79-R91). -/

namespace Sys2Proof.Machine

/-- R73: the lines of an MLDW: weight row k from base + k*Lw. -/
def readRow (m : Mem) (line lines : Nat) : List Byte := readBytes m (128 * line) (128 * lines)

/-- The element of a row of bytes at index k, w bytes wide. -/
def byteElem (bs : List Byte) (w k : Nat) : Nat := leNat ((bs.drop (w * k)).take w)

/-- R96: operand element (a, b) of a generator, transposed when T = 1. -/
def genAt (g : Gen × Word × Bool) (a b : Nat) : Nat :=
  if g.2.2 then genElem g.1 g.2.1 b a else genElem g.1 g.2.1 a b

/-- R79, R96: the bytes of weight row k. -/
def loaderRow (m : Mem) (l : Loader) (k : Nat) : List Byte :=
  match l.gen with
  | none => readRow m (l.base + k * weightLines l.code) (weightLines l.code)
  | some g =>
    let w := codeBytes l.code
    let n := if w = 1 then 256 else 128
    (List.range n).flatMap fun j => leBytes w (genAt g k j)

/-- R79: an MLDW still has to read the rows of a tick. -/
def Loader.reads (l : Loader) (tick : Nat) : Bool :=
  decide (l.issue ≤ tick) && decide (tick - l.issue < 64) && decide (l.next ≤ tick - l.issue)

/-- R79: one tick of an MLDW: two weight rows, and a scale line in its first eight ticks. -/
def loaderTick (m : Mem) (tick : Nat) (l : Loader) : Loader :=
  let c := tick - l.issue
  if !(l.reads tick) then l
  else
    let r0 := loaderRow m l (2 * c)
    let r1 := loaderRow m l (2 * c + 1)
    let sc := if codeScaled l.code && decide (c < 8) then
        [BitVec.ofNat 1024 (leNat (readRow m (l.base + 128 * weightLines l.code + c) 1))] else []
    { l with wa := l.wa ++ [vbitsOf (r0.take 256), vbitsOf (r1.take 256)],
             wb := if l.code = 4 then l.wb ++ [vbitsOf (r0.drop 256), vbitsOf (r1.drop 256)] else l.wb,
             scales := l.scales ++ sc, next := c + 1 }

/-- R73: weight element (k, j) of a plane; code 4 spans the paired planes. -/
def planeElem (p q : Plane) (code k j : Nat) : Nat :=
  let w := 8 * codeBytes code
  if code = 4 && decide (64 ≤ j) then laneAt 32 (q.rows.getD k 0) (j - 64)
  else laneAt w (p.rows.getD k 0) j

/-- R73: the scale of block b of column j: byte 256*b + j of the scale lines. -/
def planeScale (p : Plane) (b j : Nat) : Nat :=
  let n := 256 * b + j
  (p.scales.getD (n / 128) 0).toNat / 2 ^ (8 * (n % 128)) % 256

/-- R81, R84: whether row i of a stream takes its weights from WA. -/
def Stream.useWa (st : Stream) (i : Nat) : Bool :=
  st.sel == 0 || (st.sel == 2 && decide (i < st.rowb)) || st.code == 4

/-- R81: the dot product inputs of column j of row i. -/
def Stream.dot (st : Stream) (i j : Nat) (act : List Nat) (scl : List Byte) : DotIn :=
  let p := if st.useWa i then st.wa else st.wb
  let wc := p.code.getD 0
  { w := (List.range 128).map fun k => planeElem p st.wb wc k j,
    a := act,
    ws := (List.range 4).map fun b => planeScale p b j,
    as := (List.range 4).map fun b => byteElem scl 1 (4 * (i % 32) + b) }

/-- The steps of a stream: one per row, six under NP5 (R82). -/
def Stream.steps (st : Stream) : Nat := if st.np = 5 then 6 * st.rows else st.rows

/-- R82: activation row i. -/
def Stream.readAct (st : Stream) (m : Mem) (i : Nat) : List Nat :=
  match st.gen with
  | some g => (List.range 128).map fun k => genAt g i k
  | none =>
    let bs := readRow m (st.base + i * actLines st.code) (actLines st.code)
    (List.range 128).map fun k => byteElem bs (codeBytes st.code) k

/-- R73, R82: the scale line read with row 32q, kept for the rows it serves. -/
def Stream.readScl (st : Stream) (m : Mem) (i : Nat) : List Byte :=
  if (st.code == 5 || st.code == 6) && i % 32 == 0 then readRow m (st.base + st.rows * actLines st.code + i / 32) 1
  else st.scl

/-- R81: the row a step gives and whether an NP4 sum clamped. -/
def Stream.value (st : Stream) (i pass : Nat) (act : List Nat) (scl : List Byte) (old : AccRow) : AccRow × Bool :=
  let wc := ((if st.useWa i then st.wa else st.wb).code).getD 0
  let cols := (List.range (profileCols st.np)).map fun j =>
    let d := st.dot i j act scl
    if st.np = 5 then (np5After (pass + 1) d (accCol old j), false)
    else profileElem st.np wc st.code d (accCol old j)
  (accOf (cols.map (·.1)), cols.any (·.2))

/-- R81, R82: one tick of a stream: its step reads the row and puts the accumulator row in flight. -/
def streamTick (b : Bank) (m : Mem) (st : Stream) : Stream × List Pend :=
  let n := b.tick - st.issue
  if b.tick < st.issue || st.steps ≤ n || n < st.next then (st, [])
  else
    let i := if st.np = 5 then n / 6 else n
    let pass := if st.np = 5 then n % 6 else 0
    let old := if pass ≠ 0 then st.old else if st.zero then 0 else (b.tile st.acc).row i
    let act := if pass ≠ 0 then st.act else st.readAct m i
    let scl := if pass ≠ 0 then st.scl else st.readScl m i
    let v := st.value i pass act scl old
    let cols := if st.zero then 256 else profileCols st.np
    let tag := if st.zero && i == 0 then some (profileTag st.np) else none
    ({ st with next := n + 1, old := old, act := act, scl := scl },
     [{ due := st.issue + 40 + n, seq := st.seq, eff := .accRow st.acc i cols v.1 tag, unit := 4,
        flags := if v.2 then 2 else 0 }])

/-- R86: lines of an output row. -/
def epiLines (out : Tag) : Nat :=
  match out.toNat with
  | 1 | 8 => 8
  | 2 => 4
  | _ => 2

/-- R86, R87: one tick of an MEPI: row i is read and its output lines put in flight. -/
def epiTick (b : Bank) (e : Epi) : List Pend :=
  let i := b.tick - e.issue
  if b.tick < e.issue || e.rows ≤ i || i < e.next then []
  else
    let t := b.tile e.acc
    let row := t.row i
    let cols := (List.range 256).map fun j =>
      epilogueElem t.tag (accCol row j) (e.param.map fun p => (p.1.getD j 0, p.2.getD j 0)) e.act e.out
    let bytes := cols.flatMap fun c => leBytes (tagWidth e.out / 8) c.1
    [{ due := e.issue + 24 + i, seq := e.seq, eff := .store (128 * (e.dest + i * epiLines e.out)) bytes none,
       unit := 3, flags := if cols.any (·.2) then 1 else 0 }]

/-- R88, R364: one tick of an MRED: this member reads its row. -/
def mredTick (b : Bank) (r : Mred) : Mred :=
  let i := b.tick - r.issue
  if b.tick < r.issue || r.rows ≤ i || i < r.out.length then r else { r with out := r.out ++ [(b.tile r.acc).row i] }

/-- A bank of any core: the current core's banks stand in `core`. -/
def State.coreAt (s : State) (n : Nat) : Core := if n = s.cur then s.core else (sget s.others n).getD Core.clear

/-- The bank of a number of a core. -/
def Core.bankAt (c : Core) (n : Nat) : Bank := if n = c.curBank then c.bank else c.other

/-- The window as the engine that acts for operation `seq` of a bank sees it. -/
def Core.bankSeen (c : Core) (bank seq : Nat) : Mem := if bank = c.curBank then c.seenBefore seq else c.store

/-- R88: the rows i the four cell positions read for MRED number `seq`; a row not read yet is read now. -/
def State.mredRows (s : State) (bank acc seq i : Nat) : List AccRow :=
  (List.range 4).map fun q =>
    let b := (s.coreAt (s.cur / 4 * 4 + q)).bankAt bank
    let all := b.mreds ++ b.parked.flatMap (·.mreds)
    match all.find? (fun r => r.seq == seq) with
    | some r => r.out.getD i ((b.tile r.acc).row i)
    | none => (b.tile acc).row i

/-- R88: result row i of an MRED on the core at position 0. -/
def State.mredRow (s : State) (r : Mred) (i : Nat) : List Pend :=
  let b := s.core.bank
  if b.pos % 4 ≠ 0 || decide (r.rows ≤ i) then []
  else
    let rows := s.mredRows s.core.curBank r.acc r.seq i
    let cols := (List.range 256).map fun j =>
      mredElem r.tag (accCol (rows.getD 0 0) j) (accCol (rows.getD 1 0) j) (accCol (rows.getD 2 0) j)
        (accCol (rows.getD 3 0) j)
    [{ due := r.issue + 48 + i, seq := b.seq, eff := .accRow r.acc i 256 (accOf (cols.map (·.1))) none, unit := 4,
       flags := if cols.any (·.2) then 2 else 0 }]

/-- R88: the row that position 0 puts in flight one tick before it lands. -/
def State.mredLand (s : State) (r : Mred) : List Pend :=
  if s.core.bank.tick < r.issue + 47 then [] else s.mredRow r (s.core.bank.tick - (r.issue + 47))

/-- R117: the rows of an MRED that are still to come, taken at once. -/
def State.mredRest (s : State) (r : Mred) : List Pend :=
  (List.range r.rows).flatMap fun i => if s.core.bank.tick ≤ r.issue + 47 + i then s.mredRow r i else []

/-- What the matrix engine of the running bank does in this tick, once whatever comes to it in the same tick later; `red`
is false while it only reads ahead. -/
def State.matrixTickWith (s : State) (red : Bool) : State :=
  let b := s.core.bank
  let m := s.core.store
  let sts := b.streams.map (streamTick b m)
  let ld := b.loader.map (loaderTick m b.tick)
  let ready : List Pend := match ld with
    | some l =>
      if b.tick = l.issue + 63 && b.loader.any (·.reads b.tick) then
        [{ due := l.issue + 64, seq := l.seq, eff := .shadow l.plane l.code l.wa l.wb l.scales, unit := 4, flags := 0 }]
      else []
    | none => []
  let rows := sts.flatMap (·.2) ++ b.epis.flatMap (epiTick b) ++ ready ++ (if red then b.mreds.flatMap s.mredLand else [])
  s.setBank { b with
    streams := (sts.map (·.1)).filter fun st => decide (b.tick + 1 < st.issue + st.steps),
    epis := (b.epis.map fun e => if e.issue ≤ b.tick then { e with next := max e.next (b.tick - e.issue + 1) } else e).filter
      fun e => decide (b.tick + 1 < e.issue + e.rows),
    loader := ld,
    mreds := (b.mreds.map (mredTick b)).filter fun r => decide (b.tick < r.issue + 64 + r.rows),
    pend := rows.foldl (fun p e => insertPend e p) b.pend }

/-- What the matrix engine of the running bank does in this tick. -/
def State.matrixTick (s : State) : State := s.matrixTickWith true

/-- An effect on accumulator tiles. -/
def Eff.onTile : Eff → Bool
  | .tileZero _ _ | .accRow _ _ _ _ _ | .seg _ _ _ _ => true
  | _ => false

/-- R210: one tick of reading ahead: the engine reads as it would, and tile results land in the copy it reads. -/
def State.readAhead (s : State) : (fuel : Nat) → State
  | 0 => s
  | n + 1 =>
    let b := s.core.bank
    if b.streams.isEmpty && b.epis.isEmpty && b.loader.isNone && b.mreds.all (fun r => r.rows ≤ r.out.length) then s
    else
      let s := s.matrixTickWith false
      let b := s.core.bank
      let s := s.setBank { b with tick := b.tick + 1, loader := if b.loader.any (fun l => l.next == 64) then none
                                                                else b.loader }
      let due := s.core.bank.pend.filter fun e => e.due == s.core.bank.tick && e.eff.onTile
      State.readAhead (due.foldl State.landOne s) n

/-- R210: every issued MLDW, MMUL, MMULZ, MEPI and MRED reads at once every row it has not read; the rows stay in
flight with their due ticks and the tiles keep what they hold. -/
def State.freezeMatrix (s : State) : State :=
  let b := s.core.bank
  let v := (State.readAhead s 1000).core.bank
  s.setBank { b with
    pend := v.pend, streams := [], epis := [], loader := none,
    mreds := b.mreds.map fun r => match v.mreds.find? (fun q => q.seq == r.seq) with
      | some q => { r with out := q.out }
      | none => r }

end Sys2Proof.Machine
end

