-- ==== Sys2Proof/Machine/Ops.lean ====
section
/-! DEFINITION. The shared operations of control: faults and guards (11 R204-R206, 18 R300), taking an exception
(R208-R214) and returning from it (R216), translation events (05 R117), the wait on a completion barrier (R115),
and the bank switch (02 R30). -/

namespace Sys2Proof.Machine

/-! ### Faults (11 R204-R206) -/

/-- R207: the bits of CAUSE. -/
def causeBits (code : Nat) (thread : Option Nat) (nested : Bool) (cb tcode : Nat) : Word :=
  BitVec.ofNat 64 (code % 256 + (match thread with | some t => t % 8 * 256 + 2048 | none => 0) +
    (if nested then 4096 else 0) + cb % 8 * 8192 + tcode % 65536 * 65536)

/-- R10: the running loop has a further iteration once its present one ends. -/
def LoopState.more (l : LoopState) : Bool := decide (l.iter < l.trip + l.stages - 1)

/-- R18, R10, R24, R159: the bundle that issues after the running one: a loop's first bundle or the bundle after a
loop of no iteration, a branch target, the next iteration or the bundle after the kernel, or the next in order. -/
def Bank.nextPc (b : Bank) : Word :=
  match b.newLoop, b.branch with
  | some (l, after), _ => if l.active then l.start else after
  | none, some t => t
  | none, none =>
    if b.loop.active && decide (b.loop.len ≤ b.loop.idx + 1) then
      (if b.loop.more then b.loop.start else b.loop.exit.getD b.next)
    else b.next

/-- R205: the address EPC takes: the bundle at fault, or the bundle that would issue next for a fault of a drift thread
and for a datapath or uncorrectable error: the one after the bundle that has issued in this cycle, else the one at the
bank's pc. -/
def faultPc (b : Bank) (r : Raised) : Word :=
  if (r.thread.isSome || r.late) && b.mid then b.nextPc else b.pc

/-- Change the launch of a number. -/
def Hub.mapLaunch (h : Hub) (id : Nat) (f : Launch → Launch) : Hub :=
  { h with launches := h.launches.map fun l => if l.id = id then f l else l }

/-- R206: a launch keeps the first fault that ends it: its record, and the core, the bank, the task's place and the EPC
that its status block names. -/
def Launch.fail (l : Launch) (r : Raised) (place : Option (Nat × Nat × Nat × Nat × Word)) : Launch :=
  match l.fault with
  | some _ => l
  | none => { l with fault := some r, faultAt := place }

/-- R204, R205, R206: a fault that ends the launch: EPC and CAUSE name it, the bank stops, the launch keeps the
record, and the end of the launch is due. A fault in a handler or of an ERET is NESTED. -/
def State.takeFault (s : State) (r : Raised) : State :=
  let b := s.core.bank
  let pc := faultPc b r
  let b' := { b with epc := pc, cause := causeBits r.cause r.thread (b.handler || r.nested) r.cb 0, run := .stopped }
  let s := s.setBank b'
  match b.task with
  | none => s
  | some t =>
    let h := s.hub.mapLaunch t.launch fun l => l.fail r (some (s.cur, s.core.curBank, t.x, t.y, pc))
    (s.setHub h).later [.event (.faultEndLaunch t.launch)]

/-- A fault raised by the instruction that issues (R205). The bank keeps what was raised, since a fault of the
primary stops its whole bundle. -/
def State.raiseAs (s : State) (r : Raised) : Out :=
  .next (s.takeFault r |>.setBank { (s.takeFault r).core.bank with raised := some r })

/-- A fault of the agent that issues, with its barrier, its address and its further word. -/
def State.raiseWith (s : State) (cause cb addr aux : Nat) : Out :=
  s.raiseAs { cause := cause, thread := s.agentThread, cb := cb, addr := addr, aux := aux }

/-- A fault with a cause code only. -/
def State.raise (s : State) (cause : Nat) : Out := s.raiseWith cause 0 0 0

/-- R205: a fault that an ERET raises, with NESTED set. -/
def State.raiseNested (s : State) (cause : Nat) : Out :=
  s.raiseAs { cause := cause, thread := s.agentThread, cb := 0, addr := 0, aux := 0, nested := true }

/-! ### Guards (18 R300) -/

/-- R300, R27: the guard of an instruction the primary issues. -/
def Bank.guard (b : Bank) (g : BitVec 4) : Bool :=
  if b.isMbr && decide (11 ≤ g.toNat) then b.leaf == some (g.toNat - 11) else b.pred g

/-- R34, R35: the thread whose turn it is issues an operation that completes `lat` cycles later. -/
def State.driftIssue (s : State) (lat : Nat) (e : DriftEff) : State :=
  s.setThread { s.thread with busy := true, due := some (s.core.cycle + lat), eff := e }

/-- R35: the thread issues an operation of variable latency; its completion is due as an event. -/
def State.driftWait (s : State) (e : DriftEff) : State :=
  let s := s.setThread { s.thread with busy := true, due := none, eff := e }
  match s.agent with
  | .primary => s
  | .drift n => (s.rouse s.cur).later [.event (.driftOpComplete s.cur n)]

/-- An instruction without effect: nothing for the primary, a 4-cycle operation for a drift thread (R35). -/
def State.skip (s : State) : State := match s.agent with | .primary => s | .drift _ => s.driftIssue 4 .none

/-- R31, R300: whether the instruction takes effect; in drift code guard codes 4 to 15 raise cause 0x01. -/
def State.guarded (s : State) (g : BitVec 4) (k : State → Out) : Out :=
  match s.agent with
  | .primary => if s.core.bank.guard g then k s else .next s
  | .drift n =>
    if 4 ≤ g.toNat then s.raise 0x01
    else if (s.core.thread n).pred g.toNat then k s else .next s.skip

/-- R31: an instruction drift threads cannot issue: in drift code it raises cause 0x01.
Log entry 12, DEDUCED. -/
def State.primaryOnly (s : State) (g : BitVec 4) (k : State → Out) : Out :=
  match s.agent with
  | .primary => if s.core.bank.guard g then k s else .next s
  | .drift _ => s.raise 0x01

/-- R31: every register field of a drift instruction is below 32. -/
def State.dregsOk (s : State) (fs : List (BitVec 6)) : Bool :=
  match s.agent with
  | .primary => true
  | .drift _ => fs.all fun f => decide (f.toNat < 32)

/-- R202: in user mode no instruction may name s56 to s59 as its destination. -/
def State.destOk (s : State) (d : BitVec 6) : Bool :=
  match s.agent with
  | .primary => s.sup? || !(decide (56 ≤ d.toNat) && decide (d.toNat ≤ 59))
  | .drift _ => true


/-! ### The frame and the Rime entries (11 R209-R213) -/

/-- R213: a Rime entry: its fields and its value. -/
structure Rime where
  dest : Nat
  cls : Nat
  bar : Bool
  faulted : Bool
  cb : Nat
  remain : Nat
  tag : Nat
  unit : Nat
  flags : Nat
  val : Word
  bits : VBits
  deriving DecidableEq, Repr

/-- R209: a result in flight that a Rime entry holds. -/
def Eff.inRime : Eff → Bool
  | .s _ _ | .sPlain _ _ | .v _ _ _ _ | .vlatch _ _ | .p _ _ _ | .k _ _ _ _ | .b _ _ => true
  | _ => false

/-- R211: a Rime entry that holds a vector or mask value. -/
def Eff.inSlot : Eff → Bool
  | .v _ _ _ _ | .vlatch _ _ | .k _ _ _ _ => true
  | _ => false

/-- R209: a result that keeps its schedule through a trap: an ATOM on a pinned line. -/
def Eff.keepsRunning : Eff → Bool
  | .atom _ _ _ _ _ _ _ => true
  | _ => false

/-- R213, R280: the DEST field of a predicate result. -/
def rimePred (n : Nat) (compl : Bool) : Nat := n + if compl && decide (1 ≤ n) && decide (n ≤ 7) then 16 else 0

/-- R209: the Rime entry of a result on a state in which the results before it have landed.
Log entry 23, DEDUCED. -/
def rimeOf (b : Bank) (f : Nat) (e : Pend) : Rime :=
  let r : Rime := { dest := 0, cls := 0, bar := false, faulted := false, cb := 0, remain := e.due - f, tag := 0,
                    unit := 4, flags := e.flags.toNat, val := 0, bits := 0 }
  match e.eff with
  | .s n v => { r with dest := n, unit := 2, val := v }
  | .sPlain n v => { r with dest := n, val := v }
  | .v n tag bits k =>
    { r with dest := n, cls := 1, tag := tag.toNat, unit := e.unit, bits := (mergedV (b.vreg n) tag bits k).bits }
  | .vlatch tag bits => { r with cls := 6, tag := tag.toNat, unit := e.unit, bits := bits }
  | .p n v compl => { r with dest := rimePred n compl, cls := 2, unit := e.unit, val := if v then 1 else 0 }
  | .k n bits en lanes =>
    { r with dest := n, cls := 3, tag := 13, bits := mergedK (b.mask (BitVec.ofNat 3 n)) bits en lanes }
  | .b n v => { r with dest := n, cls := 4, val := v }
  | _ => r

/-- R209: the entries of results in landing order; each sees the results before it landed. -/
def State.rimeList (s : State) (f : Nat) : List Pend → List Rime
  | [] => []
  | e :: es => rimeOf s.core.bank f e :: State.rimeList (s.landOne e) f es

/-- R209: the operations whose register results wait on a barrier, in barrier and issue order. -/
def Bank.barOps (b : Bank) : List (Nat × BarRes) :=
  (List.range 8).flatMap fun n => (b.cb n).results.filterMap fun r =>
    match r.dest with
    | .reg _ => some (n, r)
    | .word _ => none

/-- R209, R217: the entry of a barrier result; `stuck`: its operation has met a page or tile that is not present. -/
def rimeBar (stuck : Bool) (x : Nat × BarRes) : Rime :=
  { dest := (match x.2.dest with | .reg n => n | .word _ => 0), cls := 0, bar := true, faulted := stuck, cb := x.1,
    remain := 0, tag := 0, unit := 4, flags := 0, val := x.2.val.getD 0, bits := 0 }

/-- R211: the number of Rime entries and the number of those that hold vector or mask values. -/
def Bank.rimeCount (b : Bank) : Nat × Nat :=
  let es := b.pend.filter fun e => e.eff.inRime
  (es.length + b.barOps.length, (es.filter fun e => e.eff.inSlot).length)

/-- R211: both limits of the Rime latch bank hold. -/
def Bank.rimeFits (b : Bank) : Bool := decide (b.rimeCount.1 ≤ 64) && decide (b.rimeCount.2 ≤ 56)

/-- R213: a descriptor's 128 bits; `slot` is the value slot. -/
def Rime.desc (r : Rime) (slot : Nat) : Nat :=
  r.dest % 512 + r.cls % 8 * 2 ^ 9 + (if r.bar then 2 ^ 12 else 0) + (if r.faulted then 2 ^ 13 else 0) +
    r.cb % 8 * 2 ^ 14 + r.remain % 64 * 2 ^ 17 + r.tag % 16 * 2 ^ 23 + r.unit % 8 * 2 ^ 27 +
    slot % 64 * 2 ^ 30 + r.flags % 8 * 2 ^ 36 + r.val.toNat * 2 ^ 64

/-- R213: an entry of class v, k or latch-only has a value slot. -/
def rimeSlotted (cls : Nat) : Bool := cls == 1 || cls == 3 || cls == 6

/-- A little-endian word of n bytes in a byte memory. -/
def putN (m : Mem) (a n v : Nat) : Mem := writeBytes m a (leBytes n v)

/-- R212, R213: write descriptors i, i+1, … and their values, next free slot `slot`. -/
def putRimes (m : Mem) (base i slot : Nat) : List Rime → Mem
  | [] => m
  | r :: rs =>
    let m := putN m (base + 0x2200 + 16 * i) 16 (r.desc (if rimeSlotted r.cls then slot else 0))
    if rimeSlotted r.cls then
      putRimes (putN m (base + 0x2600 + 256 * slot) 256 r.bits.toNat) base (i + 1) (slot + 1) rs
    else putRimes m base (i + 1) slot rs

/-- R60, R203: STATUS as a word. -/
def Status.word (st : Status) : Word :=
  BitVec.ofNat 64 ((if st.nanint then 1 else 0) + (if st.isat then 2 else 0) + (if st.latchlost then 4 else 0) +
    (if st.sup then 256 else 0) + (if st.ie then 512 else 0) + (if st.guard then 1024 else 0) +
    (if st.debug then 2048 else 0))

/-- STATUS from a word. -/
def statusOf (w : Nat) : Status :=
  { nanint := w.testBit 0, isat := w.testBit 1, latchlost := w.testBit 2, sup := w.testBit 8, ie := w.testBit 9,
    guard := w.testBit 10, debug := w.testBit 11 }

/-- R10, R23, R240: the moment of an iteration boundary: the stage predicates shift, and from the second iteration on
the rotation moves. -/
def Bank.shiftOn (b : Bank) : Bank :=
  let l := b.loop
  let first := l.iter == 0
  let p := Vector.ofFn fun i : Fin 16 =>
    if i.val < 8 then b.p[i]
    else if i.val = 8 then decide (l.iter < l.trip)
    else if first then false
    else b.p.toList.getD (i.val - 1) false
  { b with
    p := p, atLoop := false, atIter := true,
    rotBase := if first then b.rotBase else if b.rotSize = 0 then 0 else (b.rotBase + b.rotSize - 1) % b.rotSize }

/-- R43: an iteration counts as started from the cycle in which its first bundle issues. -/
def LoopState.begin (l : LoopState) : LoopState :=
  { l with iter := l.iter + 1, left := l.left - 1, drain := if l.left = 0 then l.drain - 1 else l.drain, idx := 0 }

/-- R10, R43: at an iteration boundary the next iteration starts. -/
def Bank.iterate (b : Bank) : Bank :=
  let b := if b.atLoop then b.shiftOn else b
  if b.atIter then { b with loop := b.loop.begin, atIter := false } else b

/-- R24, R208: the bank stands at an iteration boundary. -/
def Bank.atBoundary (b : Bank) : Bool := b.atLoop || b.atIter

/-- R43: LC as a word. -/
def LoopState.word (l : LoopState) : Word :=
  BitVec.ofNat 64 (l.left % 2 ^ 32 + l.drain % 8 * 2 ^ 32 + if l.active then 2 ^ 35 else 0)

/-- R43: ROTSZ as a word. -/
def Bank.rotWord (b : Bank) : Word := BitVec.ofNat 64 (b.rotSize % 256 + b.rotBase % 128 * 256)

/-- p0 to p15 as a number. -/
def Bank.predBits (b : Bank) : Nat :=
  (List.range 16).foldl (fun x i => x + if b.pred (BitVec.ofNat 4 i) then 2 ^ i else 0) 0

/-- R212: the frame's latches and held values in the order of its tags. -/
def Bank.latchList (b : Bank) : List Latch :=
  b.lat0.toList ++ b.lat1.toList ++ b.latE.toList ++ b.held0.toList ++ b.held1.toList

/-- Number with bit i set for each true entry. -/
def bitsNat : List Bool → Nat
  | [] => 0
  | x :: xs => (if x then 1 else 0) + 2 * bitsNat xs

/-- R212: the valid bits: 12 vector and epilogue latches, 4 scalar latches, 6 held values. -/
def Bank.validBits (b : Bank) : Nat :=
  bitsNat (((b.latchList.take 12).map (·.valid)) ++ b.latS.toList.map (·.valid) ++
    ((b.latchList.drop 12).map (·.valid)))

/-- R212: the word at 0x0080: dp1 to dp3 of each thread, and the running threads of the bank. -/
def Core.driftBits (c : Core) : Nat :=
  (List.range 8).foldl (fun x n =>
    let t := c.thread n
    x + (1 + (if t.pred 1 then 2 else 0) + (if t.pred 2 then 4 else 0) + (if t.pred 3 then 8 else 0)) * 16 ^ n +
      if t.running && t.bank == c.curBank then 2 ^ (32 + n) else 0) 0

/-- The words of a list at 256-byte steps from an address. -/
def putVecs (m : Mem) (a : Nat) : List VBits → Mem
  | [] => m
  | v :: vs => putVecs (putN m a 256 v.toNat) (a + 256) vs

/-- R212: the drift area, written by a pre-emption for every thread of the bank. -/
def Core.putDrift (c : Core) (m : Mem) (base : Nat) : Mem :=
  (List.range 8).foldl (fun m n =>
    let t := c.thread n
    if t.bank = c.curBank then
      let a := base + 0x1A00 + 256 * n
      (List.range 31).foldl (fun m i => putN m (a + 8 * (i + 1)) 8 (t.dreg (BitVec.ofNat 6 (i + 1))).toNat)
        (putN m a 8 t.pc.toNat)
    else m) m

/-- R212: the frame written at a window address. `b` is the bank as the frame shows it. -/
def Core.putFrame (c : Core) (b : Bank) (base : Nat) (epc cause : Word) (rs : List Rime) (drift : Bool) : Mem :=
  let m := zeroRange c.store base 0x6000
  let m := putN m base 8 epc.toNat
  let m := putN m (base + 0x08) 8 cause.toNat
  let m := putN m (base + 0x10) 8 b.status.word.toNat
  let m := putN m (base + 0x18) 8 b.loop.word.toNat
  let m := putN m (base + 0x20) 8 b.rotWord.toNat
  let m := putN m (base + 0x28) 8 b.predBits
  let m := putN m (base + 0x30) 8 b.loopBuf.first.toNat
  let m := putN m (base + 0x38) 8 (b.loopBuf.count % 128 + if b.loopBuf.valid then 128 else 0)
  let m := putN m (base + 0x40) 16 (packLanes 4 (b.latchList.map fun l => l.tag.toNat))
  let m := putN m (base + 0x50) 8 b.validBits
  let m := putN m (base + 0x58) 8 (rs.length % 128)
  let m := putN m (base + 0x60) 32 (packLanes 64 (b.latS.toList.map fun l => l.val.toNat))
  let m := putN m (base + 0x80) 8 c.driftBits
  let m := (List.range 7).foldl (fun m i => putN m (base + 0x100 + 256 * i) 256
    (b.mask (BitVec.ofNat 3 (i + 1))).toNat) m
  let m := putVecs m (base + 0x800) ((b.latchList.take 8).map (·.bits))
  let m := putVecs m (base + 0x1000) (((b.latchList.drop 8).take 4).map (·.bits))
  let m := putVecs m (base + 0x1400) ((b.latchList.drop 12).map (·.bits))
  let m := if drift then c.putDrift m base else m
  putRimes m base 0 0 rs

/-- R212: the whole frame lies in lines the bank has pinned. -/
def Bank.framePinned (b : Bank) : Bool :=
  decide (b.tfbase + 192 ≤ 65536) && (lineMask b.tfbase 192 &&& ~~~b.pins == 0)

/-- R92, R209, R210: the results set aside at freeze tick f, the engine's tracking and a copy of the generators with them,
and the bank without them. An ATOM on a pinned line keeps its place in flight.
Log entry 10, DEDUCED.
Log entry 19, DEDUCED. -/
def Bank.park (b : Bank) (f : Nat) (epc : Word) : Bank :=
  { b with
    parked := { tick := f, pc := epc, prevCtl := b.prevCtl, prevBr := b.prevBr, pend := b.pend.filter (fun e => !(e.eff.inRime || e.eff.keepsRunning)),
                     mreds := b.mreds, holds := b.holds, tracked := b.tracked, planeUse := b.planeUse,
                     epiBusy := b.epiBusy,
                     streamBusy := b.streamBusy, mredBusy := b.mredBusy, loadBusy := b.loadBusy, loop := b.loop, gens := b.gens,
                     bars := b.barOps.map (fun x => x.2.op),
                     rimeBase := (b.pend.filter fun e => e.eff.inRime).length, waitPc := b.waitPc } :: b.parked,
    pend := b.pend.filter (fun e => e.eff.keepsRunning), claims := [], mreds := [], holds := [], tracked := [],
    planeUse := [], epiBusy := 0, streamBusy := 0, mredBusy := 0, loadBusy := 0, waitPc := none }

/-- R217: the operation of a barrier entry has met a page or tile that is not present. -/
def State.opStuck (s : State) (id : Nat) : Bool := s.ops.any fun o => o.id == id && o.stop == some .translation

/-- R208-R212, R214, R219: the freeze, the Rime capture and the frame, at freeze tick f. -/
def State.capture (s : State) (f : Nat) (epc cause : Word) (drift : Bool) : State :=
  let s := s.freezeMatrix
  let b := if s.core.bank.atLoop then s.core.bank.shiftOn else s.core.bank
  let rs := s.rimeList f (byDue (b.pend.filter fun e => e.eff.inRime)) ++ b.barOps.map fun x => rimeBar (s.opStuck x.2.op) x
  let m := s.core.putFrame b (128 * b.tfbase) epc cause rs drift
  s.setCore { s.core with store := m, bank := b.park f epc }

/-- R208, R214: TAKING AN EXCEPTION: trap entry for causes 0x0E and 0x11 at freeze tick f, `lost` cycles before the
next bundle of the bank could issue otherwise. The bank's `prevCtl` and `prevBr` are those of the bundle at `epc`, and
ERET gives them back (R18). EPC and CAUSE are set, the frame is written, the mode becomes
supervisor with interrupts off, the loop and the rotation stop, and the bundle at TVEC issues at f + 48. A frame
outside the bank's pinned lines ends the launch with cause 0x06 and NESTED (R212). -/
def State.trapEntry (s : State) (code tcode f : Nat) (epc : Word) : State :=
  let b := s.core.bank
  if !b.framePinned then
    (s.setBank { b with handler := true }).takeFault { cause := 0x06, thread := none, cb := 0, addr := 128 * b.tfbase,
                                                       aux := 0 }
  else
    let cause := causeBits code none false 0 tcode
    let s := s.capture f epc cause false
    let b := s.core.bank
    s.setBank { b with
      epc := epc, cause := cause, status := { b.status with sup := true, ie := false },
      loop := { b.loop with active := false }, rotSize := 0, rotBase := 0, handler := true, atLoop := false, atIter := false,
      pc := b.tvec, byBranch := true, branch := none, newBranch := none, prevCtl := false, prevBr := false,
      curCtl := false, curBr := false, isMbr := false, mid := false, leaf := none, run := .active, stall := 48 }

/-- R208: the entry of a TRAP, which freezes after its own bundle: EPC names the bundle that would issue next. A
bundle with a TRAP holds no control transfer (R291). -/
def State.trapAfter (s : State) (code : Nat) : State :=
  let b := s.core.bank
  (s.setBank { b with prevCtl := false, prevBr := false }).trapEntry 0x0E code (b.tick + 1) b.nextPc

/-! ### The return from an exception (11 R213, R216, R217) -/

/-- R213: a descriptor read back. -/
def rimeRead (m : Mem) (base i : Nat) : Rime × Nat × Bool :=
  let d := readNat m (base + 0x2200 + 16 * i) 16
  let slot := bitsAt d 30 6
  ({ dest := bitsAt d 0 9, cls := bitsAt d 9 3, bar := d.testBit 12, faulted := d.testBit 13, cb := bitsAt d 14 3,
     remain := bitsAt d 17 6, tag := bitsAt d 23 4, unit := bitsAt d 27 3, flags := bitsAt d 36 3,
     val := BitVec.ofNat 64 (d / 2 ^ 64),
     bits := if slot < 56 then BitVec.ofNat 2048 (readNat m (base + 0x2600 + 256 * slot) 256) else 0 },
   slot, bitsAt d 39 25 == 0)

/-- R213: the descriptors of a frame. -/
def rimesRead (m : Mem) (base : Nat) : List (Rime × Nat × Bool) :=
  (List.range (readNat m (base + 0x58) 8 % 128)).map (rimeRead m base)

/-- R213: CLASS, SLOT and DEST in range and no reserved bit set. -/
def Bank.rimeLegal (b : Bank) (x : Rime × Nat × Bool) : Bool :=
  let r := x.1
  x.2.2 && (r.bar || !r.faulted) && (!(rimeSlotted r.cls) || decide (x.2.1 < 56)) &&
  (match r.cls with
   | 0 => decide (r.dest < 64)
   | 1 => decide (r.dest < 32 * b.vu)
   | 2 => decide (r.dest < 16) || (decide (17 ≤ r.dest) && decide (r.dest ≤ 23))
   | 3 | 4 => decide (r.dest < 8)
   | 6 => r.dest == 0 && decide (r.unit < 2)
   | _ => false)

/-- R216: the result in flight that an entry stands for, landing at f' + REMAIN. -/
def rimePend (f' : Nat) (r : Rime) : Pend :=
  { due := f' + r.remain, seq := 16 * f' - 1,
    eff := (match r.cls with
      | 0 => if r.unit = 2 then .s r.dest r.val else .sPlain r.dest r.val
      | 1 => .v r.dest (BitVec.ofNat 4 r.tag) r.bits (BitVec.allOnes 2048)
      | 2 => .p (r.dest % 16) (r.val.getLsbD 0) (decide (16 ≤ r.dest))
      | 3 => .k r.dest r.bits (BitVec.allOnes 2048) 2048
      | 4 => .b r.dest r.val
      | _ => .vlatch (BitVec.ofNat 4 r.tag) r.bits),
    unit := r.unit, flags := BitVec.ofNat 3 r.flags }

/-- A latch read back from the frame. -/
def latchRead (m : Mem) (base off i tags vbit valid : Nat) : Latch :=
  { bits := BitVec.ofNat 2048 (readNat m (base + off) 256), tag := BitVec.ofNat 4 (bitsAt tags (4 * i) 4),
    valid := valid.testBit vbit }

/-- R216: STATUS, predicates, masks, LC, ROTSZ, the loop buffer, latches, held values and tags from the frame.
Log entry 19, DEDUCED. -/
def Bank.restoreFrame (b : Bank) (m : Mem) (base : Nat) : Bank :=
  let tags := readNat m (base + 0x40) 16
  let valid := readNat m (base + 0x50) 8
  let lc := readNat m (base + 0x18) 8
  let rot := readNat m (base + 0x20) 8
  let p := readNat m (base + 0x28) 8
  let lb := readNat m (base + 0x38) 8
  let old := match b.parked with
    | q :: _ => q.loop
    | [] => b.loop
  let lat (off first : Nat) : Vector Latch 4 :=
    Vector.ofFn fun i : Fin 4 => latchRead m base (off + 256 * i.val) (first + i.val) tags (first + i.val) valid
  let held (off first : Nat) : Vector Latch 3 :=
    Vector.ofFn fun i : Fin 3 => latchRead m base (off + 256 * i.val) (first + i.val) tags (first + i.val + 4) valid
  { b with
    status := statusOf (readNat m (base + 0x10) 8),
    p := Vector.ofFn fun i : Fin 16 => p.testBit i.val || i.val == 0,
    k := Vector.ofFn fun i : Fin 8 =>
      if i.val = 0 then BitVec.allOnes 2048 else BitVec.ofNat 2048 (readNat m (base + 256 * i.val) 256),
    loop := { old with left := bitsAt lc 0 32, drain := bitsAt lc 32 3, active := lc.testBit 35 },
    rotSize := bitsAt rot 0 8, rotBase := bitsAt rot 8 7,
    loopBuf := { first := BitVec.ofNat 64 (readNat m (base + 0x30) 8), count := bitsAt lb 0 7,
                 valid := lb.testBit 7 },
    lat0 := lat 0x800 0, lat1 := lat 0xC00 4, latE := lat 0x1000 8,
    latS := Vector.ofFn fun i : Fin 4 =>
      { val := BitVec.ofNat 64 (readNat m (base + 0x60 + 8 * i.val) 8), valid := valid.testBit (12 + i.val) },
    held0 := held 0x1400 12, held1 := held 0x1700 15 }

/-- R213: an entry names a barrier's result by its register and its barrier. -/
def Rime.names (r : Rime) (x : Nat × BarRes) : Bool := x.2.dest == .reg r.dest && x.1 == r.cb

/-- R209: the results behind the barrier entries of a frame that have not landed. -/
def Bank.heldRes (b : Bank) (ids : List Nat) : List (Nat × BarRes) := b.barOps.filter fun x => ids.contains x.2.op

/-- R213, R216: the barrier entries of a frame as it stands, each with the result behind it: first the entries that
still name their result, then, in order, what is left of entries and of results. -/
def pairBars (held : List (Nat × BarRes)) (rs : List Rime) : List (Rime × Option (Nat × BarRes)) :=
  let own := rs.foldl (fun (a : List (Nat × BarRes) × List (Rime × Option (Nat × BarRes))) r =>
    match a.1.find? r.names with
    | some x => (a.1.erase x, a.2 ++ [(r, some x)])
    | none => (a.1, a.2 ++ [(r, none)])) (held, [])
  (own.2.foldl (fun (a : List (Nat × BarRes) × List (Rime × Option (Nat × BarRes))) x =>
    match x.2, a.1 with
    | none, h :: hs => (hs, a.2 ++ [(x.1, some h)])
    | _, _ => (a.1, a.2 ++ [x])) (own.1, [])).2

/-- R216: a barrier entry lands at the CPYW on its CB, in its DEST: the result of the operation behind it, or its
VALUE where a handler has put in an entry that no operation is behind. -/
def Bank.putBar (b : Bank) (x : Rime × Option (Nat × BarRes)) : Bank :=
  let r := x.1
  match x.2 with
  | some h =>
    let c := b.cb h.1
    b.setCb h.1 { c with results := c.results ++
      [{ h.2 with dest := .reg r.dest, land := if r.cb = h.1 then none else some r.cb }] }
  | none =>
    let c := b.cb r.cb
    b.setCb r.cb { c with results := c.results ++ [{ op := 2 ^ 64, dest := .reg r.dest, val := some r.val }] }

/-- R213, R216: ERET uses the frame's barrier entries as they stand: the results they stand for go where the entries
say, and one whose entry a handler has taken out does not land.
Log entry 67, DEDUCED. -/
def Bank.renameBars (b : Bank) (ids : List Nat) (rs : List Rime) : Bank :=
  let held := b.heldRes ids
  let b := (List.range 8).foldl (fun b n =>
    b.setCb n { b.cb n with results := (b.cb n).results.filter fun r => !(held.any fun x => x.2 == r) }) b
  (pairBars held rs).foldl Bank.putBar b

/-- R92, R210, R216: the parked results and the engine's tracking moved to ticks counted from f', and the generators as
they were saved. -/
def Bank.unpark (b : Bank) (f' : Nat) : Bank :=
  match b.parked with
  | [] => b
  | q :: outer =>
    let d := f' - q.tick
    let up (t : Nat) : Nat := if q.tick ≤ t then t + d else t
    { b with
      parked := outer, gens := q.gens,
      pend := b.pend ++ q.pend.map fun e => { e with due := e.due + d },
      mreds := b.mreds ++ q.mreds.map fun r => { r with issue := r.issue + d },
      holds := b.holds ++ q.holds.map (fun h => (h.1, up h.2)),
      tracked := b.tracked ++ q.tracked.map (fun h => (h.1, up h.2)),
      planeUse := b.planeUse ++ q.planeUse.map (fun h => (h.1, up h.2)),
      epiBusy := max b.epiBusy (up q.epiBusy), streamBusy := max b.streamBusy (up q.streamBusy),
      mredBusy := max b.mredBusy (up q.mredBusy), loadBusy := max b.loadBusy (up q.loadBusy), waitPc := q.waitPc,
      claims := b.claims ++ q.pend.flatMap fun e =>
        match e.eff with
        | .store a bytes _ => (linesOf a bytes.length).map fun l => (e.due + d, l % 16)
        | _ => [] }

/-- R209: the operations behind the barrier entries of the newest frame. -/
def Bank.heldBars (b : Bank) : List Nat :=
  match b.parked with
  | q :: _ => q.bars
  | [] => []

/-- R216: the restore steps from the frame, with f' the tick of the resumed bundle. The bundle at which the bank was
frozen goes on as the one after its predecessor (R18).
Log entry 22, DEDUCED. -/
def State.restore (s : State) (f' : Nat) (pc : Word) (rs : List Rime) : State :=
  let b := s.core.bank
  let base := 128 * b.tfbase
  let ids := b.heldBars
  let q := b.parked.head?.filter fun q => q.pc == pc
  let b := (b.restoreFrame s.core.store base).unpark f'
  let b := b.renameBars ids (rs.filter fun r => r.bar)
  s.setBank { b with
    pend := b.pend ++ (rs.filter fun r => !r.bar).map (rimePend f'), handler := !b.parked.isEmpty,
    atLoop := false, atIter := b.loop.active,
    pc := pc, byBranch := true, branch := none, newBranch := none,
    prevCtl := (q.map (·.prevCtl)).getD false, prevBr := (q.map (·.prevBr)).getD false,
    curCtl := false, curBr := false, isMbr := false, mid := false, leaf := none, run := .active }

/-! ### Translation events (05 R117) -/

/-- R117 steps 2 and 3: every result in flight lands and every matrix row completes; where two land on one
register the one due later is kept. -/
def State.drain (s : State) : State :=
  let rest := s.core.bank.mreds.flatMap s.mredRest
  let s := s.freezeMatrix
  let all := byDue (s.core.bank.pend ++ rest)
  let s := all.foldl State.landOne (s.setBank { s.core.bank with pend := [] })
  let b := all.foldl (fun b e => b.setFlags e.flags) s.core.bank
  s.setBank { b with mreds := [], holds := [], tracked := [], planeUse := [], epiBusy := 0, streamBusy := 0,
                     mredBusy := 0, loadBusy := 0, claims := [] }

/-- R139: the release that a drain or a save performs at FABRIC scope. -/
def State.saveRelease (s : State) : State :=
  { s with ord := s.ord ++ [.save s.cur s.core.curBank], clocks := bumpClock s.clocks (dieOf s.cur) }

/-- The other bank holds a task that is ready to issue (R163). -/
def Core.otherReady (c : Core) : Bool :=
  match c.other.run with
  | .active | .cpyw _ | .ending => true
  | _ => false

/-- R30: a switch of the core is due; the core issues nothing from here on.
Log entry 32, DEDUCED. -/
def State.startSwitch (s : State) : State :=
  ({ s with core := { s.core with switching := some 161 } }).rouse s.cur

/-- R117: an event record enters the hub's queue. -/
def Hub.queueEvent (h : Hub) (launch : Option Nat) (core bank : Nat) (op thread : Option Nat) (va : Nat)
    (tile : Option (Nat × Nat)) (guest : Bool) (desc : Option Tensor := none) (part : Option Nat := none) : Hub :=
  { h with events := h.events ++ [{ id := h.nextEvent, launch := launch, core := core, bank := bank, op := op,
                                    thread := thread, va := va, tile := tile, guest := guest, desc := desc,
                                    part := part }],
           nextEvent := h.nextEvent + 1 }

/-- R117: the running bank takes a translation event: it drains, the record is queued, and the core switches when
the other bank can run. In a handler the event ends the launch (R214), but for the one an ERET raises, which leaves EPC
as it is (R216). `aux` is the line of the record (R206). -/
def State.takeEvent (s : State) (pc : Word) (cb va : Nat) (op : Option Nat) (back : Resume) (aux : Nat := 0) : State :=
  let b := s.core.bank
  if b.handler && back != .reissue then
    s.takeFault { cause := 0x10, thread := none, cb := cb, addr := va, aux := aux }
  else
    let s := s.drain.saveRelease
    let b := s.core.bank
    let ev := s.hub.nextEvent
    let s := s.setHub (s.hub.queueEvent (b.task.map (·.launch)) s.cur s.core.curBank op none va none false)
    let s := s.setBank { b with epc := (if back = .reissue then b.epc else pc), cause := causeBits 0x10 none b.handler cb 0, run := .event ev back }
    if s.core.otherReady then s.startSwitch else s

/-! ### The wait on a barrier (05 R115, R162) -/

/-- R223: a result that lands during a run enters its signature: bundle count, descriptor and value. The SLOT field of
the descriptor is 0, since no frame gives the result a slot.
Log entry 53, DEDUCED. -/
def Bank.foldRime (b : Bank) (r : Rerun) (x : Rime) : Rerun :=
  let val := if rimeSlotted x.cls then leBytes 256 x.bits.toNat else leBytes 8 x.val.toNat
  { r with sig := crc32 r.sig (leBytes 4 b.bundles ++ leBytes 8 (x.desc 0 % 2 ^ 36) ++ val) }

/-- R223: a result in flight that lands during a run enters its signature. -/
def Bank.foldSig (b : Bank) (r : Rerun) (e : Pend) : Rerun :=
  if !e.eff.inRime then r else b.foldRime r (rimeOf b e.due e)

/-- R115, R216: a barrier result lands at the CPYW on barrier n. -/
def BarRes.landsAt (r : BarRes) (own n : Nat) : Bool := r.land.getD own == n

/-- R115, R216: the results that land at the CPYW on barrier n: its own, then those whose frame entry names it. -/
def Bank.landing (b : Bank) (n : Nat) : List BarRes :=
  (b.cb n).results.filter (fun r => r.landsAt n n) ++
    (List.range 8).flatMap fun m => if m = n then [] else (b.cb m).results.filter fun r => r.landsAt m n

/-- R115: one barrier result lands; during a rerun it enters the signature (R223). -/
def State.landResult (s : State) (n : Nat) (r : BarRes) : State :=
  match r.dest with
  | .reg d =>
    let b := s.core.bank
    let b := { b with rerun := b.rerun.map fun q => b.foldRime q (rimeBar false (n, r)) }
    s.setBank (b.setS d (r.val.getD 0))
  | .word a => s.setCore (s.core.putSeen a (leBytes 8 (r.val.getD 0).toNat))

/-- R115: the results of a complete barrier land in issue order, with the acquires of BARR and FLAGR.acq. After link
receives this is the point at which a collective may complete: a release and an acquire at FABRIC scope (R138). -/
def State.landBarrier (s : State) (n : Nat) : State :=
  let acq := (s.core.bank.cb n).acq
  let coll := (s.core.bank.cb n).coll
  let s := (s.core.bank.landing n).foldl (fun s r => s.landResult n r) s
  let s := acq.foldl (fun s sc => s.acquire sc) s
  let s := if coll then (s.releaseHere 4).acquire 4 else s
  let b := (List.range 8).foldl (fun b m =>
    b.setCb m { b.cb m with results := (b.cb m).results.filter fun r => !(r.landsAt m n) }) s.core.bank
  s.setBank (b.setCb n { b.cb n with acq := [], coll := false })

/-- R115: a barrier's fault record raised at a CPYW or at TASKEND. -/
def State.raiseRecord (s : State) (pc : Word) (n : Nat) (r : FaultRec) (back : Resume) : State :=
  match r.kind with
  | .translation => s.takeEvent pc n r.va (some r.op) back r.line
  | .protection => s.takeFault { cause := 0x0D, thread := none, cb := n, addr := r.va, aux := r.line }
  | .uncorrectable => s.takeFault { cause := 0x20, thread := none, cb := n, addr := r.va, aux := r.line }

/-- The bundle whose CPYW waits, with the barriers it still waits on, the present one first. -/
def Bank.waiting (b : Bank) (cbs : List Nat) : CpywWait :=
  { pc := b.pc, cbs := cbs, loop := b.newLoop, trap := b.newTrap, ctl := b.curCtl, br := b.curBr }

/-- R17: the bank waits on barrier n, with the waits of its bundle that follow. -/
def State.waitOn (s : State) (n : Nat) (cbs : List Nat) : State :=
  let b := s.core.bank
  s.setBank { b with run := .cpyw n, waitPc := some (b.waiting (n :: cbs)),
                     waitFrom := if b.run = .active then s.core.cycle else b.waitFrom }

/-- R115: one wait of a CPYW on barrier n: its record is raised, or its results land and the wait is over (true), or
the bank freezes. -/
def State.cpywOne (s : State) (n : Nat) (cbs : List Nat) : State × Bool :=
  let b := s.core.bank
  let c := b.cb n
  match c.record with
  | some r => ((s.setBank { b with waitPc := some (b.waiting (n :: cbs)) }).raiseRecord b.pc n r (.cpyw n), false)
  | none =>
    if 0 < c.waits then (s.takeFault { cause := 0x21, thread := none, cb := n, addr := 0, aux := 0 }, false)
    else if c.count = 0 then (s.landBarrier n, true)
    else (s.waitOn n cbs, false)

/-- R115, R17: a CPYW on barrier n, then the further waits of its bundle: the bank goes on once all are over.
Log entry 9, DEDUCED. -/
def State.cpywTry (s : State) (n : Nat) : List Nat → State
  | [] =>
    let r := s.cpywOne n []
    if r.2 then r.1.setBank { r.1.core.bank with run := .active, waitPc := none } else r.1
  | m :: ms =>
    let r := s.cpywOne n (m :: ms)
    if r.2 then r.1.cpywTry m ms else r.1

/-- R114: a further operation on barrier n is within the limits: 8 on one barrier and 32 on a bank. -/
def Bank.barrierRoom (b : Bank) (n : Nat) : Bool :=
  decide ((b.cb n).count + (b.cb n).waits < 8) &&
    decide ((b.cbs.toList.foldl (fun x c => x + c.count + c.waits) 0) < 32)

/-- R114, R115: an operation starts on barrier n, with the result that will land at its CPYW. -/
def Bank.startOn (b : Bank) (n op : Nat) (dest : Option BarDest) (acq : Option Nat) : Bank :=
  let c := b.cb n
  b.setCb n { c with
    count := c.count + 1,
    results := c.results ++ (match dest with
      | some d => [{ op := op, dest := d, val := none }]
      | none => []),
    acq := c.acq ++ acq.toList }

/-- R114: an engine operation of the primary starts on barrier n; `ev` is its first event.
Log entry 14, DESIGN CHOICE. -/
def State.startOp (s : State) (n hint : Nat) (kind : OpKind) (dest : Option BarDest) (acq : Option Nat)
    (turns : Nat → List Turn) : State :=
  let id := s.nextOp
  let o : EngineOp := { id := id, seq := s.core.bank.seq, core := s.cur, bank := s.core.curBank, cb := n,
                        drift := (match s.agent with | .primary => none | .drift t => some t), user := !s.sup?,
                        part := s.part, hint := hint, kind := kind, done := 0, old := 0, stop := none,
                        paired := false, data := [], saved := none }
  let s := { s with ops := s.ops ++ [o], nextOp := id + 1 }
  let s := match s.agent with
    | .primary => s.setBank (s.core.bank.startOn n id dest acq)
    | .drift _ => s.driftWait (.link id)
  s.later (turns id)

/-! ### The bank switch (02 R30) -/

/-- R108, R160, R162, R207: a bank whose task has ended: it is free, and keeps its trap registers, its residue
counters and its tensor table until a task starts in it.
Log entry 41, DEDUCED. -/
def Bank.vacate (b : Bank) : Bank :=
  { Bank.clear with epc := b.epc, cause := b.cause, tvec := b.tvec, tfbase := b.tfbase, resslot := b.resslot,
                    resbank := b.resbank, resnet := b.resnet, respwr := b.respwr, tensors := b.tensors }

/-- R30: the running bank and the other one change places: planes to and from the plane save areas. -/
def Core.swap (c : Core) : Core :=
  { c with bank := { c.other with saved := Planes.none }, other := { c.bank with saved := c.planes },
           curBank := 1 - c.curBank, planes := c.other.saved, shadow := c.shadowOther, shadowOther := c.shadow }

end Sys2Proof.Machine
end

