-- ==== Sys2Proof/Machine/Focus.lean ====
section
/-! DEFINITION. Acting on another core or on the other bank. -/

namespace Sys2Proof.Machine

/-- Make a core the one in `core`. -/
def State.focus (s : State) (c : Nat) : State :=
  if c = s.cur then s
  else { s with others := sdel (sput s.others s.cur s.core) c, core := s.coreAt c, cur := c }

/-- Act on a core and return to the one that stood in `core`. -/
def State.onCore (s : State) (c : Nat) (f : State → State) : State := (f (s.focus c)).focus s.cur

/-- Act on a bank of the core in `core` as though it ran. -/
def State.onBank (s : State) (n : Nat) (f : State → State) : State :=
  if n = s.core.curBank then f s
  else
    let t := f (s.setCore s.core.swap)
    t.setCore t.core.swap

/-- Act on a bank of a core. -/
def State.onCoreBank (s : State) (c n : Nat) (f : State → State) : State := s.onCore c fun s => s.onBank n f

/-- Act as an agent of the core in `core`. -/
def State.asAgent (s : State) (a : Agent) (f : State → State) : State := { f { s with agent := a } with agent := s.agent }

end Sys2Proof.Machine
end

