-- ==== Sys2Proof/Machine/Fields.lean ====
section
/-! DEFINITION. The encoding checks of an instruction: reserved fields and field values that raise cause 0x01
whatever the state (18 R293-R303 and the reference entries). Checks that need the state (an issuer, a
register's value, an allotment, a tag) stand with the meanings. -/

namespace Sys2Proof.Machine

/-- The kinds of V source field (R297). -/
inductive VSrc where
  | reg (n : Nat)
  | latch (unit age : Nat)
  | bcast (s : Nat)
  | held
  | badReg
  | bad
  deriving DecidableEq, Repr

/-- R297: what a V source field names. -/
def vsrc (f : BitVec 10) : VSrc :=
  let n := f.toNat
  if n < 0x180 then .reg n
  else if n < 0x200 then .badReg
  else if n < 0x210 then .latch (n / 4 % 4) (n % 4)
  else if n < 0x300 then .bad
  else if n < 0x340 then .bcast (n - 0x300)
  else if n = 0x3FF then .held
  else .bad

/-- R297: a source position that is read must not hold a field of cause 0x01. -/
def srcOk (f : BitVec 10) : Bool := vsrc f != .bad

/-- A field that must be a scalar broadcast (R185, R396, R97). -/
def bcastOk (f : BitVec 10) : Bool := 0x300 ≤ f.toNat && f.toNat < 0x340

/-- A field that must name a register; 0x180 to 0x1FF are left to the register check (R185, R195). -/
def regOk (f : BitVec 10) : Bool := f.toNat < 0x200

/-- R297: an unread source position is 0 with its hold bit 0. -/
def unused (f : BitVec 10) (h : Bool) : Bool := f == 0 && !h

/-- R20: W = 1 needs vd = 0. -/
def wOk (o : VOp) : Bool := !o.w || o.vd == 0

/-- Encoding of a V instruction that reads A and B. -/
def vOkAB (o : VOp) (rnd : Bool) : Bool :=
  srcOk o.a && srcOk o.b && unused o.c o.hc && wOk o && (rnd || o.rnd == 0)

/-- Encoding of a V instruction that reads A only. -/
def vOkA (o : VOp) (rnd : Bool) : Bool :=
  srcOk o.a && unused o.b o.hb && unused o.c o.hc && wOk o && (rnd || o.rnd == 0)

/-- Encoding of a V instruction that reads A, B and C with a rounding field. -/
def vOkABC (o : VOp) : Bool := srcOk o.a && srcOk o.b && srcOk o.c && wOk o

/-- R311: a code in source C, below a bound, with no hold bit. -/
def vCodeC (o : VOp) (bound : Nat) : Bool := decide (o.c.toNat < bound) && !o.hc

/-- R294, R295: an X instruction whose sub and sa must be 0. -/
def xZero (o : XOp) (d a sub imm : Bool) : Bool :=
  (!d || o.d == 0) && (!a || o.a == 0) && (!sub || o.sub == 0) && (!imm || o.imm == 0)

/-- R29: GROW and SHRINK counts. -/
def allotCountOk (o : XOp) : Bool :=
  o.a == 0 && ((o.sub == 0 && 1 ≤ o.imm.toNat && o.imm.toNat ≤ 12) ||
    (o.sub == 1 && 1 ≤ o.imm.toNat && o.imm.toNat ≤ 8))

/-- R302: the numbers MFSR and MTSR accept. -/
def sysNumOk (n : Nat) : Bool :=
  n ≤ 0x14 || (0x18 ≤ n && n ≤ 0x1C) || (0x20 ≤ n && n ≤ 0x22)

/-- R302: the indexed registers VCLK, MCSEL and SUSP. -/
def sysIndexed (n : Nat) : Bool := n == 0x1B || n == 0x20 || n == 0x21

/-- R316: MBR's secondary fields. -/
def mbrOk (o : XOp) : Bool :=
  o.d == 0 && o.a == 0 && o.sub.toNat ≤ 1 && o.imm.extractLsb' 22 10 == 0 && o.g.toNat ≤ 10

/-- R75, R96, R303: the generator operand of MLDW, MMUL and MMULZ: gen and T need G; a generator leaves line 0. -/
def genOk (o : MOp) : Bool := if o.useGen then o.line == 0 else o.gen == 0 && !o.t

/-- R303: sn is 0 where the instruction does not read it. -/
def snOk (o : MOp) (reads : Bool) : Bool := reads || o.sn == 0

/-- R75: no generator operand. -/
def noGen (o : MOp) : Bool := !o.useGen && o.gen == 0 && !o.t

/-- R76: an immediate row count is at most 128. -/
def rowsOk (o : MOp) : Bool := o.rows.toNat ≤ 128

/-- R86: the output tags MEPI accepts. -/
def epiTagOk (np : BitVec 4) : Bool :=
  np == 1 || np == 8 || np == 2 || np == 3 || np == 4 || np == 6

/-- R299: scopes 5 to 7 are illegal. -/
def scopeOk (o : COp) : Bool := o.scope.toNat ≤ 4

/-- R299: scalar data stands in [18:13] with [21:19] = 0. -/
def sdataOk (o : COp) : Bool := o.data.toNat < 64

/-- C fields that must be 0, each when its flag is set. -/
def cZero (o : COp) (data cb fmt hint scope sb : Bool) : Bool :=
  (!data || o.data == 0) && (!cb || o.cb == 0) && (!fmt || o.fmt == 0) && (!hint || o.hint == 0) &&
  (!scope || o.scope == 0) && (!sb || o.sb == 0)

/-- A tag field of 1 to 13 (R52, R337, R345). -/
def tagOk (t : BitVec 4) : Bool := 1 ≤ t.toNat && t.toNat ≤ 13

/-- S class predicate fields: the upper two bits of a field are 0 (R307). -/
def pf (f : BitVec 6) : Bool := f.toNat < 16

/-- The encoding check of R304 step 3.2 for every constructor: true when no reserved field and no field value
raises cause 0x01. An agent's step has no encoding and passes.
Log entry 17, DEDUCED. -/
def fieldsOk (i : Instr) : Bool :=
  match i with
  | .nop | .nopW => true
  | .add _ | .sub _ | .mul _ | .mulh _ | .mulhn _ | .div _ | .divn _ | .min_ _ | .max_ _ | .minn _
  | .maxn _ | .and_ _ | .or_ _ | .xor_ _ | .shl _ | .shr _ | .sar _ | .sel _ => true
  | .clz o | .popc o | .mov o => o.b == 0
  | .cmp o => pf o.d && o.g.toNat ≤ 5
  | .pand o | .por o | .pxor o | .pandn o => pf o.d && pf o.a && pf o.b
  | .movp o => pf o.d && pf o.a && o.b == 0
  | .setp o => pf o.d && o.b == 0
  | .addi _ | .andi _ | .ori _ | .xori _ => true
  | .shli o | .shri o | .sari o => o.imm.toNat < 64
  | .movi o => o.a == 0
  | .cmpeqi o | .cmplti o | .cmplei o | .cmpltni o => pf o.d
  | .br _ | .bri _ | .call _ => true
  | .brb o => o.a == 0 && o.imm.toNat < 8
  | .ret o => o.a == 0 && o.imm == 0
  | .loop o => 1 ≤ o.imm.toNat / 256 && o.imm.toNat / 256 ≤ 8 && 1 ≤ o.imm.toNat % 256
  | .lmark o => 1 ≤ o.imm.toNat && o.imm.toNat ≤ 64
  | .taskend o | .yield o => o.imm == 0
  | .movl o | .movh o => xZero o false true true false
  | .addl o => xZero o false false true false
  | .ldt o => o.sub == 0 && o.imm.toNat < 4096
  | .mbr o => mbrOk o
  | .mfsr o => o.sub == 0 && o.imm.toNat < 256 && sysNumOk o.imm.toNat &&
      (o.a == 0 || sysIndexed o.imm.toNat)
  | .mtsr o => o.sub == 0 && o.imm.toNat < 256 && sysNumOk o.imm.toNat && o.d == 0
  | .trap o => xZero o true true true false && o.imm.toNat < 65536
  | .eret o | .ckpt o | .tret o | .dstop o => xZero o true true true true
  | .digest o => xZero o true false true true
  | .grow o | .shrink o => allotCountOk o
  | .arm o => o.sub == 0 && o.imm.toNat < 256
  | .disarm o => xZero o false true true false && o.imm.toNat < 256
  | .condw o => o.d == 0 && o.imm.toNat < 16 && o.sub.toNat ≤ 3
  | .dstart o => o.d.toNat < 8 && xZero o false true true false
  | .genset o => o.d.toNat < 8 && o.sub.toNat ≤ 8
  | .selftest o => o.sub == 0 && o.imm.toNat ≤ 2
  | .vadd o | .vsub o | .vmul o => vOkAB o true
  | .vfma o | .vfms o | .vfnma o => vOkABC o
  | .vmin o | .vmax o | .vand o | .vor o | .vxor o | .vshl o | .vshr o | .vsar o | .vsel o
  | .vperm o | .vhash o => vOkAB o false
  | .vabs o | .vneg o | .vmov o | .vbcast o | .vrcp o | .vrsq o | .vexp2 o | .vlog2 o | .vrmax o
  | .vrmin o | .vpopc o | .vclass o => vOkA o false
  | .vcmp o => srcOk o.a && srcOk o.b && vCodeC o 8 && o.vd.toNat < 8 && !o.w && o.rnd == 0
  | .viota o => unused o.a o.ha && unused o.b o.hb && unused o.c o.hc && wOk o && o.rnd == 0
  | .vslide o | .vmovs o => vOkAB o false && bcastOk o.b
  | .vcvt o => srcOk o.a && unused o.b o.hb && vCodeC o 13 && o.c != 0 && wOk o
  | .vqnt o => regOk o.a && !o.ha && unused o.b o.hb && unused o.c o.hc && !o.w && o.km == 0
  | .vdqnt o => srcOk o.a && srcOk o.b && !o.ha && !o.hb && unused o.c o.hc && !o.w && o.km == 0 &&
      o.rnd == 0
  | .vscl o => vOkAB o true
  | .vrsum o | .vscan o | .vrnd o => vOkA o true
  | .vsort o => srcOk o.a && bcastOk o.b && !o.hb && unused o.c o.hc && !o.w && o.rnd == 0
  | .vtopk o | .vcomp o => srcOk o.a && bcastOk o.b && !o.hb && bcastOk o.c && !o.hc && !o.w && o.rnd == 0
  | .vmergek o => regOk o.a && !o.ha && regOk o.b && !o.hb && bcastOk o.c && !o.hc && !o.w && o.rnd == 0 &&
      o.km == 0
  | .vgen o => bcastOk o.a && !o.ha && bcastOk o.b && !o.hb && vCodeC o 16 && wOk o && o.rnd == 0
  | .vtag o => srcOk o.a && unused o.b o.hb && vCodeC o 14 && wOk o && o.km == 0 && o.rnd == 0
  | .mldw o => o.np == 0 && o.acc == 0 && o.rows == 0 && o.sn == 0 && o.rsv == 0 && o.plane.toNat ≤ 1 &&
      !(o.mode == 4 && o.plane == 1) && genOk o
  | .mflip o => o.np == 0 && o.acc == 0 && o.plane.toNat ≤ 2 && o.mode == 0 && o.sn == 0 && o.line == 0 &&
      noGen o && o.rows == 0 && o.rsv == 0
  | .mmul o | .mmulz o => 1 ≤ o.np.toNat && o.np.toNat ≤ 6 && o.plane.toNat ≤ 2 && rowsOk o && genOk o &&
      snOk o (o.rows == 0) && o.rsv == 0
  | .mbnd o => o.np == 0 && o.acc == 0 && o.plane == 0 && o.mode == 0 && o.line == 0 && noGen o && rowsOk o &&
      snOk o (o.rows == 0) && o.rsv == 0
  | .mepi o => epiTagOk o.np && o.plane == 0 && noGen o && rowsOk o && !(4 ≤ o.mode.toNat && o.rows == 0) &&
      snOk o (o.rows == 0 || decide (4 ≤ o.mode.toNat)) && o.rsv == 0
  | .mrda o | .mwra o => o.np == 0 && o.plane == 0 && noGen o && o.line.toNat < 512 && o.rsv == 0 &&
      snOk o (decide (4 ≤ o.mode.toNat)) &&
      (if 4 ≤ o.mode.toNat then o.rows == 0 else decide (o.rows.toNat ≤ 127))
  | .mzero o => o.np == 0 && o.plane == 0 && o.mode.toNat ≤ 1 && o.sn == 0 && o.line == 0 && noGen o &&
      o.rows == 0 && o.rsv == 0
  | .mred o => 1 ≤ o.np.toNat && o.np.toNat ≤ 6 && o.plane == 0 && o.mode == 0 && o.line == 0 && noGen o &&
      rowsOk o && snOk o (o.rows == 0) && o.rsv == 0
  | .ld o | .st o => sdataOk o && 1 ≤ o.fmt.toNat && o.fmt.toNat ≤ 12 && cZero o false true false false true true
  | .ldv o | .stv o | .gath o | .scat o => tagOk o.fmt && cZero o false true false true true true
  | .cpy o => o.data.toNat ≤ 3 && cZero o false false true false true true
  | .cpyw o => o.sa == 0 && o.imm == 0 && cZero o true false true true true true
  | .mcast o => sdataOk o && cZero o false false true false true false && 1 ≤ o.imm.toNat && o.imm.toNat ≤ 2048
  | .pin o => sdataOk o && cZero o false true true true true false
  | .unpin o => cZero o true true true true true false
  | .atom o => sdataOk o && o.fmt.toNat ≤ 10 && scopeOk o
  | .flagw o | .flagr o => sdataOk o && o.fmt.toNat ≤ 1 && scopeOk o && o.sb == 0
  | .fence o => 1 ≤ o.fmt.toNat && o.fmt.toNat ≤ 3 && scopeOk o && o.sa == 0 && o.imm == 0 &&
      cZero o true true false true false true
  | .barr o => sdataOk o && o.fmt == 0 && scopeOk o
  | .msend o => cZero o true false true true false true && (o.scope == 3 || o.scope == 4)
  | .lsend o | .lrecv o => o.data.toNat % 32 < 24 && cZero o false false true true false false && o.scope == 4
  | .lradd o => o.data.toNat % 32 < 24 && (o.fmt == 1 || o.fmt == 2) && o.hint == 0 && o.scope == 4
  | .subs o => cZero o true false true false false true && scopeOk o
  | .slotdn o => o.data.toNat < 16 && o.sa == 0 && o.imm == 0 && cZero o false true true true true true
  | .bdred o => cZero o true false true false true true
  | .bdtopk o => cZero o true false true false false true && o.scope == 3
  | .xroute o => cZero o true false true false false true && o.hint == 0 && o.scope == 4
  | .gpost o => sdataOk o && cZero o false false true true true true
  | .pref o => cZero o true true true false true true
  | .wbl o | .invl o => cZero o true false true true true false
  | .resultWriteback | .loopIteration | .driftSlotFill | .driftOpComplete _ _ | .tokenWindow _
  | .engineLineLand _ | .engineOpComplete _ | .engineOpFault _ _ _ | .eventAnswer _ _ | .bankSwitch
  | .bankResume | .timerExpiry | .interrupt | .taggedMessage _ | .armResult _ | .launchStart _ | .launchEnd _
  | .faultEndLaunch _ | .nodeTaskset _ _ | .nodeCond _ _ | .nodeWhile _ _ | .nodeBucket _ _ | .nodeJoin _ _
  | .nodeMessage _ _ | .nodeTest _ _ | .taskPlace _ | .moraineDelivery _ _ | .taskStart _
  | .outputPullDone _ _ | .subsSlotFill _ | .priorityAging _ | .preemption | .taskResume _ | .linkPair _ _
  | .linkTransferDone _ _ | .flitReceive _ _ | .laneFail _ _ | .stampedWriteApply _ _
  | .messagePortWrite _ _ _ | .lndropRead | .mpcntRead | .coldReset | .powerOn | .attestRequest _
  | .replctlResume | .registerWrite _ _ | .guestCompletion _ | .guestFault _ _ _ | .guestReport _ _
  | .guestTranslation _ | .guestInvalAck _ | .guestFence | .clockThrottle _ _ | .thermalHot _ | .thermalTrip _
  | .eccCorrected _ | .uncorrectableError _ _ | .datapathError _ | .auditRerun _ | .auditDecide _
  | .selftestDone _ _ | .spareSubstitute _ | .serviceRecordWrite | .replicaStep _ | .replicaCompare _ _
  | .powerFailure | .cxlMemAccess _ | .guestCoherentAccess _ | .pendSoftSet _ | .partitionCellMove _ _ => true

end Sys2Proof.Machine
end

