-- ==== Sys2Proof/Machine/Flags.lean ====
section
/-! DEFINITION. Conditions and flags: the scalar conditions (18 R307), predicate results with their complements
(R280), the tests of MBR (02 R26) and the STATUS flags a result carries (03 R60). -/

namespace Sys2Proof.Machine

/-- R307: CMP's conditions. -/
def scalarCond (c : Nat) (a b : Word) : Bool :=
  match c with
  | 0 => a == b
  | 1 => a != b
  | 2 => a.slt b
  | 3 => a.sle b
  | 4 => a.ult b
  | _ => a.ule b

/-- R280: outside a kernel bundle a result for p1 to p7 also writes its complement to p(N+8). -/
def Bank.complements (b : Bank) (n : Nat) : Bool := !b.loop.active && decide (1 ≤ n) && decide (n ≤ 7)

/-- R19, R328, R362: a predicate result of the agent that acts: the primary's lands one tick after issue and, a result of
class S, enters the scalar latch as 0 or 1; a drift thread's lands after four cycles.
Log entry 15, DEDUCED. -/
def State.predState (s : State) (n : Nat) (v : Bool) : State :=
  match s.agent with
  | .primary => s.setBank (s.core.bank.addPend 1 (.p n v (s.core.bank.complements n)) 2 0)
  | .drift _ => s.driftIssue 4 (.p n v)

/-- R328, R362: the outcome of a predicate result; in drift code predicate fields 4 to 15 raise cause 0x01. -/
def State.predResult (s : State) (n : Nat) (v : Bool) : Out :=
  if s.isDrift && decide (4 ≤ n) then s.raise 0x01 else .next (s.predState n v)

/-- A predicate operand of a predicate operation, by number. -/
def State.predSrc (s : State) (n : BitVec 6) : Bool :=
  match s.agent with
  | .primary => s.core.bank.pred (n.setWidth 4)
  | .drift t => (s.core.thread t).pred n.toNat

/-- R362: in drift code a predicate source field of 4 to 15 is illegal. -/
def State.predSrcOk (s : State) (n : BitVec 6) : Bool := !s.isDrift || decide (n.toNat < 4)

/-- R26: the leaf that four tests choose. -/
def mbrLeaf (balanced : Bool) (t0 t1 t2 t3 : Bool) : Nat :=
  if balanced then (if t0 then (if t1 then 0 else 1) else if t2 then 2 else if t3 then 3 else 4)
  else if t0 then 0 else if t1 then 1 else if t2 then 2 else if t3 then 3 else 4

/-- R26: test q of an MBR: its predicate against its polarity. -/
def Bank.mbrTest (b : Bank) (imm : BitVec 32) (q : Nat) : Bool :=
  (b.pred (imm.extractLsb' (4 * q) 4)) != imm.getLsbD (16 + q)

/-- R60: the flags a result carries: [0] NANINT, [1] ISAT, [2] LATCHLOST. -/
def flagBits (nanint isat lost : Bool) : BitVec 3 :=
  BitVec.ofNat 3 ((if nanint then 1 else 0) + (if isat then 2 else 0) + (if lost then 4 else 0))

end Sys2Proof.Machine
end

