-- ==== Sys2Proof/Machine/Operands.lean ====
section
/-! DEFINITION. Operand forms: the sources and destinations of V instructions (18 R296, R297; 02 R19-R23;
03 R53, R54; 22 R376, R377), and captured blocks of C instructions. -/

namespace Sys2Proof.Machine

/-! ### V sources -/

/-- What a V source field delivers before spreading. -/
inductive Raw where
  | tagged (r : VReg)
  | scalar (v : Word)
  | lost
  deriving DecidableEq, Repr

/-- R19: the latch a source names. -/
def Bank.latchOf (b : Bank) (unit age : Nat) : Raw :=
  match unit with
  | 2 =>
    let l := b.latS.toList.getD age SLatch.lost
    if l.valid then .scalar l.val else .lost
  | _ =>
    let v := if unit = 0 then b.lat0 else if unit = 1 then b.lat1 else b.latE
    let l := v.toList.getD age Latch.lost
    if l.valid then .tagged { bits := l.bits, tag := l.tag } else .lost

/-- R21: the held value of a position of a unit. -/
def Bank.heldOf (b : Bank) (unit pos : Nat) : Raw :=
  let l := (if unit = 0 then b.held0 else b.held1).toList.getD pos Latch.lost
  if l.valid then .tagged { bits := l.bits, tag := l.tag } else .lost

/-- R297, R301: a register source lies inside the allotment. -/
def Bank.srcIn (b : Bank) (f : BitVec 10) : Bool :=
  match vsrc f with
  | .reg n => decide (n < 32 * b.vu)
  | .badReg => false
  | _ => true

/-- R301: a vector register number inside the allotment. -/
def Bank.vregIn (b : Bank) (n : Nat) : Bool := decide (n < 32 * b.vu) && decide (n < 384)

/-- R297: what a source field delivers at issue, its name resolved by the rotation (R23). -/
def Bank.srcRaw (b : Bank) (unit pos : Nat) (f : BitVec 10) : Raw :=
  match vsrc f with
  | .reg n => .tagged (b.vreg (b.phys n))
  | .latch u age => b.latchOf u age
  | .bcast n => .scalar (b.sregN n)
  | .held => b.heldOf unit pos
  | _ => .lost

/-- R54: the tag of the first tagged source, F32 if there is none. -/
def firstTag : List Raw → Tag
  | [] => 1
  | .tagged r :: _ => r.tag
  | _ :: rs => firstTag rs

/-- R19, R54: a scalar spread over every lane of a tag. -/
def spread (t : Tag) (v : Word) : VBits :=
  if tagWidth t = 0 then 0 else ofLanes (tagWidth t) (List.replicate (2048 / tagWidth t) v.toNat)

/-- R19, R22, R54: the delivered value of a source. -/
def Raw.value (t : Tag) : Raw → VReg
  | .tagged r => r
  | .scalar v => { bits := spread t v, tag := t }
  | .lost => { bits := 0, tag := t }

/-- R21: a position's held value after a source with its hold bit set; 0x3FF keeps it. -/
def Bank.hold (b : Bank) (unit pos : Nat) (f : BitVec 10) (h : Bool) (r : VReg) : Bank :=
  if !h || f == 0x3FF then b
  else
    let l : Latch := { bits := r.bits, tag := r.tag, valid := true }
    let put (v : Vector Latch 3) : Vector Latch 3 := if hp : pos < 3 then v.set pos l else v
    if unit = 0 then { b with held0 := put b.held0 } else { b with held1 := put b.held1 }

/-- The read sources of a V instruction. -/
structure VIn where
  /-- The instruction's tag (R54). -/
  tag : Tag
  /-- The delivered values, in position order. -/
  xs : List VReg
  /-- The sources that a scalar delivers. -/
  plain : List Bool
  /-- The tagged sources agree. -/
  agree : Bool
  /-- Some source is a scalar broadcast or a scalar latch. -/
  scalar : Bool
  /-- Some source is a lost latch or held value (R22). -/
  lost : Bool
  deriving DecidableEq, Repr

/-- The source fields of an instruction that reads n positions, with their hold bits. -/
def vfields (o : VOp) (n : Nat) : List (BitVec 10 × Bool) := [(o.a, o.ha), (o.b, o.hb), (o.c, o.hc)].take n

/-- The raw values of source fields of a unit. -/
def Bank.raws (b : Bank) (unit : Nat) (fs : List (BitVec 10 × Bool)) : List Raw :=
  fs.mapIdx fun i f => b.srcRaw unit i f.1

/-- A raw value carries no tag of its own because a scalar delivers it. -/
def Raw.isScalar : Raw → Bool
  | .scalar _ => true
  | _ => false

/-- A raw value is lost. -/
def Raw.isLost : Raw → Bool
  | .lost => true
  | _ => false

/-- The sources of a V instruction as it reads them at issue. -/
def Bank.vread (b : Bank) (unit : Nat) (fs : List (BitVec 10 × Bool)) : VIn :=
  let rs := b.raws unit fs
  let t := firstTag rs
  { tag := t, xs := rs.map (Raw.value t), plain := rs.map Raw.isScalar,
    agree := rs.all fun r => (match r with | .tagged v => v.tag == t | _ => true),
    scalar := rs.any Raw.isScalar, lost := rs.any Raw.isLost }

/-- R21: the held values after an instruction. -/
def Bank.holdAll (b : Bank) (unit : Nat) (fs : List (BitVec 10 × Bool)) (xs : List VReg) : Bank :=
  ((fs.zip xs).mapIdx fun i x => (i, x)).foldl (fun b x => b.hold unit x.1 x.2.1.1 x.2.1.2 x.2.2) b

/-- Source n of a read instruction. -/
def VIn.x (i : VIn) (n : Nat) : VBits := (i.xs.getD n { bits := 0, tag := 0 }).bits

/-- The tag of source n. -/
def VIn.tagOf (i : VIn) (n : Nat) : Tag := (i.xs.getD n { bits := 0, tag := 0 }).tag

/-- A scalar delivers source n. -/
def VIn.isPlain (i : VIn) (n : Nat) : Bool := i.plain.getD n false

/-- R53: some source carries MASK. -/
def VIn.anyMask (i : VIn) : Bool := i.xs.any fun x => x.tag == 13

/-- R54, R376: all tagged sources agree, the tag is accepted, and a MASK instruction reads no scalar source. -/
def VIn.ok (i : VIn) (accept : Tag → Bool) : Bool := i.agree && accept i.tag && !(i.scalar && i.tag == 13)

/-! ### V results -/

/-- R53: km is legal for a source tag and a result tag: k0 for MASK and for another lane count. -/
def kmOk (km : BitVec 3) (src dst : Tag) : Bool :=
  km == 0 || (src != 13 && dst != 13 && tagLanes src == tagLanes dst)

/-- R377: a result for vd under a mask, or for the latch alone when W = 1. -/
def State.vput (s : State) (lat : Nat) (o : VOp) (tag : Tag) (bits k : VBits) (flags : BitVec 3) : State :=
  let b := s.core.bank
  let m := laneMask (tagWidth tag) k
  let e := if o.w then Eff.vlatch tag (bits &&& m) else .v (b.phys o.vd.toNat) tag bits m
  s.setBank (b.addPend lat e b.vslot flags)

/-- R16, R377: a further destination of a multi-result instruction; it enters no latch. -/
def State.vputMore (s : State) (lat n : Nat) (tag : Tag) (bits : VBits) : State :=
  let b := s.core.bank
  s.setBank (b.addPend lat (.v (b.phys n) tag bits (BitVec.allOnes 2048)) 4 0)

/-- R54, R304, R376: a V instruction that reads the first n positions and writes `more` further registers after
vd: guard, register numbers (0x02), the km rule with that for MASK sources (0x01), tags (0x05), and a lost source in debug mode (0x09). -/
def State.vrun (s : State) (o : VOp) (n more : Nat) (vdest : Bool) (km tags : VIn → Bool)
    (fin : VIn → State → State) : Out :=
  s.primaryOnly o.g fun s =>
    let b := s.core.bank
    let fs := vfields o n
    if !(fs.all fun f => b.srcIn f.1) ||
        (vdest && !o.w && !((List.range (more + 1)).all fun i => b.vregIn (o.vd.toNat + i))) then s.raise 0x02
    else
      let i := b.vread b.vslot fs
      if (o.km != 0 && i.anyMask) || !(km i) then s.raise 0x01
      else if !(tags i) then s.raise 0x05
      else if i.lost && b.status.debug then s.raise 0x09
      else .next (fin i (s.setBank (b.holdAll b.vslot fs i.xs)))

/-- A lane-wise V instruction: sources of one tag, a result of tag `out`, and a function of the source bits with
the STATUS flags it sets. -/
def State.vlanes (s : State) (o : VOp) (n lat : Nat) (accept : Tag → Bool) (out : Tag → Tag)
    (f : VIn → VBits → VBits × Bool) : Out :=
  s.vrun o n 0 true (fun i => kmOk o.km i.tag (out i.tag)) (fun i => i.ok accept) fun i s =>
    let k := s.core.bank.mask o.km
    let r := f i k
    s.vput lat o (out i.tag) r.1 k (flagBits r.2 false i.lost)

/-- Lane-wise map of one source. -/
def map1 (t : Tag) (f : Nat → Nat) (a : VBits) : VBits := ofLanes (tagWidth t) ((lanesOf (tagWidth t) a).map f)

/-- Lane-wise map of two sources. -/
def map2 (t : Tag) (f : Nat → Nat → Nat) (a b : VBits) : VBits :=
  ofLanes (tagWidth t) (List.zipWith f (lanesOf (tagWidth t) a) (lanesOf (tagWidth t) b))

/-- Lane-wise map of three sources. -/
def map3 (t : Tag) (f : Nat → Nat → Nat → Nat) (a b c : VBits) : VBits :=
  ofLanes (tagWidth t)
    (List.zipWith (fun g x => g x) (List.zipWith f (lanesOf (tagWidth t) a) (lanesOf (tagWidth t) b))
      (lanesOf (tagWidth t) c))

/-! ### Captured blocks -/

/-- R99: a block of `len` bytes in the window that the issuing bank has pinned, aligned to `al`: its bytes at
issue, or the cause. -/
def State.block (s : State) (a len al : Nat) : Except Nat (List Byte) :=
  match s.checkLocal a len al with
  | some c => .error c
  | none => .ok (readBytes (match s.agent with
      | .primary => s.core.store
      | .drift _ => s.core.seen) a len)

/-- The port claims of a primary access at issue. -/
def State.claimNow (s : State) (a len : Nat) : State :=
  s.setBank (s.core.bank.claim s.core.bank.tick (linesOf a len))

/-- R353: the ports that a captured block's lines claim at the primary's issue; a drift thread's operation has none to
claim, since it issues only where none is taken (R36). -/
def State.claimBlock (s : State) (a len : Nat) : State :=
  match s.agent with
  | .primary => s.claimNow a len
  | .drift _ => s

/-- R99, R353: an instruction that captures a block: it goes on with the block's bytes, or raises the block's cause. -/
def State.captured (s : State) (a len al : Nat) (k : List Byte → State → Out) : Out :=
  match s.block a len al with
  | .error c => s.raiseWith c 0 a 0
  | .ok bs => k bs (s.claimBlock a len)

end Sys2Proof.Machine
end

