-- ==== Sys2Proof/Machine/Scalar.lean ====
section
/-! DEFINITION. The meanings of the scalar register and immediate instructions, the long immediates, and the
predicate instructions (20 R317-R319, R327, R328; 21 R362, R368, R372). -/

namespace Sys2Proof.Machine

/-- R317: a scalar result: the primary's lands `lat` cycles after issue and enters scalar latch 0; a drift
thread's goes to its d register after `dlat` cycles. -/
def State.scalarResult (s : State) (lat dlat : Nat) (d : BitVec 6) (v : Word) : State :=
  match s.agent with
  | .primary => s.result lat (.s d.toNat v)
  | .drift _ => s.driftIssue dlat (.d d.toNat v)

/-- R31, R202, R317: the checks of a scalar destination and its sources, then the result. -/
def State.scalarOp (s : State) (lat dlat : Nat) (d : BitVec 6) (srcs : List (BitVec 6)) (v : State → Word) : Out :=
  if !(s.dregsOk (d :: srcs)) then s.raise 0x01
  else if !(s.destOk d) then s.raise 0x0C
  else .next (s.scalarResult lat dlat d (v s))

/-- R317: a scalar register operation. -/
def State.regOp (s : State) (o : SOp) (lat dlat : Nat) (f : Word → Word → Word) : Out :=
  s.guarded o.g fun s => s.scalarOp lat dlat o.d [o.a, o.b] fun s => f (s.rs o.a) (s.rs o.b)

/-- R318: an immediate operation on sext(imm10). -/
def State.immOp (s : State) (o : SImm) (f : Word → Word → Word) : Out :=
  s.scalarOp 1 4 o.d [o.a] fun s => f (s.rs o.a) (o.imm.signExtend 64)

/-- R327: an operation on one register. -/
def State.unaryOp (s : State) (o : SOp) (f : Word → Word) : Out :=
  s.guarded o.g fun s => s.scalarOp 1 4 o.d [o.a] fun s => f (s.rs o.a)

/-- R317: bits 127:64 of the signed product. -/
def mulHigh (a b : Word) : Word := BitVec.ofInt 64 (a.toInt * b.toInt / 2 ^ 64)

/-- R317: bits 127:64 of the unsigned product. -/
def mulHighN (a b : Word) : Word := BitVec.ofNat 64 (a.toNat * b.toNat / 2 ^ 64)

/-- R317: the signed quotient; a zero divisor gives -1. -/
def divS (a b : Word) : Word := if b = 0 then BitVec.allOnes 64 else a.sdiv b

/-- R317: the unsigned quotient; a zero divisor gives 2^64 - 1. -/
def divN (a b : Word) : Word := if b = 0 then BitVec.allOnes 64 else a.udiv b

/-- R317: the count of a shift. -/
def shiftCount (b : Word) : Nat := b.toNat % 64

/-- R327: zero bits above the highest one bit of n bits. -/
def clzBits (x : Nat) : (n : Nat) → Nat
  | 0 => 0
  | n + 1 => if x.testBit n then 0 else clzBits x n + 1

/-- R317: ADD. -/
def execAdd (o : SOp) (s : State) : Out := s.regOp o 1 4 (· + ·)
/-- R317: SUB. -/
def execSub (o : SOp) (s : State) : Out := s.regOp o 1 4 (· - ·)
/-- R317: MUL. -/
def execMul (o : SOp) (s : State) : Out := s.regOp o 3 8 (· * ·)
/-- R317: MULH. -/
def execMulh (o : SOp) (s : State) : Out := s.regOp o 3 8 mulHigh
/-- R317: MULHN. -/
def execMulhn (o : SOp) (s : State) : Out := s.regOp o 3 8 mulHighN
/-- R317: DIV. -/
def execDiv (o : SOp) (s : State) : Out := s.regOp o 20 24 divS
/-- R317: DIVN. -/
def execDivn (o : SOp) (s : State) : Out := s.regOp o 20 24 divN
/-- R317: MIN. -/
def execMin (o : SOp) (s : State) : Out := s.regOp o 1 4 fun a b => if b.slt a then b else a
/-- R317: MAX. -/
def execMax (o : SOp) (s : State) : Out := s.regOp o 1 4 fun a b => if a.slt b then b else a
/-- R317: MINN. -/
def execMinn (o : SOp) (s : State) : Out := s.regOp o 1 4 fun a b => if b.ult a then b else a
/-- R317: MAXN. -/
def execMaxn (o : SOp) (s : State) : Out := s.regOp o 1 4 fun a b => if a.ult b then b else a
/-- R317: AND. -/
def execAnd (o : SOp) (s : State) : Out := s.regOp o 1 4 (· &&& ·)
/-- R317: OR. -/
def execOr (o : SOp) (s : State) : Out := s.regOp o 1 4 (· ||| ·)
/-- R317: XOR. -/
def execXor (o : SOp) (s : State) : Out := s.regOp o 1 4 (· ^^^ ·)
/-- R317: SHL. -/
def execShl (o : SOp) (s : State) : Out := s.regOp o 1 4 fun a b => a <<< shiftCount b
/-- R317: SHR. -/
def execShr (o : SOp) (s : State) : Out := s.regOp o 1 4 fun a b => a >>> shiftCount b
/-- R317: SAR. -/
def execSar (o : SOp) (s : State) : Out := s.regOp o 1 4 fun a b => a.sshiftRight (shiftCount b)
/-- R327: CLZ. -/
def execClz (o : SOp) (s : State) : Out := s.unaryOp o fun a => BitVec.ofNat 64 (clzBits a.toNat 64)
/-- R327: POPC. -/
def execPopc (o : SOp) (s : State) : Out := s.unaryOp o fun a => BitVec.ofNat 64 (popCount a.toNat 64)
/-- R327: MOV. -/
def execMov (o : SOp) (s : State) : Out := s.unaryOp o id

/-- R372: the predicate a selector names; in drift code codes 0 to 3 name dp0 to dp3. -/
def State.selector (s : State) (g : BitVec 4) : Bool :=
  match s.agent with
  | .primary => s.core.bank.pred g
  | .drift n => (s.core.thread n).pred g.toNat

/-- R372: SEL. -/
def execSel (o : SOp) (s : State) : Out :=
  if s.isDrift && decide (4 ≤ o.g.toNat) then s.raise 0x01
  else s.scalarOp 1 4 o.d [o.a, o.b] fun s => if s.selector o.g then s.rs o.a else s.rs o.b

/-- R318: ADDI. -/
def execAddi (o : SImm) (s : State) : Out := s.immOp o (· + ·)
/-- R318: ANDI. -/
def execAndi (o : SImm) (s : State) : Out := s.immOp o (· &&& ·)
/-- R318: ORI. -/
def execOri (o : SImm) (s : State) : Out := s.immOp o (· ||| ·)
/-- R318: XORI. -/
def execXori (o : SImm) (s : State) : Out := s.immOp o (· ^^^ ·)
/-- R318: SHLI. -/
def execShli (o : SImm) (s : State) : Out := s.immOp o fun a _ => a <<< o.imm.toNat
/-- R318: SHRI. -/
def execShri (o : SImm) (s : State) : Out := s.immOp o fun a _ => a >>> o.imm.toNat
/-- R318: SARI. -/
def execSari (o : SImm) (s : State) : Out := s.immOp o fun a _ => a.sshiftRight o.imm.toNat
/-- R318: MOVI. -/
def execMovi (o : SImm) (s : State) : Out := s.immOp o fun _ i => i

/-- R319: MOVL. -/
def execMovl (o : XOp) (s : State) : Out :=
  s.guarded o.g fun s => s.scalarOp 1 4 o.d [] fun _ => o.imm.signExtend 64
/-- R319: MOVH. -/
def execMovh (o : XOp) (s : State) : Out :=
  s.guarded o.g fun s => s.scalarOp 1 4 o.d [] fun s => o.imm ++ (s.rs o.d).setWidth 32
/-- R319: ADDL. -/
def execAddl (o : XOp) (s : State) : Out :=
  s.guarded o.g fun s => s.scalarOp 1 4 o.d [o.a] fun s => s.rs o.a + o.imm.signExtend 64

/-- R368: NOP. In drift code it completes in 4 cycles. -/
def execNop (s : State) : Out := .next s.skip
/-- R368: NOP that withholds the scalar slot. -/
def execNopW (s : State) : Out := .next s.skip

/-! ### Predicates -/

/-- R328: a compare of a register with a value. -/
def State.compare (s : State) (p : BitVec 6) (srcs : List (BitVec 6)) (v : State → Bool) : Out :=
  if !(s.dregsOk srcs) then s.raise 0x01 else s.predResult (p.setWidth 4).toNat (v s)

/-- R328: CMP. -/
def execCmp (o : SOp) (s : State) : Out :=
  s.compare o.d [o.a, o.b] fun s => scalarCond o.g.toNat (s.rs o.a) (s.rs o.b)
/-- R328: CMPEQI. -/
def execCmpeqi (o : SImm) (s : State) : Out := s.compare o.d [o.a] fun s => s.rs o.a == o.imm.signExtend 64
/-- R328: CMPLTI. -/
def execCmplti (o : SImm) (s : State) : Out := s.compare o.d [o.a] fun s => (s.rs o.a).slt (o.imm.signExtend 64)
/-- R328: CMPLEI. -/
def execCmplei (o : SImm) (s : State) : Out := s.compare o.d [o.a] fun s => (s.rs o.a).sle (o.imm.signExtend 64)
/-- R328: CMPLTNI. -/
def execCmpltni (o : SImm) (s : State) : Out := s.compare o.d [o.a] fun s => (s.rs o.a).ult (o.imm.signExtend 64)

/-- R362: an operation on predicates. -/
def State.predOp (s : State) (o : SOp) (srcs : List (BitVec 6)) (f : State → Bool) : Out :=
  s.guarded o.g fun s =>
    if !(srcs.all s.predSrcOk) then s.raise 0x01 else s.predResult (o.d.setWidth 4).toNat (f s)

/-- R362: PAND. -/
def execPand (o : SOp) (s : State) : Out := s.predOp o [o.a, o.b] fun s => s.predSrc o.a && s.predSrc o.b
/-- R362: POR. -/
def execPor (o : SOp) (s : State) : Out := s.predOp o [o.a, o.b] fun s => s.predSrc o.a || s.predSrc o.b
/-- R362: PXOR. -/
def execPxor (o : SOp) (s : State) : Out := s.predOp o [o.a, o.b] fun s => s.predSrc o.a != s.predSrc o.b
/-- R362: PANDN. -/
def execPandn (o : SOp) (s : State) : Out := s.predOp o [o.a, o.b] fun s => s.predSrc o.a && !(s.predSrc o.b)
/-- R362: MOVP. -/
def execMovp (o : SOp) (s : State) : Out := s.predOp o [o.a] fun s => s.predSrc o.a
/-- R362: SETP. -/
def execSetp (o : SOp) (s : State) : Out :=
  s.guarded o.g fun s =>
    if !(s.dregsOk [o.a]) then s.raise 0x01 else s.predResult (o.d.setWidth 4).toNat (s.rs o.a != 0)

end Sys2Proof.Machine
end

