-- ==== Sys2Proof/WellFormed.lean ====
section
/-! DEFINITION. Well-formed instructions: those the encoding check of R304 step 3.2 accepts. The check
itself, `Machine.fieldsOk`, stands in Sys2Proof/Machine/Fields.lean. -/

namespace Sys2Proof

/-- An instruction whose reserved fields are 0 and whose field values are all assigned (R303, R304). -/
abbrev WellFormed (i : Instr) : Prop := Machine.fieldsOk i = true

end Sys2Proof
end

