-- ==== Sys2Proof/Decode.lean ====
section
/-! DEFINITION. Decoding instruction words (18 R288-R299, 19 R305-R314) and the encoder. Both ignore the
bundle-start bit B, which belongs to the packet (R289) and not to the instruction. -/

namespace Sys2Proof

/-- Why words are no instruction. -/
inductive Reject where
  /-- A class or op value outside R305: cause 0x01 whatever the guard (R304 step 3.1). -/
  | unassigned
  /-- An assigned op with an illegal field: cause 0x01 when the guard is true (R304 step 3.2). The candidate
  keeps the guard and the kind of the instruction. -/
  | illegalField (g : BitVec 4) (candidate : Instr)
  deriving DecidableEq, Repr

/-- Bits of a word: len bits from bit lo. -/
def bitsOf (w : IWord) (lo len : Nat) : BitVec len := w.extractLsb' lo len

/-- K, the class, in bits 30:28 (R288). -/
def classOf (w : IWord) : BitVec 3 := bitsOf w 28 3

/-- R289: the words of an instruction of class k; none for class P and class 7. -/
def classWords (k : Nat) : Option Nat :=
  match k with
  | 0 | 5 => some 1
  | 1 | 2 | 3 | 4 => some 2
  | _ => none

/-- R293: the S format, register form. -/
def unpackS (w : IWord) : SOp :=
  { d := bitsOf w 16 6, a := bitsOf w 10 6, b := bitsOf w 4 6, g := bitsOf w 0 4 }

/-- R293: the S format, immediate form. -/
def unpackSImm (w : IWord) : SImm :=
  { d := bitsOf w 16 6, a := bitsOf w 10 6, imm := bitsOf w 0 10 }

/-- R295: the L format, imm19 layout. -/
def unpackLImm (w : IWord) : LImm := { g := bitsOf w 19 4, imm := bitsOf w 0 19 }

/-- R295: the L format, sa layout. -/
def unpackLReg (w : IWord) : LReg := { g := bitsOf w 19 4, a := bitsOf w 13 6, imm := bitsOf w 0 13 }

/-- R294: the X format. -/
def unpackX (w w1 : IWord) : XOp :=
  { d := bitsOf w 16 6, a := bitsOf w 10 6, g := bitsOf w 6 4, sub := bitsOf w 0 6, imm := w1 }

/-- R296: the V format. -/
def unpackV (w w1 : IWord) : VOp :=
  { vd := bitsOf w 11 9, w := bitsOf w 10 1 == 1, g := bitsOf w 6 4, km := bitsOf w 3 3,
    ha := bitsOf w 2 1 == 1, hb := bitsOf w 1 1 == 1, hc := bitsOf w 0 1 == 1,
    a := bitsOf w1 22 10, b := bitsOf w1 12 10, c := bitsOf w1 2 10, rnd := bitsOf w1 0 2 }

/-- R298: the M format. -/
def unpackM (w w1 : IWord) : MOp :=
  { np := bitsOf w 18 4, acc := bitsOf w 15 3, plane := bitsOf w 13 2, mode := bitsOf w 10 3,
    g := bitsOf w 6 4, sn := bitsOf w 0 6, line := bitsOf w1 16 16, useGen := bitsOf w1 15 1 == 1,
    gen := bitsOf w1 12 3, t := bitsOf w1 11 1 == 1, rows := bitsOf w1 3 8, rsv := bitsOf w1 0 3 }

/-- R299: the C format. -/
def unpackC (w w1 : IWord) : COp :=
  { data := bitsOf w 13 9, sa := bitsOf w 7 6, cb := bitsOf w 4 3, g := bitsOf w 0 4,
    fmt := bitsOf w1 28 4, hint := bitsOf w1 26 2, scope := bitsOf w1 23 3, sb := bitsOf w1 17 6,
    imm := bitsOf w1 0 17 }

/-- S class, register forms: the instruction of an op (R306). -/
def instrOfS (op : Nat) (o : SOp) : Option Instr :=
  match op with
  | 1 => some (.add o)
  | 2 => some (.sub o)
  | 3 => some (.mul o)
  | 4 => some (.mulh o)
  | 5 => some (.mulhn o)
  | 6 => some (.div o)
  | 7 => some (.divn o)
  | 8 => some (.min_ o)
  | 9 => some (.max_ o)
  | 10 => some (.minn o)
  | 11 => some (.maxn o)
  | 12 => some (.and_ o)
  | 13 => some (.or_ o)
  | 14 => some (.xor_ o)
  | 15 => some (.shl o)
  | 16 => some (.shr o)
  | 17 => some (.sar o)
  | 18 => some (.clz o)
  | 19 => some (.popc o)
  | 20 => some (.sel o)
  | 21 => some (.mov o)
  | 22 => some (.cmp o)
  | 23 => some (.pand o)
  | 24 => some (.por o)
  | 25 => some (.pxor o)
  | 26 => some (.pandn o)
  | 27 => some (.movp o)
  | 28 => some (.setp o)
  | _ => none

/-- S class, immediate forms: the instruction of an op (R306). -/
def instrOfSImm (op : Nat) (o : SImm) : Option Instr :=
  match op with
  | 32 => some (.addi o)
  | 33 => some (.andi o)
  | 34 => some (.ori o)
  | 35 => some (.xori o)
  | 36 => some (.shli o)
  | 37 => some (.shri o)
  | 38 => some (.sari o)
  | 39 => some (.movi o)
  | 40 => some (.cmpeqi o)
  | 41 => some (.cmplti o)
  | 42 => some (.cmplei o)
  | 43 => some (.cmpltni o)
  | _ => none

/-- L class: the instruction of an op (R309). -/
def instrOfL (op : Nat) (i : LImm) (r : LReg) : Option Instr :=
  match op with
  | 0 => some (.br i)
  | 1 => some (.bri r)
  | 2 => some (.brb r)
  | 3 => some (.call i)
  | 4 => some (.ret r)
  | 5 => some (.loop r)
  | 6 => some (.lmark i)
  | 7 => some (.taskend i)
  | 8 => some (.yield i)
  | _ => none

/-- X class: the instruction of an op (R308). -/
def instrOfX (op : Nat) (o : XOp) : Option Instr :=
  match op with
  | 0 => some (.movl o)
  | 1 => some (.movh o)
  | 2 => some (.addl o)
  | 3 => some (.ldt o)
  | 4 => some (.mbr o)
  | 5 => some (.mfsr o)
  | 6 => some (.mtsr o)
  | 7 => some (.trap o)
  | 8 => some (.eret o)
  | 9 => some (.ckpt o)
  | 10 => some (.digest o)
  | 11 => some (.grow o)
  | 12 => some (.shrink o)
  | 13 => some (.arm o)
  | 14 => some (.disarm o)
  | 15 => some (.condw o)
  | 16 => some (.tret o)
  | 17 => some (.dstart o)
  | 18 => some (.dstop o)
  | 19 => some (.genset o)
  | 20 => some (.selftest o)
  | _ => none

/-- V class: the instruction of an op (R310). -/
def instrOfV (op : Nat) (o : VOp) : Option Instr :=
  match op with
  | 1 => some (.vadd o)
  | 2 => some (.vsub o)
  | 3 => some (.vmul o)
  | 4 => some (.vfma o)
  | 5 => some (.vfms o)
  | 6 => some (.vfnma o)
  | 7 => some (.vmin o)
  | 8 => some (.vmax o)
  | 9 => some (.vabs o)
  | 10 => some (.vneg o)
  | 11 => some (.vand o)
  | 12 => some (.vor o)
  | 13 => some (.vxor o)
  | 14 => some (.vshl o)
  | 15 => some (.vshr o)
  | 16 => some (.vsar o)
  | 17 => some (.vcmp o)
  | 18 => some (.vsel o)
  | 19 => some (.vmov o)
  | 20 => some (.vbcast o)
  | 21 => some (.viota o)
  | 22 => some (.vperm o)
  | 23 => some (.vslide o)
  | 24 => some (.vcvt o)
  | 25 => some (.vqnt o)
  | 26 => some (.vdqnt o)
  | 27 => some (.vscl o)
  | 28 => some (.vrcp o)
  | 29 => some (.vrsq o)
  | 30 => some (.vexp2 o)
  | 31 => some (.vlog2 o)
  | 32 => some (.vrsum o)
  | 33 => some (.vrmax o)
  | 34 => some (.vrmin o)
  | 35 => some (.vscan o)
  | 36 => some (.vsort o)
  | 37 => some (.vtopk o)
  | 38 => some (.vmergek o)
  | 39 => some (.vcomp o)
  | 40 => some (.vpopc o)
  | 41 => some (.vmovs o)
  | 42 => some (.vhash o)
  | 43 => some (.vgen o)
  | 44 => some (.vclass o)
  | 45 => some (.vrnd o)
  | 46 => some (.vtag o)
  | _ => none

/-- M class: the instruction of an op (R312). -/
def instrOfM (op : Nat) (o : MOp) : Option Instr :=
  match op with
  | 0 => some (.mldw o)
  | 1 => some (.mflip o)
  | 2 => some (.mmul o)
  | 3 => some (.mmulz o)
  | 4 => some (.mbnd o)
  | 5 => some (.mepi o)
  | 6 => some (.mrda o)
  | 7 => some (.mwra o)
  | 8 => some (.mzero o)
  | 9 => some (.mred o)
  | _ => none

/-- C class: the instruction of an op (R314). -/
def instrOfC (op : Nat) (o : COp) : Option Instr :=
  match op with
  | 0 => some (.ld o)
  | 1 => some (.st o)
  | 2 => some (.ldv o)
  | 3 => some (.stv o)
  | 4 => some (.gath o)
  | 5 => some (.scat o)
  | 6 => some (.cpy o)
  | 7 => some (.cpyw o)
  | 8 => some (.mcast o)
  | 9 => some (.pin o)
  | 10 => some (.unpin o)
  | 11 => some (.atom o)
  | 12 => some (.flagw o)
  | 13 => some (.flagr o)
  | 14 => some (.fence o)
  | 15 => some (.barr o)
  | 16 => some (.msend o)
  | 17 => some (.lsend o)
  | 18 => some (.lrecv o)
  | 19 => some (.lradd o)
  | 20 => some (.subs o)
  | 21 => some (.slotdn o)
  | 22 => some (.bdred o)
  | 23 => some (.bdtopk o)
  | 24 => some (.xroute o)
  | 25 => some (.gpost o)
  | 26 => some (.pref o)
  | 27 => some (.wbl o)
  | 28 => some (.invl o)
  | _ => none

/-- R306, R368: the NOP of a word whose op is 0, with its reserved bits clear or not. -/
def nopOf (w : IWord) : Except Reject Instr :=
  let i : Instr := if bitsOf w 10 1 == 1 then .nop else .nopW
  if bitsOf w 0 10 == 0 && bitsOf w 11 11 == 0 then .ok i else .error (.illegalField (bitsOf w 0 4) i)

/-- The guard field an S, L, X, V, M or C instruction holds: 0 for the forms that have none (R293). -/
def guardOf (i : Instr) : BitVec 4 :=
  match i with
  | .add o | .sub o | .mul o | .mulh o | .mulhn o | .div o | .divn o | .min_ o
  | .max_ o | .minn o | .maxn o | .and_ o | .or_ o | .xor_ o | .shl o | .shr o
  | .sar o | .clz o | .popc o | .mov o | .pand o | .por o | .pxor o | .pandn o
  | .movp o | .setp o | .br o | .bri o | .brb o | .call o | .ret o | .loop o
  | .lmark o | .taskend o | .yield o | .movl o | .movh o | .addl o | .ldt o | .mbr o
  | .mfsr o | .mtsr o | .trap o | .eret o | .ckpt o | .digest o | .grow o | .shrink o
  | .arm o | .disarm o | .condw o | .tret o | .dstart o | .dstop o | .genset o | .selftest o
  | .vadd o | .vsub o | .vmul o | .vfma o | .vfms o | .vfnma o | .vmin o | .vmax o
  | .vabs o | .vneg o | .vand o | .vor o | .vxor o | .vshl o | .vshr o | .vsar o
  | .vcmp o | .vsel o | .vmov o | .vbcast o | .viota o | .vperm o | .vslide o | .vcvt o
  | .vqnt o | .vdqnt o | .vscl o | .vrcp o | .vrsq o | .vexp2 o | .vlog2 o | .vrsum o
  | .vrmax o | .vrmin o | .vscan o | .vsort o | .vtopk o | .vmergek o | .vcomp o | .vpopc o
  | .vmovs o | .vhash o | .vgen o | .vclass o | .vrnd o | .vtag o | .mldw o | .mflip o
  | .mmul o | .mmulz o | .mbnd o | .mepi o | .mrda o | .mwra o | .mzero o | .mred o
  | .ld o | .st o | .ldv o | .stv o | .gath o | .scat o | .cpy o | .cpyw o
  | .mcast o | .pin o | .unpin o | .atom o | .flagw o | .flagr o | .fence o | .barr o
  | .msend o | .lsend o | .lrecv o | .lradd o | .subs o | .slotdn o | .bdred o | .bdtopk o
  | .xroute o | .gpost o | .pref o | .wbl o | .invl o => o.g
  | _ => 0

/-- R304, R350: the guard under which an illegal field raises its cause: the instruction's, but p0 for an MBR whose
guard code names a leaf, which no MBR may. -/
def fieldGuard (i : Instr) : BitVec 4 :=
  match i with
  | .mbr o => if 11 ≤ o.g.toNat then 0 else o.g
  | _ => guardOf i

/-- R303: a candidate passes when its encoding check does; else it is an illegal field. -/
def checked (i : Option Instr) : Except Reject Instr :=
  match i with
  | none => .error .unassigned
  | some i => if Machine.fieldsOk i then .ok i else .error (.illegalField (fieldGuard i) i)

/-- The instruction of a first word and the word after it (R288, R305). The second word is read only by
the classes that hold two. -/
def decodeWords (w w1 : IWord) : Except Reject Instr :=
  match (classOf w).toNat with
  | 0 =>
    let op := (bitsOf w 22 6).toNat
    if op = 0 then nopOf w
    else if op < 0x20 then checked (instrOfS op (unpackS w))
    else checked (instrOfSImm op (unpackSImm w))
  | 1 => checked (instrOfX (bitsOf w 22 6).toNat (unpackX w w1))
  | 2 => checked (instrOfV (bitsOf w 20 8).toNat (unpackV w w1))
  | 3 => checked (instrOfM (bitsOf w 22 6).toNat (unpackM w w1))
  | 4 => checked (instrOfC (bitsOf w 22 6).toNat (unpackC w w1))
  | 5 => checked (instrOfL (bitsOf w 23 5).toNat (unpackLImm w) (unpackLReg w))
  | _ => .error .unassigned

/-- The word of two little-endian halves of bytes (R4, R288). -/
def wordOfBytes (b0 b1 b2 b3 : Byte) : IWord := b3 ++ b2 ++ b1 ++ b0

/-- Decode from bytes at an instruction's first word: the instruction and the bytes after it. Fewer bytes
than the class needs are refused. -/
def decodeBytes (bs : List Byte) : Except Reject (Instr × List Byte) :=
  match bs with
  | b0 :: b1 :: b2 :: b3 :: rest =>
    let w := wordOfBytes b0 b1 b2 b3
    match classWords (classOf w).toNat with
    | none => .error .unassigned
    | some 1 => (decodeWords w 0).map (·, rest)
    | some _ =>
      match rest with
      | c0 :: c1 :: c2 :: c3 :: rest => (decodeWords w (wordOfBytes c0 c1 c2 c3)).map (·, rest)
      | _ => .error .unassigned
  | _ => .error .unassigned

/-- The bytes of a word, least significant first (R288). -/
def bytesOfWord (w : IWord) : List Byte :=
  [w.extractLsb' 0 8, w.extractLsb' 8 8, w.extractLsb' 16 8, w.extractLsb' 24 8]

/-- The instruction the decoder reads from an instruction whose bits are w, numbered as the opcode table
numbers them; the bits above nbits are 0. -/
def decodeTableWord (nbits w : Nat) : Option Instr :=
  let w := w % 2 ^ nbits
  match decodeBytes (bytesOfWord (BitVec.ofNat 32 w) ++ bytesOfWord (BitVec.ofNat 32 (w / 2 ^ 32))) with
  | .ok (i, _) => some i
  | .error _ => none

/-- A single bit. -/
def bit1 (b : Bool) : BitVec 1 := if b then 1 else 0

/-- R293: S format words. -/
def packS (op : Nat) (o : SOp) : IWord :=
  (0 : BitVec 4) ++ BitVec.ofNat 6 op ++ o.d ++ o.a ++ o.b ++ o.g

/-- R293: S immediate words. -/
def packSImm (op : Nat) (o : SImm) : IWord :=
  (0 : BitVec 4) ++ BitVec.ofNat 6 op ++ o.d ++ o.a ++ o.imm

/-- R295: L words, imm19 layout. -/
def packLImm (op : Nat) (o : LImm) : IWord :=
  (5 : BitVec 4) ++ BitVec.ofNat 5 op ++ o.g ++ o.imm

/-- R295: L words, sa layout. -/
def packLReg (op : Nat) (o : LReg) : IWord :=
  (5 : BitVec 4) ++ BitVec.ofNat 5 op ++ o.g ++ o.a ++ o.imm

/-- R294: the first X word; the second is imm32. -/
def packX (op : Nat) (o : XOp) : IWord :=
  (1 : BitVec 4) ++ BitVec.ofNat 6 op ++ o.d ++ o.a ++ o.g ++ o.sub

/-- R296: the first V word. -/
def packV0 (op : Nat) (o : VOp) : IWord :=
  (2 : BitVec 4) ++ BitVec.ofNat 8 op ++ o.vd ++ bit1 o.w ++ o.g ++ o.km ++ bit1 o.ha ++ bit1 o.hb ++ bit1 o.hc

/-- R296: the second V word. -/
def packV1 (o : VOp) : IWord := o.a ++ o.b ++ o.c ++ o.rnd

/-- R298: the first M word. -/
def packM0 (op : Nat) (o : MOp) : IWord :=
  (3 : BitVec 4) ++ BitVec.ofNat 6 op ++ o.np ++ o.acc ++ o.plane ++ o.mode ++ o.g ++ o.sn

/-- R298: the second M word. -/
def packM1 (o : MOp) : IWord := o.line ++ bit1 o.useGen ++ o.gen ++ bit1 o.t ++ o.rows ++ o.rsv

/-- R299: the first C word. -/
def packC0 (op : Nat) (o : COp) : IWord :=
  (4 : BitVec 4) ++ BitVec.ofNat 6 op ++ o.data ++ o.sa ++ o.cb ++ o.g

/-- R299: the second C word. -/
def packC1 (o : COp) : IWord := o.fmt ++ o.hint ++ o.scope ++ o.sb ++ o.imm

/-- The words of an instruction, first word with B = 0; none for an agent's step, which has no
encoding (R288, R293-R299). -/
def encode (i : Instr) : Option (List IWord) :=
  match i with
  | .nop => some [packS 0 { d := 0, a := 1, b := 0, g := 0 }]
  | .nopW => some [packS 0 { d := 0, a := 0, b := 0, g := 0 }]
  | .add o => some [packS 1 o]
  | .sub o => some [packS 2 o]
  | .mul o => some [packS 3 o]
  | .mulh o => some [packS 4 o]
  | .mulhn o => some [packS 5 o]
  | .div o => some [packS 6 o]
  | .divn o => some [packS 7 o]
  | .min_ o => some [packS 8 o]
  | .max_ o => some [packS 9 o]
  | .minn o => some [packS 10 o]
  | .maxn o => some [packS 11 o]
  | .and_ o => some [packS 12 o]
  | .or_ o => some [packS 13 o]
  | .xor_ o => some [packS 14 o]
  | .shl o => some [packS 15 o]
  | .shr o => some [packS 16 o]
  | .sar o => some [packS 17 o]
  | .clz o => some [packS 18 o]
  | .popc o => some [packS 19 o]
  | .sel o => some [packS 20 o]
  | .mov o => some [packS 21 o]
  | .cmp o => some [packS 22 o]
  | .pand o => some [packS 23 o]
  | .por o => some [packS 24 o]
  | .pxor o => some [packS 25 o]
  | .pandn o => some [packS 26 o]
  | .movp o => some [packS 27 o]
  | .setp o => some [packS 28 o]
  | .addi o => some [packSImm 32 o]
  | .andi o => some [packSImm 33 o]
  | .ori o => some [packSImm 34 o]
  | .xori o => some [packSImm 35 o]
  | .shli o => some [packSImm 36 o]
  | .shri o => some [packSImm 37 o]
  | .sari o => some [packSImm 38 o]
  | .movi o => some [packSImm 39 o]
  | .cmpeqi o => some [packSImm 40 o]
  | .cmplti o => some [packSImm 41 o]
  | .cmplei o => some [packSImm 42 o]
  | .cmpltni o => some [packSImm 43 o]
  | .br o => some [packLImm 0 o]
  | .bri o => some [packLReg 1 o]
  | .brb o => some [packLReg 2 o]
  | .call o => some [packLImm 3 o]
  | .ret o => some [packLReg 4 o]
  | .loop o => some [packLReg 5 o]
  | .lmark o => some [packLImm 6 o]
  | .taskend o => some [packLImm 7 o]
  | .yield o => some [packLImm 8 o]
  | .movl o => some [packX 0 o, o.imm]
  | .movh o => some [packX 1 o, o.imm]
  | .addl o => some [packX 2 o, o.imm]
  | .ldt o => some [packX 3 o, o.imm]
  | .mbr o => some [packX 4 o, o.imm]
  | .mfsr o => some [packX 5 o, o.imm]
  | .mtsr o => some [packX 6 o, o.imm]
  | .trap o => some [packX 7 o, o.imm]
  | .eret o => some [packX 8 o, o.imm]
  | .ckpt o => some [packX 9 o, o.imm]
  | .digest o => some [packX 10 o, o.imm]
  | .grow o => some [packX 11 o, o.imm]
  | .shrink o => some [packX 12 o, o.imm]
  | .arm o => some [packX 13 o, o.imm]
  | .disarm o => some [packX 14 o, o.imm]
  | .condw o => some [packX 15 o, o.imm]
  | .tret o => some [packX 16 o, o.imm]
  | .dstart o => some [packX 17 o, o.imm]
  | .dstop o => some [packX 18 o, o.imm]
  | .genset o => some [packX 19 o, o.imm]
  | .selftest o => some [packX 20 o, o.imm]
  | .vadd o => some [packV0 1 o, packV1 o]
  | .vsub o => some [packV0 2 o, packV1 o]
  | .vmul o => some [packV0 3 o, packV1 o]
  | .vfma o => some [packV0 4 o, packV1 o]
  | .vfms o => some [packV0 5 o, packV1 o]
  | .vfnma o => some [packV0 6 o, packV1 o]
  | .vmin o => some [packV0 7 o, packV1 o]
  | .vmax o => some [packV0 8 o, packV1 o]
  | .vabs o => some [packV0 9 o, packV1 o]
  | .vneg o => some [packV0 10 o, packV1 o]
  | .vand o => some [packV0 11 o, packV1 o]
  | .vor o => some [packV0 12 o, packV1 o]
  | .vxor o => some [packV0 13 o, packV1 o]
  | .vshl o => some [packV0 14 o, packV1 o]
  | .vshr o => some [packV0 15 o, packV1 o]
  | .vsar o => some [packV0 16 o, packV1 o]
  | .vcmp o => some [packV0 17 o, packV1 o]
  | .vsel o => some [packV0 18 o, packV1 o]
  | .vmov o => some [packV0 19 o, packV1 o]
  | .vbcast o => some [packV0 20 o, packV1 o]
  | .viota o => some [packV0 21 o, packV1 o]
  | .vperm o => some [packV0 22 o, packV1 o]
  | .vslide o => some [packV0 23 o, packV1 o]
  | .vcvt o => some [packV0 24 o, packV1 o]
  | .vqnt o => some [packV0 25 o, packV1 o]
  | .vdqnt o => some [packV0 26 o, packV1 o]
  | .vscl o => some [packV0 27 o, packV1 o]
  | .vrcp o => some [packV0 28 o, packV1 o]
  | .vrsq o => some [packV0 29 o, packV1 o]
  | .vexp2 o => some [packV0 30 o, packV1 o]
  | .vlog2 o => some [packV0 31 o, packV1 o]
  | .vrsum o => some [packV0 32 o, packV1 o]
  | .vrmax o => some [packV0 33 o, packV1 o]
  | .vrmin o => some [packV0 34 o, packV1 o]
  | .vscan o => some [packV0 35 o, packV1 o]
  | .vsort o => some [packV0 36 o, packV1 o]
  | .vtopk o => some [packV0 37 o, packV1 o]
  | .vmergek o => some [packV0 38 o, packV1 o]
  | .vcomp o => some [packV0 39 o, packV1 o]
  | .vpopc o => some [packV0 40 o, packV1 o]
  | .vmovs o => some [packV0 41 o, packV1 o]
  | .vhash o => some [packV0 42 o, packV1 o]
  | .vgen o => some [packV0 43 o, packV1 o]
  | .vclass o => some [packV0 44 o, packV1 o]
  | .vrnd o => some [packV0 45 o, packV1 o]
  | .vtag o => some [packV0 46 o, packV1 o]
  | .mldw o => some [packM0 0 o, packM1 o]
  | .mflip o => some [packM0 1 o, packM1 o]
  | .mmul o => some [packM0 2 o, packM1 o]
  | .mmulz o => some [packM0 3 o, packM1 o]
  | .mbnd o => some [packM0 4 o, packM1 o]
  | .mepi o => some [packM0 5 o, packM1 o]
  | .mrda o => some [packM0 6 o, packM1 o]
  | .mwra o => some [packM0 7 o, packM1 o]
  | .mzero o => some [packM0 8 o, packM1 o]
  | .mred o => some [packM0 9 o, packM1 o]
  | .ld o => some [packC0 0 o, packC1 o]
  | .st o => some [packC0 1 o, packC1 o]
  | .ldv o => some [packC0 2 o, packC1 o]
  | .stv o => some [packC0 3 o, packC1 o]
  | .gath o => some [packC0 4 o, packC1 o]
  | .scat o => some [packC0 5 o, packC1 o]
  | .cpy o => some [packC0 6 o, packC1 o]
  | .cpyw o => some [packC0 7 o, packC1 o]
  | .mcast o => some [packC0 8 o, packC1 o]
  | .pin o => some [packC0 9 o, packC1 o]
  | .unpin o => some [packC0 10 o, packC1 o]
  | .atom o => some [packC0 11 o, packC1 o]
  | .flagw o => some [packC0 12 o, packC1 o]
  | .flagr o => some [packC0 13 o, packC1 o]
  | .fence o => some [packC0 14 o, packC1 o]
  | .barr o => some [packC0 15 o, packC1 o]
  | .msend o => some [packC0 16 o, packC1 o]
  | .lsend o => some [packC0 17 o, packC1 o]
  | .lrecv o => some [packC0 18 o, packC1 o]
  | .lradd o => some [packC0 19 o, packC1 o]
  | .subs o => some [packC0 20 o, packC1 o]
  | .slotdn o => some [packC0 21 o, packC1 o]
  | .bdred o => some [packC0 22 o, packC1 o]
  | .bdtopk o => some [packC0 23 o, packC1 o]
  | .xroute o => some [packC0 24 o, packC1 o]
  | .gpost o => some [packC0 25 o, packC1 o]
  | .pref o => some [packC0 26 o, packC1 o]
  | .wbl o => some [packC0 27 o, packC1 o]
  | .invl o => some [packC0 28 o, packC1 o]
  | .resultWriteback => none
  | .loopIteration => none
  | .driftSlotFill => none
  | .driftOpComplete _ _ => none
  | .tokenWindow _ => none
  | .engineLineLand _ => none
  | .engineOpComplete _ => none
  | .engineOpFault _ _ _ => none
  | .eventAnswer _ _ => none
  | .bankSwitch => none
  | .bankResume => none
  | .timerExpiry => none
  | .interrupt => none
  | .taggedMessage _ => none
  | .armResult _ => none
  | .launchStart _ => none
  | .launchEnd _ => none
  | .faultEndLaunch _ => none
  | .nodeTaskset _ _ => none
  | .nodeCond _ _ => none
  | .nodeWhile _ _ => none
  | .nodeBucket _ _ => none
  | .nodeJoin _ _ => none
  | .nodeMessage _ _ => none
  | .nodeTest _ _ => none
  | .taskPlace _ => none
  | .moraineDelivery _ _ => none
  | .taskStart _ => none
  | .outputPullDone _ _ => none
  | .subsSlotFill _ => none
  | .priorityAging _ => none
  | .preemption => none
  | .taskResume _ => none
  | .linkPair _ _ => none
  | .linkTransferDone _ _ => none
  | .flitReceive _ _ => none
  | .laneFail _ _ => none
  | .stampedWriteApply _ _ => none
  | .messagePortWrite _ _ _ => none
  | .lndropRead => none
  | .mpcntRead => none
  | .coldReset => none
  | .powerOn => none
  | .attestRequest _ => none
  | .replctlResume => none
  | .registerWrite _ _ => none
  | .guestCompletion _ => none
  | .guestFault _ _ _ => none
  | .guestReport _ _ => none
  | .guestTranslation _ => none
  | .guestInvalAck _ => none
  | .guestFence => none
  | .clockThrottle _ _ => none
  | .thermalHot _ => none
  | .thermalTrip _ => none
  | .eccCorrected _ => none
  | .uncorrectableError _ _ => none
  | .datapathError _ => none
  | .auditRerun _ => none
  | .auditDecide _ => none
  | .selftestDone _ _ => none
  | .spareSubstitute _ => none
  | .serviceRecordWrite => none
  | .replicaStep _ => none
  | .replicaCompare _ _ => none
  | .powerFailure => none
  | .cxlMemAccess _ => none
  | .guestCoherentAccess _ => none
  | .pendSoftSet _ => none
  | .partitionCellMove _ _ => none
end Sys2Proof
end

