-- ==== Sys2Proof/Machine/Fetch.lean ====
section
/-! DEFINITION. Fetching: packets and bundles (18 R289-R292), the running image (02 R14), and the addresses of the
bundles that follow one in decode order. -/

namespace Sys2Proof.Machine

/-- R14: the image the agent fetches from: for the primary the supervisor image in supervisor mode; for a drift thread
the image it was started in, also while a handler runs (R214; log entry 84, DEDUCED). -/
def State.image (s : State) : Image :=
  if (match s.agent with
      | .primary => s.sup?
      | .drift n => (s.core.thread n).sup) then s.core.sup else s.core.bank.image

/-- The word of an image at an address; none outside it or off a word boundary. -/
def Image.word (im : Image) (a : Nat) : Option IWord :=
  if a % 4 ≠ 0 || decide (a < im.base) then none else im.words[(a - im.base) / 4]?

/-- R289: the 16 words of the packet that holds an address. -/
def Image.packet (im : Image) (a : Nat) : List (Option IWord) :=
  (List.range 16).map fun i => im.word (a / 64 * 64 + 4 * i)

/-- R288: the pad word. -/
def padWord : IWord := 0x60000000

/-- Word w of a packet is the pad word. -/
def isPad (ws : List (Option IWord)) (w : Nat) : Bool := ws.getD w none == some padWord

/-- R289: every word from w on is the pad word. -/
def padTail (ws : List (Option IWord)) (w : Nat) : Bool := (ws.drop w).all fun x => x == some padWord

/-- R289: the words of one instruction at w; none when its class holds no instruction or it crosses the packet. -/
def instrWords (ws : List (Option IWord)) (w : Nat) : Option Nat :=
  match ws.getD w none with
  | none => none
  | some x =>
    match classWords (classOf x).toNat with
    | none => none
    | some n => if 16 < w + n then none else some n

/-- R289: the end of the bundle whose next instruction starts at w; none on a structural fault. -/
def bundleEnd (ws : List (Option IWord)) : (fuel w : Nat) → Option Nat
  | 0, _ => none
  | fuel + 1, w =>
    match instrWords ws w with
    | none => none
    | some n =>
      let w := w + n
      if w = 16 || isPad ws w || ((ws.getD w none).getD 0).getLsbD 31 then some w else bundleEnd ws fuel w

/-- R289: a bundle starts at w: its first word has B = 1. -/
def bundleAt (ws : List (Option IWord)) (w : Nat) : Option Nat :=
  if isPad ws w || !((ws.getD w none).getD 0).getLsbD 31 then none else bundleEnd ws 16 w

/-- R290: what stands at word t of a packet decoded from word 0. -/
inductive Target where
  | start
  | notStart
  | fault
  deriving DecidableEq, Repr

/-- R289: the word at which the bundle whose next instruction starts at w breaks the structure, or its end. -/
def bundleStop (ws : List (Option IWord)) : (fuel w : Nat) → Nat
  | 0, w => w
  | fuel + 1, w =>
    match instrWords ws w with
    | none => w
    | some n =>
      let w := w + n
      if w = 16 || isPad ws w || ((ws.getD w none).getD 0).getLsbD 31 then w else bundleStop ws fuel w

/-- R290: decode a packet from word w up to word t. A structural fault that does not lie before t leaves t what R289
has found it to be: a start, or no start. -/
def scanTo (ws : List (Option IWord)) (t : Nat) : (fuel w : Nat) → Target
  | 0, _ => .fault
  | fuel + 1, w =>
    if w = t then
      (if !(isPad ws w) && ((ws.getD w none).getD 0).getLsbD 31 then .start else .notStart)
    else if t < w then .notStart
    else if isPad ws w then (if padTail ws w then .notStart else .fault)
    else if !(((ws.getD w none).getD 0).getLsbD 31) then .fault
    else
      match bundleEnd ws 16 w with
      | none => if t ≤ bundleStop ws 16 w then .notStart else .fault
      | some e => scanTo ws t fuel e

/-- R289, R290: a packet of 16 pad words holds no bundle and costs no cycle: the first packet from an address on that
is not one. -/
def Image.skipPads (im : Image) : (fuel a : Nat) → Nat
  | 0, a => a
  | fuel + 1, a => if padTail (im.packet a) 0 then Image.skipPads im fuel (a + 64) else a

/-- R290: the address of the bundle that follows a bundle ending at word e of a packet: the next start, the first
pad word of a malformed tail, or word 0 of the next packet that holds a bundle. -/
def Image.nextAfter (im : Image) (ws : List (Option IWord)) (base e : Nat) : Nat :=
  if e < 16 && !(isPad ws e && padTail ws e) then base + 4 * e else im.skipPads (im.words.length / 16 + 1) (base + 64)

/-- R289, R290: the bundle at an address, entered in order or by a branch: its words and the next address, or the
cause it raises. -/
def Image.fetch (im : Image) (pc : Nat) (byBranch : Bool) : Except Nat (List IWord × Nat) :=
  let ws := im.packet pc
  let w := pc % 64 / 4
  if (im.word (pc / 4 * 4)).isNone then .error 0x0D
  else if byBranch && pc % 4 ≠ 0 then .error 0x03
  else
    match (if byBranch then scanTo ws w 17 0 else Target.start) with
    | .notStart => .error 0x03
    | .fault => .error 0x01
    | .start =>
      match bundleAt ws w with
      | none => .error 0x01
      | some e =>
        .ok (((ws.drop w).take (e - w)).map (·.getD 0), im.nextAfter ws (pc / 64 * 64) e)

/-- The address of the bundle after the one at an address, in decode order; itself where none can be read. -/
def Image.after (im : Image) (pc : Nat) : Nat :=
  match im.fetch pc false with
  | .ok (_, n) => n
  | .error _ => pc

/-- The address after n bundles in decode order. -/
def Image.afterN (im : Image) : (n pc : Nat) → Nat
  | 0, pc => pc
  | n + 1, pc => Image.afterN im n (im.after pc)

/-- The instructions of a bundle's words with the class of each. -/
def decodeBundle : (fuel : Nat) → List IWord → List (Nat × Except Reject Instr)
  | 0, _ => []
  | _, [] => []
  | fuel + 1, w :: ws =>
    let k := (classOf w).toNat
    match classWords k with
    | some 2 => (k, decodeWords w (ws.headD 0)) :: decodeBundle fuel (ws.drop 1)
    | _ => (k, decodeWords w 0) :: decodeBundle fuel ws

/-- R291: no more than one scalar-slot, two V, one M and two C instructions. -/
def slotsOk (ks : List Nat) : Bool :=
  decide ((ks.filter fun k => k == 0 || k == 1 || k == 5).length ≤ 1) &&
  decide ((ks.filter fun k => k == 2).length ≤ 2) && decide ((ks.filter fun k => k == 3).length ≤ 1) &&
  decide ((ks.filter fun k => k == 4).length ≤ 2)

/-- The instruction a decoded word stands for, its fields legal or not. -/
def candidate : Except Reject Instr → Option Instr
  | .ok i => some i
  | .error (.illegalField _ i) => some i
  | .error .unassigned => none

/-- R18: BR, BRI, BRB, CALL, RET and MBR. -/
def isBranch : Instr → Bool
  | .br _ | .bri _ | .brb _ | .call _ | .ret _ | .mbr _ => true
  | _ => false

/-- R18: a control transfer: a branch, LOOP or LMARK. -/
def isControl : Instr → Bool
  | .loop _ | .lmark _ => true
  | i => isBranch i

/-- A YIELD. -/
def isYield : Instr → Bool
  | .yield _ => true
  | _ => false

/-- An MBR. -/
def isMbrInstr : Instr → Bool
  | .mbr _ => true
  | _ => false

/-- A TRAP. -/
def isTrap : Instr → Bool
  | .trap _ => true
  | _ => false

/-- An ERET. -/
def isEret : Instr → Bool
  | .eret _ => true
  | _ => false

/-- A DSTOP. -/
def isDstop : Instr → Bool
  | .dstop _ => true
  | _ => false

/-- A CPYW. -/
def isCpyw : Instr → Bool
  | .cpyw _ => true
  | _ => false

end Sys2Proof.Machine
end

