-- ==== Sys2Proof/Machine/Branch.lean ====
section
/-! DEFINITION. Control transfers, loops, and the decisions a gang takes from its lead (02 R18, R23-R27, R40, R41;
20 R325, R346, R347; 21 R350; 22 R379, R403). -/

namespace Sys2Proof.Machine

/-! ### Gangs -/

/-- R40: the gang of the running task. -/
def State.gang (s : State) : Option Gang :=
  match s.core.bank.task with
  | none => none
  | some t =>
    match t.gang with
    | none => none
    | some g => s.hub.gangs.find? fun x => x.id == g

/-- Change a gang of a number. -/
def Hub.mapGang (h : Hub) (id : Nat) (f : Gang → Gang) : Hub :=
  { h with gangs := h.gangs.map fun g => if g.id = id then f g else g }

/-- R40: the running bank issues its own decisions: it is in no gang or is the gang's lead. -/
def State.isLead (s : State) : Bool := s.gang.isNone || s.core.bank.pos == 0

/-- Change the step of the lead's log at an index. -/
def Gang.mapStep (g : Gang) (i : Nat) (f : GangStep → GangStep) : Gang :=
  { g with steps := g.steps.mapIdx fun j x => if j = i then f x else x }

/-- The entry of a gang's log that its lead has not filled. -/
def GangStep.none : GangStep :=
  { at_ := 0, pc := 0, guard := false, target := 0, count := 0, rows := 0, leaf := Option.none, irq := false, pre := false }

/-- R220: the lead's entry for this cycle. -/
def State.gangStep (s : State) : GangStep :=
  match s.gang with
  | none => GangStep.none
  | some g => g.steps.getD s.core.bank.gstep GangStep.none

/-- R41: the decision of a control transfer: the lead's own, logged for the members, or the lead's from the log. -/
def State.leadStep (s : State) (own : GangStep) : GangStep × State :=
  match s.gang with
  | none => (own, s)
  | some g =>
    if s.core.bank.pos = 0 then
      (own, s.setHub (s.hub.mapGang g.id fun g => g.mapStep s.core.bank.gstep fun x => { own with at_ := x.at_, rows := x.rows }))
    else (g.steps.getD s.core.bank.gstep own, s)

/-- R41, R364: the row count of an MRED: the lead's. -/
def State.leadRows (s : State) (own : Nat) : Nat × State :=
  match s.gang with
  | none => (own, s)
  | some g =>
    if s.core.bank.pos = 0 then
      (own, s.setHub (s.hub.mapGang g.id fun g => g.mapStep s.core.bank.gstep fun x => { x with rows := own }))
    else (((g.steps[s.core.bank.gstep]?).map (·.rows)).getD own, s)

/-- R41: a control instruction of the primary: its guard, target, count and leaf are the lead's. -/
def State.control (s : State) (g : BitVec 4) (target : Word) (count : Nat) (leaf : Option Nat)
    (k : GangStep → State → Out) : Out :=
  let b := s.core.bank
  let r := s.leadStep { at_ := s.core.cycle, pc := b.pc, guard := b.guard g, target := target, count := count, rows := 0, leaf := leaf,
                        irq := false, pre := false }
  if r.1.guard then k r.1 r.2 else .next r.2

/-! ### Branches -/

/-- R18, R24: a branch of the primary: cause 0x01 directly after a control transfer whatever its guard, and in a
kernel bundle; else it takes its target after the delay bundle. -/
def State.branch (s : State) (g : BitVec 4) (target : Word) (fin : State → State) : Out :=
  if s.core.bank.prevCtl then s.raise 0x01
  else s.control g target 0 none fun d s =>
    if s.core.bank.loop.active then s.raise 0x01
    else .next (fin (s.setBank { s.core.bank with newBranch := some d.target }))

/-- R31, R325: a branch of a drift thread: no delay bundle; ready after 4 cycles. -/
def State.driftBranch (s : State) (g : BitVec 4) (srcs : List (BitVec 6)) (target : State → Word) (eff : DriftEff) :
    Out :=
  s.guarded g fun s =>
    if !(s.dregsOk srcs) then s.raise 0x01
    else
      let t := target s
      let s := s.driftIssue 4 eff
      .next (s.setThread { s.thread with next := t, byBranch := true })

/-- The first word of the bundle that the agent issues. -/
def State.here (s : State) : Word :=
  match s.agent with
  | .primary => s.core.bank.pc
  | .drift n => (s.core.thread n).pc

/-- R325: the target of BR and CALL. -/
def State.relTarget (s : State) (imm : BitVec 19) : Word := s.here + 4 * imm.signExtend 64

/-- R325: BR. -/
def execBr (o : LImm) (s : State) : Out :=
  match s.agent with
  | .primary => s.branch o.g (s.relTarget o.imm) id
  | .drift _ => s.driftBranch o.g [] (fun s => s.relTarget o.imm) .none

/-- R325: BRI. -/
def execBri (o : LReg) (s : State) : Out :=
  match s.agent with
  | .primary => s.branch o.g (s.rs o.a + 4 * o.imm.signExtend 64) id
  | .drift _ => s.driftBranch o.g [o.a] (fun s => s.rs o.a + 4 * o.imm.signExtend 64) .none

/-- R325, R31: BRB; drift code has no branch-target registers. -/
def execBrb (o : LReg) (s : State) : Out :=
  match s.agent with
  | .primary => s.branch o.g (s.core.bank.breg o.imm.toNat) id
  | .drift _ => s.raise 0x01

/-- R18, R325: the address CALL links: the first bundle after the delay bundle; in drift code after the CALL. -/
def State.linkAddr (s : State) : Word :=
  match s.agent with
  | .primary => BitVec.ofNat 64 (s.image.after (s.image.after s.here.toNat))
  | .drift _ => BitVec.ofNat 64 (s.image.after s.here.toNat)

/-- R325: CALL. -/
def execCall (o : LImm) (s : State) : Out :=
  match s.agent with
  | .primary => s.branch o.g (s.relTarget o.imm) fun t => t.result 1 (.sPlain 62 s.linkAddr)
  | .drift _ => s.driftBranch o.g [] (fun s => s.relTarget o.imm) (.d 30 s.linkAddr)

/-- R325: RET. -/
def execRet (o : LReg) (s : State) : Out :=
  match s.agent with
  | .primary => s.branch o.g (s.core.bank.sreg 62) id
  | .drift _ => s.driftBranch o.g [] (fun s => s.rs 30) .none

/-- R26: the leaf that an MBR's tests choose, from predicates read at issue. -/
def Bank.chooseLeaf (b : Bank) (o : XOp) : Nat :=
  mbrLeaf (o.sub.getLsbD 0) (b.mbrTest o.imm 0) (b.mbrTest o.imm 1) (b.mbrTest o.imm 2) (b.mbrTest o.imm 3)

/-- R26, R41: what an MBR decides: its leaf, none when its guard is false. -/
def State.mbrDecision (s : State) (o : XOp) : GangStep :=
  let b := s.core.bank
  let leaf := b.chooseLeaf o
  (s.leadStep { at_ := s.core.cycle, pc := b.pc, guard := b.pred o.g, target := b.breg ((o.imm.extractLsb' 20 3).toNat + leaf), count := 0,
                rows := 0, leaf := some leaf, irq := false, pre := false }).1

/-- R26, R350: MBR. -/
def execMbr (o : XOp) (s : State) : Out :=
  match s.agent with
  | .drift _ => s.raise 0x01
  | .primary =>
    if s.core.bank.prevCtl then s.raise 0x01
    else
      let r := s.leadStep (s.mbrDecision o)
      let d := r.1
      let s := r.2
      if !d.guard then .next (s.setBank { s.core.bank with isMbr := true, leaf := none })
      else if s.core.bank.loop.active then s.raise 0x01
      else .next (s.setBank { s.core.bank with isMbr := true, leaf := d.leaf, newBranch := some d.target })

/-! ### Loops -/

/-- R10, R24: the loop that N, S and L start at an address.
Log entry 57, DEDUCED. -/
def loopOf (n stages len : Nat) (start : Word) : LoopState :=
  { active := decide (0 < n), left := n, drain := if n = 0 then 0 else stages - 1, trip := n, stages := stages, len := len, idx := 0,
    iter := 0, start := start, exit := none }

/-- R347: LOOP. The loop governs from the next cycle. -/
def execLoop (o : LReg) (s : State) : Out :=
  match s.agent with
  | .drift _ => s.raise 0x01
  | .primary =>
    if s.core.bank.prevCtl then s.raise 0x01
    else s.control o.g 0 ((s.rs o.a).toNat % 2 ^ 32) none fun d s =>
      let b := s.core.bank
      if b.loop.active then s.raise 0x01
      else
        let stages := o.imm.toNat / 256
        let len := o.imm.toNat % 256
        let start := s.image.after b.pc.toNat
        .next (s.setBank { b with
          newLoop := some (loopOf d.count stages len (BitVec.ofNat 64 start),
                           BitVec.ofNat 64 (s.image.afterN len start)) })

/-- R25, R346: LMARK pins the n bundles that follow. -/
def execLmark (o : LImm) (s : State) : Out :=
  match s.agent with
  | .drift _ => s.raise 0x01
  | .primary =>
    if s.core.bank.prevCtl then s.raise 0x01
    else s.control o.g 0 0 none fun _ s =>
      let b := s.core.bank
      if b.loop.active then s.raise 0x01
      else .next (s.setBank { b with loopBuf := { first := BitVec.ofNat 64 (s.image.after b.pc.toNat),
                                                  count := o.imm.toNat, valid := true } })


/-- R10: the step LOOP_ITERATION: at an iteration boundary the next iteration starts. -/
def execLoopIteration (s : State) : Out :=
  let b := s.core.bank
  .next (s.setBank b.iterate)

/-! ### The end of a task and YIELD -/

/-- R162, R379: TASKEND. The bank issues nothing further and ends once its results have landed and its barriers are
complete. -/
def execTaskend (o : LImm) (s : State) : Out :=
  match s.agent with
  | .drift _ => s.raise 0x01
  | .primary => s.control o.g 0 0 none fun _ s =>
      let b := s.core.bank
      if b.handler || b.loop.active then s.raise 0x01
      else .next (s.setBank { b with run := .ending, newBranch := none, branch := none })

/-- R163, R403: every core the running task uses holds in its other bank a task that is ready to issue. -/
def State.othersReady (s : State) : Bool :=
  match s.gang with
  | none => s.core.otherReady
  | some g => g.cores.all fun c => (s.coreAt c).otherReady

/-- R163, R403: YIELD. -/
def execYield (o : LImm) (s : State) : Out :=
  match s.agent with
  | .drift _ => s.raise 0x01
  | .primary =>
    if s.core.bank.prevBr then s.raise 0x01
    else s.control o.g 0 (if s.othersReady then 1 else 0) none fun d s =>
      let b := s.core.bank
      if b.handler || b.loop.active then s.raise 0x01
      else
        let s := s.setBank { b with curYield := true }
        .next (if d.count = 1 then s.startSwitch else s)

end Sys2Proof.Machine
end

