-- ==== Sys2Proof/Machine/TaskOps.lean ====
section
/-! DEFINITION. The named operations over messages, launches, graph nodes, tasks and scoreboards (08 R150-R179),
the host ring (14 R246) and the tensor layout (05 R110, R111). -/

namespace Sys2Proof.Machine

/-! ### Reads and writes of the hub through the page tables -/

/-- What a read through the page tables on behalf of the hub gives; an error response names the address it logs. -/
inductive HubRead where
  | ok (bs : List Byte)
  | event (va : Nat)
  | fault (va logged : Nat)
  deriving DecidableEq, Repr

/-- R107, R267: translate an address of the global flat space; the window, the hole and the hub register window are not
mapped. -/
def State.hubXlat (s : State) (part va : Nat) (r : Rights) : Xlat :=
  if va < 2 ^ 32 || !(canonical va) || inHubWindow va then .denied else s.translate part va r

/-- R164: bytes inside one page read through a partition's page tables. -/
def State.hubRead (s : State) (part va len : Nat) (user : Bool) : HubRead :=
  match s.hubXlat part va { write := false, user := user, read := true } with
  | .ok pa => .ok (readBytes s.mem pa len)
  | .absent => .event va
  | .denied => .fault va va
  | .unbacked pa => .fault va pa

/-! ### Messages -/

/-- R152: a message from its 64-byte block. -/
def messageOf (bs : List Byte) : Message :=
  { tag := BitVec.ofNat 48 (field bs 0 6), dest := BitVec.ofNat 8 (field bs 6 1),
    payload := BitVec.ofNat 64 (field bs 8 8), rtag := BitVec.ofNat 48 (field bs 16 6),
    rdest := BitVec.ofNat 8 (field bs 22 1) }

/-- R152: the bytes of a message block. -/
def messageBytes (m : Message) : List Byte :=
  leBytes 6 m.tag.toNat ++ leBytes 1 m.dest.toNat ++ leBytes 1 0 ++ leBytes 8 m.payload.toNat ++
    leBytes 6 m.rtag.toNat ++ leBytes 1 m.rdest.toNat ++ leBytes 41 0

/-- R152: a message block keeps its zero bytes and names a legal destination. -/
def messageOk (bs : List Byte) : Bool :=
  zeroBytes bs 7 1 && zeroBytes bs 23 41 && decide (field bs 6 1 ≤ 25)

/-- R246: the size of the host ring; 0 while it is disabled. -/
def HubRegs.ringSize (r : HubRegs) : Nat := if 6 ≤ r.ringLog && r.ringLog ≤ 16 then 2 ^ r.ringLog else 0

/-- R246: a DEST 1 message enters the host ring, or is dropped and counted; so is one whose place nothing backs, which is
an error response (R105, R226).
Log entry 98, DESIGN CHOICE. -/
def State.hostRing (s : State) (m : Message) : State :=
  let r := s.hub.regs
  let n := r.ringSize
  let pa := 4096 * r.ringBase + 64 * (r.tail % n)
  let drop := s.setRegs { r with msgRing := r.msgRing + 1 }
  if n = 0 || (r.tail + 1) % n = r.head % n then drop
  else if !(backed s.guestShut pa) then drop.logMc 16 2 16 0 0x0020 (BitVec.ofNat 64 pa) 0 none
  else
    let s := s.putFrom 16 pa (messageBytes m)
    (s.setRegs { r with tail := (r.tail + 1) % n, msix := if r.ringIrq then r.msix + 1 else r.msix }).hubRelease 3

/-- Change a fabric port. -/
def State.mapPort (s : State) (p : Nat) (f : Port → Port) : State :=
  { s with ports := sput s.ports p (f ((sget s.ports p).getD Port.clear)) }

/-- A fabric port. -/
def State.port (s : State) (p : Nat) : Port := (sget s.ports p).getD Port.clear

/-- R152, R153: a message leaves for its destination: this hub, the host ring, or a fabric port; an illegal one is
not sent. -/
def State.sendMessage (s : State) (m : Message) : State :=
  let d := m.dest.toNat
  if d = 0 then s.later [.event (.taggedMessage m)]
  else if d = 1 then s.hostRing m
  else if d ≤ 25 then s.mapPort (d - 2) fun p => { p with outgoing := p.outgoing ++ [m] }
  else s

/-- R248: the fabric port that a message names is down. -/
def State.messageDown (s : State) (m : Message) : Bool :=
  decide (2 ≤ m.dest.toNat) && decide (m.dest.toNat ≤ 25) && (s.port (m.dest.toNat - 2)).down

/-- R153: the error message for a dropped fire. -/
def State.errorReply (s : State) (m : Message) : State :=
  if m.rtag = 0 || decide (26 ≤ m.rdest.toNat) then s
  else s.sendMessage { tag := m.rtag, dest := m.rdest,
                       payload := 0x8000000000000000 ||| m.tag.setWidth 64, rtag := 0, rdest := 0 }

/-! ### Slots and launches -/

/-- A slot never armed. -/
def ArmSlot.clear : ArmSlot :=
  { armed := false, tag := 0, part := 0, prio := 0, graph := 0, args := 0, rtag := 0, rdest := 0, flags := 0,
    stat := 0, queued := [], running := none }

/-- An arming slot. -/
def Hub.slot (h : Hub) (n : Nat) : ArmSlot := (sget h.slots n).getD ArmSlot.clear

/-- Replace an arming slot. -/
def Hub.setSlot (h : Hub) (n : Nat) (a : ArmSlot) : Hub := { h with slots := sput h.slots n a }

/-- A launch of an id. -/
def Hub.launch? (h : Hub) (id : Nat) : Option Launch := h.launches.find? fun l => l.id == id

/-- A task of an id. -/
def Hub.task? (h : Hub) (id : Nat) : Option Task := h.tasks.find? fun t => t.id == id

/-- Change a task of an id. -/
def Hub.mapTask (h : Hub) (id : Nat) (f : Task → Task) : Hub :=
  { h with tasks := h.tasks.map fun t => if t.id = id then f t else t }

/-- The slot of a launch. -/
def Hub.slotOf (h : Hub) (l : Launch) : ArmSlot := h.slot l.slot

/-- R95: a drawn key, moved on to the first value that no launch has drawn before. -/
def newKey (used : List Word) (k : Word) : Word :=
  (((List.range (used.length + 1)).map fun i => k + BitVec.ofNat 64 i).find? fun x => !(used.contains x)).getD k

/-- R155: a fire of a slot makes a launch: the next id, a stream key that no other launch has, condition words 0, and a
place in the partition's queue. A message that has crossed the fabric keeps its DEST from 2 up (R137, R153). -/
def State.fire (s : State) (n : Nat) (m : Message) : State :=
  let h := s.hub
  let id := h.launchCount + 1
  let key := newKey h.keys (Config.freeKey s.free)
  let l : Launch := { id := id, slot := n, fabric := decide (2 ≤ m.dest.toNat), payload := m.payload, key := key, queued := true,
                      cond := Vector.replicate 16 0, branches := [], nextBranch := 1, passes := [], joins := [],
                      boards := [], entries := [], fault := none, faultAt := none, digests := [], endEv := none }
  let a := h.slot n
  let h := { h.setSlot n { a with running := some id } with
    launchCount := id, keys := h.keys ++ [key], launches := h.launches ++ [l] }
  ({ s with hub := h, free := s.free + 1 }).later [.event (.launchStart a.part)]

/-- R164, R165: a fault of a graph ends its launch; no bank is named. -/
def State.graphFault (s : State) (launch cause addr : Nat) : State :=
  (s.setHub (s.hub.mapLaunch launch fun l =>
    l.fail { cause := cause, thread := none, cb := 0, addr := addr, aux := 0 } none)).later [.event (.faultEndLaunch launch)]

/-- Change a branch of a launch. -/
def Launch.mapBranch (l : Launch) (br : Nat) (f : Branch → Branch) : Launch :=
  { l with branches := l.branches.map fun b => if b.id = br then f b else b }

/-- R164: the index that means no successor. -/
def noNode : Nat := 0xFFFFFFFF

/-- R164: the event of a node's kind for a branch. -/
def nodeEvent (kind launch br : Nat) : Option Instr :=
  match kind with
  | 1 => some (.nodeTaskset launch br)
  | 2 => some (.nodeCond launch br)
  | 3 => some (.nodeWhile launch br)
  | 4 => some (.nodeBucket launch br)
  | 5 => some (.nodeJoin launch br)
  | 6 => some (.nodeMessage launch br)
  | 7 => some (.nodeTest launch br)
  | _ => none

/-- R164: the bytes of node n of a launch's graph as the walker reads them. -/
def State.readNode (s : State) (l : Launch) (n : Nat) : HubRead :=
  let a := s.hub.slotOf l
  s.hubRead a.part ((a.graph + 64 * n) % 2 ^ 64) 64 true

/-- R164: a branch of a walk waits on a translation event. -/
def State.branchEvent (s : State) (launch br va : Nat) : State :=
  let ev := s.hub.nextEvent
  let h := s.hub.queueEvent (some launch) 0xFFFF 0 none none va none false
  s.setHub (h.mapLaunch launch fun l => l.mapBranch br fun b => { b with waitEv := some ev })

/-- R158, R164, R165, R168: a node keeps its rules: its reserved bytes are 0 and its fields in range. One whose W, H, COUNT or
number of tests is out of range breaks them too.
Log entry 90, DESIGN CHOICE. -/
def nodeOk (bs : List Byte) : Bool :=
  let one := field bs 1 1
  match field bs 0 1 with
  | 1 =>
    zeroBytes bs 1 3 && decide (1 ≤ field bs 24 2) && decide (field bs 24 2 ≤ 4096) && decide (1 ≤ field bs 26 2) &&
      decide (field bs 26 2 ≤ 4096) && zeroBytes bs 36 28 && field bs 16 8 % 64 == 0 &&
      (field bs 12 4 != noNode || zeroBytes bs 28 8)
  | 2 => decide (one < 16) && zeroBytes bs 2 2 && zeroBytes bs 12 52
  | 3 => decide (one < 16) && zeroBytes bs 2 2 && zeroBytes bs 16 48
  | 4 => decide (one < 16) && zeroBytes bs 2 2 && zeroBytes bs 36 28
  | 5 => zeroBytes bs 1 3 && decide (1 ≤ field bs 12 4) && zeroBytes bs 16 48
  | 6 => zeroBytes bs 1 3 && zeroBytes bs 12 4 && zeroBytes bs 24 40
  | 7 => decide (1 ≤ one) && decide (one ≤ 16) && zeroBytes bs 2 2 && zeroBytes bs 12 52
  | _ => false

/-- R164: a branch enters a node: the node is read and its step is due, or the branch ends. -/
def State.enterNode (s : State) (launch br n : Nat) : State :=
  let set (a : BranchAt) (bs : List Byte) (s : State) : State :=
    let mark := s.hub.nextTask
    s.setHub (s.hub.mapLaunch launch fun l =>
      l.mapBranch br fun b => { b with at_ := a, waitEv := none, block := bs, mark := mark, msg := [] })
  if n = noNode then (set .ended [] s).later [.event (.launchEnd launch)]
  else
    let s := set (.node n) [] s
    match s.hub.launch? launch with
    | none => s
    | some l =>
      match s.readNode l n with
      | .event va => s.branchEvent launch br va
      | .fault va x => (s.logErrorFor (s.hub.slotOf l).part x).graphFault launch 0x0D va
      | .ok bs =>
        match (if nodeOk bs then nodeEvent (field bs 0 1) launch br else none) with
        | some e => (set (.node n) bs s).later [.event e]
        | none => s.graphFault launch 0x0B ((s.hub.slotOf l).graph + 64 * n)

/-- R164: a second branch starts at a node, unless there is none. -/
def State.fork (s : State) (launch n : Nat) : State :=
  if n = noNode then s
  else
    match s.hub.launch? launch with
    | none => s
    | some l =>
      let br := l.nextBranch
      let b : Branch := { id := br, at_ := .node n, waitEv := none, block := [], mark := 0, msg := [] }
      let s := s.setHub (s.hub.mapLaunch launch fun l =>
        { l with branches := l.branches ++ [b], nextBranch := br + 1 })
      s.enterNode launch br n

/-- A branch's step is due again after something it waits on has changed. -/
def State.retryBranch (s : State) (l : Launch) (b : Branch) : State :=
  match b.at_, b.waitEv with
  | .node n, none =>
    match nodeEvent (field b.block 0 1) l.id b.id with
    | some e => s.later [.event e]
    | none => s.enterNode l.id b.id n
  | _, _ => s

/-- Every waiting branch of a launch, its end, and its partition's placement are due again. -/
def State.wake (s : State) (launch : Nat) : State :=
  match s.hub.launch? launch with
  | none => s
  | some l =>
    (l.branches.foldl (fun s b => s.retryBranch l b) s).later
      [.event (.taskPlace (s.hub.slotOf l).part), .event (.launchEnd launch)]

/-- R165: every task posted in a launch before a mark has retired and ended. Audit reruns are not posted. -/
def Hub.allEnded (h : Hub) (launch mark : Nat) : Bool :=
  h.tasks.all fun t => t.launch != launch || t.auditOf.isSome || decide (mark ≤ t.id) ||
    (t.retired && (t.run == .ended || t.run == .retired))

/-! ### Retiring tasks -/

/-- R168: a task's bit in its TASKSET's scoreboard. -/
def Launch.setBit (l : Launch) (t : Task) : Launch :=
  { l with boards := l.boards.map fun b =>
      if b.node = t.node && (sget l.entries t.node).getD 0 == t.entry then
        { b with retired := b.retired ++ [t.y * b.w + t.x] } else b }

/-- R235: a task's digest: the folded values member by member, then each output's tensor, tile and bytes. -/
def Task.digestOf (t : Task) : Word :=
  let vals := (List.range t.cores.length).flatMap fun p =>
    (t.folds.filter fun f => f.1 == p).flatMap fun f => f.2.flatMap fun v => leBytes 8 v.toNat
  let outs := (List.range 4).flatMap fun o =>
    (t.outData.filter fun d => d.1 == o).flatMap fun d => leBytes 2 d.2.1 ++ leBytes 8 d.2.2.1 ++ d.2.2.2
  BitVec.ofNat 64 (crc64 0 (vals ++ outs))

/-- R161: a task whose members have all issued TRET or ended and whose outputs are all pulled retires: its
scoreboard bit is set, its digest is recorded, and what waits on it is due. An audit rerun sets no bit. -/
def State.checkRetire (s : State) (id : Nat) : State :=
  match s.hub.task? id with
  | none => s
  | some t =>
    let nout := match t.lrec with
      | some r => r.outs.length
      | none => 0
    let n := t.cores.length
    if t.retired || !((List.range n).all fun p => t.trets.contains p || t.ends.contains p) ||
        !((List.range nout).all fun o => t.pulls.contains o) then s
    else
      let ended := decide (t.ends.length = n)
      let dg := t.digestOf
      let h := s.hub.mapTask id fun t =>
        { t with retired := true, digest := some dg, run := if ended then .ended else t.run }
      let h := if t.auditOf.isSome then h
        else h.mapLaunch t.launch fun l =>
          let l := l.setBit t
          if (t.lrec.map (·.kind)) = some 1 then { l with digests := l.digests ++ [([t.node, t.entry, t.y, t.x], dg)] }
          else l
      (s.setHub h).wake t.launch

/-- R137, R161, R175: declared output `o` of the running task is marked: its unit's contents are released and its
pull is due. -/
def State.markOutput (s : State) (u : Nat) : State :=
  match s.core.bank.task with
  | none => s
  | some t =>
    let s := s.setBank { s.core.bank with task := some { t with marked := t.marked ++ [u] } }
    (s.releaseHere 3).later [.event (.outputPullDone t.task (u - 8))]

/-- R161: TRET by the running member: its unmarked output units are marked, its digest is folded, and the task
retires when it was the last. -/
def State.tret (s : State) : State :=
  match s.core.bank.task with
  | none => s
  | some t =>
    let s := (t.outUnits.filter fun u => !(t.marked.contains u)).foldl (fun s u => s.markOutput u) s
    let s := s.releaseHere 3
    match s.core.bank.task with
    | none => s
    | some t =>
      let s := s.setBank { s.core.bank with task := some { t with tret := true } }
      (s.setHub (s.hub.mapTask t.task fun k =>
        { k with trets := k.trets ++ [t.member], folds := k.folds ++ [(t.member, t.digest)] })).checkRetire t.task

/-- R236: the running task is an audit rerun, whose outputs are discarded. -/
def State.isRerun (s : State) : Bool :=
  match s.core.bank.task with
  | none => false
  | some t => (s.hub.task? t.task).any fun k => k.auditOf.isSome

/-! ### Condition words -/

/-- R166: the update of a condition word. -/
def condUpdate (sub : Nat) (old v : Word) : Word :=
  match sub with
  | 0 => v
  | 1 => old + v
  | 2 => old ||| v
  | _ => if old.ult v then v else old

/-- A condition word of a launch. -/
def Launch.word (l : Launch) (c : Nat) : Word := if h : c < 16 then l.cond[c] else 0

/-- Set a condition word. -/
def Launch.setWord (l : Launch) (c : Nat) (v : Word) : Launch :=
  if h : c < 16 then { l with cond := l.cond.set c v } else l

/-! ### Writes that leave the core (06 R140) -/

/-- R198: the last step of an XROUTE at its home: SENDERS rises, and the launch fires when it reaches EXPECT. -/
def State.xrouteArrive (s : State) (src pa rbuf tag : Nat) : State :=
  let n := (readNat s.mem (pa + 8) 8 + 1) % 2 ^ 64
  let s := s.putFrom src (pa + 8) (leBytes 8 n)
  if n = readNat s.mem (pa + 16) 8 then
    s.sendMessage { tag := BitVec.ofNat 48 tag, dest := 0, payload := BitVec.ofNat 64 rbuf, rtag := 0, rdest := 0 }
  else s

/-- R253: an XROUTE leaves through a port; its answer is awaited by an operation here, or belongs to a neighbour. -/
def State.routeOut (s : State) (port : Nat) (op : Option Nat) (back : Nat × Nat) (r : Route) : State :=
  let id := s.nextOp
  ({ s with nextOp := id + 1 }).mapPort port fun p =>
    { p with routes := p.routes ++ [{ r with id := id }], waits := p.waits ++ [RouteWait.mk id op back] }

/-- R141: a BARR whose add has left the core, or may leave it, with the word it has read. -/
def OpKind.arm (old : Option Word) : OpKind → OpKind
  | .barr va cnt reg sc _ _ => .barr va cnt reg sc old false
  | k => k

/-- R140, R141: the held add of a BARR leaves the core in its place among the held writes; one whose page is not present
is performed once it is. -/
def State.sendAdd (s : State) (id hint : Nat) (pa : Option Nat) : State :=
  let old : Option Word := pa.map fun p => BitVec.ofNat 64 (readNat s.mem p 8)
  let s : State := match pa with
    | some p => (s.touchWays p hint).putFrom (dieOf s.cur) p (atomOn s.mem p 0 1 0)
    | none => s
  ({ s with ops := s.ops.map fun (o : EngineOp) => if o.id = id then { o with kind := o.kind.arm old } else o }).later
    [.event (.engineOpComplete id)]

/-- R140: a held line of an MCAST goes to its core's window as one that has just been read does; it is on no barrier any
more. -/
def State.sendLine (s : State) (c a launch : Nat) (bytes : List Byte) : State :=
  let id := s.nextOp
  let o : EngineOp := { id := id, seq := s.core.bank.seq, core := s.cur, bank := s.core.curBank, cb := 8, drift := none,
                        user := !s.sup?, part := s.part, hint := 0, kind := .mcast a a 0 1 launch, done := 0, old := 0,
                        stop := none, paired := true, data := bytes ++ [BitVec.ofNat 8 (c % 64)], saved := none }
  ({ s with nextOp := id + 1, ops := s.ops ++ [o] }).later [.event (.engineLineLand id)]

/-- A write of the bank that acts leaves the core. -/
def State.sendWrite (s : State) : HeldWrite → State
  | .write pa bytes => s.putFrom (dieOf s.cur) pa bytes
  | .release scope => s.releaseNow scope
  | .atom pa op x cmp => s.putFrom (dieOf s.cur) pa (atomOn s.mem pa op x cmp)
  | .cond launch c sub v => s.setHub (s.hub.mapLaunch launch fun l => l.setWord c (condUpdate sub (l.word c) v))
  | .arrive pa rbuf tag => s.xrouteArrive (dieOf s.cur) pa rbuf tag
  | .barr op hint pa => s.sendAdd op hint pa
  | .window c a launch bytes => s.sendLine c a launch bytes
  | .route port op r =>
    if (s.port port).down then s.later [.event (.engineOpFault op .protection r.expert)]
    else s.routeOut port (some op) (0, 0) r

/-- R140, R222: a write of the bank that acts leaves the core, or in guarded mode waits in the hold buffer, whose 257th
line raises cause 0x21.
Log entry 36, DEDUCED. -/
def State.globalOut (s : State) (pa : Nat) (w : HeldWrite) : State :=
  let b := s.core.bank
  if !b.status.guard then s.sendWrite w
  else
    let t := s.setBank (b.holding w)
    if 256 < t.core.bank.heldLines.length then
      t.takeFault { cause := 0x21, thread := none, cb := 0, addr := pa, aux := 0 }
    else t

/-- A global write of the bank that acts. -/
def State.globalPut (s : State) (pa : Nat) (bytes : List Byte) : State := s.globalOut pa (.write pa bytes)

/-- R140: global memory as a bank sees it: with the writes that wait in its hold buffer. -/
def Bank.view (b : Bank) (m : Mem) : Mem := b.heldWrites.foldl HeldWrite.onMem m

/-- R140: global memory as the bank that acts sees it. -/
def State.view (s : State) : Mem := s.core.bank.view s.mem

/-! ### Tensors (05 R108-R111) -/

/-- R108: a tensor descriptor from its 64 bytes, when no field breaks R108; of the dimensions beyond RANK the extents are 1,
and the tile sizes any powers of two.
Log entry 71, DEDUCED. -/
def tensorOf (bs : List Byte) : Option Tensor :=
  let rank := field bs 0 1
  let fmt := field bs 1 1
  let layout := field bs 2 1
  let edge := field bs 3 1
  let ext := (List.range 5).map fun d => field bs (8 + 4 * d) 4
  let tile := (List.range 5).map fun d => field bs (28 + 2 * d) 2
  let w := tagWidth (BitVec.ofNat 4 fmt) / 8
  let pow2 (n : Nat) : Bool := (List.range 16).any fun k => n == 2 ^ k
  if 1 ≤ rank && rank ≤ 5 && 1 ≤ fmt && fmt ≤ 12 && layout ≤ 1 && edge ≤ 1 && zeroBytes bs 4 4 &&
      zeroBytes bs 38 2 && zeroBytes bs 48 16 && ext.all (fun e => decide (1 ≤ e)) && tile.all pow2 &&
      (List.range 5).all (fun d => d < rank || ext.getD d 0 == 1) &&
      tile.foldl (· * ·) 1 * w == 65536 && field bs 40 8 % 8 == 0 then
    some { rank := rank, fmt := BitVec.ofNat 4 fmt, layout := layout, edge := edge, ext := ext, tile := tile,
           ttb := BitVec.ofNat 64 (field bs 40 8) }
  else none

/-- R110: the width of a tensor's element in bytes. -/
def Tensor.width (t : Tensor) : Nat := tagWidth t.fmt / 8

/-- R110: tile numbers along each dimension. -/
def Tensor.counts (t : Tensor) : List Nat := List.zipWith (fun e k => (e + k - 1) / k) t.ext t.tile

/-- Mixed-radix number of digits. -/
def mixed : List Nat → List Nat → Nat
  | d :: ds, r :: rs => d + r * mixed ds rs
  | _, _ => 0

/-- R110: the tile of element coordinates. -/
def Tensor.tileNo (t : Tensor) (c : List Nat) : Nat := mixed (List.zipWith (· / ·) c t.tile) t.counts

/-- R110: the byte offset inside the tile, swizzled for layout 1. -/
def Tensor.offset (t : Tensor) (c : List Nat) : Nat :=
  let off := mixed (List.zipWith (· % ·) c t.tile) t.tile * t.width
  if t.layout = 1 then off ^^^ (off / 128 % 8 * 16) else off

/-- R111: coordinates inside the extents. -/
def Tensor.inside (t : Tensor) (c : List Nat) : Bool := (List.zipWith (fun x e => decide (x < e)) c t.ext).all id

/-- The coordinates of the n-th element of a box, dimension 0 fastest. -/
def boxCoord (start box : List Nat) (n : Nat) : List Nat :=
  match start, box with
  | s :: ss, b :: bs => (s + n % (max b 1)) :: boxCoord ss bs (n / max b 1)
  | _, _ => []

/-- The digits of a mixed-radix number. -/
def digits (n : Nat) : List Nat → List Nat
  | [] => []
  | r :: rs => n % max r 1 :: digits (n / max r 1) rs

/-- R110: the coordinates of a tile's first element. -/
def Tensor.corner (t : Tensor) (n : Nat) : List Nat := List.zipWith (· * ·) (digits n t.counts) t.tile

/-- R111: no element of a tile lies outside the extents. -/
def Tensor.full (t : Tensor) (n : Nat) : Bool :=
  (List.zipWith (fun c e => decide (c ≤ e)) (List.zipWith (· + ·) (t.corner n) t.tile) t.ext).all id

/-- R110, R111: the element at a byte of a tile lies inside the extents. -/
def Tensor.insideAt (t : Tensor) (n off : Nat) : Bool :=
  let o := if t.layout = 1 then off ^^^ (off / 128 % 8 * 16) else off
  t.inside (List.zipWith (· + ·) (t.corner n) (digits (o / max 1 t.width) t.tile))

/-- R111: bytes of a whole tile, with those of `other` in the place of elements outside the extents. -/
def Tensor.trim (t : Tensor) (n : Nat) (bytes other : List Byte) : List Byte :=
  if t.full n then bytes
  else (List.zip bytes other).zipIdx.map fun x => if t.insideAt n x.2 then x.1.1 else x.1.2

/-- R111: a tile as it is read: elements outside the extents read as zero. -/
def Tensor.readTile (t : Tensor) (m : Mem) (n pa : Nat) : List Byte :=
  t.trim n (readBytes m pa 65536) (List.replicate 65536 0)

/-- R111: a transfer of a whole tile touches an element outside the extents of a tensor whose edge faults. -/
def Tensor.edgeFault (t : Tensor) (n : Option Nat) : Bool := t.edge == 1 && !(n.any t.full)

/-- R110: what the tile table gives for a tile. -/
inductive TileAt where
  | ok (pa : Nat)
  | absent
  | denied
  | unbacked (pa : Nat)
  deriving DecidableEq, Repr

/-- R110: a tile's home contains a frame. -/
def homeHolds (home frame : Nat) : Bool :=
  if home ≤ 11 then frame / 2 ^ 20 == home
  else if home = 12 then decide (0x1000000 ≤ frame) && decide (frame < 0x2000000)
  else if home = 13 then decide (0x2000000 ≤ frame) && decide (frame < 0x2800000)
  else false

/-- R110, R111: the entry of tile n of a tensor, its table read through a partition's page tables with the issuer's
rights. -/
def State.tileWord (s : State) (part : Nat) (user : Bool) (t : Tensor) (n : Nat) : TileAt :=
  match s.hubXlat part ((t.ttb.toNat + 8 * n) % 2 ^ 64) { write := false, user := user, read := true } with
  | .absent => .absent
  | .denied => .denied
  | .unbacked pa => .unbacked pa
  | .ok pa => .ok (readNat s.mem pa 8)

/-- R110: the frame that a tile's entry gives for a read or a write. -/
def State.tileGrant (s : State) (e : Nat) (write : Bool) : TileAt :=
  if e % 2 = 0 then .absent
  else if e.testBit 3 || bitsAt e 8 8 ≠ 0 || bitsAt e 52 12 ≠ 0 || !(e.testBit (if write then 2 else 1)) ||
      !(homeHolds (bitsAt e 4 4) (bitsAt e 16 36)) then .denied
  else if !(backed s.guestShut (bitsAt e 16 36 * 65536)) then .unbacked (bitsAt e 16 36 * 65536)
  else .ok (bitsAt e 16 36 * 65536)

end Sys2Proof.Machine
end

