-- ==== Sys2Proof/Machine/System.lean ====
section
/-! DEFINITION. The meanings of the system instructions of class X: tensor table, system registers, traps,
checkpoints, digests, allotments, arming, condition words, retirement, drift threads, generators and self-test
(18 R302; 20 R320, R326, R329, R332-R334, R338, R340, R344; 21 R356, R357, R373; 22 R380, R381). -/

namespace Sys2Proof.Machine

/-- R202: a supervisor instruction of the primary: cause 0x0C in user mode. -/
def State.supOnly (s : State) (g : BitVec 4) (k : State → Out) : Out :=
  s.primaryOnly g fun s => if !s.sup? then s.raise 0x0C else k s

/-- A primary X instruction that writes sD one cycle after issue. -/
def State.xResult (s : State) (d : BitVec 6) (v : Word) : State := s.result 1 (.s d.toNat v)

/-! ### LDT -/

/-- R109, R344: LDT. A descriptor that breaks R108 gives 1 and changes nothing. -/
def execLdt (o : XOp) (s : State) : Out :=
  s.primaryOnly o.g fun s =>
    if !(s.destOk o.d) then s.raise 0x0C
    else
      s.captured (s.rs o.a).toNat 64 64 fun bs s =>
        match tensorOf bs with
        | none => .next (s.xResult o.d 1)
        | some t => .next ((s.xResult o.d 0).result 1 (.ldt o.imm.toNat t))

/-! ### System registers -/

/-- R43: ALLOT. -/
def Core.allotWord (c : Core) : Word :=
  BitVec.ofNat 64 (c.bank.vu % 16 + c.bank.at_ % 16 * 16 + (24 - c.bank.vu - c.other.vu) % 32 * 256 +
    (8 - c.bank.at_ - c.other.at_) % 16 * 2 ^ 13)

/-- R43: BANK. -/
def Core.bankWord (c : Core) : Word :=
  BitVec.ofNat 64 (c.curBank % 2 + if c.other.run = .empty then 0 else 2)

/-- R228, R230: a register of a machine-check bank: 0 STATUS, 1 ADDR, 2 MISC, 3 CTL. -/
def McBank.word (m : McBank) (r : Nat) : Word :=
  match r with
  | 0 => BitVec.ofNat 64 ((if m.valid then 2 ^ 63 else 0) + (if m.ovf then 2 ^ 62 else 0) + m.sev % 4 * 2 ^ 60 +
      m.src % 32 * 2 ^ 55 + m.unit % 128 * 2 ^ 48 + m.code % 2 ^ 16)
  | 1 => m.addr
  | 2 => BitVec.ofNat 64 (m.count % 2 ^ 32 + m.synd % 2 ^ 16 * 2 ^ 32)
  | _ => BitVec.ofNat 64 ((if m.en then 1 else 0) + if m.notify then 2 else 0)

/-- R231: SVCREQ. -/
def Hub.svcWord (h : Hub) : Word :=
  let spare := (h.cells.toList.filter fun c => c.run == .spare).length
  let cells := decide (spare < h.regs.svcThreshold)
  let b8 := (if cells then 1 else 0) + (if h.regs.svcRows then 2 else 0) + (if h.regs.svcChan then 4 else 0) +
    if h.regs.svcLanes then 8 else 0
  BitVec.ofNat 64 ((if b8 = 0 then 0 else 1) + b8 * 256 + spare % 8 * 2 ^ 16)

/-- R142: component c of the clock of a core's die; 18 to 31 read 0. -/
def State.vclk (s : State) (c : Nat) : Word :=
  BitVec.ofNat 64 ((s.clocks.getD (dieOf s.cur) []).getD c 0)

/-- A partition of the running task. -/
def State.partition (s : State) : Partition := if h : s.part < 4 then s.hub.parts[s.part] else Partition.clear

/-- A machine-check bank. -/
def Hub.mcBank (h : Hub) (n : Nat) : McBank := if hn : n < 32 then h.mc[n] else McBank.clear

/-- R227, R228, R230: register r of machine-check bank n as it reads; a reserved bank reads zero. -/
def Hub.mcWord (h : Hub) (n r : Nat) : Word := if mcReserved n then 0 else (h.mcBank n).word r

/-- A cell. -/
def Hub.cell (h : Hub) (n : Nat) : Cell := if hn : n < 64 then h.cells[n] else Cell.clear

/-- R302: what MFSR reads; `idx` is the index of the indexed registers.
Log entry 20, DEDUCED. -/
def State.sysRead (s : State) (n : Nat) (idx : Word) : Word :=
  let c := s.core
  let b := c.bank
  match n with
  | 0x00 => b.status.word
  | 0x01 => BitVec.ofNat 64 (b.pos % 64 + b.glog % 8 * 256)
  | 0x02 => BitVec.ofNat 64 (cellOf s.cur % 64)
  | 0x03 => BitVec.ofNat 64 (dieOf s.cur % 4)
  | 0x04 => c.bankWord
  | 0x05 => c.allotWord
  | 0x06 => b.rotWord
  | 0x07 => b.loop.word
  | 0x08 => b.epc
  | 0x09 => b.cause
  | 0x0A => b.tvec
  | 0x0B => BitVec.ofNat 64 (b.tfbase % 65536 * 128)
  | 0x0C => c.inten.setWidth 64
  | 0x0D => c.pend.setWidth 64
  | 0x0E => BitVec.ofNat 64 c.cycle
  | 0x0F => c.timer
  | 0x10 => b.stencil
  | 0x11 => b.resslot
  | 0x12 => b.resbank
  | 0x13 => b.resnet
  | 0x14 => b.respwr
  | 0x18 => BitVec.ofNat 64 s.partition.audRate
  | 0x19 => s.partition.audSeed
  | 0x1A => if s.partition.audAct then 1 else 0
  | 0x1B => BitVec.ofNat 64 (s.hub.cell (idx.toNat % 64)).susp
  | 0x1C => BitVec.ofNat 64 s.partition.qth
  | 0x20 => s.vclk (idx.toNat % 32)
  | 0x21 => s.hub.mcWord (idx.toNat % 32) (idx.toNat / 32 % 4)
  | 0x22 => s.hub.svcWord
  | _ => 0

/-- R302: registers a user-mode MTSR faults on with cause 0x0C. -/
def mtsrPriv (n : Nat) : Bool :=
  (0x08 ≤ n && n ≤ 0x0D) || n == 0x0F || (0x18 ≤ n && n ≤ 0x1C) || n == 0x20 || n == 0x21

/-- R302, R356: MFSR. In drift code only the registers a user may read, and none that is indexed. -/
def execMfsr (o : XOp) (s : State) : Out :=
  let n := o.imm.toNat
  s.guarded o.g fun s =>
    if !(s.dregsOk [o.d, o.a]) || (s.isDrift && sysIndexed n) then s.raise 0x01
    else if (!s.sup? && sysIndexed n) || !(s.destOk o.d) then s.raise 0x0C
    else .next (s.scalarResult 2 4 o.d (s.sysRead n (s.rs o.a)))

/-- R23, R357: the cause that an MTSR of ROTSZ raises. -/
def Bank.rotFault (b : Bank) (v : Word) : Option Nat :=
  let n := v.toNat % 256
  if b.loop.active || n % 8 ≠ 0 || decide (128 < n) then some 0x01
  else if 32 * b.vu < n then some 0x02
  else none

/-- R302, R356, R357: MTSR.
Log entry 56, DEDUCED. -/
def execMtsr (o : XOp) (s : State) : Out :=
  let n := o.imm.toNat
  s.primaryOnly o.g fun s =>
    if !s.sup? && mtsrPriv n then s.raise 0x0C
    else
      let v := s.rs o.a
      match (if n = 0x06 then s.core.bank.rotFault v else none) with
      | some c => s.raise c
      | none =>
        let user := !s.sup?
        let num := if n = 0 && user then 0x100 else n
        if user && decide (0x11 ≤ n) then .next s else .next (s.result 2 (.sys num v))

/-! ### Traps -/

/-- R215, R220, R380: TRAP. The freeze follows its own bundle. -/
def execTrap (o : XOp) (s : State) : Out :=
  match s.agent with
  | .drift _ => s.raise 0x01
  | .primary => s.control o.g 0 0 none fun _ s =>
      let b := s.core.bank
      if b.loop.active || b.status.guard || b.handler || !b.rimeFits then s.raise 0x01
      else .next (s.trapAfter o.imm.toNat)

/-- R205, R213, R216, R217, R334: ERET. A frame that breaks R213 ends the launch with cause 0x01 and NESTED, and so does
one whose count of entries is above 64; a FAULTED entry becomes a translation event, after which the ERET issues again.
Log entry 92, DESIGN CHOICE. -/
def execEret (o : XOp) (s : State) : Out :=
  s.supOnly o.g fun s =>
    let b := s.core.bank
    let m := s.core.store
    let base := 128 * b.tfbase
    if !b.framePinned then s.raiseNested 0x06
    else
      let xs := rimesRead m base
      let rs := xs.map (·.1)
      let bars := pairBars (b.heldRes b.heldBars) (rs.filter fun r => r.bar)
      let op (x : Rime × Option (Nat × BarRes)) : Nat := (x.2.map (·.2.op)).getD 0
      if decide (64 < xs.length) || !(xs.all b.rimeLegal) ||
          !(bars.all fun x => x.1.faulted == (x.2.isSome && s.opStuck (op x))) then s.raiseNested 0x01
      else
        match bars.find? (fun x => x.1.faulted) with
        | some x =>
          let va := match s.ops.find? (fun p => p.id == op x) with
            | some p => p.old
            | none => 0
          .next (s.takeEvent b.pc x.1.cb va (some (op x)) .reissue)
        | none =>
          let s := s.restore (b.tick + 48) b.epc rs
          .next (s.setBank { s.core.bank with stall := 47 })

/-! ### Guarded mode -/

/-- R140: a CKPT sends the hold buffer's writes and releases in order. -/
def State.sendHeld (s : State) : State :=
  let ws := s.core.bank.heldWrites
  let s := s.setBank { s.core.bank with heldWrites := [] }
  ws.foldl State.sendWrite s

/-- R141: the pending waits of a bank's BARRs, and of its XROUTEs that a port's answer ends, are armed: they count as
outstanding from here on, for a further CKPT too.
Log entry 86, DEDUCED. -/
def State.armWaits (s : State) : State :=
  s.setBank ((List.range 8).foldl (fun b n =>
    let c := b.cb n
    b.setCb n { c with count := c.count + c.waits, waits := 0 }) s.core.bank)

/-- R221: a checkpoint retires: held writes leave, the undo log empties, the counts restart, and the shadow state
re-arms with the bundle after it.
Log entry 25, DEDUCED. -/
def State.checkpoint (s : State) : State :=
  let s := s.sendHeld.armWaits
  s.setBank { s.core.bank with undo := [], sysUndo := [], bundles := 0, curCkpt := true }

/-- R221: nothing exposed is outstanding: no result, no matrix row, no barrier operation. -/
def Bank.quiet (b : Bank) : Bool :=
  b.pend.all (fun e => decide (e.due ≤ b.tick)) && b.streams.isEmpty && b.epis.isEmpty && b.loader.isNone &&
    b.mreds.isEmpty && b.cbs.toList.all fun c => c.count == 0

/-- R221, R326: CKPT. -/
def execCkpt (o : XOp) (s : State) : Out :=
  s.primaryOnly o.g fun s =>
    let b := s.core.bank
    if !b.status.guard then .next s
    else if !b.quiet then s.raise 0x21
    else .next s.checkpoint

/-! ### Digests, allotments, arming -/

/-- R235, R332: DIGEST. In a solo task it has no effect. -/
def execDigest (o : XOp) (s : State) : Out :=
  s.primaryOnly o.g fun s =>
    match s.core.bank.task with
    | none => .next s
    | some t =>
      if t.tret then s.raise 0x01
      else if t.gang.isNone then .next s
      else .next (s.setBank { s.core.bank with task := some { t with digest := t.digest ++ [s.rs o.a] } })

/-- R29, R340: GROW. -/
def execGrow (o : XOp) (s : State) : Out :=
  s.primaryOnly o.g fun s =>
    if !(s.destOk o.d) then s.raise 0x0C
    else
      let c := s.core
      let n := o.imm.toNat
      let tiles := o.sub == 1
      let have_ := if tiles then c.bank.at_ else c.bank.vu
      let free := if tiles then 8 - c.bank.at_ - c.other.at_ else 24 - c.bank.vu - c.other.vu
      if decide (have_ + n ≤ if tiles then 8 else 12) && decide (n ≤ free) then
        .next ((s.xResult o.d 0).result 1 (.allot tiles (have_ + n)))
      else .next (s.xResult o.d 1)

/-- R29: a result in flight targets, or a stream reads or writes, a register or tile from a number on. -/
def Bank.targets (b : Bank) (tiles : Bool) (n : Nat) : Bool :=
  (b.pend.any fun e => match e.eff with
    | .v m _ _ _ => !tiles && decide (n ≤ m)
    | .tileZero m _ | .accRow m _ _ _ _ | .seg m _ _ _ => tiles && decide (n ≤ m)
    | _ => false) ||
  (tiles && ((b.streams.any fun st => decide (n ≤ st.acc)) || (b.epis.any fun e => decide (n ≤ e.acc)) ||
    (b.mreds.any fun r => decide (n ≤ r.acc))))

/-- R29, R340: SHRINK. -/
def execShrink (o : XOp) (s : State) : Out :=
  s.primaryOnly o.g fun s =>
    if !(s.destOk o.d) then s.raise 0x0C
    else
      let b := s.core.bank
      let n := o.imm.toNat
      let tiles := o.sub == 1
      let have_ := if tiles then b.at_ else b.vu
      if decide (have_ < n) || (!tiles && decide (32 * (have_ - n) < b.rotSize)) then s.raise 0x02
      else if b.targets tiles (if tiles then have_ - n else 32 * (have_ - n)) then s.raise 0x22
      else .next ((s.xResult o.d (BitVec.ofNat 64 (have_ - n))).result 1 (.allot tiles (have_ - n)))

/-- R151, R320: ARM. The block is captured at issue; the hub acts on the request later. -/
def execArm (o : XOp) (s : State) : Out :=
  s.supOnly o.g fun s =>
    let a := (s.rs o.a).toNat
    s.captured a 64 64 fun bs s =>
      if 4 ≤ s.core.hubq.length then .next (s.xResult o.d 1)
      else
        let s := s.setCore { s.core with hubq := s.core.hubq ++ [.arm o.imm.toNat bs (a + 56) s.core.curBank] }
        .next ((s.xResult o.d 0).later [.event (.armResult s.cur)])

/-- R151, R153: DISARM's effect in the hub: queued fires are dropped with error messages. -/
def State.disarmSlot (s : State) (n : Nat) : State :=
  let a := s.hub.slot n
  let r := s.hub.regs
  let s := s.setHub { s.hub.setSlot n { a with armed := false, queued := [] } with
    regs := { r with overflow := r.overflow + a.queued.length } }
  a.queued.foldl (fun s m => s.errorReply m) s

/-- R151, R320: DISARM.
Log entry 59, DEDUCED. -/
def execDisarm (o : XOp) (s : State) : Out :=
  s.supOnly o.g fun s =>
    if 4 ≤ s.core.hubq.length then .next (s.xResult o.d 1)
    else .next ((s.xResult o.d 0).disarmSlot o.imm.toNat)

/-! ### Launch and task -/

/-- R140, R166, R329: CONDW: a release, then the update, which in guarded mode waits behind it in the hold buffer.
That of an audit rerun is discarded with its outputs (R236). -/
def execCondw (o : XOp) (s : State) : Out :=
  s.primaryOnly o.g fun s =>
    match s.core.bank.task with
    | none => s.raise 0x01
    | some t =>
      let w : HeldWrite := .cond t.launch o.imm.toNat o.sub.toNat (s.rs o.a)
      .next (if s.isRerun then s.releaseHere 3 else (s.releaseHere 3).globalOut 0 w)

/-- R161, R381: TRET. -/
def execTret (o : XOp) (s : State) : Out :=
  s.primaryOnly o.g fun s =>
    match s.core.bank.task with
    | none => s.raise 0x01
    | some t => if t.tret then s.raise 0x01 else .next s.tret

/-! ### Drift threads -/

/-- R32, R333: DSTART. At its first start in a task a thread's registers read 0; it runs in the mode of the bank
(R202; log entry 84, DEDUCED). -/
def execDstart (o : XOp) (s : State) : Out :=
  s.primaryOnly o.g fun s =>
    let n := o.d.toNat
    let b := s.core.bank
    let t := s.core.thread n
    if b.status.guard then s.raise 0x01
    else if t.running || t.busy then s.raise 0x0D
    else
      let id := match b.task with
        | some k => k.task + 1
        | none => 0
      let t := if t.bank = s.core.curBank && t.task = id then t else { Thread.clear with task := id }
      let pc := b.pc + 4 * o.imm.signExtend 64
      .next (s.setCore (s.core.setThread n
        { t with pc := pc, next := pc, byBranch := true, running := true, bank := s.core.curBank, task := id, sup := b.status.sup,
                 busy := true, due := some (s.core.cycle + 2), eff := .none, waitEv := none }))

/-- R305, R333: DSTOP, issued by a drift thread only; the primary's raises cause 0x01 whatever its guard.
Log entry 12, DEDUCED. -/
def execDstop (o : XOp) (s : State) : Out :=
  match s.agent with
  | .primary => s.raise 0x01
  | .drift _ => s.guarded o.g fun s => .next (s.setThread { s.thread with running := false, busy := false })

/-! ### Generators and self-test -/

/-- R93, R338: GENSET. -/
def execGenset (o : XOp) (s : State) : Out :=
  s.primaryOnly o.g fun s =>
    let v := s.rs o.a + o.imm.signExtend 64
    if (o.sub == 0 && v.toNat % 8 == 7) || (o.sub == 7 && v.toNat % 4 == 3) then s.raise 0x01
    else .next (s.result 1 (.gen o.d.toNat o.sub.toNat v))

/-- R232: the cell runs or holds a task. -/
def State.cellBusy (s : State) (n : Nat) : Bool :=
  (List.range 4).any fun p =>
    let c := s.coreAt (4 * n + p)
    c.bank.run != .empty || c.other.run != .empty

/-- R232: what SELFTEST of a cell answers. -/
def State.selftestCode (s : State) (n : Nat) : Nat :=
  let c := s.hub.cell n
  match c.run with
  | .spare | .retired => 2
  | .absent => 1
  | .quarantined => if c.testing.isSome || c.part ≠ some s.part then 1 else 0
  | .enabled =>
    if c.testing.isSome || c.part ≠ some s.part || s.cellBusy n || cellOf s.cur == n then 1 else 0

/-- Change a cell. -/
def Hub.mapCell (h : Hub) (n : Nat) (f : Cell → Cell) : Hub :=
  if hn : n < 64 then { h with cells := h.cells.set n (f h.cells[n]) } else h

/-- R232: a test of a cell starts. -/
def State.startTest (s : State) (n kind : Nat) (core : Option Nat) : State :=
  s.setHub (s.hub.mapCell n fun c => { c with testing := some (kind, core) })

/-- R232, R373: SELFTEST. -/
def execSelftest (o : XOp) (s : State) : Out :=
  s.supOnly o.g fun s =>
    let n := (s.rs o.a).toNat % 64
    let code := s.selftestCode n
    let s := s.xResult o.d (BitVec.ofNat 64 code)
    .next (if code = 0 then s.startTest n o.imm.toNat (some s.cur) else s)

end Sys2Proof.Machine
end

