-- ==== Sys2Proof/Machine/HubRegs.lean ====
section
/-! DEFINITION. The hub register window (16 R267, R268, R272; 05 R120; 11 R228, R230; 14 R246, R258). -/

namespace Sys2Proof.Machine

/-- A register built from flags and fields. -/
def bitIf (c : Bool) (n : Nat) : Nat := if c then 2 ^ n else 0

/-- R154: LNDROP; its counters wrap.
Log entry 75, DESIGN CHOICE. -/
def HubRegs.lndrop (r : HubRegs) : Word := BitVec.ofNat 64 (r.unmatched % 2 ^ 32 + r.overflow % 2 ^ 32 * 2 ^ 32)

/-- R246: MPCNT. -/
def HubRegs.mpcnt (r : HubRegs) : Word :=
  BitVec.ofNat 64 (r.msgBad % 2 ^ 16 + r.msgFull % 2 ^ 16 * 2 ^ 16 + r.msgRing % 2 ^ 16 * 2 ^ 32)

/-- R267, R237: REPLCTL. -/
def HubRegs.replctl (r : HubRegs) : Word :=
  BitVec.ofNat 64 (r.replSlot % 256 + r.replN % 16 * 2 ^ 8 + r.replPorts % 2 ^ 24 * 2 ^ 12 + bitIf r.replHalted 36)

/-- R258: GUESTCTL. -/
def HubRegs.guestctl (r : HubRegs) : Word :=
  BitVec.ofNat 64 (r.guestPart % 4 + bitIf r.guestEn 2 + bitIf r.guestFenced 3 + r.guestWatts % 256 * 2 ^ 8 +
    r.guestTemp % 256 * 2 ^ 16)

/-- R120: log2 of the block size; values other than 16 to 26 read as 16. -/
def Partition.blkLog (p : Partition) : Nat := if 16 ≤ p.pfBlk && p.pfBlk ≤ 26 then p.pfBlk else 16

/-- R120: PFCTL. -/
def Partition.pfctl (p : Partition) : Word :=
  BitVec.ofNat 64 (bitIf p.pfEn 0 + p.blkLog * 2 + p.pfThr % 256 * 64)

/-- R267: what a read of the register at an offset returns. -/
def State.regWord (s : State) (off : Nat) : Word :=
  let r := s.hub.regs
  match off with
  | 0x0000 => BitVec.ofNat 64 (0x0960 + r.rev % 256 * 2 ^ 16)
  | 0x0010 => BitVec.ofNat 64 (bitIf r.ready 0 + bitIf r.prevFatal 1 + r.bootCode % 256 * 256)
  | 0x0018 => BitVec.ofNat 64 (r.capw % 256 * 2 ^ 16)
  | 0x0020 => BitVec.ofNat 64 (r.thermMax % 256 + bitIf r.thermHot 8)
  | 0x0100 => r.lndrop
  | 0x0108 => r.replctl
  | 0x0110 => r.guestctl
  | 0x0120 => BitVec.ofNat 64 (r.ringBase % 2 ^ 52 * 4096 + r.ringLog % 32 + bitIf r.ringIrq 5)
  | 0x0128 => BitVec.ofNat 64 (r.head % 2 ^ 16)
  | 0x0130 => BitVec.ofNat 64 (r.tail % 2 ^ 16)
  | 0x0138 => r.mpcnt
  | 0x1000 => s.hub.svcWord
  | _ =>
    if hp : 0x0200 ≤ off ∧ off < 0x0220 ∧ off % 8 = 0 then
      if h : (off - 0x0200) / 8 < 4 then (s.hub.parts[(off - 0x0200) / 8]).pfctl else 0
    else if 0x0400 ≤ off ∧ off < 0x0800 then s.hub.mcWord ((off - 0x0400) / 32) (off % 32 / 8)
    else if 0x2000 ≤ off ∧ off < 0x2200 then BitVec.ofNat 64 (readNat s.hub.attest (off - 0x2000) 8)
    else 0

/-- R6, R154, R246: a read of a register: its value, and the counters it clears. -/
def State.regRead (s : State) (off : Nat) : Word × State :=
  let r := s.hub.regs
  (s.regWord off,
    if off = 0x0100 then s.setRegs { r with unmatched := 0, overflow := 0 }
    else if off = 0x0138 then s.setRegs { r with msgBad := 0, msgFull := 0, msgRing := 0 }
    else s)

/-- R229, R238, R263: a partition's queue runs again unless another cause keeps it halted. -/
def Hub.letRun (h : Hub) (p : Nat) : Hub :=
  let r := h.regs
  h.mapPart p fun x => { x with
    halted := r.fatal || (r.guestFenced && r.fencedPart == p) || (r.replHalted && r.replPart == p) }

/-- R258, R263: a write of GUESTCTL. EN can be set only for an attested guest; clearing FENCED lets the queue
of the partition run again that the fence has halted. -/
def State.putGuestctl (s : State) (v : Word) : State :=
  let r := s.hub.regs
  let clear := r.guestFenced && v.getLsbD 3
  let s := s.setRegs { r with guestPart := v.toNat % 4, guestEn := v.getLsbD 2 && s.guest.attested,
                              guestFenced := r.guestFenced && !(v.getLsbD 3) }
  if clear then
    (s.setHub (s.hub.letRun r.fencedPart)).later [.event (.launchStart r.fencedPart)]
  else s

/-- R270: a write into the attestation buffer: the nonce and the request byte. -/
def State.putAttest (s : State) (off : Nat) (v : Word) : State :=
  let o := off - 0x2000
  let pending := memByte s.hub.attest 0x30 == 1
  if o < 0x30 then s.setHub { s.hub with attest := putN s.hub.attest o 8 v.toNat }
  else if o = 0x30 && v.toNat % 256 == 1 && !pending then
    let s := s.setHub { s.hub with attest := memPut s.hub.attest 0x30 1 }
    s.later [.event (.attestRequest (BitVec.ofNat 384 (readNat s.hub.attest 0 48)))]
  else s

/-- R228: a write of a machine-check bank's register; a reserved bank ignores it (R227). -/
def McBank.put (m : McBank) (r : Nat) (v : Word) : McBank :=
  match r with
  | 0 => { m with valid := m.valid && !(v.getLsbD 63), ovf := m.ovf && !(v.getLsbD 62) }
  | 3 => { m with en := v.getLsbD 0, notify := v.getLsbD 1 }
  | _ => m

/-- R267: a write of the register at an offset; unnamed and read-only registers ignore it. -/
def State.regWrite (s : State) (off : Nat) (v : Word) : State :=
  let r := s.hub.regs
  let n := v.toNat
  match off with
  | 0x0008 => if v.getLsbD 0 then s.later [.event .coldReset] else s
  | 0x0010 => s.setRegs { r with prevFatal := r.prevFatal && !(v.getLsbD 1) }
  | 0x0018 => s.setRegs { r with capw := bitsAt n 16 8 }
  | 0x0108 =>
    let s := s.setRegs { r with replSlot := bitsAt n 0 8, replN := bitsAt n 8 4, replPorts := bitsAt n 12 24 }
    if v.getLsbD 37 then s.later [.event .replctlResume] else s
  | 0x0110 => s.putGuestctl v
  | 0x0120 => s.setRegs { r with ringBase := n / 4096, ringLog := n % 32, ringIrq := v.getLsbD 5 }
  | 0x0128 => s.setRegs { r with head := n % 2 ^ 16 }
  | _ =>
    if 0x0200 ≤ off ∧ off < 0x0220 ∧ off % 8 = 0 then
      s.setHub (s.hub.mapPart ((off - 0x0200) / 8) fun p =>
        { p with pfEn := v.getLsbD 0, pfBlk := bitsAt n 1 5, pfThr := bitsAt n 6 8 })
    else if 0x0400 ≤ off ∧ off < 0x0800 ∧ off % 8 = 0 then
      let k := (off - 0x0400) / 32
      s.setHub (if h : k < 32 then
        (if mcReserved k then s.hub else { s.hub with mc := s.hub.mc.set k ((s.hub.mc[k]).put (off % 32 / 8) v) })
      else s.hub)
    else if 0x2000 ≤ off ∧ off < 0x2200 then s.putAttest off v
    else s

end Sys2Proof.Machine
end

