-- ==== Sys2Proof/Machine/Drift.lean ====
section
/-! DEFINITION. Drift threads: what their operations do when they complete, the filling of announced slots, and the
power tokens (02 R31-R38, 06 R182, 16 R271). -/

namespace Sys2Proof.Machine

/-! ### Access to memory at completion -/

/-- R107: the level-4 entry that maps an address, 0 when the walk does not reach it. -/
def leafEntry (m : Mem) : List Nat → Nat → Nat
  | [], _ => 0
  | [i], t => readNat m (t + 8 * i) 8
  | i :: is, t =>
    let e := readNat m (t + 8 * i) 8
    if e % 2 = 0 then 0 else leafEntry m is (bitsAt e 13 39 * 8192)

/-- R107: the retention hint of an access: its own, or the page's where it carries 00. -/
def State.hintOf (s : State) (va hint : Nat) : Nat :=
  if hint ≠ 0 then hint else bitsAt (leafEntry s.mem (walkIndices va) (s.root s.part)) 4 2

/-- R342: the value a load of w bytes gives. -/
def loadValue (signed : Bool) (w : Nat) (v : Nat) : Word :=
  if signed then BitVec.ofInt 64 (signedOf (8 * w) v) else BitVec.ofNat 64 v

/-- R32, R205: a fault of the thread that acts. -/
def State.threadFault (s : State) (cause addr : Nat) : State :=
  s.takeFault { cause := cause, thread := s.agentThread, cb := 0, addr := addr, aux := 0 }

/-- R32: the thread that acts waits on a translation event. -/
def State.threadEvent (s : State) (va : Nat) : State :=
  let ev := s.hub.nextEvent
  let s := s.setHub (s.hub.queueEvent (s.core.bank.task.map (·.launch)) s.cur s.core.curBank none s.agentThread va
    none false)
  s.setThread { s.thread with waitEv := some ev }

/-- R35: the operation outstanding is complete and the thread is ready. -/
def State.threadReady (s : State) : State :=
  s.setThread { s.thread with busy := false, due := none, eff := .none, waitEv := none }

/-- R32, R105, R107: a global access of the thread: its page is present, or the thread waits, or it faults. -/
def State.threadGlobal (s : State) (va : Nat) (read write : Bool) (k : Nat → State → State) : State :=
  match s.translate s.part va { write := write, user := !s.sup?, read := read } with
  | .ok pa => k pa s
  | .absent => s.threadEvent va
  | .denied => (s.logErrorResponse va).threadFault 0x0D va
  | .unbacked pa => (s.logErrorResponse pa).threadFault 0x0D va

/-- A register of the thread written. -/
def State.putD (s : State) (n : Nat) (v : Word) : State := s.setThread (s.thread.setD n v)

/-- R89: a write of lines that lands now would land at or before a tracked read. While the bank is frozen its present
tick's reads are over. -/
def State.landsLate (s : State) (lines : List Nat) : Bool :=
  let b := s.core.bank
  b.hazard lines (match b.run with
    | .cpyw _ => b.tick + 1
    | _ => b.tick)

/-- R31, R35, R121, R182: what the thread's operation does at its completion. A write that has come to land at or
before a tracked read faults and writes nothing (R89). -/
def State.driftApply (s : State) : State :=
  match s.thread.eff with
  | .none => s.threadReady
  | .d n v => (s.putD n v).threadReady
  | .p n v => (s.setThread (s.thread.setP n v)).threadReady
  | .store a bytes rel =>
    if s.landsLate (linesOf a bytes.length) then s.threadFault 0x0A a
    else
      let s := (match rel with
        | some sc => s.release sc
        | none => s)
      (s.setCore (s.core.putSeen a bytes)).threadReady
  | .atom a op x cmp rd =>
    let n := atomBytes op
    if s.landsLate (linesOf a n) then s.threadFault 0x0A a
    else
      let old : Word := BitVec.ofNat 64 (readNat s.core.seen a n)
      let s := s.setCore (s.core.putSeen a (leBytes n (atomNew op old x cmp).toNat))
      (s.putD rd old).threadReady
  | .gatom va op x cmp rd hint =>
    s.threadGlobal va true true fun pa s =>
      let n := atomBytes op
      let old : Word := BitVec.ofNat 64 (readNat s.mem pa n)
      let s := (s.putFrom (dieOf s.cur) pa (leBytes n (atomNew op old x cmp).toNat)).touchWays pa (s.hintOf va hint)
      (s.putD rd old).threadReady
  | .gload va w signed rd hint acq =>
    s.threadGlobal va true false fun pa s =>
      let s := (s.touchDrift pa (s.hintOf va hint) false).putD rd (loadValue signed w (readNat s.mem pa w))
      (match acq with
      | some sc => s.acquire sc
      | none => s).threadReady
  | .gstore va bytes hint rel =>
    s.threadGlobal va false true fun pa s =>
      let s := (match rel with
        | some sc => s.release sc
        | none => s)
      ((s.touchDrift pa (s.hintOf va hint) true).putFrom (dieOf s.cur) pa bytes).threadReady
  | .hubLoad off rd =>
    let r := s.regRead off
    (r.2.putD rd r.1).threadReady
  | .hubStore off v => (s.regWrite off v).threadReady
  | .msg m => if s.messageDown m then s.threadFault 0x0D 0 else (s.sendMessage m).threadReady
  | .link _ => s.threadReady

/-- The completion of the outstanding operation of thread n, in its own bank. -/
def State.driftDone (s : State) (n : Nat) : State :=
  s.onBank (s.core.thread n).bank fun s => s.asAgent (.drift n) State.driftApply

/-- R35: the operation of a thread is one whose completion no cycle count fixes, and nothing holds it. -/
def Thread.open_ (t : Thread) : Bool :=
  t.busy && t.due.isNone && t.waitEv.isNone && (match t.eff with | .link _ => false | _ => true)

/-- R35: the step DRIFT_OP_COMPLETE for an operation of variable latency. Those of fixed latency complete with
their cycle. -/
def execDriftOpComplete (core n : Nat) (s : State) : Out :=
  .next (if core < 256 then s.onCore core fun s => if (s.core.thread n).open_ then s.driftDone n else s else s)

/-- R35: the operations whose completion falls due at the core's cycle. -/
def State.driftDue (s : State) : State :=
  (List.range 8).foldl (fun s n =>
    let t := s.core.thread n
    if t.busy && (t.due.any fun d => decide (d ≤ s.core.cycle)) then s.driftDone n else s) s

/-! ### The slots (02 R33, R34) -/

/-- R34: a thread of the running bank that is ready. -/
def Core.threadIsReady (c : Core) (n : Nat) : Bool :=
  let t := c.thread n
  t.running && !t.busy && t.waitEv.isNone && t.bank == c.curBank

/-- R34: a class of slot. -/
inductive SlotClass where
  | scalar
  | copy
  | either
  deriving DecidableEq, Repr

/-- R33, R219: threads may issue: no switch is due or under way, and no pre-emption stops the core's threads. -/
def Core.slotsOpen (c : Core) : Bool := c.switching.isNone

/-- What a thread issues next: the cause its bundle raises, or an instruction and the bundle after it. -/
inductive DriftNext where
  | fault (cause : Nat)
  | run (class_ : Nat) (i : Except Reject Instr) (after : Nat)

/-- R290, R292: the next bundle of a thread. -/
def State.driftNext (s : State) (n : Nat) : DriftNext :=
  let t := s.core.thread n
  match ({ s with agent := Agent.drift n }).image.fetch t.pc.toNat t.byBranch with
  | .error c => .fault c
  | .ok (ws, after) =>
    match decodeBundle 16 ws with
    | [(k, r)] => .run k r after
    | _ => .fault 0x04

/-- R34: the class of slot that an operation takes; one that raises a cause takes any. -/
def DriftNext.slot : DriftNext → SlotClass
  | .fault _ => .either
  | .run k _ _ => if k == 4 then .copy else if k == 0 || k == 1 || k == 5 then .scalar else .either

/-- An operation fits a slot. -/
def SlotClass.fits (c : SlotClass) (copy : Bool) : Bool :=
  match c with
  | .either => true
  | .copy => copy
  | .scalar => !copy

/-- The guard of a drift C operation is one of dp0 to dp3 and true. -/
def Thread.guardTrue (t : Thread) (g : BitVec 4) : Bool := decide (g.toNat < 4) && t.pred g.toNat

/-- R36: the window line that an operation of a thread needs a port for: that of its access, or of the block an MSEND
captures. -/
def State.driftPort (s : State) (n : Nat) (i : Instr) : Option Nat :=
  let line (o : COp) : Option Nat :=
    let a := ({ s with agent := Agent.drift n }).ea o
    if (s.core.thread n).guardTrue o.g && inWindow a && s.core.bank.pins.getLsbD (a / 128) then some (a / 128)
    else none
  match i with
  | .ld o | .st o | .atom o | .flagw o | .flagr o | .msend o => line o
  | _ => none

/-- R36: an operation of a thread needs an injection slot. -/
def State.driftNet (s : State) (n : Nat) (i : Instr) : Bool :=
  match i with
  | .msend o | .lsend o => (s.core.thread n).guardTrue o.g
  | _ => false

/-- R36, R37: the counter of the refusal of an operation, tested in the order listed; none when it issues. -/
def State.driftRefuse (s : State) (n : Nat) (i : Option Instr) : Option Nat :=
  let port := match i.bind (s.driftPort n) with
    | some l => (s.core.slots.ports && s.core.bank.portTaken l) || s.core.delivered.contains (l % 16)
    | none => false
  let net := (s.core.slots.net || s.core.netUsed) && (i.map (s.driftNet n)).getD false
  if port then some 0x12 else if net then some 0x13 else if s.core.tokens = 0 then some 0x14 else none

/-- R37: a refusal or an ungiven slot is counted. -/
def Bank.countRes (b : Bank) (reg : Nat) : Bank :=
  match reg with
  | 0x11 => { b with resslot := b.resslot + 1 }
  | 0x12 => { b with resbank := b.resbank + 1 }
  | 0x13 => { b with resnet := b.resnet + 1 }
  | _ => { b with respwr := b.respwr + 1 }

/-- R34: the first ready thread after `last` in round-robin order, not yet chosen, that fits a slot.
Log entry 33, DESIGN CHOICE. -/
def State.driftPick (s : State) (chosen : List Nat) (last : Nat) (copy : Bool) : Option Nat :=
  ((List.range 8).map fun k => (last + 1 + k) % 8).find? fun n =>
    s.core.threadIsReady n && !(chosen.contains n) && (s.driftNext n).slot.fits copy

/-- One announced slot: the threads chosen so far, where the next search starts, and those that issue. -/
structure Fill where
  chosen : List Nat
  last : Nat
  issued : List Nat
  deriving DecidableEq, Repr

/-- R37, R356: a refusal or an ungiven slot counts once the cycle is over. -/
def State.countLater (s : State) (reg : Nat) : State := s.setCore { s.core with resDue := s.core.resDue ++ [reg] }

/-- R34, R36, R38: one announced slot is filled, or its operation refused and counted. -/
def State.fillSlot (s : State) (f : Fill) (copy : Bool) : State × Fill :=
  match s.driftPick f.chosen f.last copy with
  | none => (s, f)
  | some n =>
    let i := match s.driftNext n with
      | .fault _ => none
      | .run _ r _ => candidate r
    match s.driftRefuse n i with
    | some r => (s.countLater r, { f with chosen := n :: f.chosen, last := n })
    | none =>
      (s.setCore { s.core with tokens := s.core.tokens - 1, lastThread := n },
       { chosen := n :: f.chosen, last := n, issued := f.issued ++ [n] })

/-- R33, R34, R37: the step DRIFT_SLOT_FILL: the announced slots go to ready threads in the order scalar, copy 0,
copy 1, and the chosen threads issue next. -/
def execDriftSlotFill (s : State) : Out :=
  let sl := s.core.slots
  let ready := (List.range 8).filter fun n => s.core.threadIsReady n
  if ready.isEmpty || !s.core.slotsOpen then .next s
  else
    let f : Fill := { chosen := [], last := s.core.lastThread, issued := [] }
    let x := if sl.scalar then s.fillSlot f false else (s, f)
    let x := if sl.copy0 then x.1.fillSlot x.2 true else x
    let x := if sl.copy1 then x.1.fillSlot x.2 true else x
    let s := x.1
    let s := if ready.all fun n => x.2.chosen.contains n then s else s.countLater 0x11
    .next { s with agenda := x.2.issued.map (Turn.drift ·) ++ s.agenda }

/-- R38: the step TOKEN_WINDOW: the power manager fixes the grant of the next windows, 0 to 512 tokens; at the start
of a window the tokens are the grant. -/
def execTokenWindow (grant : Nat) (s : State) : Out :=
  let g := min grant 512
  let c := s.core
  .next (s.setCore { c with grant := g, tokens := if c.cycle % 256 = 0 then g else c.tokens })

end Sys2Proof.Machine
end

