-- ==== Sys2Proof/Machine/Memory.lean ====
section
/-! DEFINITION. The meanings of LD, ST, LDV, STV, GATH and SCAT (05 R99-R103; 20 R337; 21 R342, R345), and the form of a scalar access by a drift thread. -/

namespace Sys2Proof.Machine

/-- R299: the scalar data register of a C instruction. -/
def dataReg (o : COp) : BitVec 6 := o.data.setWidth 6

/-- R35, R104: the thread issues an access to global memory: a hit in the drift cache completes in 12 cycles, a
miss takes a variable time, a page that is not present makes the thread wait, and a protection fault ends the
launch. -/
def State.driftGlobal (s : State) (a : Nat) (read write : Bool) (e : DriftEff) : State :=
  let t := s.threadGlobal a read write fun pa s =>
    if !(read && write) && s.core.driftHit pa then s.driftIssue 12 e else s.driftWait e
  if t.thread.waitEv.isSome then t.setThread { t.thread with busy := true, due := none, eff := e } else t

/-- R35, R99, R267: a scalar access of the thread that acts: in the window, to the hub's registers, or global. -/
def State.driftAccess (s : State) (a w : Nat) (read write : Bool) (loc : State → State × DriftEff) (glob : DriftEff)
    (hub : Option DriftEff) : Out :=
  match checkSteps13 (!s.sup?) a w w with
  | some c => s.raiseWith c 0 a 0
  | none =>
    if inHubWindow (a + w - 1) then
      match hub with
      | some e => if w = 8 then .next (s.driftWait e) else s.raiseWith 0x08 0 a 0
      | none => s.raiseWith 0x08 0 a 0
    else if a < 2 ^ 32 then
      match s.checkLocal a w w with
      | some c => s.raiseWith c 0 a 0
      | none =>
        if write && s.core.bank.hazard (linesOf a w) (s.core.bank.tick + 12) then s.raiseWith 0x0A 0 a 0
        else
          let r := loc s
          .next (r.1.driftIssue 12 r.2)
    else .next (s.driftGlobal a read write glob)

/-- A number the primary reads from the window. -/
def State.localNat (s : State) (a n : Nat) : Nat := readNat s.core.store a n

/-- R126: a number a drift thread reads from the window. -/
def State.driftNat (s : State) (a n : Nat) : Nat := readNat s.core.seen a n

/-! ### LD and ST -/

/-- R342: LD. -/
def execLd (o : COp) (s : State) : Out :=
  s.guarded o.g fun s =>
    let d := dataReg o
    let w := tagWidth o.fmt / 8
    let sg := tagSigned o.fmt
    let a := s.ea o
    if !(s.dregsOk [d, o.sa]) then s.raise 0x01
    else if !(s.destOk d) then s.raise 0x0C
    else
      match s.agent with
      | .primary =>
        match s.checkLocal a w w with
        | some c => s.raiseWith c 0 a 0
        | none => .next ((s.claimNow a w).result 5 (.sPlain d.toNat (loadValue sg w (s.localNat a w))))
      | .drift _ =>
        s.driftAccess a w true false (fun s => (s, .d d.toNat (loadValue sg w (s.driftNat a w))))
          (.gload a w sg d.toNat o.hint.toNat none)
          (if o.fmt = 12 then some (.hubLoad (a - 0xFFFFFFFFFFFF0000) d.toNat) else none)

/-- R342: ST. -/
def execSt (o : COp) (s : State) : Out :=
  s.guarded o.g fun s =>
    let d := dataReg o
    let w := tagWidth o.fmt / 8
    let a := s.ea o
    let v := s.rs d
    let bytes := leBytes w v.toNat
    if !(s.dregsOk [d, o.sa]) then s.raise 0x01
    else
      match s.agent with
      | .primary =>
        match (s.checkLocal a w w).or (s.storeCheck a w (s.core.bank.tick + 3)) with
        | some c => s.raiseWith c 0 a 0
        | none => .next (s.storeAt 3 a bytes none)
      | .drift _ =>
        s.driftAccess a w false true (fun s => (s, .store a bytes none)) (.gstore a bytes o.hint.toNat none)
          (if o.fmt = 12 then some (.hubStore (a - 0xFFFFFFFFFFFF0000) v) else none)

/-! ### Vector loads and stores -/

/-- R345: LDV. It enters no latch. -/
def execLdv (o : COp) (s : State) : Out :=
  s.primaryOnly o.g fun s =>
    let a := s.ea o
    if !(s.core.bank.vregIn o.data.toNat) then s.raise 0x02
    else
      match s.checkLocal a 256 64 with
      | some c => s.raiseWith c 0 a 0
      | none =>
        let s := s.claimNow a 256
        let b := s.core.bank
        .next (s.result 6 (.v (b.phys o.data.toNat) o.fmt (vbitsOf (readBytes s.core.store a 256)) (BitVec.allOnes 2048)))

/-- R345: STV. -/
def execStv (o : COp) (s : State) : Out :=
  s.primaryOnly o.g fun s =>
    let a := s.ea o
    let b := s.core.bank
    let r := b.vreg (b.phys o.data.toNat)
    if !(b.vregIn o.data.toNat) then s.raise 0x02
    else if r.tag != o.fmt then s.raise 0x05
    else
      match (s.checkLocal a 256 64).or (s.storeCheck a 256 (b.tick + 3)) with
      | some c => s.raiseWith c 0 a 0
      | none => .next (s.storeAt 3 a (vbytes r.bits) none)

/-! ### Gather and scatter -/

/-- R337: the granules of GATH and SCAT: lane and address, skipped lanes left out. -/
def granules (base : Nat) (idx : VBits) : List (Nat × Nat) :=
  ((lanesOf 32 idx).mapIdx fun l i => (l, i)).filterMap fun x =>
    if x.2 = 0xFFFFFFFF then none else some (x.1, base + 4 * x.2)

/-- R99 steps 4 and 5 over granules; one in the hub register window raises 0x0C in user mode, else 0x08 (R267). -/
def State.checkGranules (s : State) (gs : List (Nat × Nat)) : Option Nat :=
  let b := s.core.bank
  if gs.any fun g => inHubWindow g.2 && decide (g.2 < 2 ^ 64) then some (if s.sup? then 0x08 else 0x0C)
  else if !(gs.all fun g => decide (g.2 + 4 ≤ windowBytes) &&
      (b.pins.getLsbD (g.2 / 128) || s.core.other.pins.getLsbD (g.2 / 128))) then some 0x06
  else if !(gs.all fun g => b.pins.getLsbD (g.2 / 128)) then some 0x0D
  else none

/-- R337: the checks of GATH and SCAT up to the granules; `tags` is the check of vD's tag. -/
def State.granular (s : State) (o : COp) (tags : Bank → Bool) (k : List (Nat × Nat) → State → Out) : Out :=
  s.primaryOnly o.g fun s =>
    let b := s.core.bank
    let v := o.data.toNat
    let base := s.ea o
    let idx := b.vreg (b.phys (v + 1))
    if !(b.vregIn v) || !(b.vregIn (v + 1)) then s.raise 0x02
    else if idx.tag != 11 || !(tags b) then s.raise 0x05
    else if base % 64 ≠ 0 then s.raiseWith 0x08 0 base 0
    else
      let gs := granules base idx.bits
      match s.checkGranules gs with
      | some c => s.raiseWith c 0 base 0
      | none => k gs s

/-- R337: GATH. -/
def execGath (o : COp) (s : State) : Out :=
  s.granular o (fun _ => true) fun gs s =>
    let b := s.core.bank
    let word (l : Nat) : Nat := match gs.find? (fun g => g.1 == l) with
      | some g => s.localNat g.2 4
      | none => 0
    let sel (l : Nat) : Nat := if gs.any (fun g => g.1 == l) then 2 ^ 32 - 1 else 0
    let bits := ofLanes 32 ((List.range 64).map word)
    let k := ofLanes 32 ((List.range 64).map sel)
    .next (s.setBank ((b.claim b.tick ((gs.map fun g => g.2 / 128).eraseDups)).addPend 12
      (.v (b.phys o.data.toNat) o.fmt bits k) 4 0))

/-- R337: SCAT. Granules land in lane order. -/
def execScat (o : COp) (s : State) : Out :=
  s.granular o (fun b => (b.vreg (b.phys o.data.toNat)).tag == o.fmt) fun gs s =>
    let b := s.core.bank
    let bits := (b.vreg (b.phys o.data.toNat)).bits
    let lines := (gs.map fun g => g.2 / 128).eraseDups
    if (gs.any fun g => s.unitHeld g.2 4) || b.hazard lines (b.tick + 12) then s.raise 0x0A
    else if 512 < b.undo.length + (s.newUndo lines).length then s.raise 0x21
    else .next (gs.foldl (fun s g => s.storeAt 12 g.2 (leBytes 4 (laneAt 32 bits g.1)) none) s)

end Sys2Proof.Machine
end

