-- ==== Sys2Proof/Machine/Engine.lean ====
section
/-! DEFINITION. What the engines that act for a core share: the operation they act for, its end, its stop on a
record (05 R113, R114; 11 R217), deliveries into the window (R89), and reads and writes of global memory with the
rights captured at issue (05 R107; 06 R139-R141). -/

namespace Sys2Proof.Machine

/-- An engine operation by number. -/
def State.op? (s : State) (id : Nat) : Option EngineOp := s.ops.find? fun o => o.id == id

/-- Change an operation. -/
def State.mapOp (s : State) (id : Nat) (f : EngineOp → EngineOp) : State :=
  { s with ops := s.ops.map fun o => if o.id = id then f o else o }

/-- An operation has ended. -/
def State.dropOp (s : State) (id : Nat) : State := { s with ops := s.ops.filter fun o => o.id != id }

/-- Act on the bank that issued an operation, as the agent that issued it. -/
def State.asOp (s : State) (o : EngineOp) (f : State → State) : State :=
  s.onCoreBank o.core o.bank fun s =>
    s.asAgent (match o.drift with | some t => .drift t | none => .primary) f

/-- R37: the core whose bank ports or injection slot the next step of an operation may claim. An MCAST that has read its
line claims those of the next core that receives it. -/
def EngineOp.claims (o : EngineOp) : Option Nat :=
  match o.kind with
  | .cpy _ _ _ _ _ _ _ | .lsend _ _ _ _ | .lrecv _ _ _ _ | .lradd _ _ _ _ _ | .xroute _ _ _ _ _ => some o.core
  | .barr va _ _ _ _ _ => if inWindow va then some o.core else none
  | .mcast _ _ _ _ _ => if o.paired then (o.data[128]?).map fun c => dieOf o.core * 64 + c.toNat else none
  | _ => none

/-- R206, R266: an operation whose results are discarded once its launch has faulted. A link transfer runs to its end, which
the neighbour waits for.
Log entry 99, DEDUCED. -/
def EngineOp.discards (o : EngineOp) : Bool :=
  match o.kind with
  | .lsend _ _ _ _ | .lrecv _ _ _ _ | .lradd _ _ _ _ _ | .subs => false
  | _ => true

/-- R206, R266: the launch of an operation has faulted: what the operation has not done yet is discarded. -/
def State.opDead (s : State) (o : EngineOp) : Bool :=
  o.discards && ((s.coreAt o.core).bankAt o.bank).task.any fun t => (s.hub.launch? t.launch).any fun l => l.fault.isSome

/-- The operation is in flight and can take a further step. -/
def EngineOp.live (o : EngineOp) : Bool := !o.halted && o.saved.isNone

/-- The events of an operation: its next line, and its completion. -/
def EngineOp.lineEvent (o : EngineOp) : Turn := .event (.engineLineLand o.id)

/-- The completion of an operation. -/
def EngineOp.doneEvent (o : EngineOp) : Turn := .event (.engineOpComplete o.id)

/-- A step of an engine is due again in the next cycle of a core. -/
def State.retryOn (s : State) (core : Nat) (t : Turn) : State :=
  (s.rouse core).onCore core fun s => s.setCore { s.core with due := s.core.due ++ [t] }

/-- The operation's step is due again in the next cycle of its core. -/
def State.retryOp (s : State) (o : EngineOp) (t : Turn) : State := s.retryOn o.core t

/-- R126, R134: a write of the primary that an operation performs becomes visible: with a release what issued before
it, and what issued before an earlier FENCE.rel. -/
def State.opVisible (s : State) (o : EngineOp) (rel : Bool) : State :=
  match o.drift with
  | some _ => s
  | none => s.asOp o fun s =>
      s.setCore ((if rel then s.core.publish o.seq else s.core).afterFence o.seq)

/-- R114, R223: what an operation of the primary does to its barrier. One that issued before the bank's last CKPT does it to
the shadow state too, so that a rollback does not lose it. -/
def State.onBarrier (s : State) (o : EngineOp) (f : Bank → Bank) : State :=
  s.asOp o fun s => s.setCore { s.core with
    bank := f s.core.bank, shadow := s.core.shadow.map fun b => if o.seq < 16 * b.tick then f b else b }

/-- R114, R115, R35: an operation completes: its barrier's count falls and its result is known, or its thread is
ready. -/
def State.finishOp (s : State) (o : EngineOp) (v : Option Word) : State :=
  match o.drift with
  | some _ => (s.dropOp o.id).asOp o State.threadReady
  | none => (s.dropOp o.id).onBarrier o fun b => b.finishOn o.cb o.id v

/-- R217: the FAULTED bit of the frame's entry for an operation. -/
def State.markFrame (s : State) (op : Nat) (v : Bool) : State :=
  match s.core.bank.parked with
  | [] => s
  | q :: _ =>
    match q.bars.findIdx? (· == op) with
    | none => s
    | some i =>
      let a := 128 * s.core.bank.tfbase + 0x2200 + 16 * (q.rimeBase + i) + 1
      let x := memByte s.core.store a
      s.setCore { s.core with store := memPut s.core.store a (if v then x ||| 0x20 else x &&& 0xDF) }

/-- R114: a record for the operation's barrier; the first record of a barrier is kept. -/
def Barrier.fault (c : Barrier) (r : FaultRec) : Barrier :=
  match c.record with
  | some _ => c
  | none => { c with record := some r }

/-- R32, R114, R217, R226: an operation stops on a translation event, a protection fault or an uncorrectable read:
the record goes to its barrier, to the entry of the frame that holds its result, or to its thread. -/
def State.stopOp (s : State) (o : EngineOp) (kind : RecKind) (va line : Nat) : State :=
  let s := s.mapOp o.id fun x => { x with stop := some kind, old := va }
  match o.drift, kind with
  | some _, .translation => s.asOp o fun s => s.threadEvent va
  | some _, .protection => s.asOp o fun s => s.threadFault 0x0D va
  | some _, .uncorrectable => s.asOp o fun s => s.threadFault 0x20 va
  | none, _ =>
    if kind == .translation && ((s.coreAt o.core).bankAt o.bank).heldBars.contains o.id then
      s.asOp o fun s => s.markFrame o.id true
    else s.onBarrier o fun b =>
      b.setCb o.cb ((b.cb o.cb).fault { kind := kind, va := va, line := line, op := o.id })

/-- R105, R107: an access of an operation to global memory, with the rights of its issuer: the step goes on, or the
operation stops. -/
def State.opGlobal (s : State) (o : EngineOp) (va line : Nat) (read write : Bool) (k : Nat → State → State) : State :=
  match s.hubXlat o.part va { write := write, user := o.user, read := read } with
  | .ok pa => k pa s
  | .absent => s.stopOp o .translation va line
  | .denied => (s.logErrorFor o.part va).stopOp o .protection va line
  | .unbacked pa => (s.logErrorFor o.part pa).stopOp o .protection va line

/-- R140: global memory as the bank that issued an operation sees it. -/
def State.opView (s : State) (o : EngineOp) : Mem := ((s.coreAt o.core).bankAt o.bank).view s.mem

/-- R142: a release by an agent of a die. -/
def State.dieRelease (s : State) (die scope : Nat) : State :=
  { s with ord := s.ord ++ [.dieRelease die scope], clocks := if 3 ≤ scope then bumpClock s.clocks die else s.clocks }

/-- R137: an acquire by an agent of a die, which takes over the clock of the die it acquires from. -/
def State.dieAcquire (s : State) (src die scope : Nat) : State :=
  ({ s with ord := s.ord ++ [OrdEvent.dieAcquire die scope] }).carry src die

/-- R107: a range of flat addresses cut at the pages: address and bytes of each part. -/
def pageParts (va len : Nat) : List (Nat × Nat) :=
  (List.range ((va + len - 1) / 65536 - va / 65536 + 1)).map fun i =>
    let a := max va ((va / 65536 + i) * 65536)
    (a, min (va + len) ((va / 65536 + i + 1) * 65536) - a)

/-- The physical parts of ranges that an operation reads or writes as a whole: every part is mapped, or the
operation stops at the first that is not. -/
def State.opParts (s : State) (o : EngineOp) (line : Nat) (read write : Bool) :
    List (Nat × Nat) → (List (Nat × Nat) → State → State) → State
  | [], k => k [] s
  | p :: ps, k => s.opGlobal o p.1 line read write fun pa s =>
      s.opParts o line read write ps fun xs s => k ((pa, p.2) :: xs) s

/-- The bytes of physical parts. -/
def readParts (m : Mem) (ps : List (Nat × Nat)) : List Byte := ps.flatMap fun p => readBytes m p.1 p.2

/-- Bytes written to physical parts by the bank that acts. -/
def State.putParts (s : State) : List (Nat × Nat) → List Byte → State
  | [], _ => s
  | p :: ps, bs => (s.globalPut p.1 (bs.take p.2)).putParts ps (bs.drop p.2)

/-! ### Deliveries (02 R37, 04 R89) -/

/-- R37, R343, R353: an engine may not use the port of a line in this cycle: the primary claims it, or an engine has
used it. -/
def Core.portHeld (c : Core) (line : Nat) : Bool :=
  (c.slots.ports && c.bank.portTaken line) || c.delivered.contains (line % 16)

/-- R89: a tracked stream of the running bank still has to read a line, or has read it in this cycle. In a cycle in which
no latency counts, the reads that an earlier cycle has made are over. -/
def Core.stillRead (c : Core) (bank line : Nat) : Bool :=
  c.curBank == bank && c.bank.stillReads line (if c.slots.ports then c.bank.tick else c.bank.readTick)

/-- R37, R89, R343: a delivery into a line is held while a tracked stream of the running bank still has to read it, and
while its port is taken. -/
def State.deliveryHeld (s : State) (core bank line : Nat) : Bool :=
  (s.coreAt core).stillRead bank line || (s.coreAt core).portHeld line

/-- R37, R330: an engine may not read lines of a core's window in this cycle. -/
def State.readHeld (s : State) (core : Nat) (lines : List Nat) : Bool := lines.any (s.coreAt core).portHeld

/-- R37: an engine's access claims the bank ports of its lines in this cycle, ahead of the drift threads. -/
def State.claimPorts (s : State) (a len : Nat) : State :=
  s.setCore { s.core with delivered := s.core.delivered ++ ((linesOf a len).take 16).map (· % 16) }

/-- R37, R348, R366: the injection slot of a core is taken in this cycle, by its primary or by an engine. -/
def State.netHeld (s : State) (core : Nat) : Bool :=
  let c := s.coreAt core
  (c.serving && c.slots.net) || c.netUsed

/-- R37: an engine that acts for a core uses its injection slot in this cycle: a line of an LSEND, a row of an XROUTE.
Log entry 78, DEDUCED. -/
def State.takeNet (s : State) (core : Nat) : State :=
  s.onCore core fun s => s.setCore { s.core with netUsed := true }

/-- R222: a delivered line lands whole in the window of the bank that acts, for an operation of a place in the primary's
order; its old contents are logged in guarded mode. -/
def State.deliver (s : State) (a : Nat) (bytes : List Byte) (seq : Nat := 0) : State :=
  let s := s.logUndo (linesOf a bytes.length)
  let s := (s.setCore (s.core.putSeen a bytes seq)).claimPorts a bytes.length
  if 512 < s.core.bank.undo.length then
    s.takeFault { cause := 0x21, thread := none, cb := 0, addr := a, aux := 0 }
  else s

/-- The launch of a bank's task; 0 for a firmware task. -/
def Bank.launchId (b : Bank) : Nat :=
  match b.task with
  | some t => t.launch
  | none => 0

/-- The bank holds a task. -/
def Bank.holdsTask (b : Bank) : Bool := b.run != .empty

/-! ### Orders of lines -/

/-- Insert a number in a rising list without repeats. -/
def insertNat (x : Nat) : List Nat → List Nat
  | [] => [x]
  | y :: ys => if x < y then x :: y :: ys else if x = y then y :: ys else y :: insertNat x ys

/-- The numbers of a list, rising, without repeats. -/
def sortNats (xs : List Nat) : List Nat := xs.foldl (fun s x => insertNat x s) []

/-- R113: one destination line of a copy: its turn, its number, and the tiles that supply it; a line that no tile
supplies takes turn 0 (log entry 68, DESIGN CHOICE). -/
structure CopyLine where
  turn : Nat
  line : Nat
  tiles : List Nat
  deriving DecidableEq, Repr

/-- The largest of a list, 0 for none. -/
def maxNat (xs : List Nat) : Nat := xs.foldl max 0

/-- R110, R113: the destination lines of a copy from a tensor, by address. A line that no tile supplies, all its elements
outside the extents, takes turn 0.
Log entry 68, DESIGN CHOICE. -/
def fromTensorLines (t : Tensor) (start box : List Nat) (len : Nat) : List CopyLine :=
  let n := 128 / max 1 t.width
  (List.range (len / 128)).map fun j =>
    let ts := sortNats ((List.range n).filterMap fun i =>
      let c := boxCoord start box (j * n + i)
      if t.inside c then some (t.tileNo c) else none)
    { turn := maxNat ts, line := j, tiles := ts }

/-- R113: lines in the order in which a copy from a tensor lands them: by turn, then by address. -/
def inTurns (ls : List CopyLine) : List CopyLine :=
  (sortNats (ls.map (·.turn))).flatMap fun t => ls.filter fun l => l.turn == t

/-- R110: where an element of a box lies: its tile and the offset in it; none outside the extents. -/
def Tensor.place (t : Tensor) (c : List Nat) : Option (Nat × Nat) :=
  if t.inside c then some (t.tileNo c, t.offset c) else none

/-- R110, R113: the destination lines of a copy into a tensor: 512 lines a tile, in the order of tile and address.
Log entry 54, DEDUCED. -/
def toTensorLines (t : Tensor) (start box : List Nat) (len : Nat) : List Nat :=
  sortNats ((List.range (len / max 1 t.width)).filterMap fun e =>
    (t.place (boxCoord start box e)).map fun p => p.1 * 512 + p.2 / 128)

/-- R114: a tensor and tile as a record and the status block name them (R206). -/
def tileCode (tid tile : Nat) : Nat := tid % 4096 + tile % 2 ^ 32 * 2 ^ 32

/-- R111: a cached tile translation of a bank's tensor. -/
def Core.xlat? (c : Core) (bank tid tile : Nat) : Option TileXlat :=
  c.xlats.find? fun x => x.bank == bank && x.tid == tid && x.tile == tile

/-- R111: a tile translation is cached: the 2,048 used last. -/
def Core.touchXlat (c : Core) (x : TileXlat) : Core :=
  { c with xlats := (x :: c.xlats.filter fun y => !(y.bank == x.bank && y.tid == x.tid && y.tile == x.tile)).take 2048 }

/-- R110, R111: the entry of a tile as the memory port of a core gives it: cached, or read from the tile table.
Log entry 97, DESIGN CHOICE. -/
def State.tileWordOn (s : State) (core bank part : Nat) (user : Bool) (t : Tensor) (tid n : Nat) : TileAt :=
  match (s.coreAt core).xlat? bank tid n with
  | some x => .ok x.entry
  | none => s.tileWord part user t n

/-- R110, R111: a tile's frame through the memory port of a core. The step goes on with it, its translation now cached. -/
def State.withTile (s : State) (core bank part : Nat) (user : Bool) (t : Tensor) (tid n : Nat) (write : Bool)
    (bad : TileAt → State → State) (k : Nat → State → State) : State :=
  match s.tileWordOn core bank part user t tid n with
  | .ok e =>
    match s.tileGrant e write with
    | .ok pa => k pa (s.onCore core fun s => s.setCore (s.core.touchXlat { bank := bank, tid := tid, tile := n, entry := e }))
    | x => bad x s
  | x => bad x s

/-- R110, R111: the frames of tiles, or the operation's stop at the first that has none, in ascending order. -/
def State.opTiles (s : State) (o : EngineOp) (t : Tensor) (tid line : Nat) (write : Bool) :
    List Nat → (List (Nat × Nat) → State → State) → State
  | [], k => k [] s
  | n :: ns, k =>
    s.withTile o.core o.bank o.part o.user t tid n write
      (fun x s => match x with
        | .absent => s.stopOp o .translation (tileCode tid n) line
        | .unbacked pa => (s.logErrorFor o.part pa).stopOp o .protection (tileCode tid n) line
        | _ => (s.logErrorFor o.part (tileCode tid n)).stopOp o .protection (tileCode tid n) line)
      fun pa s => s.opTiles o t tid line write ns fun fs s => k ((n, pa) :: fs) s

/-- R113: an operation's next line is due, or its completion. -/
def State.advanceOp (s : State) (o : EngineOp) (n : Nat) : State :=
  let s := s.mapOp o.id fun x => { x with done := x.done + 1 }
  s.later [if n ≤ o.done + 1 then o.doneEvent else o.lineEvent]

end Sys2Proof.Machine
end

