-- ==== Sys2Proof/Machine/Copy.lean ====
section
/-! DEFINITION. The meanings of CPY, CPYW, MCAST and ATOM, and the steps of the engines that perform them
(05 R112-R116, R121, R122; 20 R321, R330, R331; 21 R351). -/

namespace Sys2Proof.Machine

/-- R107: the hint of an operation's access to a flat address: its own, or the page's where it carries 00. -/
def State.opHint (s : State) (o : EngineOp) (va : Nat) : Nat :=
  if o.hint ≠ 0 then o.hint else bitsAt (leafEntry s.mem (walkIndices va) (s.root o.part)) 4 2

/-- R114: an operation that passes its checks starts on its barrier, within the limits. -/
def State.startChecked (s : State) (o : COp) (kind : OpKind) (dest : Option BarDest) (acq : Option Nat)
    (turns : Nat → List Turn) : Out :=
  if s.core.bank.barrierRoom o.cb.toNat then .next (s.startOp o.cb.toNat o.hint.toNat kind dest acq turns)
  else s.raise 0x04

/-- The first event of an operation that moves lines. -/
def lineTurn (id : Nat) : List Turn := [.event (.engineLineLand id)]

/-- The event of an operation that completes in one step. -/
def doneTurn (id : Nat) : List Turn := [.event (.engineOpComplete id)]

/-! ### CPY -/

/-- R112: the fields of a copy block. -/
structure CopyBlock where
  loc : Nat
  tid : Nat
  coord : List Nat
  box : List Nat
  gaddr : Nat
  len : Nat
  zeros : Bool
  deriving DecidableEq, Repr

/-- R112: a copy block from its 64 bytes. -/
def copyBlock (bs : List Byte) : CopyBlock :=
  { loc := field bs 0 4, tid := field bs 4 2, coord := (List.range 5).map fun d => field bs (8 + 4 * d) 4,
    box := (List.range 5).map fun d => field bs (28 + 2 * d) 2, gaddr := field bs 40 8, len := field bs 48 4,
    zeros := zeroBytes bs 6 2 && zeroBytes bs 38 2 && zeroBytes bs 52 12 }

/-- R112: the box of a tensor copy keeps its rules. -/
def CopyBlock.boxOk (c : CopyBlock) (t : Tensor) : Bool :=
  c.box.all (fun b => decide (1 ≤ b)) && (c.box.drop t.rank).all (fun b => b == 1)

/-- The elements of a box. -/
def boxSize (box : List Nat) : Nat := box.foldl (· * ·) 1

/-- R111, R112: the box reaches past an extent. -/
def CopyBlock.past (c : CopyBlock) (t : Tensor) : Bool :=
  (List.range 5).any fun d => decide (t.ext.getD d 0 < c.coord.getD d 0 + c.box.getD d 0)

/-- R112, R330: CPY. The block and the whole local range are checked against R99 before the block's other fields; a
tensor's number comes first, since the range's length rests on its descriptor.
Log entry 16, DEDUCED. -/
def execCpy (o : COp) (s : State) : Out :=
  s.primaryOnly o.g fun s =>
    let a := s.ea o
    let kind := o.data.toNat
    s.captured a 64 64 fun bs s =>
      let c := copyBlock bs
      if kind < 2 then
        match (if c.tid < 4096 then sget s.core.bank.tensors c.tid else none) with
        | none => s.raise 0x01
        | some t =>
          let len := boxSize c.box * t.width
          match s.checkLocal c.loc len 128 with
          | some e => s.raiseWith e 0 c.loc 0
          | none =>
            if !c.zeros || !(c.boxOk t) || len % 128 ≠ 0 then s.raise 0x01
            else if t.edge = 1 && c.past t then s.raiseWith 0x0D 0 c.tid 0
            else s.startChecked o (.cpy kind c.loc (some t) c.coord c.box c.tid len) none none lineTurn
      else
        match s.checkLocal c.loc c.len 128 with
        | some e => s.raiseWith e 0 c.loc 0
        | none =>
          if !c.zeros || c.gaddr % 128 ≠ 0 || c.len % 128 ≠ 0 || decide (c.len < 128) || decide (7 * 2 ^ 20 < c.len) then s.raise 0x01
          else
            match s.checkGlobal c.gaddr c.len 1 with
            | some e => s.raiseWith e 0 c.gaddr 0
            | none => s.startChecked o (.cpy kind c.loc none c.coord c.box c.gaddr c.len) none none lineTurn

/-- R110: the bytes of one element of a tensor in frames. -/
def elementBytes (m : Mem) (t : Tensor) (fs : List (Nat × Nat)) (c : List Nat) : List Byte :=
  match t.place c with
  | none => leBytes t.width 0
  | some p =>
    match fs.find? (fun f => f.1 == p.1) with
    | some f => readBytes m (f.2 + p.2) t.width
    | none => leBytes t.width 0

/-- R104, R106: the lines of tile frames that an operation touches pass the L2 of its die. -/
def State.touchTiles (s : State) (o : EngineOp) (fs : List (Nat × Nat)) (ps : List (Nat × Nat)) (dirty : BitVec 2) :
    State :=
  (sortNats (ps.filterMap fun p => (fs.find? fun f => f.1 == p.1).map fun f => (f.2 + p.2) / 128)).foldl
    (fun s l => s.touchL2 (dieOf o.core) (128 * l) o.hint dirty) s

/-- R113: the next line of a copy from a tensor. -/
def State.cpyFromTensor (s : State) (o : EngineOp) (t : Tensor) (coord box : List Nat) (loc tid len : Nat) : State :=
  match (inTurns (fromTensorLines t coord box len)).drop o.done with
  | [] => s.later [o.doneEvent]
  | l :: rest =>
    let a := loc + 128 * l.line
    if s.deliveryHeld o.core o.bank (a / 128) then s.retryOp o o.lineEvent
    else
      let need := sortNats (((l :: rest).flatMap (·.tiles)).filter fun n => decide (n ≤ l.turn))
      s.opTiles o t tid a false need fun fs s =>
        let n := 128 / max 1 t.width
        let s := s.touchTiles o fs (((List.range n).filterMap fun i => t.place (boxCoord coord box (l.line * n + i)))) 0
        (s.asOp o fun s =>
          let m := s.view
          s.deliver a ((List.range n).flatMap fun i => elementBytes m t fs (boxCoord coord box (l.line * n + i))) o.seq).advanceOp
          o (len / 128)

/-- R113: the next line of a copy into a tensor. -/
def State.cpyToTensor (s : State) (o : EngineOp) (t : Tensor) (coord box : List Nat) (loc tid len : Nat) : State :=
  let ls := toTensorLines t coord box len
  match ls.drop o.done with
  | [] => s.later [o.doneEvent]
  | l :: _ =>
    let w := max 1 t.width
    let es := (List.range (len / w)).filterMap fun e =>
      match t.place (boxCoord coord box e) with
      | some p => if p.1 * 512 + p.2 / 128 = l then some (e, p.2) else none
      | none => none
    let from_ := sortNats (es.map fun e => (loc + e.1 * w) / 128)
    if s.readHeld o.core from_ then s.retryOp o o.lineEvent
    else
      s.opTiles o t tid (128 * l) true [l / 512] fun fs s =>
        let frame := (fs.headD (0, 0)).2
        (((s.touchTiles o fs [(l / 512, l % 512 * 128)] 3).opVisible o false).asOp o fun s =>
          let m := s.core.seenBefore o.seq
          let s := from_.foldl (fun s x => s.claimPorts (128 * x) 128) s
          es.foldl (fun s e => s.globalPut (frame + e.2) (readBytes m (loc + e.1 * w) w)) s).advanceOp o ls.length

/-- R113, R115, R330: the next line of a CPY. -/
def State.cpyLine (s : State) (o : EngineOp) (kind loc : Nat) (t : Option Tensor) (coord box : List Nat)
    (gaddr len : Nat) : State :=
  match t with
  | some t => if kind = 0 then s.cpyFromTensor o t coord box loc gaddr len else s.cpyToTensor o t coord box loc gaddr len
  | none =>
    let l := loc + 128 * o.done
    let g := gaddr + 128 * o.done
    if kind = 2 then
      if s.deliveryHeld o.core o.bank (l / 128) then s.retryOp o o.lineEvent
      else s.opGlobal o g l true false fun pa s =>
        ((s.touchL2 (dieOf o.core) pa (s.opHint o g)).asOp o fun s => s.deliver l (readBytes s.view pa 128) o.seq).advanceOp o
          (len / 128)
    else if s.readHeld o.core [l / 128] then s.retryOp o o.lineEvent
    else s.opGlobal o g g false true fun pa s =>
      (((s.touchL2 (dieOf o.core) pa (s.opHint o g) 3).opVisible o false).asOp o fun s =>
        (s.claimPorts l 128).globalPut pa (readBytes (s.core.seenBefore o.seq) l 128)).advanceOp o (len / 128)

/-! ### CPYW -/

/-- R115, R331: CPYW. A second CPYW of a bundle waits after the first. -/
def execCpyw (o : COp) (s : State) : Out :=
  s.primaryOnly o.g fun s =>
    let b := s.core.bank
    match b.run with
    | .cpyw _ | .event _ _ =>
      .next (s.setBank { b with waitPc := b.waitPc.map fun w => { w with cbs := w.cbs ++ [o.cb.toNat] } })
    | .active => .next (s.cpywTry o.cb.toNat [])
    | _ => .next s

/-! ### MCAST -/

/-- R116, R267, R351, R352: MCAST. -/
def execMcast (o : COp) (s : State) : Out :=
  s.primaryOnly o.g fun s =>
    let src := (s.rs o.sa).toNat
    let dst := (s.rs (dataReg o)).toNat
    let n := o.imm.toNat
    match (s.checkGlobal src (128 * n) 128).map (fun e => (e, src)) <|>
        (checkSteps13 (!s.sup?) dst (128 * n) 128).map (fun e => (e, dst)) with
    | some e => s.raiseWith e.1 0 e.2 0
    | none =>
      if inHubWindow (dst + 128 * n - 1) then s.raiseWith 0x08 0 dst 0
      else if windowBytes < dst + 128 * n then s.raiseWith 0x06 0 dst 0
      else s.startChecked o (.mcast src dst (s.rs o.sb).toNat n s.core.bank.launchId) none none lineTurn

/-- R351: the bank of a core that receives an MCAST. -/
def Core.receiver (c : Core) (launch first n : Nat) : Option Nat :=
  let ok (k : Nat) : Bool := (c.bankAt k).holdsTask && (c.bankAt k).launchId == launch
  let pick := if ok 0 then some 0 else if ok 1 then some 1 else none
  match pick with
  | some k => if lineMask first n &&& ~~~((c.bankAt k).pins) == 0 then some k else none
  | none => none

/-- R116, R351: an MCAST reads its next source line once; the cores of its mask that can receive it follow the line's
bytes in the operation's data. A core that cannot gets nothing and faults the barrier. -/
def State.mcastRead (s : State) (o : EngineOp) (src dst mask n launch : Nat) : State :=
  let cores := (List.range 64).filter fun i => mask.testBit i
  let ok := cores.filter fun i => ((s.coreAt (dieOf o.core * 64 + i)).receiver launch (dst / 128) n).isSome
  let a := dst + 128 * o.done
  let g := src + 128 * o.done
  s.opGlobal o g a true false fun pa s =>
    let s := s.touchL2 (dieOf o.core) pa (s.opHint o g)
    let bytes := readBytes (s.opView o) pa 128
    let s := if ok.length = cores.length then s
      else s.onBarrier o fun b => b.setCb o.cb ((b.cb o.cb).fault { kind := .protection, va := g, line := a, op := o.id })
    if ok.isEmpty then s.advanceOp o n
    else (s.mapOp o.id fun x => { x with paired := true, data := bytes ++ ok.map (BitVec.ofNat 8 ·) }).later [o.lineEvent]

/-- R140, R351, R352: the line is delivered to core c, the next of those that receive it, once nothing holds it there; from a
guarded bank a line for another window waits in its hold buffer. A core that can no longer receive it gets nothing and faults
the barrier. -/
def State.mcastTo (s : State) (o : EngineOp) (c : Nat) (rest : List Byte) (src dst n launch : Nat) : State :=
  let a := dst + 128 * o.done
  let bytes := o.data.take 128
  let next (s : State) : State :=
    let s := s.mapOp o.id fun x => { x with paired := !rest.isEmpty, data := if rest.isEmpty then [] else bytes ++ rest }
    if rest.isEmpty then s.advanceOp o n else s.later [o.lineEvent]
  match (s.coreAt c).receiver launch (dst / 128) n with
  | none => next (s.onBarrier o fun b => b.setCb o.cb
      ((b.cb o.cb).fault { kind := .protection, va := src + 128 * o.done, line := a, op := o.id }))
  | some k =>
    let home := c = o.core && k == o.bank
    if !home && o.cb < 8 && ((s.coreAt o.core).bankAt o.bank).status.guard then
      next (s.asOp o fun s => s.globalOut a (.window c a launch bytes))
    else if s.deliveryHeld c k (a / 128) then s.retryOn c o.lineEvent
    else next (s.onCoreBank c k fun s => s.deliver a bytes (if home then o.seq else 0))

/-- R116, R351, R352: the next step of an MCAST: a source line is read, or delivered to one core. -/
def State.mcastLine (s : State) (o : EngineOp) (src dst mask n launch : Nat) : State :=
  match o.paired, o.data.drop 128 with
  | true, c :: rest => s.mcastTo o (dieOf o.core * 64 + c.toNat) rest src dst n launch
  | _, _ => s.mcastRead o src dst mask n launch

/-! ### ATOM -/

/-- R121, R122, R321: an ATOM of the primary on a pinned line of the window. -/
def State.atomLocal (s : State) (o : COp) (a : Nat) : Out :=
  let op := o.fmt.toNat
  let n := atomBytes op
  let d := dataReg o
  match s.checkLocal a n n with
  | some c => s.raiseWith c 0 a 0
  | none =>
    if s.unitHeld a n then s.raiseWith 0x0A 0 a 0
    else if 512 < s.core.bank.undo.length + (s.newUndo (linesOf a n)).length then s.raise 0x21
    else if !(s.core.bank.barrierRoom o.cb.toNat) then s.raise 0x04
    else
      let id := s.nextOp
      let s := ({ s with nextOp := id + 1 }).logUndo (linesOf a n)
      let b := s.core.bank
      let land := b.afterReads (a / 128) (b.tick + 3)
      let b := (b.startOn o.cb.toNat id (some (.reg d.toNat)) none).claim land (linesOf a n)
      .next (s.setBank (b.addPend (land - b.tick) (.atom a op (s.rs o.sb) (s.rs d) o.cb.toNat id) 4 0))

/-- R121, R122, R321: ATOM. -/
def execAtom (o : COp) (s : State) : Out :=
  s.guarded o.g fun s =>
    let op := o.fmt.toNat
    let n := atomBytes op
    let d := dataReg o
    let a := s.ea o
    let x := s.rs o.sb
    let cmp := s.rs d
    if !(s.dregsOk [d, o.sa, o.sb]) then s.raise 0x01
    else if !(s.destOk d) then s.raise 0x0C
    else
      match s.agent with
      | .primary =>
        if inWindow a then s.atomLocal o a
        else
          match s.checkGlobal a n n with
          | some c => s.raiseWith c 0 a 0
          | none => s.startChecked o (.atom a op x cmp d.toNat) (some (.reg d.toNat)) none doneTurn
      | .drift _ =>
        if o.cb ≠ 0 then s.raise 0x01
        else s.driftAccess a n true true (fun s => (s, .atom a op x cmp d.toNat))
          (.gatom a op x cmp d.toNat o.hint.toNat) none

/-- R121, R122: a global ATOM is performed: one read and one write, in the order of this memory. -/
def State.atomDone (s : State) (o : EngineOp) (va op : Nat) (x cmp : Word) : State :=
  s.opGlobal o va va true true fun pa s =>
    let n := atomBytes op
    let s := ((s.onCore o.core fun s => s.touchWays pa (s.opHint o va)).opVisible o false)
    let old : Word := BitVec.ofNat 64 (readNat (s.opView o) pa n)
    (s.asOp o fun s => s.globalOut pa (.atom pa op x cmp)).finishOp o (some old)

end Sys2Proof.Machine
end

