-- ==== Sys2Proof/Machine/Order.lean ====
section
/-! DEFINITION. The meanings of FLAGW, FLAGR, FENCE, BARR, MSEND, PREF, WBL and INVL, and the completion of their
operations (06 R132-R136, R140, R141; 08 R152; 20 R322, R335, R336, R341; 21 R366, R371). -/

namespace Sys2Proof.Machine

/-- R133: the scope of a FLAGW.rel or FLAGR.acq. -/
def flagScope (o : COp) : Option Nat := if o.fmt = 1 then some o.scope.toNat else none

/-- R133: the cb field must be 0 for a local flag of the primary and in drift code. -/
def State.flagCbOk (s : State) (o : COp) : Bool := o.cb == 0 || !(s.isDrift || inWindow (s.ea o))

/-! ### Flags -/

/-- R133, R336: FLAGW. -/
def execFlagw (o : COp) (s : State) : Out :=
  s.guarded o.g fun s =>
    let d := dataReg o
    let a := s.ea o
    let v := s.rs d
    let bytes := leBytes 8 v.toNat
    let rel := flagScope o
    if !(s.dregsOk [d, o.sa]) || !(s.flagCbOk o) then s.raise 0x01
    else
      match s.agent with
      | .primary =>
        if inWindow a then
          match (s.checkLocal a 8 8).or (s.storeCheck a 8 (s.core.bank.tick + 3)) with
          | some c => s.raiseWith c 0 a 0
          | none => .next (s.storeAt 3 a bytes rel)
        else
          match s.checkGlobal a 8 8 with
          | some c => s.raiseWith c 0 a 0
          | none => s.startChecked o (.flagw a v rel) none none doneTurn
      | .drift _ =>
        s.driftAccess a 8 false true (fun s => (s, .store a bytes rel)) (.gstore a bytes o.hint.toNat rel) none

/-- R133, R336: FLAGR. -/
def execFlagr (o : COp) (s : State) : Out :=
  s.guarded o.g fun s =>
    let d := dataReg o
    let a := s.ea o
    let acq := flagScope o
    let got (s : State) : State := match acq with
      | some sc => s.acquire sc
      | none => s
    if !(s.dregsOk [d, o.sa]) || !(s.flagCbOk o) then s.raise 0x01
    else if !(s.destOk d) then s.raise 0x0C
    else
      match s.agent with
      | .primary =>
        if inWindow a then
          match s.checkLocal a 8 8 with
          | some c => s.raiseWith c 0 a 0
          | none => .next (got ((s.claimNow a 8).result 6 (.sPlain d.toNat (BitVec.ofNat 64 (s.localNat a 8)))))
        else
          match s.checkGlobal a 8 8 with
          | some c => s.raiseWith c 0 a 0
          | none => s.startChecked o (.flagr a d.toNat acq) (some (.reg d.toNat)) acq doneTurn
      | .drift _ =>
        s.driftAccess a 8 true false (fun s => (got s, .d d.toNat (BitVec.ofNat 64 (s.driftNat a 8))))
          (.gload a 8 false d.toNat o.hint.toNat acq) none

/-- R104, R133, R141: a global FLAGW performs its release and its write, or places them in the hold buffer. -/
def State.flagwDone (s : State) (o : EngineOp) (va : Nat) (v : Word) (rel : Option Nat) : State :=
  s.opGlobal o va va false true fun pa s =>
    (((s.touchL2 (dieOf o.core) pa (s.opHint o va) 3).opVisible o rel.isSome).asOp o fun s =>
      let s := match rel with
        | some sc => s.release sc
        | none => s
      s.globalPut pa (leBytes 8 v.toNat)).finishOp o none

/-- R104, R133: a global FLAGR reads its word. -/
def State.flagrDone (s : State) (o : EngineOp) (va : Nat) : State :=
  s.opGlobal o va va true false fun pa s =>
    (s.touchL2 (dieOf o.core) pa (s.opHint o va)).finishOp o (some (BitVec.ofNat 64 (readNat (s.opView o) pa 8)))

/-! ### FENCE and BARR -/

/-- R134: what the primary has issued before a FENCE.rel is visible before anything it writes after it. -/
def State.fenced (s : State) : State :=
  match s.agent with
  | .primary => s.setBank { s.core.bank with fence := s.core.bank.seq }
  | .drift _ => s

/-- R134, R335: FENCE. -/
def execFence (o : COp) (s : State) : Out :=
  s.guarded o.g fun s =>
    let sc := o.scope.toNat
    let s := if o.fmt = 1 ∨ o.fmt = 3 then (s.release sc).fenced else s
    let s := if o.fmt = 2 ∨ o.fmt = 3 then s.acquire sc else s
    .next s.skip

/-- R140: the retention hint of an access of the bank that acts, and where its word lies; none while its page is not
present. -/
def State.heldAdd (s : State) (a hint : Nat) : HeldWrite :=
  .barr s.nextOp (s.hintOf a hint) (match s.translate s.part a { write := true, user := !s.sup?, read := true } with
    | .ok pa => some pa
    | _ => none)

/-- R141: the wait of an operation on barrier n whose write is held is no outstanding one until a CKPT arms it. -/
def Bank.pendWait (b : Bank) (n : Nat) : Bank :=
  b.setCb n { b.cb n with count := (b.cb n).count - 1, waits := (b.cb n).waits + 1 }

/-- R135, R140, R141, R322: BARR. In guarded mode its release and its add wait in the hold buffer, but for the add to a word
of the bank's own window. -/
def execBarr (o : COp) (s : State) : Out :=
  s.primaryOnly o.g fun s =>
    let d := dataReg o
    let a := s.ea o
    let sc := o.scope.toNat
    let held := s.core.bank.status.guard && !(inWindow a)
    let w := s.heldAdd a o.hint.toNat
    if !(s.destOk d) then s.raise 0x0C
    else
      match (if inWindow a then (s.checkLocal a 8 8).or (if s.unitHeld a 8 then some 0x0A else none)
             else s.checkGlobal a 8 8) with
      | some c => s.raiseWith c 0 a 0
      | none =>
        if held && decide (256 < (s.core.bank.holding w).heldLines.length) then s.raise 0x21
        else if !(s.core.bank.barrierRoom o.cb.toNat) then s.raise 0x04
        else
          let n := o.cb.toNat
          let s := (s.release sc).startOp n o.hint.toNat (.barr a (s.rs o.sb) d.toNat sc none held)
            (some (.reg d.toNat)) (some sc) (if held then fun _ => [] else doneTurn)
          .next (if held then s.setBank ((s.core.bank.holding w).pendWait n) else s)

/-- R135: the word of a BARR as its issuer reaches it: read, and add one when `add`, which makes what the release covers
visible. -/
def State.barrWord (s : State) (o : EngineOp) (va : Nat) (add : Bool) (k : Word → State → State) : State :=
  if inWindow va then
    if s.deliveryHeld o.core o.bank (va / 128) then s.retryOp o o.doneEvent
    else
      let old : Word := BitVec.ofNat 64 (readNat ((s.coreAt o.core).bankSeen o.bank o.seq) va 8)
      k old (if add then (s.opVisible o true).asOp o fun s => s.deliver va (leBytes 8 (old + 1).toNat) o.seq else s)
  else s.opGlobal o va va true add fun pa s =>
    let old : Word := BitVec.ofNat 64 (readNat (s.opView o) pa 8)
    k old (if add then ((s.opVisible o true).onCore o.core fun s => s.touchWays pa (s.opHint o va)).asOp o fun s =>
        s.sendWrite (.atom pa 0 1 0)
      else s)

/-- R135, R141: a BARR adds one to its word once, then waits until the word reaches its count. -/
def State.barrDone (s : State) (o : EngineOp) (va : Nat) (cnt : Word) (reg sc : Nat) (old : Option Word)
    (held : Bool) : State :=
  if held then s
  else
    match old with
    | none => s.barrWord o va true fun v s =>
        (s.mapOp o.id fun x => { x with kind := .barr va cnt reg sc (some v) false }).later [o.doneEvent]
    | some v => s.barrWord o va false fun w s =>
        if w.ult cnt then s.retryOp o o.doneEvent else s.finishOp o (some v)

/-! ### MSEND -/

/-- R152: the block and the scope of an MSEND keep their rules. -/
def msendOk (o : COp) (bs : List Byte) : Bool :=
  messageOk bs && decide (field bs 22 1 ≤ 25) && (decide (field bs 6 1 < 2) || o.scope == 4)

/-- R248, R366: the hub or the port accepts an MSEND; a port that is down gives it a protection fault. -/
def State.msendDone (s : State) (o : EngineOp) (m : Message) : State :=
  if s.messageDown m then s.stopOp o .protection 0 0 else (s.sendMessage m).finishOp o none

/-- R152, R366: MSEND.
Log entry 55, DEDUCED. -/
def execMsend (o : COp) (s : State) : Out :=
  s.guarded o.g fun s =>
    let a := s.ea o
    if !(s.dregsOk [o.sa]) || (s.isDrift && o.cb != 0) then s.raise 0x01
    else
      s.captured a 64 64 fun bs s =>
        if !(msendOk o bs) then s.raise 0x01
        else
          let m := messageOf bs
          match s.agent with
          | .primary =>
            if s.core.bank.barrierRoom o.cb.toNat then
              .next ((s.releaseHere o.scope.toNat).startOp o.cb.toNat 0 (.msend m) none none doneTurn)
            else s.raise 0x04
          | .drift _ => .next ((s.releaseHere o.scope.toNat).driftWait (.msg m))

/-! ### The caches -/

/-- R371: PREF. -/
def execPref (o : COp) (s : State) : Out :=
  s.guarded o.g fun s =>
    let a := s.ea o
    if !(s.dregsOk [o.sa]) then s.raise 0x01
    else
      match s.checkGlobal a 1 1 with
      | some c => s.raiseWith c 0 a 0
      | none =>
        let s := match s.translate s.part a { write := false, user := !s.sup?, read := true } with
          | .ok pa =>
            (match s.agent with
            | .primary =>
              if s.l2.any fun e => e.1 == dieOf s.cur && e.2.line == pa / 128 then s
              else s.touchL2 (dieOf s.cur) pa (s.hintOf a o.hint.toNat)
            | .drift _ => if s.core.driftHit pa then s else s.touchDrift pa (s.hintOf a o.hint.toNat) false)
          | _ => s
        .next s.skip

/-- R341: WBL and INVL. -/
def State.cacheOp (s : State) (o : COp) (inval : Bool) : Out :=
  s.primaryOnly o.g fun s =>
    let a := s.ea o
    let n := (s.rs o.sb).toNat
    if 65536 < n then s.raise 0x01
    else
      match checkSteps13 (!s.sup?) a (128 * n) 128 with
      | some c => s.raiseWith c 0 a 0
      | none =>
        if n = 0 then .next s
        else if a < 2 ^ 32 then s.raiseWith 0x06 0 a 0
        else if inHubWindow (a + 128 * n - 1) then s.raiseWith 0x08 0 a 0
        else s.startChecked o (.cache (a / 128) n inval) none none doneTurn

/-- R341: WBL. -/
def execWbl (o : COp) (s : State) : Out := s.cacheOp o false
/-- R341: INVL. -/
def execInvl (o : COp) (s : State) : Out := s.cacheOp o true

/-- R341: the lines of a range written back, and dropped by INVL. -/
def flushLines (c : List CacheLine) (lines : List Nat) (inval : Bool) : List CacheLine :=
  if inval then c.filter fun l => !(lines.contains l.line)
  else c.map fun l => if lines.contains l.line then { l with dirty := 0 } else l

/-- R341: WBL and INVL act on the drift cache and the unpinned ways; lines whose page is not present or not
permitted are skipped. -/
def State.cacheDone (s : State) (o : EngineOp) (first n : Nat) (inval : Bool) : State :=
  let lines := (List.range n).filterMap fun i =>
    match s.hubXlat o.part (128 * (first + i)) { write := false, user := o.user, read := true } with
    | .ok pa => some (pa / 128)
    | _ => none
  (s.onCore o.core fun s => s.setCore { s.core with dcache := flushLines s.core.dcache lines inval,
                                                    ways := flushLines s.core.ways lines inval }).finishOp o none

end Sys2Proof.Machine
end

