-- ==== Sys2Proof/Machine/Units.lean ====
section
/-! DEFINITION. The meanings of BDRED, BDTOPK, XROUTE and GPOST, and the steps of the base-die engines, the expert
routing and the guest socket that perform them (10 R192-R194, R196-R198; 14 R254-R260; 20 R323, R324, R339; 22
R402). -/

namespace Sys2Proof.Machine

/-- A flat global address (R98). -/
def isFlat (a : Nat) : Bool := decide (2 ^ 32 ≤ a)

/-- Two ranges of bytes overlap. -/
def overlap (a b len : Nat) : Bool := decide (a < b + len) && decide (b < a + len)

/-- R99: the first cause that the checks of flat ranges raise, with its address. -/
def State.checkRanges (s : State) : List (Nat × Nat) → Option (Nat × Nat)
  | [] => none
  | r :: rs =>
    match s.checkGlobal r.1 r.2 1 with
    | some c => some (c, r.1)
    | none => s.checkRanges rs

/-- An instruction that captures a block: the block, its rules, the ranges it names, and the operation it starts. -/
def State.blockOp (s : State) (o : COp) (len al : Nat) (ok : List Byte → Bool)
    (ranges : List Byte → List (Nat × Nat)) (k : List Byte → State → Out) : Out :=
  s.primaryOnly o.g fun s =>
    let a := s.ea o
    s.captured a len al fun bs s =>
      if !(ok bs) then s.raise 0x01
      else
        match s.checkRanges (ranges bs) with
        | some e => s.raiseWith e.1 0 e.2 0
        | none => k bs s

/-- R142, R254: the engine of a base die writes for the bank that acts, with that die's clock. -/
def State.enginePut (s : State) (die pa : Nat) (bytes : List Byte) : State :=
  if s.core.bank.status.guard then s.globalPut pa bytes else s.putFrom die pa bytes

/-- Bytes written to physical parts by a base die's engine. -/
def State.engineParts (s : State) (die : Nat) : List (Nat × Nat) → List Byte → State
  | [], _ => s
  | p :: ps, bs => (s.enginePut die p.1 (bs.take p.2)).engineParts die ps (bs.drop p.2)

/-- R104, R106, R136: the physical parts that an operation's engine on a base die reads and writes pass the memory-side
caches with the operation's hint; its first reads are the acquire of the issuer's release. -/
def State.engineTurn (s : State) (o : EngineOp) (va die scope : Nat) (reads writes : List (Nat × Nat)) : State :=
  let hint := s.opHint o va
  let s := reads.foldl (fun s p => s.touchHome p.1 p.2 hint false) s
  let s := writes.foldl (fun s p => s.touchHome p.1 p.2 hint true) s
  if o.done = 0 then s.dieAcquire (dieOf o.core) die scope else s

/-! ### BDRED -/

/-- R255: the sources of a block. -/
def bdredSrcs (bs : List Byte) : List Nat := (List.range (field bs 12 1)).map fun q => field bs (32 + 8 * q) 8

/-- R255: a BDRED block keeps its rules. -/
def bdredOk (bs : List Byte) : Bool :=
  let dst := field bs 0 8
  let len := field bs 8 4
  let n := field bs 12 1
  dst % 128 == 0 && isFlat dst && len % 128 == 0 && decide (128 ≤ len) && decide (len ≤ 2 ^ 26) &&
  decide (2 ≤ n) && decide (n ≤ 16) && (field bs 13 1 == 1 || field bs 13 1 == 2) && decide (field bs 14 1 ≤ 1) &&
  field bs 15 1 % 128 == 0 && field bs 16 8 % 8 == 0 && isFlat (field bs 16 8) &&
  (bdredSrcs bs).all (fun a => a % 128 == 0 && isFlat a && (a == dst || !(overlap a dst len))) &&
  (List.range 16).all (fun q => decide (q < n) || field bs (32 + 8 * q) 8 == 0) && zeroBytes bs 160 96

/-- R136: the scope of a block's release. -/
def blockScope (v : Nat) : Nat := if v = 1 then 4 else 3

/-- R254, R255, R323: BDRED. -/
def execBdred (o : COp) (s : State) : Out :=
  s.blockOp o 256 128 bdredOk
    (fun bs => (field bs 0 8, field bs 8 4) :: (field bs 16 8, 8) :: (bdredSrcs bs).map fun a => (a, field bs 8 4))
    fun bs s =>
      let sc := blockScope (field bs 14 1)
      if s.core.bank.barrierRoom o.cb.toNat then
        (s.releaseHere sc).startChecked o (.bdred (field bs 0 8) (field bs 8 4) (field bs 13 1) (field bs 16 8)
          (field bs 24 8) sc (bdredSrcs bs)) none none lineTurn
      else s.raise 0x04

/-- R256: an element of a source line as an FP32 code. -/
def bdredElem (fmt : Nat) (bs : List Byte) (e : Nat) : Nat :=
  if fmt = 1 then byteElem bs 4 e else (convertElem 2 (byteElem bs 2 e) 1 .rne).1

/-- R256: the fixed tree over the sources. -/
def bdredSum (xs : List Nat) : Nat := treeReduce addRne 0 5 xs

/-- R256: the destination line of source lines. -/
def bdredLine (fmt : Nat) (srcs : List (List Byte)) : List Byte :=
  if fmt = 1 then (List.range 32).flatMap fun e => leBytes 4 (bdredSum (srcs.map fun b => bdredElem fmt b e))
  else (List.range 64).flatMap fun e =>
    leBytes 2 (encodeF .bf16 .rne false (decodeF .f32 (bdredSum (srcs.map fun b => bdredElem fmt b e))))

/-- R256, R257: the next line of a BDRED. -/
def State.bdredStep (s : State) (o : EngineOp) (dst len fmt sc : Nat) (srcs : List Nat) : State :=
  let off := 128 * o.done
  s.opParts o (dst + off) true false (srcs.map fun a => (a + off, 128)) fun ps s =>
    s.opGlobal o (dst + off) (dst + off) false true fun pa s =>
      ((s.engineTurn o (dst + off) (homeOf pa) sc ps [(pa, 128)]).asOp o fun s =>
        let m := s.view
        s.enginePut (homeOf pa) pa (bdredLine fmt (ps.map fun p => readBytes m p.1 128))).advanceOp o (len / 128)

/-- R256: the flag write of a BDRED, a release by its engine. -/
def State.bdredDone (s : State) (o : EngineOp) (dst flag fval sc : Nat) : State :=
  s.opGlobal o flag flag false true fun pa s =>
    let die := match s.hubXlat o.part dst { write := false, user := o.user, read := false } with
      | .ok p => homeOf p
      | _ => 16
    (s.asOp o fun s =>
      if s.core.bank.status.guard then (s.release sc).globalPut pa (leBytes 8 fval)
      else (s.dieRelease die sc).putFrom die pa (leBytes 8 fval)).finishOp o none

/-! ### BDTOPK -/

/-- R192: a BDTOPK block keeps its rules. -/
def bdtopkOk (bs : List Byte) : Bool :=
  let rows := field bs 16 4
  let n := field bs 20 4
  let w := if field bs 29 1 = 1 then 4 else 2
  isFlat (field bs 0 8) && field bs 0 8 % 64 == 0 && isFlat (field bs 8 8) && field bs 8 8 % 8 == 0 &&
  decide (1 ≤ rows) && decide (rows ≤ 65536) && decide (1 ≤ n) && decide (n ≤ 65536) && field bs 24 4 % 64 == 0 &&
  decide (n * w ≤ field bs 24 4) && decide (1 ≤ field bs 28 1) && decide (field bs 28 1 ≤ 16) &&
  decide (field bs 28 1 ≤ n) && (field bs 29 1 == 1 || field bs 29 1 == 2) && zeroBytes bs 30 2 &&
  decide (field bs 32 4 + n - 1 < 2 ^ 31) && zeroBytes bs 36 28

/-- R192, R324: BDTOPK. -/
def execBdtopk (o : COp) (s : State) : Out :=
  s.blockOp o 64 64 bdtopkOk
    (fun bs => [(field bs 0 8, (field bs 16 4 - 1) * field bs 24 4 + field bs 20 4 * if field bs 29 1 = 1 then 4 else 2),
                (field bs 8 8, 8 * field bs 28 1 * field bs 16 4)])
    fun bs s =>
      if s.core.bank.barrierRoom o.cb.toNat then
        (s.releaseHere 3).startChecked o (.bdtopk (field bs 0 8) (field bs 8 8) (field bs 16 4) (field bs 20 4)
          (field bs 24 4) (field bs 28 1) (field bs 29 1) (field bs 32 4)) none none lineTurn
      else s.raise 0x04

/-- R193: the first k entries of a row in the order of R184. -/
def topEntries (k : Nat) (es : List (Nat × Nat)) : List (Nat × Nat) :=
  es.foldl (fun l x => (insertRank 1 x l).take k) []

/-- R193: log2 e in FP32. -/
def log2e : Nat := 0x3FB8AA3B

/-- R193: an exact quotient rounded once. -/
def quotient (a b : Nat) : Nat := fdiv .f32 (decodeF .f32 a) (decodeF .f32 b)

/-- R193: the weight of one part in n. -/
def oneOver (n : Nat) : Nat := fdiv .f32 (.fin false 1 0) (.fin false n 0)

/-- R193: the weights of the logits that are not NaN, in rank order. -/
def topWeights (ls : List Nat) : List Nat :=
  match ls with
  | [] => []
  | l0 :: _ =>
    match decodeF .f32 l0 with
    | .inf false =>
      let m := (ls.filter fun l => decodeF .f32 l == .inf false).length
      ls.map fun l => if decodeF .f32 l == .inf false then oneOver m else 0
    | .inf true => ls.map fun _ => oneOver ls.length
    | _ =>
      let es := ls.map fun l => vexp2F (laneMul 1 .rne (laneSub 1 .rne l l0) log2e)
      let sum := (es.drop 1).foldl addRne (es.headD 0)
      es.map fun e => quotient e sum

/-- R193: the output row of a row of logits. -/
def topRow (k ibase : Nat) (logits : List Nat) : List Byte :=
  let es := topEntries k (logits.mapIdx fun i l => (l, ibase + i))
  let isNan (l : Nat) : Bool := decodeF .f32 l == .nan
  let ws := topWeights ((es.filter fun e => !(isNan e.1)).map (·.1))
  (es.mapIdx fun r e => (r, e)).flatMap fun x =>
    leBytes 8 (x.2.2 % 2 ^ 31 + (if isNan x.2.1 then 2 ^ 31 else 0) + ws.getD x.1 0 * 2 ^ 32)

/-- R193, R194: the next row of a BDTOPK. -/
def State.bdtopkStep (s : State) (o : EngineOp) (src dst rows n stride k fmt ibase : Nat) : State :=
  let t := o.done
  let w := if fmt = 1 then 4 else 2
  let d := dst + 8 * k * t
  s.opParts o d true false (pageParts (src + t * stride) (n * w)) fun ps s =>
    s.opParts o d false true (pageParts d (8 * k)) fun qs s =>
      let die := homeOf (ps.headD (0, 0)).1
      ((s.engineTurn o d die 3 ps qs).asOp o fun s =>
        let bs := readParts s.view ps
        s.engineParts die qs (topRow k ibase ((List.range n).map (bdredElem fmt bs)))).advanceOp o rows

/-! ### XROUTE -/

/-- R198: an XROUTE block keeps its rules. -/
def xrouteOk (bs : List Byte) : Bool :=
  decide (field bs 8 4 ≤ 4096) && field bs 12 4 % 128 == 0 && decide (128 ≤ field bs 12 4) &&
  decide (field bs 12 4 ≤ 16384) && zeroBytes bs 20 44

/-- R198, R402: XROUTE. -/
def execXroute (o : COp) (s : State) : Out :=
  s.blockOp o 64 64 xrouteOk (fun _ => []) fun bs s =>
    let loc := field bs 4 4
    let res := field bs 16 4
    match (s.checkLocal loc (field bs 8 4 * field bs 12 4) 128).map (fun c => (c, loc)) <|>
        (s.checkLocal res 8 8).map (fun c => (c, res)) with
    | some e => s.raiseWith e.1 0 e.2 0
    | none =>
      if s.core.bank.barrierRoom o.cb.toNat then
        (s.releaseHere 4).startChecked o (.xroute (field bs 0 4) loc (field bs 8 4) (field bs 12 4) res)
          (some (.word res)) none lineTurn
      else s.raise 0x04

/-- R105, R196: the 16 bytes of an expert's location entry; an entry in another device's slice is free
(log entry 34, DEDUCED). One that nothing backs is an error response, and no expert is present there. -/
def State.expertEntry (s : State) (e : Nat) : List Byte × State :=
  let pa := s.hub.expertBase + 16 * (e % 65536)
  if e / 65536 = s.hub.device then
    (if backed s.guestShut pa then (readBytes s.mem pa 16, s)
     else (List.replicate 16 0, s.logMc 16 2 16 0 0x0020 (BitVec.ofNat 64 pa) 0 none))
  else ((List.range 16).map fun i => Config.freeByte (s.free + i), { s with free := s.free + 16 })

/-- R196: the receive area of an entry. -/
def entryRbuf (e : List Byte) : Nat := field e 8 8

/-- R140, R198, R253: the issuer's rows leave for an expert's home through a port, or wait in a guarded bank's hold buffer; the
operation waits for the answer. -/
def State.xrouteAway (s : State) (o : EngineOp) (port expert loc n rb : Nat) : State :=
  if 24 ≤ port || (s.port port).down then s.stopOp o .protection expert expert
  else
    let rows := readBytes ((s.coreAt o.core).bankSeen o.bank o.seq) loc (n * rb)
    let r : Route := { id := 0, expert := expert, n := n, rowBytes := rb, rows := rows }
    let s := s.mapOp o.id fun x => { x with paired := true }
    if ((s.coreAt o.core).bankAt o.bank).status.guard then
      s.asOp o fun s =>
        let s := s.globalOut loc (.route port o.id r)
        s.setBank (s.core.bank.pendWait o.cb)
    else s.routeOut port (some o.id) (0, 0) r

/-- R197, R198: how many rows of an XROUTE find room: COUNT as it was, and the rows taken. -/
def xrouteTake (m : Mem) (pa n : Nat) : Nat × Nat :=
  let count := readNat m pa 8
  let cap := readNat m (pa + 24) 8
  (count, if count < cap then min n (cap - count) else 0)

/-- R197, R198: the header step of an XROUTE at its home: COUNT and DROPPED, one ATOM each. -/
def State.xrouteClaim (s : State) (pa n take : Nat) (put : Nat → HeldWrite → State → State) : State :=
  put (pa + 32) (.atom (pa + 32) 0 (BitVec.ofNat 64 (n - take)) 0)
    (put pa (.atom pa 0 (BitVec.ofNat 64 n) 0) s)

/-- R198: RESULT of an XROUTE. -/
def routeResult (count take : Nat) : Word := BitVec.ofNat 64 (take * 2 ^ 32 + count % 2 ^ 32)

/-- R196, R198: the first step of an XROUTE: its entry is read, and at home its rows are claimed. -/
def State.xrouteStart (s : State) (o : EngineOp) (expert loc n rb : Nat) : State :=
  let r := s.expertEntry expert
  let e := r.1
  let s := r.2
  if field e 1 1 % 2 = 0 then s.stopOp o .protection expert expert
  else if field e 0 1 ≠ 0xFF then s.xrouteAway o (field e 0 1) expert loc n rb
  else
    let a := entryRbuf e
    s.opGlobal o a a true true fun pa s =>
      if readNat (s.opView o) (pa + 40) 4 ≠ rb then s.stopOp o .protection a a
      else
        let x := xrouteTake (s.opView o) pa n
        let s := s.asOp o fun s => s.xrouteClaim pa n x.2 fun a w s => s.globalOut a w
        (s.mapOp o.id fun y => { y with done := 1, data := leBytes 8 x.1 ++ leBytes 8 x.2 ++ e }).later [o.lineEvent]

/-- R198, R402: the next step of an XROUTE: the claim, a row, or the arrival. Its release has covered the issuer's stores
(R136). A row takes the core's injection slot and the ports of its lines (R37). -/
def State.xrouteStep (s : State) (o : EngineOp) (expert loc n rb : Nat) : State :=
  if o.done = 0 then (if o.paired then s else s.xrouteStart o expert loc n rb)
  else
    let count := field o.data 0 8
    let take := field o.data 8 8
    let e := o.data.drop 16
    let rbuf := entryRbuf e
    let r := o.done - 1
    if r < take then
      let a := rbuf + 64 + (count + r) * rb
      if s.netHeld o.core || s.readHeld o.core ((linesOf (loc + r * rb) rb).take 16) then s.retryOp o o.lineEvent
      else s.opParts o a false true (pageParts a rb) fun ps s =>
        let s := (s.takeNet o.core).asOp o fun s =>
          (s.claimPorts (loc + r * rb) rb).putParts ps (readBytes (s.core.seenBefore o.seq) (loc + r * rb) rb)
        (s.mapOp o.id fun y => { y with done := y.done + 1 }).later [o.lineEvent]
    else
      s.opGlobal o rbuf rbuf true true fun pa s =>
        (s.asOp o fun s => (s.release 4).globalOut (pa + 8) (.arrive pa rbuf (field e 2 6))).finishOp o
          (some (routeResult count take))

/-! ### XROUTEs of other devices (14 R253) -/

/-- R153, R196: the partition that an armed tag belongs to. -/
def Hub.partOfTag (h : Hub) (tag : Nat) : Nat := ((h.slots.find? fun x => x.2.armed && x.2.tag == tag).map (·.2.part)).getD 0

/-- What a range is as the hub writes it for a partition: its physical parts, or the first address whose page is not
present, or the address that an error response names. -/
inductive HubParts where
  | ok (ps : List (Nat × Nat))
  | event (va : Nat)
  | fault (logged : Nat)
  deriving DecidableEq, Repr

/-- R105, R107: a range as the hub writes it for a partition. -/
def State.hubParts (s : State) (part : Nat) : List (Nat × Nat) → HubParts
  | [] => .ok []
  | p :: ps =>
    match s.hubXlat part p.1 { write := true, user := true, read := true } with
    | .ok pa =>
      (match s.hubParts part ps with
      | .ok xs => .ok ((pa, p.2) :: xs)
      | x => x)
    | .absent => .event p.1
    | .denied => .fault p.1
    | .unbacked pa => .fault pa

/-- Bytes written by the hub to physical parts. -/
def State.hubPut (s : State) : List (Nat × Nat) → List Byte → State
  | [], _ => s
  | p :: ps, bs => (s.putFrom 16 p.1 (bs.take p.2)).hubPut ps (bs.drop p.2)

/-- How a neighbour's XROUTE ends at its home: with RESULT, or a fault for none; or it waits for a page. -/
inductive RouteEnd where
  | answer (v : Option Word)
  | wait (part va : Nat)
  deriving DecidableEq, Repr

/-- R196-R198, R253: a neighbour's XROUTE at its home.
Log entry 34, DEDUCED. -/
def State.routeHome (s : State) (r : Route) (e : List Byte) : RouteEnd × State :=
  let rbuf := entryRbuf e
  let tag := field e 2 6
  let part := s.hub.partOfTag tag
  match s.hubParts part (pageParts rbuf 64) with
  | .ok ((pa, _) :: _) =>
    let x := xrouteTake s.mem pa r.n
    let put (_ : Nat) (w : HeldWrite) (s : State) : State :=
      match w with
      | .atom p op v c => s.putFrom 16 p (atomOn s.mem p op v c)
      | _ => s
    let rows := if x.2 = 0 then [] else pageParts (rbuf + 64 + x.1 * r.rowBytes) (x.2 * r.rowBytes)
    (match s.hubParts part rows with
    | .ok ps =>
      if readNat s.mem (pa + 40) 4 ≠ r.rowBytes then (.answer none, s)
      else
        let s := (s.xrouteClaim pa r.n x.2 put).hubPut ps r.rows
        (.answer (some (routeResult x.1 x.2)), (s.hubRelease 4).xrouteArrive 16 pa rbuf tag)
    | .event va => (.wait part va, s)
    | .fault a => (.answer none, s.logErrorFor part a))
  | .ok [] => (.answer none, s)
  | .event va => (.wait part va, s)
  | .fault a => (.answer none, s.logErrorFor part a)

/-- R253: an answer leaves through the port its XROUTE came by. -/
def State.routeBack (s : State) (port id : Nat) (v : Option Word) : State :=
  s.mapPort port fun p => { p with answers := p.answers ++ [(id, v)] }

/-- R114, R119, R402: a neighbour's XROUTE waits at its home for a page; it starts anew once the event is answered. -/
def State.stallRoute (s : State) (port part va : Nat) (r : Route) : State :=
  let ev := s.hub.nextEvent
  (s.setHub (s.hub.queueEvent none 0xFFFF 0 none none va none false none (some part))).mapPort port fun p =>
    { p with stalled := p.stalled ++ [(r, ev)] }

/-- R253: a neighbour's XROUTE arrives: it is served at its home here, or goes on through the port its entry names. -/
def State.takeRoute (s : State) (port : Nat) (r : Route) : State :=
  let x := s.expertEntry r.expert
  let e := x.1
  let s := x.2
  let out := field e 0 1
  if field e 1 1 % 2 = 0 then s.routeBack port r.id none
  else if out = 0xFF then
    (match s.routeHome r e with
    | (.answer v, s) => s.routeBack port r.id v
    | (.wait part va, s) => s.stallRoute port part va r)
  else if 24 ≤ out || (s.port out).down then s.routeBack port r.id none
  else s.routeOut out none (port, r.id) r

/-- R198, R253: the answer to an XROUTE that left through a port: its operation ends or faults, or the answer goes on to
the neighbour it belongs to. -/
def State.takeAnswer (s : State) (port id : Nat) (v : Option Word) : State :=
  match (s.port port).waits.find? (fun w => w.id == id) with
  | none => s
  | some w =>
    let s := s.mapPort port fun p => { p with waits := p.waits.filter fun x => x.id != id }
    match w.op, v with
    | none, v => s.routeBack w.back.1 w.back.2 v
    | some op, v =>
      match s.op? op, v with
      | some o, some v => s.finishOp o (some v)
      | some o, none =>
        match o.kind with
        | .xroute e _ _ _ _ => s.stopOp o .protection e e
        | _ => s
      | none, _ => s

/-! ### GPOST -/

/-- R259: a packet keeps its rules; opcodes from 0xF0 up are the hub's. -/
def packetOk (bs : List Byte) : Bool :=
  decide (field bs 0 1 < 0xF0) && decide (field bs 1 1 ≤ 1) && decide (field bs 2 1 ≤ 15) && decide (field bs 3 1 ≤ 7) &&
  (field bs 4 1 == 3 || field bs 4 1 == 4) && decide (field bs 5 1 ≤ 4) && zeroBytes bs 6 2 &&
  field bs 8 8 % 8 == 0 && isFlat (field bs 8 8) && canonical (field bs 8 8) && decide (field bs 16 8 < 2 ^ 63) &&
  (List.range 4).all fun i =>
    let ref := field bs (24 + 8 * i) 8
    if i < field bs 5 1 then bitsAt ref 2 4 == 0 && isFlat ref && canonical ref else ref == 0

/-- R260, R339: GPOST. -/
def execGpost (o : COp) (s : State) : Out :=
  s.primaryOnly o.g fun s =>
  if !(s.destOk (dataReg o)) then s.raise 0x0C
  else s.blockOp o 64 64 packetOk (fun _ => []) fun bs s =>
    if s.part ≠ s.hub.regs.guestPart then s.raise 0x0D
    else if s.core.bank.barrierRoom o.cb.toNat then
      (s.releaseHere (field bs 4 1)).startChecked o (.gpost bs (dataReg o).toNat) (some (.reg (dataReg o).toNat)) none
        doneTurn
    else s.raise 0x04

/-- R259, R260: the hub queues a packet, or answers why it cannot; a guest that is absent, not enabled or fenced comes before a
full queue.
Log entry 94, DESIGN CHOICE. -/
def State.gpostDone (s : State) (o : EngineOp) (bs : List Byte) : State :=
  let g := s.guest
  let r := s.hub.regs
  let q := field bs 2 1
  let ps := (sget g.queues q).getD []
  if !g.present || !r.guestEn || r.guestFenced then s.finishOp o (some 2)
  else if 256 ≤ ps.length then s.finishOp o (some 1)
  else
    let launch := ((s.coreAt o.core).bankAt o.bank).task.map (·.launch)
    let p : Packet := { id := g.nextPacket, bytes := bs, launch := launch }
    ({ s with guest := { g with queues := sput g.queues q (ps ++ [p]), nextPacket := g.nextPacket + 1 } }).finishOp o
      (some 0)

end Sys2Proof.Machine
end

