-- ==== Sys2Proof/Machine/Fabric.lean ====
section
/-! DEFINITION. Fabric links: LSEND, LRECV and LRADD, the pairing and the lines of transfers, flits, lanes, stamped
writes and the host's message port (14 R245-R253; 06 R142; 21 R348). -/

namespace Sys2Proof.Machine

/-! ### LSEND, LRECV, LRADD -/

/-- R249: the port and the channel of a link instruction. -/
def linkPort (o : COp) : Nat := o.data.toNat % 32
/-- R249: the channel. -/
def linkCh (o : COp) : Nat := o.data.toNat / 32

/-- R249: the partition that a (port, channel) pair belongs to; 0 until firmware assigns it.
Log entry 37, DESIGN CHOICE. -/
def Port.owner (p : Port) (ch : Nat) : Nat := (sget p.owners ch).getD 0

/-- The unpaired operations of a channel, oldest first. -/
def onChannel (xs : List (Nat × Nat)) (ch : Nat) : List Nat := (xs.filter fun x => x.1 == ch).map (·.2)

/-- A list without its first entry of a channel. -/
def dropFirst {α : Type} (ch : Nat) : List (Nat × α) → List (Nat × α)
  | [] => []
  | x :: xs => if x.1 = ch then xs else x :: dropFirst ch xs

/-- R249, R250: the checks that LSEND, LRECV and LRADD share, and the operation that starts; `send` enters the
queue of sends. -/
def State.linkOp (s : State) (o : COp) (send : Bool) (span : Nat → Nat) (kind : Nat → Nat → OpKind) : Out :=
  let a := s.ea o
  let len := (s.rs o.sb).toNat
  let port := linkPort o
  let ch := linkCh o
  if !(s.dregsOk [o.sa, o.sb]) || (s.isDrift && o.cb != 0) || a % 128 ≠ 0 || len % 128 ≠ 0 || decide (len < 128) ||
      decide (2 ^ 22 < len) then s.raise 0x01
  else
    match s.checkLocal a (span len) 128 with
    | some c => s.raiseWith c 0 a 0
    | none =>
      let p := s.port port
      if p.owner ch ≠ s.part then s.raiseWith 0x0D 0 a 0
      else if 4 ≤ (onChannel (if send then p.sends else p.recvs) ch).length then s.raise 0x04
      else if !s.isDrift && !(s.core.bank.barrierRoom o.cb.toNat) then s.raise 0x04
      else
        let id := s.nextOp
        let s := if send then s.releaseHere 4 else s
        let s := s.startOp o.cb.toNat 0 (kind a len) none none fun _ => [.event (.linkPair port ch)]
        if p.down then
          .next (match s.op? id with
            | some x => s.stopOp x .protection a a
            | none => s)
        else .next (s.mapPort port fun p =>
          if send then { p with sends := p.sends ++ [(ch, id)] } else { p with recvs := p.recvs ++ [(ch, id)] })

/-- R249-R252, R348: LSEND. -/
def execLsend (o : COp) (s : State) : Out :=
  s.guarded o.g fun s => s.linkOp o true id fun a len => .lsend (linkPort o) (linkCh o) a len

/-- R249-R252, R348: LRECV. -/
def execLrecv (o : COp) (s : State) : Out :=
  s.guarded o.g fun s => s.linkOp o false id fun a len => .lrecv (linkPort o) (linkCh o) a len

/-- R249-R252, R348: LRADD. With BF16 the local range is twice as long. -/
def execLradd (o : COp) (s : State) : Out :=
  s.primaryOnly o.g fun s => s.linkOp o false (fun n => if o.fmt = 2 then 2 * n else n) fun a len =>
    .lradd (linkPort o) (linkCh o) a len o.fmt.toNat

/-! ### Transfers -/

/-- The port, the channel, the local start and the length of a link operation. -/
def OpKind.link : OpKind → Option (Nat × Nat × Nat × Nat)
  | .lsend p c a n | .lrecv p c a n | .lradd p c a n _ => some (p, c, a, n)
  | _ => none

/-- R250: an operation is paired with what the neighbour holds: a transfer of equal length starts, else both sides
record a protection fault. -/
def State.pairOp (s : State) (id len : Nat) (data : List Byte) : State :=
  match s.op? id with
  | none => s
  | some o =>
    match o.kind.link with
    | some (_, _, a, n) =>
      if n = len then (s.mapOp id fun o => { o with paired := true, data := data }).later [o.lineEvent]
      else s.stopOp o .protection a a
    | none => s

/-- R250: the step LINK_PAIR: the first send with the first receive the neighbour has posted, and the first receive
with the first send that has arrived. -/
def execLinkPair (port ch : Nat) (s : State) : Out :=
  let p := s.port port
  let s := match onChannel p.sends ch, onChannel p.credits ch with
    | id :: _, len :: _ =>
      (s.mapPort port fun p => { p with sends := dropFirst ch p.sends, credits := dropFirst ch p.credits }).pairOp id len []
    | _, _ => s
  .next (match onChannel p.recvs ch, (p.incoming.filter fun x => x.1 == ch) with
    | id :: _, x :: _ =>
      (s.mapPort port fun p => { p with recvs := dropFirst ch p.recvs, incoming := dropFirst ch p.incoming }).pairOp id
        x.2.length x.2
    | _, _ => s)

/-- A line of a link transfer is done; after the last one the transfer is over on this side. -/
def State.advanceLink (s : State) (o : EngineOp) (port ch n : Nat) : State :=
  let s := s.mapOp o.id fun x => { x with done := x.done + 1 }
  s.later [if n ≤ o.done + 1 then .event (.linkTransferDone port ch) else o.lineEvent]

/-- R251: the words of a line of an LRADD. -/
def lraddLine (fmt : Nat) (old new : List Byte) : List Byte :=
  (List.range 32).flatMap fun e => leBytes 4 (addRne (byteElem old 4 e) (bdredElem fmt new e))

/-- R251: the next line of a paired transfer. -/
def State.linkLine (s : State) (o : EngineOp) : State :=
  if !o.paired then s
  else
    match o.kind with
    | .lsend p c loc len =>
      let a := loc + 128 * o.done
      if s.netHeld o.core || s.readHeld o.core [a / 128] then s.retryOp o o.lineEvent
      else
        let bytes := readBytes ((s.coreAt o.core).bankSeen o.bank o.seq) a 128
        let s := (s.takeNet o.core).asOp o fun s => s.claimPorts a 128
        (s.mapOp o.id fun x => { x with data := x.data ++ bytes }).advanceLink o p c (len / 128)
    | .lrecv p c loc len =>
      let a := loc + 128 * o.done
      if s.deliveryHeld o.core o.bank (a / 128) then s.retryOp o o.lineEvent
      else (s.asOp o fun s => s.deliver a ((o.data.drop (128 * o.done)).take 128) o.seq).advanceLink o p c (len / 128)
    | .lradd p c loc len fmt =>
      let a := loc + 128 * o.done
      let w := if fmt = 2 then 64 else 128
      if s.deliveryHeld o.core o.bank (a / 128) then s.retryOp o o.lineEvent
      else (s.asOp o fun s => s.deliver a (lraddLine fmt (readBytes (s.core.seenBefore o.seq) a 128)
        ((o.data.drop (w * o.done)).take w)) o.seq).advanceLink o p c (len / w)
    | _ => s

/-- R251: every line of a link operation has moved. -/
def EngineOp.linkDone (o : EngineOp) (port ch : Nat) : Bool :=
  o.live && o.paired &&
  match o.kind with
  | .lsend p c _ len | .lrecv p c _ len => p == port && c == ch && decide (len / 128 ≤ o.done)
  | .lradd p c _ len fmt => p == port && c == ch && decide (len / (if fmt = 2 then 64 else 128) ≤ o.done)
  | _ => false

/-- R138, R251, R252: the last line of a transfer has moved. A send has left, and ends when the neighbour tells that its
last line has landed there; a receive ends here and acquires what its sender released; a collective may complete at its CPYW, or
for a drift thread here. -/
def State.linkEnd (s : State) (o : EngineOp) : State :=
  match o.kind with
  | .lsend p c _ _ =>
    if o.old = 0 then (s.mapPort p fun q => { q with sent := q.sent ++ [(c, o.data)] }).mapOp o.id fun x => { x with old := 1 }
    else s
  | k =>
    let s := match k.link with
      | some (p, c, _, _) => s.mapPort p fun q => { q with landed := q.landed ++ [c] }
      | none => s
    (s.asOp o fun s =>
      let s := s.acquire 4
      match o.drift with
      | some _ => (s.release 4).acquire 4
      | none => s.setBank (s.core.bank.setCb o.cb { s.core.bank.cb o.cb with coll := true })).finishOp o none

/-- R251: a send on a channel that has left ends: its last line has landed at the neighbour. -/
def State.sendLanded (s : State) (port ch : Nat) : State :=
  let mine (o : EngineOp) : Bool := o.live && o.old == 1 &&
    match o.kind with
    | .lsend p c _ _ => p == port && c == ch
    | _ => false
  match s.ops.find? mine with
  | some o => s.finishOp o none
  | none => s

/-- R251: the step LINK_TRANSFER_DONE: the transfers of a channel whose last line has moved end. -/
def execLinkTransferDone (port ch : Nat) (s : State) : Out :=
  .next ((s.ops.filter fun o => o.linkDone port ch).foldl State.linkEnd s)

/-! ### Flits and lanes -/

/-- R142: a stamp's component raised. -/
def addStamp (stamp : List Nat) (comp n : Nat) : List Nat := stamp.mapIdx fun j x => if j = comp then x + n else x

/-- R142: a flit's deltas are the differences from the last stamp received on its link; the hub's clock takes the
component-wise maximum with the stamp they give. -/
def State.takeStamp (s : State) (port : Nat) (deltas : List (Nat × Nat)) : State :=
  let stamp := deltas.foldl (fun st d => addStamp st d.1 d.2) (s.port port).stamp
  let s := s.mapPort port fun p => { p with stamp := stamp }
  { s with clocks := s.clocks.mapIdx fun i x => if i = 16 then mergeClock x stamp else x }

/-- R253: what a data flit completes: a send, an XROUTE, or the answer to one. -/
def State.takeData (s : State) (port : Nat) (f : Flit) : State :=
  let s := match f.link with
    | some x => (s.mapPort port fun p => { p with incoming := p.incoming ++ [x] }).later [.event (.linkPair port x.1)]
    | none => s
  let s := match f.route with
    | some r => s.takeRoute port r
    | none => s
  match f.answer with
  | some x => s.takeAnswer port x.1 x.2
  | none => s

/-- R251: what an acknowledgement and credit flit tells: a receive the neighbour has posted, or a send that has
landed. -/
def State.takeCredit (s : State) (port : Nat) (f : Flit) : State :=
  let s := match f.landed with
    | some c => s.sendLanded port c
    | none => s
  match f.credit with
  | some x => (s.mapPort port fun p => { p with credits := p.credits ++ [x] }).later [.event (.linkPair port x.1)]
  | none => s

/-- R153, R247, R253: a flit accepted in its turn: its stamp reaches the hub's clock, and what it carries arrives. A
message is matched as DEST 0; its DEST, that of the port it came by, marks it as one that has crossed the fabric (R137).
A flit of another type is dropped and logged. -/
def State.takeFlit (s : State) (port : Nat) (f : Flit) : State :=
  if 5 ≤ f.type.toNat then s.logMc (17 + port / 4) 2 16 (3 + port) 0x0020 0 0 none
  else
    let s := s.takeStamp port f.deltas
    match f.type.toNat with
    | 1 => s.takeData port f
    | 2 =>
      match f.msg with
      | some m => s.later [.event (.taggedMessage { m with dest := BitVec.ofNat 8 (2 + port) })]
      | none => s
    | 3 => s.takeCredit port f
    | _ => s

/-- R247, R248: the step FLIT_RECEIVE: a flit whose CRC fails, or that is out of turn, is not taken and comes again
from the sender's replay buffer; the next one in turn is. -/
def execFlitReceive (port : Nat) (f : Flit) (s : State) : Out :=
  let p := s.port port
  if 24 ≤ port || p.down || !f.crcOk || f.seq ≠ p.expect then .next s
  else .next ((s.mapPort port fun p => { p with expect := (p.expect + 1) % 65536 }).takeFlit port f)

/-- R248: the port that an operation of the primary or a thread is outstanding on, with the address its record names. -/
def OpKind.onPort : OpKind → Option (Nat × Nat)
  | .lsend p _ a _ | .lrecv p _ a _ | .lradd p _ a _ _ => some (p, a)
  | .msend m => if 2 ≤ m.dest.toNat then some (m.dest.toNat - 2, 0) else none
  | _ => none

/-- R248: every operation outstanding on a port records a protection fault, and XROUTEs that wait for an answer from it
get none. -/
def State.portDown (s : State) (port : Nat) : State :=
  let mine (o : EngineOp) : Bool := !o.halted && o.kind.onPort.any fun x => x.1 == port
  let s := (s.ops.filter mine).foldl (fun s o => s.stopOp o .protection ((o.kind.onPort.map (·.2)).getD 0)
    ((o.kind.onPort.map (·.2)).getD 0)) s
  (s.port port).waits.foldl (fun s w => s.takeAnswer port w.id none) s

/-- R274: a change of the service record is due to be written to flash. -/
def State.touchService (s : State) : State :=
  ({ s with svc := { s.svc with dirty := true } }).later [.event .serviceRecordWrite]

/-- R231, R248, R274: the step LANE_FAIL: the spare lane takes the place of the first lane that fails; with the second
the port goes down. -/
def execLaneFail (port lane : Nat) (s : State) : Out :=
  let p := s.port port
  if 24 ≤ port || 9 ≤ lane || p.down then .next s
  else if p.spareFor.isNone then
    let s := (s.mapPort port fun p => { p with spareFor := some lane }).setRegs { s.hub.regs with svcLanes := true }
    let v := s.svc.record
    let s := ({ s with svc := { s.svc with record := { v with lanes := v.lanes ++ [(port, lane)] } } }).touchService
    .next (s.logMc (17 + port / 4) 1 16 (3 + port) 0x0030 0 0 none)
  else
    let s := (s.mapPort port fun p => { p with down := true, sends := [], recvs := [] }).logMc (17 + port / 4) 2 16
      (3 + port) 0x0031 0 0 none
    .next (s.portDown port)

/-! ### Stamped writes (06 R142) -/

/-- R142: every write that the stamp shows as preceding has been applied by the die. -/
def stampReady (clock stamp : List Nat) (source : Nat) : Bool :=
  (List.range 18).all fun c => c == source || decide (stamp.getD c 0 ≤ clock.getD c 0)

/-- R142: the step STAMPED_WRITE_APPLY: a write is applied once its predecessors are; until then the die holds it.
What it held is due again after a write has been applied. -/
def execStampedWriteApply (die : Nat) (w : StampedWrite) (s : State) : Out :=
  let c := s.clocks.getD die []
  if 18 ≤ die then .next s
  else if !(stampReady c w.stamp w.source) then
    .next (if s.held.contains (die, w) then s else { s with held := s.held ++ [(die, w)] })
  else
    let s := s.putMem w.addr w.bytes
    let again := (s.held.filter fun x => x.1 == die && x != (die, w)).map fun x => Turn.event (.stampedWriteApply die x.2)
    .next ({ s with clocks := s.clocks.mapIdx fun i x => if i = die then mergeClock x w.stamp else x,
                    held := s.held.filter fun x => x.1 != die }.later again)

/-! ### The host's message port and the drop counters -/

/-- R137, R245, R268: the step MESSAGE_PORT_WRITE: a 64-byte aligned write delivers one message once the part is up; any
other is dropped and counted, as is one that finds 256 queued. It is matched as DEST 0; the DEST of the host's ring, to
which no message is matched, marks it as one that waits in the port's queue. -/
def execMessagePortWrite (offset size : Nat) (m : Message) (s : State) : Out :=
  let r := s.hub.regs
  if !r.ready || 4096 ≤ offset then .next s
  else if size ≠ 64 || offset % 64 ≠ 0 then .next (s.setRegs { r with msgBad := r.msgBad + 1 })
  else if 256 ≤ s.hub.portQueue.length then .next (s.setRegs { r with msgFull := r.msgFull + 1 })
  else
    let m := { m with dest := 1 }
    let s := { s with ord := s.ord ++ [OrdEvent.hostRelease] }
    .next ((s.setHub { s.hub with portQueue := s.hub.portQueue ++ [m] }).later [.event (.taggedMessage m)])

/-- R154: the step LNDROP_READ: reading LNDROP clears its counters. -/
def execLndropRead (s : State) : Out := .next (s.regRead 0x0100).2

/-- R246: the step MPCNT_READ: reading MPCNT clears its counters. -/
def execMpcntRead (s : State) : Out := .next (s.regRead 0x0138).2

end Sys2Proof.Machine
end

