-- ==== Sys2Proof/Machine/Pins.lean ====
section
/-! DEFINITION. The meanings of PIN and UNPIN, and what still uses a line of the window (05 R102, R103; 21 R369,
R370). -/

namespace Sys2Proof.Machine

/-! ### PIN and UNPIN -/

/-- R102: the pinned lines of a bank once its results in flight have landed. -/
def Bank.pinsAhead (b : Bank) : BitVec 65536 :=
  b.pend.foldl (fun p e =>
    match e.eff with
    | .pin f n => pinRange p f n
    | .unpin f n => unpinRange p f n
    | _ => p) b.pins

/-- R100, R102: no set of 16 ways has more than 14 pinned. -/
def waysOk (p : BitVec 65536) : Bool :=
  let r := (List.range 16).foldl (fun (x : BitVec 4096 × BitVec 4096) i =>
    let free := ~~~(p.extractLsb' (4096 * i) 4096)
    (x.1 ||| free, x.2 ||| (x.1 &&& free))) (0, 0)
  r.2 == BitVec.allOnes 4096

/-- R102: PIN's result code. -/
def State.pinCode (s : State) (first n : Nat) : Nat :=
  let own := s.core.bank.pinsAhead
  let other := s.core.other.pinsAhead
  if lineMask first n &&& other != 0 then 2
  else if !(waysOk (pinRange own first n ||| other)) then 1
  else 0

/-- R102, R103: the checks of the range of PIN and UNPIN: n lines from an address.
Log entry 49, DEDUCED. -/
def State.checkPinRange (s : State) (a n : Nat) : Option Nat :=
  match checkSteps13 (!s.sup?) a (128 * n) 128 with
  | some c => some c
  | none =>
    if n = 0 then none
    else if inHubWindow (a + 128 * n - 1) then some 0x08
    else if windowBytes < a + 128 * n then some 0x06
    else none

/-- R102, R369: PIN. -/
def execPin (o : COp) (s : State) : Out :=
  s.primaryOnly o.g fun s =>
    let d := dataReg o
    let a := s.ea o
    let n := (s.rs o.sb).toNat
    if !(s.destOk d) then s.raise 0x0C
    else
      match s.checkPinRange a n with
      | some c => s.raiseWith c 0 a 0
      | none =>
        let code := if n = 0 then 0 else s.pinCode (a / 128) n
        let s := s.result 6 (.sPlain d.toNat (BitVec.ofNat 64 code))
        .next (if code = 0 && decide (0 < n) then s.result 6 (.pin (a / 128) n) else s)

/-- The lines of a range that are left once the first `done` have moved. -/
def restOf (loc done n : Nat) : List (Nat × Nat) := [(loc + 128 * done, 128 * (n - done))]

/-- R103: the window ranges, start and bytes, that an engine operation of the bank still reads or writes. -/
def EngineOp.ranges (o : EngineOp) : List (Nat × Nat) :=
  match o.kind with
  | .cpy kind loc (some t) c b _ len =>
    let w := max 1 t.width
    if kind = 0 then ((inTurns (fromTensorLines t c b len)).drop o.done).map fun l => (loc + 128 * l.line, 128)
    else
      let ls := (toTensorLines t c b len).drop o.done
      (List.range (len / w)).filterMap fun e => (t.place (boxCoord c b e)).bind fun p =>
        if ls.contains (p.1 * 512 + p.2 / 128) then some (loc + e * w, w) else none
  | .cpy _ loc none _ _ _ len => restOf loc o.done (len / 128)
  | .mcast _ dst mask n _ => if mask.testBit (o.core % 64) then restOf dst o.done n else []
  | .lsend _ _ loc len | .lrecv _ _ loc len => restOf loc o.done (len / 128)
  | .lradd _ _ loc len fmt =>
    let n := len / (if fmt = 2 then 64 else 128)
    restOf loc o.done n
  | .xroute _ loc n rb _ => [(loc + (o.done - 1) * rb, (n - (o.done - 1)) * rb)]
  | .barr va _ _ _ _ _ => if inWindow va then [(va, 8)] else []
  | _ => []

/-- A range of bytes meets a range of lines. -/
def meets (r : Nat × Nat) (first n : Nat) : Bool :=
  decide (0 < r.2) && decide (r.1 < 128 * (first + n)) && decide (128 * first < r.1 + r.2)

/-- R170, R174: the ring units in use by declared tiles and by active subscriptions of the running bank. -/
def Bank.unitsInUse (b : Bank) : List Nat :=
  (match b.task with
    | some t => t.inUnits ++ t.outUnits
    | none => []) ++
  b.subs.flatMap fun u => (List.range (u.nslot * 2 ^ u.size)).map (u.first + ·)

/-- R103, R370: rows of an epilogue that are still to come are stored in a range of lines. -/
def Bank.epiMeets (b : Bank) (first n : Nat) : Bool :=
  b.epis.any fun e =>
    let i := b.tick - e.issue
    meets (128 * (e.dest + i * epiLines e.out), 128 * (e.rows - i) * epiLines e.out) first n

/-- R103, R370: a write in flight goes to a range of lines. -/
def Pend.writeMeets (first n : Nat) (e : Pend) : Bool :=
  match e.eff with
  | .store a bytes _ => meets (a, bytes.length) first n
  | .atom a op _ _ _ _ _ => meets (a, atomBytes op) first n
  | _ => false

/-- R209: what a bank has in flight, with what its traps have set aside. -/
def Bank.allPend (b : Bank) : List Pend := b.pend ++ b.parked.flatMap (·.pend)

/-- R103, R370: a line of the range is still to be read by the matrix engine, written by an epilogue row, a store, a
drift thread's operation or a barrier's result, used by an engine operation or a subscription of the bank, or part of a
ring slot. -/
def State.linesBusy (s : State) (first n : Nat) : Bool :=
  let b := s.core.bank
  let inside (l : Nat) : Bool := decide (first ≤ l) && decide (l < first + n)
  (b.tracked.any fun t => inside t.1 && decide (b.tick ≤ t.2)) ||
  b.epiMeets first n || b.allPend.any (Pend.writeMeets first n) ||
  (s.core.threads.toList.any fun t => t.busy && t.bank == s.core.curBank && match t.eff with
    | .store a bytes _ => meets (a, bytes.length) first n
    | .atom a op _ _ _ => meets (a, atomBytes op) first n
    | _ => false) ||
  (s.ops.any fun o => o.core == s.cur && o.bank == s.core.curBank && o.ranges.any fun r => meets r first n) ||
  (b.cbs.toList.any fun c => c.results.any fun r => match r.dest with
    | .word a => meets (a, 8) first n
    | .reg _ => false) ||
  (b.subs.any fun u => meets (u.stat, 8) first n) ||
  b.unitsInUse.any fun u => meets (unitAddr s.core.curBank u, 65536) first n

/-- R103, R369: UNPIN. -/
def execUnpin (o : COp) (s : State) : Out :=
  s.primaryOnly o.g fun s =>
    let a := s.ea o
    let n := (s.rs o.sb).toNat
    match s.checkPinRange a n with
    | some c => s.raiseWith c 0 a 0
    | none =>
      if n = 0 then .next s
      else if lineMask (a / 128) n &&& s.core.other.pins != 0 then s.raiseWith 0x0D 0 a 0
      else if s.linesBusy (a / 128) n then s.raiseWith 0x0A 0 a 0
      else .next (s.result 1 (.unpin (a / 128) n))

end Sys2Proof.Machine
end

