-- ==== Sys2Proof/Machine/Engines.lean ====
section
/-! DEFINITION. The events of engine operations: a line lands, an operation completes, an operation stops, and a
translation event is answered (05 R113, R114, R117-R120; 11 R217; 14 R261); and the subscriptions of the Moraine
controllers (08 R173-R175; 21 R374, R375). -/

namespace Sys2Proof.Machine

/-! ### Lines and completions -/

/-- The lines, or rows, that an operation moves in turn; 0 for one that completes in one step. -/
def OpKind.total : OpKind → Nat
  | .cpy kind _ (some t) c b _ len => if kind = 0 then len / 128 else (toTensorLines t c b len).length
  | .cpy _ _ none _ _ _ len => len / 128
  | .mcast _ _ _ n _ => n
  | .lsend _ _ _ len | .lrecv _ _ _ len => len / 128
  | .lradd _ _ _ len fmt => len / (if fmt = 2 then 64 else 128)
  | .bdred _ len _ _ _ _ _ => len / 128
  | .bdtopk _ _ rows _ _ _ _ _ => rows
  | _ => 0

/-- R113, R116, R251, R256, R193, R198: the next line of an operation. -/
def State.lineStep (s : State) (o : EngineOp) : State :=
  match o.kind with
  | .cpy kind loc t c b g len => s.cpyLine o kind loc t c b g len
  | .mcast src dst mask n l => s.mcastLine o src dst mask n l
  | .lsend _ _ _ _ | .lrecv _ _ _ _ | .lradd _ _ _ _ _ => s.linkLine o
  | .bdred dst len fmt _ _ sc srcs => s.bdredStep o dst len fmt sc srcs
  | .bdtopk src dst rows n stride k fmt ib => s.bdtopkStep o src dst rows n stride k fmt ib
  | .xroute e loc n rb _ => s.xrouteStep o e loc n rb
  | _ => s

/-- An operation has a further line to move. -/
def EngineOp.hasLine (o : EngineOp) : Bool :=
  match o.kind with
  | .xroute _ _ _ _ _ => true
  | k => decide (o.done < k.total)

/-- R113, R206: the step ENGINE_LINE_LAND: the next line of an operation lands whole, in the order of R113; a delivery
that a tracked read holds comes again, and one of a launch that has faulted is discarded. -/
def execEngineLineLand (id : Nat) (s : State) : Out :=
  match s.op? id with
  | none => .next s
  | some o => .next (if !o.live || !o.hasLine then s else if s.opDead o then s.finishOp o none else s.lineStep o)

/-- R114: what completes an operation. -/
def State.endOp (s : State) (o : EngineOp) : State :=
  match o.kind with
  | .atom va op x cmp _ => s.atomDone o va op x cmp
  | .flagw va v rel => s.flagwDone o va v rel
  | .flagr va _ _ => s.flagrDone o va
  | .barr va cnt reg sc old held => s.barrDone o va cnt reg sc old held
  | .msend m => s.msendDone o m
  | .gpost bs _ => s.gpostDone o bs
  | .cache first n inval => s.cacheDone o first n inval
  | .bdred dst _ _ flag fval sc _ => if o.hasLine then s else s.bdredDone o dst flag fval.toNat sc
  | .cpy _ _ _ _ _ _ _ | .mcast _ _ _ _ _ | .bdtopk _ _ _ _ _ _ _ _ => if o.hasLine then s else s.finishOp o none
  | _ => s

/-- R114, R206: the step ENGINE_OP_COMPLETE: an operation completes and its barrier's count falls; what one of a faulted
launch would still write is discarded. -/
def execEngineOpComplete (id : Nat) (s : State) : Out :=
  match s.op? id with
  | none => .next s
  | some o => .next (if !o.live then s else if s.opDead o then s.finishOp o none else s.endOp o)

/-- R113: the line L at which an operation stands; `va` for one that moves no lines. -/
def EngineOp.lineAt (o : EngineOp) (va : Nat) : Nat :=
  match o.kind with
  | .cpy kind loc (some t) c b _ len =>
    if kind = 0 then
      (match (inTurns (fromTensorLines t c b len)).drop o.done with
      | l :: _ => loc + 128 * l.line
      | [] => va)
    else
      (match (toTensorLines t c b len).drop o.done with
      | l :: _ => 128 * l
      | [] => va)
  | .cpy kind loc none _ _ g _ => (if kind = 2 then loc else g) + 128 * o.done
  | .mcast _ dst _ _ _ => dst + 128 * o.done
  | .lsend _ _ a _ | .lrecv _ _ a _ | .lradd _ _ a _ _ => a + 128 * o.done
  | .bdred dst _ _ _ _ _ _ => dst + 128 * o.done
  | .bdtopk _ dst _ _ _ k _ _ => dst + 8 * k * o.done
  | _ => va

/-- R114: the step ENGINE_OP_FAULT: an operation in flight meets a translation event, a protection fault or an
uncorrectable read at an address, and stops with a record. -/
def execEngineOpFault (id : Nat) (kind : RecKind) (va : Nat) (s : State) : Out :=
  match s.op? id with
  | none => .next s
  | some o => .next (if o.live then s.stopOp o kind va (o.lineAt va) else s)

/-! ### Answered translation events -/

/-- R107: the physical address of the entry with P = 0 that ends a walk. -/
def absentEntry (m : Mem) : List Nat → Nat → Option Nat
  | [], _ => none
  | i :: is, t =>
    let e := readNat m (t + 8 * i) 8
    if e % 2 = 0 then some (t + 8 * i) else absentEntry m is (bitsAt e 13 39 * 8192)

/-- R107: a flat address's entry with P = 0. -/
def State.absentPte (s : State) (part va : Nat) : Option Nat := absentEntry s.mem (walkIndices va) (s.root part)

/-- R110, R119: the physical address of the entry that an answer sets for a tile, and the address of the page that it maps:
the tile table's own page while it is absent, else the tile's entry and no page. -/
def State.absentTile (s : State) (part : Nat) (user : Bool) (t : Tensor) (n : Nat) : Option (Nat × Option Nat) :=
  let a := (t.ttb.toNat + 8 * n) % 2 ^ 64
  match s.hubXlat part a { write := false, user := user, read := true } with
  | .ok pa => if readNat s.mem pa 8 % 2 = 0 then some (pa, none) else none
  | .absent => (s.absentPte part a).map fun x => (x, some a)
  | _ => none

/-- R117: the tensor whose tile an operation stopped on. -/
def EngineOp.tensorOf (o : EngineOp) (b : Bank) : Option Tensor :=
  match o.kind with
  | .cpy _ _ (some t) _ _ _ _ => some t
  | .subs => (b.subs.find? fun u => u.op == o.id).map (·.tensor)
  | _ => none

/-- R120: the 64 KiB at an address is in HBM. -/
def State.isResident (s : State) (part va : Nat) : Bool :=
  let e := leafEntry s.mem (walkIndices va) (s.root part)
  e % 2 == 1 && decide (bitsAt e 16 36 < 0xC00000)

/-- R120: the span of a block after the prefetcher has chosen: 64 KiB for a new block, doubled while the resident
share of the doubled span reaches the threshold. -/
def State.nextSpan (s : State) (part : Nat) (p : Partition) (va : Nat) (old : Option Nat) : Nat :=
  let span := old.getD 65536
  let big := 2 * span
  let base := va / big * big
  let n := ((List.range (big / 65536)).filter fun i => s.isResident part (base + 65536 * i)).length
  if big ≤ 2 ^ p.blkLog && decide (p.pfThr * big ≤ n * 65536 * 256) then big else span

/-- R120: the answer by migration updates the prefetcher's 64 blocks, the most recent first, and chooses the span to
move. -/
def State.prefetch (s : State) (part va : Nat) : Nat × State :=
  let p := if h : part < 4 then s.hub.parts[part] else Partition.clear
  if !p.pfEn then (65536, s)
  else
    let b := va / 2 ^ p.blkLog
    let old := (p.spans.find? fun x => x.1 == b).map (·.2)
    let span := s.nextSpan part p va old
    (span, s.setHub (s.hub.mapPart part fun p =>
      { p with spans := ((b, span) :: p.spans.filter fun x => x.1 != b).take 64 }))

/-- R107: the physical address of the level-4 entry that maps an address, where the walk reaches it. -/
def leafSlot (m : Mem) : List Nat → Nat → Option Nat
  | [], _ => none
  | [i], t => some (t + 8 * i)
  | i :: is, t =>
    let e := readNat m (t + 8 * i) 8
    if e % 2 = 0 then none else leafSlot m is (bitsAt e 13 39 * 8192)

/-- R120: one further page of a span moves to HBM, to the frame that lies from the answered page's frame as the page
lies from the answered page: one without an entry takes the answer's rights, one mapped elsewhere is copied and keeps
its own. A page already in HBM, or that the guest still translates, stays.
Log entry 83, DESIGN CHOICE. -/
def State.migrate (s : State) (part va entry page : Nat) (held : Bool) : State :=
  let f := bitsAt entry 16 36 + page
  let a := va / 65536
  match leafSlot s.mem (walkIndices (65536 * page)) (s.root part) with
  | none => s
  | some slot =>
    let old := readNat s.mem slot 8
    if held || page == a || decide (f < a) || decide (0xC00000 ≤ f - a) then s
    else if old % 2 = 0 then
      s.putMem slot (leBytes 8 (entry % 65536 + (f - a) * 65536 + entry / 2 ^ 52 * 2 ^ 52))
    else if bitsAt old 16 36 < 0xC00000 then s
    else
      (s.putMem (65536 * (f - a)) (readBytes s.mem (65536 * bitsAt old 16 36) 65536)).putMem slot
        (leBytes 8 (old % 65536 + (f - a) * 65536 + old / 2 ^ 52 * 2 ^ 52))

/-- R261: a page is migrated only while the guest holds no translation of it, or has been fenced. -/
def State.guestHolds (s : State) (va : Nat) : Bool :=
  s.guest.held.any (fun a => a / 65536 == va / 65536) && !s.hub.regs.guestFenced

/-- R261: the hub asks the guest to give up a translation. -/
def State.guestInvalidate (s : State) (va : Nat) : State :=
  let p := va / 65536
  if s.guest.invalidating.contains p then s
  else { s with guest := { s.guest with invalidating := s.guest.invalidating ++ [p] } }

/-- An operation's next event: its next line, or its completion. -/
def EngineOp.nextEvent (o : EngineOp) : Turn :=
  match o.kind with
  | .subs => .event (.subsSlotFill o.id)
  | _ => if o.hasLine then o.lineEvent else o.doneEvent

/-- R114, R119, R257: the operation whose event has been answered resumes, and its barrier leaves the faulted state,
unless a further operation on it has stopped meanwhile: then that one's record is the barrier's. -/
def State.resumeOp (s : State) (o : EngineOp) : State :=
  let other (x : EngineOp) : Bool := x.core == o.core && x.bank == o.bank && x.cb == o.cb && x.halted && x.drift.isNone &&
    x.saved.isNone && x.id != o.id
  let rec_ := (s.ops.find? other).bind fun x => x.stop.map fun k =>
    ({ kind := k, va := x.old, line := x.lineAt x.old, op := x.id } : FaultRec)
  let s := s.mapOp o.id fun o => { o with stop := none }
  let s := s.onBarrier o fun b => b.setCb o.cb { b.cb o.cb with record := rec_ }
  (s.onCoreBank o.core o.bank fun s => s.markFrame o.id false).later [o.nextEvent]

/-- R119, R139: the bank that waits on an event becomes ready; one that has kept its core resumes there, which is an
acquire. -/
def State.wakeBank (s : State) (ev core bank : Nat) : State :=
  let runs := (s.coreAt core).curBank == bank && (s.coreAt core).switching.isNone
  (s.onCoreBank core bank fun s =>
    let b := s.core.bank
    match b.run with
    | .event e back =>
      if e = ev then
        let s := if runs then s.acquire 4 else s
        s.setBank { b with released := true, run := (match back with
          | .reissue => .active
          | .cpyw n => .cpyw n
          | .ending => .ending) }
      else s
    | _ => s).rouse core

/-- R119: a walk, a placement, a delivery or a status write that waited on an event goes on. -/
def State.wakeHub (s : State) (ev : Nat) : State :=
  let s := s.hub.launches.foldl (fun s l =>
    let s := l.branches.foldl (fun s b =>
      if b.waitEv = some ev then
        let s := s.setHub (s.hub.mapLaunch l.id fun l => l.mapBranch b.id fun b => { b with waitEv := none })
        s.retryBranch l { b with waitEv := none }
      else s) s
    if l.endEv = some ev then
      (s.setHub (s.hub.mapLaunch l.id fun l => { l with endEv := none })).later
        [.event (if l.fault.isSome then .faultEndLaunch l.id else .launchEnd l.id)]
    else s) s
  let mine := s.hub.tasks.filter fun t => t.waitEv == some ev
  let tasks := s.hub.tasks.map fun t => if t.waitEv = some ev then { t with waitEv := none } else t
  let s := s.setHub { s.hub with tasks := tasks }
  mine.foldl (fun s t =>
    let n := match t.lrec with
      | some r => r.ins.length
      | none => 0
    let part := match s.hub.launch? t.launch with
      | some l => (s.hub.slotOf l).part
      | none => 0
    s.later (match t.run with
      | .posted | .saved => [.event (.taskPlace part)]
      | .placed => (List.range n).map fun i => .event (.moraineDelivery t.id i)
      | _ => (List.range 4).map fun i => .event (.outputPullDone t.id i))) s

/-- R119, R198: the neighbours' XROUTEs that waited on an event start anew. -/
def State.wakeRoutes (s : State) (ev : Nat) : State :=
  s.ports.foldl (fun s x =>
    let again := x.2.stalled.filter fun y => y.2 == ev
    let s := if again.isEmpty then s else s.mapPort x.1 fun p => { p with stalled := p.stalled.filter fun y => y.2 != ev }
    again.foldl (fun s y => s.takeRoute x.1 y.1) s) s

/-- R263 step 3: the hub writes the flag of a packet as a release, if the flag's address takes the write for the fenced
partition; on a page that is not present it waits for the event's answer. -/
def State.fenceFlag (s : State) (p : Packet) : State :=
  let va := field p.bytes 8 8
  let part := s.hub.regs.fencedPart
  if 0xF0 ≤ field p.bytes 0 1 then s
  else
    match s.hubXlat part va { write := true, user := true, read := false } with
    | .ok pa => (s.hubRelease (field p.bytes 4 1)).putFrom 16 pa (leBytes 8 (field p.bytes 16 8 + 2 ^ 63))
    | .absent =>
      let s := { s with guest := { s.guest with fenceDue := s.guest.fenceDue ++ [(s.hub.nextEvent, p)] } }
      s.setHub (s.hub.queueEvent p.launch 0xFFFF 0 none none va none true none (some part))
    | .denied => s.logErrorFor part va
    | .unbacked pa => s.logErrorFor part pa

/-- R263 step 3: the flags that waited on an event are written. -/
def State.fenceAgain (s : State) (ev : Nat) : State :=
  let ps := s.guest.fenceDue.filter fun x => x.1 == ev
  let s := { s with guest := { s.guest with fenceDue := s.guest.fenceDue.filter fun x => x.1 != ev } }
  ps.foldl (fun s x => s.fenceFlag x.2) s

/-- R119: what waited on an event goes on; of the guest's, a fence writes the flags that waited (R263), and the guest itself
tries again (R261). -/
def State.wakeEvent (s : State) (e : Event) : State :=
  match e.thread, e.op with
  | some n, _ =>
    let s := s.onCoreBank e.core e.bank fun s => s.setCore
      (let t := s.core.thread n
       if t.waitEv = some e.id then s.core.setThread n { t with waitEv := none } else s.core)
    (s.rouse e.core).later [.event (.driftOpComplete e.core n)]
  | none, some id =>
    match s.op? id with
    | some o => (if o.stop == some .translation then s.resumeOp o else s).wakeBank e.id o.core o.bank
    | none => s.wakeBank e.id e.core e.bank
  | none, none => ((s.wakeHub e.id).wakeRoutes e.id).fenceAgain e.id

/-- R110, R180: the tensor and the rights of the tile that an event names; a delivery's or a pull's is that of the descriptor
the event keeps, wherever its task has gone since. -/
def State.eventTile (s : State) (e : Event) : Option (Nat × Bool × Tensor × Nat) :=
  match e.op.bind s.op? with
  | some o =>
    match o.tensorOf ((s.coreAt o.core).bankAt o.bank) with
    | some t => some (o.part, o.user, t, o.old / 2 ^ 32)
    | none => none
  | none =>
    match e.tile, e.desc with
    | some x, some t =>
      some ((match (e.launch.bind s.hub.launch?) with
        | some l => (s.hub.slotOf l).part
        | none => 0), true, t, x.2)
    | _, _ => none

/-- R117: the partition an event's access belongs to. -/
def State.eventPart (s : State) (e : Event) : Nat :=
  match e.part, e.launch.bind s.hub.launch? with
  | some p, _ => p
  | none, some l => (s.hub.slotOf l).part
  | none, none => if e.guest then s.hub.regs.guestPart else s.hub.partOfCore e.core

/-- R119, R120: the step EVENT_ANSWER: the supervisor or the host has placed an entry where the access met P = 0, and marks
the event answered: what waited goes on. An answer by migration of a page runs the prefetcher with the page's address, that
of a tile table's page too; one of a tile does not.
Log entry 39, DEDUCED.
Log entry 85, DESIGN CHOICE. -/
def execEventAnswer (ev : Nat) (entry : BitVec 64) (s : State) : Out :=
  match s.hub.events.find? (fun e => e.id == ev) with
  | none => .next s
  | some e =>
    let tile := s.eventTile e
    let hit := match tile with
      | some x => s.absentTile x.1 x.2.1 x.2.2.1 x.2.2.2
      | none => (s.absentPte (s.eventPart e) e.va).map fun pa => (pa, none)
    let part := match tile with
      | some x => x.1
      | none => s.eventPart e
    let page : Option Nat := match tile with
      | some _ => hit.bind (·.2)
      | none => some e.va
    if page.any s.guestHolds then
      .next ((s.guestInvalidate (page.getD 0)).later [.event (.eventAnswer ev entry)])
    else
      let va := page.getD 0
      let move := page.isSome && decide (bitsAt entry.toNat 16 36 < 0xC00000)
      let x := if move then s.prefetch part va else (0, s)
      let s := match hit with
        | some h => x.2.putMem h.1 (leBytes 8 entry.toNat)
        | none => x.2
      let first := va / max 1 x.1 * x.1 / 65536
      let s := if move && hit.any (fun h => some h.1 == leafSlot s.mem (walkIndices va) (s.root part)) then
          (List.range (x.1 / 65536)).foldl (fun s i =>
            s.migrate part va entry.toNat (first + i) (s.guestHolds (65536 * (first + i)))) s
        else s
      .next ((s.setHub { s.hub with events := s.hub.events.filter fun x => x.id != ev }).wakeEvent e)

/-! ### Subscriptions -/

/-- R173: a subscription block keeps its rules, apart from what it names. -/
def subsOk (bs : List Byte) : Bool :=
  decide (field bs 0 2 < 4096) && decide (1 ≤ field bs 3 1) && decide (field bs 3 1 ≤ 16) &&
  decide (field bs 4 1 ≤ 2) && zeroBytes bs 5 3 && zeroBytes bs 38 2 && zeroBytes bs 48 16 &&
  (List.range 5).all (fun d => decide (1 ≤ field bs (28 + 2 * d) 2)) &&
  decide (field bs 2 1 + field bs 3 1 * 2 ^ field bs 4 1 ≤ 16)

/-- R173: the subscription of a block. -/
def subOf (bs : List Byte) (op hint cb : Nat) (t : Tensor) : Sub :=
  { op := op, cb := cb, tid := field bs 0 2, tensor := t, first := field bs 2 1, nslot := field bs 3 1, size := field bs 4 1,
    start := (List.range 5).map fun d => field bs (8 + 4 * d) 4,
    box := (List.range 5).map fun d => field bs (28 + 2 * d) 2, stat := field bs 40 8, delivered := 0,
    freed := 2 ^ field bs 3 1 - 1, hint := hint }

/-- R174: the units of a subscription. -/
def Sub.units (u : Sub) : List Nat := (List.range (u.nslot * 2 ^ u.size)).map (u.first + ·)

/-- R173, R174, R374: SUBS. An empty entry of the tensor table, and a box extent of 0, raise cause 0x01.
Log entry 91, DESIGN CHOICE. -/
def execSubs (o : COp) (s : State) : Out :=
  s.primaryOnly o.g fun s =>
    let a := s.ea o
    s.captured a 64 64 fun bs s =>
      match (if subsOk bs then sget s.core.bank.tensors (field bs 0 2) else none) with
      | none => s.raise 0x01
      | some t =>
        let b := s.core.bank
        let u := subOf bs s.nextOp o.hint.toNat o.cb.toNat t
        match s.checkLocal u.stat 8 8 with
        | some c => s.raiseWith c 0 u.stat 0
        | none =>
          if u.units.any (fun n => lineMask (unitAddr s.core.curBank n / 128) 512 &&& ~~~b.pins != 0) then
            s.raiseWith 0x06 0 (unitAddr s.core.curBank u.first) 0
          else if u.units.any (fun n => b.unitsInUse.contains n) then s.raise 0x0A
          else if 4 ≤ b.subs.length || !(b.barrierRoom o.cb.toNat) then s.raise 0x04
          else
            let s := (s.releaseHere o.scope.toNat).startOp o.cb.toNat o.hint.toNat .subs none none fun id =>
              [.event (.subsSlotFill id)]
            .next (s.setBank { s.core.bank with subs := s.core.bank.subs ++ [u] })

/-- R174: the tile coordinates of the next slot. -/
def Sub.nextTiles (u : Sub) : List (List Nat) :=
  let k := u.delivered * 2 ^ u.size
  (List.range (min (2 ^ u.size) (u.tiles - k))).map fun i => boxCoord u.start u.box (k + i)

/-- R110, R111: a tile's number from its coordinates in tiles; none outside the extents. -/
def Tensor.tileOf (t : Tensor) (c : List Nat) : Option Nat :=
  if (List.zipWith (fun x n => decide (x < n)) c t.counts).all id then some (mixed c t.counts) else none

/-- R174: the slot that the next fill takes, and whether it may be filled. -/
def Sub.open_ (u : Sub) : Bool := u.freed.testBit (u.delivered % u.nslot)

/-- R111, R174: the bytes of a slot's tiles; elements outside the extents read zero. -/
def State.slotBytes (s : State) (t : Tensor) (fs : List (Nat × Nat)) (tiles : List (Option Nat)) : List Byte :=
  tiles.flatMap fun x =>
    match x.bind fun n => fs.find? fun f => f.1 == n with
    | some f => t.readTile s.mem f.1 f.2
    | none => List.replicate 65536 0

/-- R137, R142, R174, R374, R375: a slot has landed: STAT is written as a release, with the clock of the base die that
delivered it, and the next fill is due or the walk ends. The subscription stays active until its barrier completes. -/
def State.slotLanded (s : State) (o : EngineOp) (u : Sub) : State :=
  let slot := u.delivered % u.nslot
  let v := { u with delivered := u.delivered + 1, freed := u.freed - 2 ^ slot }
  let s := s.asOp o fun s =>
    let s := ((s.dieRelease o.old 3).carry o.old (dieOf s.cur)).deliver u.stat (leBytes 8 v.delivered)
    let b := s.core.bank
    s.setBank { b with subs := b.subs.map fun x => if x.op = u.op then v else x }
  let s := s.mapOp o.id fun x => { x with done := 0, data := [] }
  if v.fills ≤ v.delivered then s.finishOp o none
  else if v.open_ then s.later [.event (.subsSlotFill o.id)] else s

/-- R142, R174: a line of a slot lands, from the bytes read for the slot and with the clock of its base die. -/
def State.slotLine (s : State) (o : EngineOp) (base die : Nat) (bytes : List Byte) : State :=
  let s := s.asOp o fun s => (s.carry die (dieOf s.cur)).deliver (base + 128 * o.done) ((bytes.drop (128 * o.done)).take 128)
  (s.mapOp o.id fun x => { x with done := o.done + 1, old := die, data := bytes }).later [.event (.subsSlotFill o.id)]

/-- R104, R106: the lines of whole tiles pass the L2 of an operation's die with its hint. -/
def State.touchWhole (s : State) (o : EngineOp) (fs : List (Nat × Nat)) : State :=
  fs.foldl (fun s f => (List.range 512).foldl (fun s l => s.touchL2 (dieOf o.core) (f.2 + 128 * l) o.hint) s) s

/-- R111, R114: the number by which a fault record names a tile of a walk, from its coordinates in tiles.
Log entry 69, DESIGN CHOICE. -/
def Tensor.tileName (t : Tensor) (c : List Nat) : Nat := mixed c t.counts

/-- R37, R89, R111, R174, R353, R375: the next line of the slot of a subscription, or STAT once all have landed; each is held
by a tracked read and by a port that is taken, and comes again. The tiles are read, and their edges checked, with the slot's
first line.
Log entry 69, DESIGN CHOICE. -/
def State.fillSub (s : State) (o : EngineOp) (u : Sub) : State :=
  let base := unitAddr o.bank (u.first + 2 ^ u.size * (u.delivered % u.nslot))
  let again : Turn := .event (.subsSlotFill o.id)
  if !u.open_ || decide (u.fills ≤ u.delivered) then s
  else if 512 * 2 ^ u.size ≤ o.done then
    if s.deliveryHeld o.core o.bank (u.stat / 128) then s.retryOp o again else s.slotLanded o u
  else if s.deliveryHeld o.core o.bank (base / 128 + o.done) then s.retryOp o again
  else if 0 < o.done then s.slotLine o base o.old o.data
  else
    let tiles := u.nextTiles.map u.tensor.tileOf
    match u.nextTiles.find? fun c => u.tensor.edgeFault (u.tensor.tileOf c) with
    | some c => s.stopOp o .protection (tileCode u.tid (u.tensor.tileName c)) base
    | none => s.opTiles o u.tensor u.tid base false (sortNats (tiles.filterMap id)) fun fs s =>
        (s.touchWhole o fs).slotLine o base (match fs with
          | f :: _ => homeOf f.2
          | [] => 16) (s.slotBytes u.tensor fs tiles)

/-- R174, R375: the step SUBS_SLOT_FILL: a line of the next slot of a walk lands, once the slot is free; a walk stands still
while its bank does not run, but for the slot in flight.
Log entry 61, DEDUCED. -/
def execSubsSlotFill (id : Nat) (s : State) : Out :=
  match s.op? id with
  | none => .next s
  | some o =>
    let c := s.coreAt o.core
    match (c.bankAt o.bank).subs.find? (fun u => u.op == id) with
    | none => .next s
    | some u =>
      .next (if !o.live then s
        else if (c.curBank ≠ o.bank || c.switching.isSome) && o.done = 0 then s.retryOp o (.event (.subsSlotFill id))
        else s.fillSub o u)

/-- R175: a unit is the first of a slot of a subscription. -/
def Sub.slotAt (u : Sub) (n : Nat) : Option Nat :=
  if u.first ≤ n && (n - u.first) % 2 ^ u.size == 0 && decide ((n - u.first) / 2 ^ u.size < u.nslot) then
    some ((n - u.first) / 2 ^ u.size)
  else none

/-- R175, R374: SLOTDN. -/
def execSlotdn (o : COp) (s : State) : Out :=
  s.primaryOnly o.g fun s =>
    let n := o.data.toNat
    let b := s.core.bank
    let ins := match b.task with
      | some t => t.inUnits
      | none => []
    let outs := match b.task with
      | some t => t.outUnits.filter fun u => !(t.marked.contains u)
      | none => []
    if outs.contains n then .next (s.markOutput n)
    else
      match b.subs.find? (fun u => (u.slotAt n).isSome) with
      | some u =>
        let k := (u.slotAt n).getD 0
        let v := { u with freed := u.freed ||| 2 ^ k }
        .next ((s.setBank { b with subs := b.subs.map fun x => if x.op = u.op then v else x }).later
          [.event (.subsSlotFill u.op)])
      | none => if ins.contains n then .next s else s.raise 0x01

end Sys2Proof.Machine
end

