-- ==== Sys2Proof/Machine/Launch.lean ====
section
/-! DEFINITION. Messages and launches: matching, arming, the start and the end of a launch, the end by a fault, and
the nodes of task graphs (08 R150-R156, R164-R168; 11 R206; 05 R117). -/

namespace Sys2Proof.Machine

/-! ### Messages and arming -/

/-- R153: the armed slot that holds a tag. -/
def Hub.match? (h : Hub) (tag : Nat) : Option (Nat × ArmSlot) := h.slots.find? fun x => x.2.armed && x.2.tag == tag

/-- R153, R154: the step TAGGED_MESSAGE: the hub matches a message: a launch starts, a fire is queued, or the message
is dropped and counted. One that the host's port has queued leaves its queue. -/
def execTaggedMessage (m : Message) (s : State) : Out :=
  let s := if m.dest = 1 then s.setHub { s.hub with portQueue := s.hub.portQueue.erase m } else s
  let r := s.hub.regs
  match s.hub.match? m.tag.toNat with
  | none => .next (s.setRegs { r with unmatched := r.unmatched + 1 })
  | some (n, a) =>
    if a.running.isNone then .next (s.fire n m)
    else if a.queued.length < 4 then .next (s.setHub (s.hub.setSlot n { a with queued := a.queued ++ [m] }))
    else .next ((s.setRegs { r with overflow := r.overflow + 1 }).errorReply m)

/-- R150: an arm block keeps its rules. -/
def armOk (bs : List Byte) : Bool :=
  let stat := field bs 32 8
  decide (field bs 6 1 < 4) && decide (field bs 7 1 < 8) && field bs 8 8 % 64 == 0 && decide (field bs 30 1 ≤ 25) &&
  decide (field bs 31 1 < 4) && (stat == 0 || (stat % 64 == 0 && canonical stat && decide (2 ^ 32 ≤ stat))) &&
  zeroBytes bs 40 24

/-- R151: what RESULT takes; of several refusals 2, then 3, then 4.
Log entry 72, DESIGN CHOICE. -/
def Hub.armCode (h : Hub) (slot : Nat) (bs : List Byte) : Nat :=
  let a := h.slot slot
  let tag := field bs 0 6
  if a.armed || a.running.isSome then 2
  else if tag = 0 || (h.match? tag).isSome then 3
  else if !(armOk bs) then 4
  else 1

/-- R150: the slot of an arm block. -/
def armSlotOf (bs : List Byte) : ArmSlot :=
  { armed := true, tag := field bs 0 6, part := field bs 6 1, prio := field bs 7 1, graph := field bs 8 8,
    args := BitVec.ofNat 64 (field bs 16 8), rtag := field bs 24 6, rdest := field bs 30 1, flags := field bs 31 1,
    stat := field bs 32 8, queued := [], running := none }

/-- R151: RESULT written in the issuing bank's window while its line is still pinned by it.
Log entry 45, DEDUCED. -/
def State.putResult (s : State) (bank a code : Nat) : State :=
  s.onBank bank fun s => if s.core.bank.pins.getLsbD (a / 128) then s.deliver a (leBytes 8 code) else s

/-- R151: the step ARM_RESULT: the hub acts on the oldest request of a core and writes RESULT as a release. -/
def execArmResult (core : Nat) (s : State) : Out :=
  match (s.coreAt core).hubq with
  | [] => .next s
  | q :: qs =>
    let s := s.onCore core fun s => s.setCore { s.core with hubq := qs }
    match q with
    | .disarm n => .next (s.disarmSlot n)
    | .arm n bs a bank =>
      let code := s.hub.armCode n bs
      let s := if code = 1 then s.setHub (s.hub.setSlot n (armSlotOf bs)) else s
      .next ((s.hubRelease 3).onCore core fun s => s.putResult bank a code)

/-! ### The start of a launch -/

/-- The partition of a launch. -/
def Hub.partOf (h : Hub) (l : Launch) : Nat := (h.slotOf l).part

/-- A partition. -/
def Hub.part (h : Hub) (p : Nat) : Partition := if hp : p < 4 then h.parts[p] else Partition.clear

/-- R155: the launches of a partition that run. -/
def Hub.runningIn (h : Hub) (p : Nat) : List Launch := h.launches.filter fun l => !l.queued && h.partOf l == p

/-- R155: of two launches, the one that leaves the queue first: higher priority, then lower id. -/
def Hub.firstOf (h : Hub) (a b : Launch) : Launch :=
  if (h.slotOf b).prio < (h.slotOf a).prio then a
  else if (h.slotOf a).prio < (h.slotOf b).prio then b
  else if b.id < a.id then b else a

/-- R155: the next launch of a partition's queue. -/
def Hub.nextLaunch (h : Hub) (p : Nat) : Option Launch :=
  match h.launches.filter (fun l => l.queued && h.partOf l == p) with
  | [] => none
  | l :: ls => some (ls.foldl h.firstOf l)

/-- R155, R164: the step LAUNCH_START: while fewer than 8 launches of a partition run, the next of its queue starts
and its walk enters node 0. A halted partition starts none. -/
def execLaunchStart (part : Nat) (s : State) : Out :=
  let h := s.hub
  if (h.part part).halted || h.regs.fatal || 8 ≤ (h.runningIn part).length then .next s
  else
    match h.nextLaunch part with
    | none => .next s
    | some l =>
      let b : Branch := { id := 0, at_ := .node 0, waitEv := none, block := [], mark := 0, msg := [] }
      let s := s.setHub (h.mapLaunch l.id fun l => { l with queued := false, branches := [b] })
      .next ((s.enterNode l.id 0 0).later [.event (.launchStart part)])

/-! ### The end of a launch -/

/-- R156, R206: the status block. -/
def statusBlock (l : Launch) : List Byte :=
  match l.fault with
  | none => leBytes 8 0 ++ leBytes 8 l.id ++ leBytes 48 0
  | some r =>
    let w := l.faultAt.getD (0xFFFF, 0, 0, 0, 0)
    leBytes 8 r.cause ++ leBytes 8 l.id ++ leBytes 8 w.2.2.2.2.toNat ++ leBytes 2 w.1 ++ leBytes 1 w.2.1 ++
      leBytes 1 (r.thread.getD 0xFF) ++ leBytes 4 w.2.2.1 ++ leBytes 4 w.2.2.2.1 ++ leBytes 8 r.addr ++
      leBytes 8 r.aux ++ leBytes 12 0

/-- Lexicographic order of digest keys: node, entry, y, x. -/
def keyLe : List Nat → List Nat → Bool
  | x :: xs, y :: ys => decide (x < y) || (x == y && keyLe xs ys)
  | _, _ => true

/-- Insert a task digest in its order. -/
def insertKey (d : List Nat × Word) : List (List Nat × Word) → List (List Nat × Word)
  | [] => [d]
  | e :: es => if keyLe d.1 e.1 then d :: e :: es else e :: insertKey d es

/-- R237: the step digest of a launch. -/
def Launch.stepDigest (l : Launch) : Word :=
  let ds := l.digests.foldl (fun xs d => insertKey d xs) []
  BitVec.ofNat 64 (crc64 0 (ds.flatMap fun d => leBytes 8 d.2.toNat))

/-- R237: replication is on. -/
def HubRegs.replOn (r : HubRegs) : Bool := decide (2 ≤ r.replN) && decide (r.replN ≤ 8)

/-- R176: a partition has no launch. -/
def Hub.idle (h : Hub) (p : Nat) : Bool := !(h.launches.any fun l => h.partOf l == p)

/-- R156, R237: the launch leaves the hub; the slot takes its next queued fire, and the partition's queue advances. -/
def State.dropLaunch (s : State) (l : Launch) : State :=
  let h := s.hub
  let a := h.slotOf l
  let step := h.regs.replOn && h.regs.replSlot == l.slot
  let parts := h.parts.map fun p => { p with saved := p.saved.filter fun v =>
    !(h.tasks.any fun t => t.id == v.task && t.launch == l.id) }
  let regs := if step then { h.regs with replDigest := l.stepDigest } else h.regs
  let h := { h.setSlot l.slot { a with running := none, queued := a.queued.drop 1 } with
    launches := h.launches.filter (fun x => x.id != l.id), tasks := h.tasks.filter (fun t => t.launch != l.id),
    gangs := h.gangs.filter (fun g => !(h.tasks.any fun t => t.id == g.id && t.launch == l.id)),
    audits := h.audits.filter (fun x => x.launch != l.id),
    events := h.events.filter (fun e => e.launch != some l.id), parts := parts, regs := regs }
  let s := (s.setHub h).later (if step then [.event (.replicaStep a.part)] else [])
  let s := match a.queued with
    | m :: _ => s.fire l.slot m
    | [] => s
  s.later [.event (.launchStart a.part), .event (.taskPlace a.part), .event (.spareSubstitute a.part)]

/-- R156: the completion message of a launch, as a release with the status write. -/
def State.completion (s : State) (l : Launch) : State :=
  let a := s.hub.slotOf l
  let s := s.hubRelease (if 2 ≤ a.rdest && a.rtag != 0 then 4 else 3)
  if a.rtag = 0 then s
  else s.sendMessage { tag := BitVec.ofNat 48 a.rtag, dest := BitVec.ofNat 8 a.rdest,
                       payload := BitVec.ofNat 64 a.stat, rtag := 0, rdest := 0 }

/-- R156: the end of a launch: the status block through the partition's page tables with supervisor rights, the
completion message, and the next fire. A page that is not present delays it. -/
def State.finishLaunch (s : State) (l : Launch) : State :=
  let a := s.hub.slotOf l
  if a.stat = 0 then (s.completion l).dropLaunch l
  else
    match s.hubXlat a.part a.stat { write := true, user := false, read := false } with
    | .ok pa => ((s.putFrom 16 pa (statusBlock l)).completion l).dropLaunch l
    | .absent =>
      let ev := s.hub.nextEvent
      let h := s.hub.queueEvent (some l.id) 0xFFFF 0 none none a.stat none false
      s.setHub (h.mapLaunch l.id fun l => { l with endEv := some ev })
    | .denied => (((s.logErrorFor a.part a.stat).completion l).dropLaunch l)
    | .unbacked pa => (((s.logErrorFor a.part pa).completion l).dropLaunch l)

/-- R164: every branch of a launch has ended. -/
def Launch.walked (l : Launch) : Bool := l.branches.all fun b => b.at_ == .ended

/-- R156, R236: the step LAUNCH_END: a launch whose branches, tasks and audits have all ended ends. -/
def execLaunchEnd (launch : Nat) (s : State) : Out :=
  match s.hub.launch? launch with
  | none => .next s
  | some l =>
    .next (if l.queued || l.fault.isSome || l.endEv.isSome || !l.walked || !(s.hub.allEnded l.id s.hub.nextTask) ||
        (s.hub.audits.any fun x => x.launch == l.id && !x.decided) then s
      else s.finishLaunch l)

/-! ### The end by a fault (11 R206) -/

/-- The core and bank of each member of a task that holds one. -/
def Task.places (t : Task) : List (Nat × Nat) := t.cores.map fun c => (c, t.bank)

/-- A bank holds a task of a launch. -/
def Bank.ofLaunch (b : Bank) (launch : Nat) : Bool :=
  match b.task with
  | some t => t.launch == launch
  | none => false

/-- The banks that hold a task of a launch. -/
def State.banksOf (s : State) (launch : Nat) : List (Nat × Nat) :=
  ((s.hub.tasks.filter fun t => t.launch == launch).flatMap Task.places).eraseDups.filter fun x =>
    ((s.coreAt x.1).bankAt x.2).ofLaunch launch

/-- R206 step 1: the running bank stops at its bundle boundary: its results land and its drift threads stop. -/
def State.stopBank (s : State) : State :=
  let s := s.drain
  let c := s.core
  let threads := c.threads.map fun t =>
    if t.bank = c.curBank then { t with running := false, busy := false, due := none, eff := .none, waitEv := none } else t
  s.setCore { c with threads := threads, bank := { c.bank with run := .stopped, heldWrites := [] } }

/-- R206 step 2: an operation that cannot come to an end of its own: one that has stopped, waits for other agents,
or follows the task's own slots. -/
def EngineOp.idle (o : EngineOp) : Bool :=
  o.halted || o.saved.isSome ||
  match o.kind with
  | .barr _ _ _ _ old held => held || old.isSome
  | .lsend _ _ _ _ => !o.paired || o.old == 1
  | .lrecv _ _ _ _ | .lradd _ _ _ _ _ => !o.paired
  | .xroute _ _ _ _ _ => o.paired
  | .subs => true
  | _ => false

/-- R206 step 2: operations that cannot end are dropped, with their place in a port's queues. -/
def State.dropIdle (s : State) (banks : List (Nat × Nat)) : State :=
  let gone (o : EngineOp) : Bool := banks.contains (o.core, o.bank) && o.idle
  let ids := (s.ops.filter gone).map (·.id)
  let ports := s.ports.map fun x => (x.1, { x.2 with sends := x.2.sends.filter fun y => !(ids.contains y.2),
                                                     recvs := x.2.recvs.filter fun y => !(ids.contains y.2) })
  { s with ops := s.ops.filter fun o => !(gone o), ports := ports }

/-- R232, R236: a quarantined cell is tested once it runs no task. -/
def State.testQuarantined (s : State) (n : Nat) : State :=
  let c := s.hub.cell n
  if c.run == .quarantined && c.testing.isNone && !(s.cellBusy n) then s.startTest n 0 none else s

/-- R206 step 3: a bank of the launch is released. -/
def State.freeBank (s : State) (x : Nat × Nat) : State :=
  let s := s.onCoreBank x.1 x.2 fun s => s.setBank s.core.bank.vacate
  (s.testQuarantined (cellOf x.1)).rouse x.1

/-- R206: the step FAULT_END_LAUNCH: the banks stop, their engine operations run to their ends, pinned lines, units
and allotments are released, and the status block is written. -/
def execFaultEndLaunch (launch : Nat) (s : State) : Out :=
  match s.hub.launch? launch with
  | none => .next s
  | some l =>
    if l.fault.isNone || l.endEv.isSome then .next s
    else
      let banks := s.banksOf launch
      let s := banks.foldl (fun s x => s.onCoreBank x.1 x.2 State.stopBank) s
      let s := s.dropIdle banks
      match s.ops.find? (fun o => banks.contains (o.core, o.bank)) with
      | some _ => .next (s.later [.event (.faultEndLaunch launch)])
      | none => .next ((banks.foldl State.freeBank s).finishLaunch l)

/-! ### Nodes -/

/-- R164: a branch of a launch that stands at a node of a kind, whose bytes it has read. -/
def Hub.branchAt (h : Hub) (launch br kind : Nat) : Option (Launch × Branch × Nat) :=
  match h.launch? launch with
  | none => none
  | some l =>
    if l.fault.isSome then none
    else
      match l.branches.find? (fun b => b.id == br) with
      | none => none
      | some b =>
        match b.at_ with
        | .ended => none
        | .node n => if b.waitEv.isNone && b.block.length == 64 && field b.block 0 1 == kind then some (l, b, n) else none

/-- R164: NEXT and ALT of a node. -/
def nodeNext (bs : List Byte) : Nat := field bs 4 4
/-- R164: ALT. -/
def nodeAlt (bs : List Byte) : Nat := field bs 8 4

/-- R164: the branch goes on at NEXT, and ALT forks a second branch. -/
def State.goOn (s : State) (launch br : Nat) (bs : List Byte) : State :=
  (s.enterNode launch br (nodeNext bs)).fork launch (nodeAlt bs)

/-- R165: the task at (x, y) of an entered TASKSET. -/
def taskOf (id : Nat) (l : Launch) (node entry x y prio : Nat) (bs : List Byte) : Task :=
  { id := id, launch := l.id, node := node, entry := entry, x := x, y := y,
    stencil := BitVec.ofNat 64 (field bs 28 8),
    prod := if field bs 12 4 = noNode then none else some (field bs 12 4), recAddr := field bs 16 8, lrec := none,
    prio := prio, waited := 0, since := none, run := .posted, retired := false, cores := [], bank := 0, landed := [], resident := [], pulls := [],
    trets := [], ends := [], digest := none, folds := [], outData := [], audit := none, auditOf := none, banned := [],
    started := 0, qth := 64, waitEv := none }

/-- R165: the step NODE_TASKSET: once the tasks of an earlier entry have retired, the node's W × H tasks are posted
with a clear scoreboard, and the walk goes on. -/
def execNodeTaskset (launch br : Nat) (s : State) : Out :=
  match s.hub.branchAt launch br 1 with
  | none => .next s
  | some (l, b, n) =>
    let bs := b.block
    let e := (sget l.entries n).getD 0
    if s.hub.tasks.any (fun t => t.launch == launch && t.node == n && t.auditOf.isNone && !t.retired) then .next s
    else
      let w := field bs 24 2
      let ht := field bs 26 2
      let id := s.hub.nextTask
      let prio := (s.hub.slotOf l).prio
      let tasks := (List.range (w * ht)).map fun i => taskOf (id + i) l n (e + 1) (i % w) (i / w) prio bs
      let board : Board := { node := n, w := w, h := ht, retired := [] }
      let h := s.hub.mapLaunch launch fun l =>
        { l with entries := sput l.entries n (e + 1), boards := board :: l.boards.filter fun x => x.node != n }
      let s := s.setHub { h with tasks := h.tasks ++ tasks, nextTask := id + w * ht }
      .next ((s.goOn launch br bs).later [.event (.taskPlace (s.hub.slotOf l).part)])

/-- R165: a node that waits until the tasks posted before it was entered have retired and ended. -/
def State.waitNode (s : State) (launch br kind : Nat) (k : Launch → Branch → Nat → State → State) : Out :=
  match s.hub.branchAt launch br kind with
  | none => .next s
  | some (l, b, n) => .next (if s.hub.allEnded launch b.mark then k l b n s else s)

/-- The condition word that a node names. -/
def Launch.nodeWord (l : Launch) (bs : List Byte) : Word := l.word (field bs 1 1 % 16)

/-- R164, R165: the step NODE_COND. -/
def execNodeCond (launch br : Nat) (s : State) : Out :=
  s.waitNode launch br 2 fun l b _ s =>
    s.enterNode launch br (if l.nodeWord b.block ≠ 0 then nodeNext b.block else nodeAlt b.block)

/-- R164, R165: the step NODE_WHILE: the body while the word is not 0 and fewer than LIMIT passes have run. -/
def execNodeWhile (launch br : Nat) (s : State) : Out :=
  s.waitNode launch br 3 fun l b n s =>
    let limit := field b.block 12 4
    let done := (sget l.passes n).getD 0
    let body := l.nodeWord b.block ≠ 0 && (limit == 0 || decide (done < limit))
    let s := s.setHub (s.hub.mapLaunch launch fun l => { l with passes := sput l.passes n (if body then done + 1 else 0) })
    s.enterNode launch br (if body then nodeNext b.block else nodeAlt b.block)

/-- R167: the successor that a count takes. -/
def bucketOf (m : Nat) : Nat := if m ≤ 64 then 0 else ((List.range 8).find? fun j => decide (m ≤ 64 * 2 ^ j)).getD 7

/-- R165, R167: the step NODE_BUCKET. -/
def execNodeBucket (launch br : Nat) (s : State) : Out :=
  s.waitNode launch br 4 fun l b _ s =>
    s.enterNode launch br (field b.block (4 + 4 * bucketOf (l.nodeWord b.block).toNat) 4)

/-- R164: the step NODE_JOIN: the branch goes on at the last of COUNT arrivals; at the others it ends. -/
def execNodeJoin (launch br : Nat) (s : State) : Out :=
  match s.hub.branchAt launch br 5 with
  | none => .next s
  | some (l, b, n) =>
    let k := (sget l.joins n).getD 0 + 1
    let last := decide (field b.block 12 4 ≤ k)
    let s := s.setHub (s.hub.mapLaunch launch fun l => { l with joins := sput l.joins n (if last then 0 else k) })
    .next (if last then s.goOn launch br b.block else s.enterNode launch br noNode)

/-- R165: the message leaves as a release, and the walk goes on. -/
def State.nodeSend (s : State) (launch br : Nat) (b : Branch) : State :=
  let m := messageOf b.msg
  ((s.hubRelease (if 2 ≤ m.dest.toNat then 4 else 3)).sendMessage m).goOn launch br b.block

/-- R164, R165: the step NODE_MESSAGE: the block is read and checked when the node is entered; it is sent once the
earlier tasks have ended.
Log entry 26, DEDUCED. -/
def execNodeMessage (launch br : Nat) (s : State) : Out :=
  match s.hub.branchAt launch br 6 with
  | none => .next s
  | some (l, b, _) =>
    if b.msg.length = 64 then .next (if s.hub.allEnded launch b.mark then s.nodeSend launch br b else s)
    else
      let a := field b.block 16 8
      if a % 64 ≠ 0 then .next (s.graphFault launch 0x0B a)
      else
        match s.hubRead (s.hub.slotOf l).part a 64 true with
        | .event va => .next (s.branchEvent launch br va)
        | .fault va x => .next ((s.logErrorFor (s.hub.slotOf l).part x).graphFault launch 0x0D va)
        | .ok bs =>
          if !(messageOk bs) || decide (25 < field bs 22 1) then .next (s.graphFault launch 0x0B a)
          else
            let b := { b with msg := bs }
            let s := s.setHub (s.hub.mapLaunch launch fun l => l.mapBranch br fun _ => b)
            .next (if s.hub.allEnded launch b.mark then s.nodeSend launch br b else s)

/-- R232: a cell of a partition that runs no task and no test. -/
def State.cellIdle (s : State) (part n : Nat) : Bool :=
  let c := s.hub.cell n
  c.run == .enabled && c.part == some part && c.testing.isNone && !(s.cellBusy n)

/-- R165, R232: the step NODE_TEST: self-test starts on up to the named number of idle cells. -/
def execNodeTest (launch br : Nat) (s : State) : Out :=
  match s.hub.branchAt launch br 7 with
  | none => .next s
  | some (l, b, _) =>
    let part := (s.hub.slotOf l).part
    let cells := ((List.range 64).filter fun n => s.cellIdle part n).take (field b.block 1 1)
    .next ((cells.foldl (fun s n => s.startTest n 0 none) s).goOn launch br b.block)

end Sys2Proof.Machine
end

