-- ==== Sys2Proof/Machine/Place.lean ====
section
/-! DEFINITION. Loop records, the placement of tasks, the delivery of declared inputs, the start of a task, the pull of
declared outputs and the end of a task (08 R157-R162, R168-R172, R175-R179; 11 R233, R234). -/

namespace Sys2Proof.Machine

/-! ### Loop records -/

/-- R157: a tile reference. -/
def refOf (w : Nat) : TileRef :=
  { tensor := w % 4096, dx := signedOf 6 (bitsAt w 12 6), dy := signedOf 6 (bitsAt w 18 6), swap := w.testBit 24,
    cores := bitsAt w 28 4 }

/-- R157: the loop record of 64 bytes. -/
def recordOf (bs : List Byte) : LoopRec :=
  let shape := field bs 18 1
  let tiles := field bs 21 1
  let refs := (List.range 10).map fun i => refOf (field bs (24 + 4 * i) 4)
  { code := field bs 0 8, pro := field bs 8 2, ker := field bs 10 2, epi := field bs 12 2, trip := field bs 14 4,
    stages := shape % 8 + 1, kind := shape / 8 % 8, rot := field bs 19 1, vu := field bs 20 1 % 16,
    at_ := field bs 20 1 / 16, klen := field bs 22 2, ins := refs.take (tiles % 8),
    outs := (refs.drop (tiles % 8)).take (tiles / 8 % 8) }

/-- The number of cores in a set of cell positions. -/
def coreCount (m : Nat) : Nat := ((List.range 4).filter fun p => m.testBit p).length

/-- R157, R158: the tile references of a record keep their rules. -/
def refsOk (bs : List Byte) (r : LoopRec) : Bool :=
  let n := r.ins.length + r.outs.length
  (List.range 10).all (fun i =>
    let w := field bs (24 + 4 * i) 4
    if i < n then bitsAt w 25 3 == 0 else w == 0) &&
  r.outs.all (fun o => coreCount o.cores == 1) && (r.kind != 0 || (r.ins ++ r.outs).all fun o => o.cores == 1)

/-- R158: a record keeps its rules, over a code image of `words` words. CODE not a multiple of 64, NIN 7 and NOUT from 5
up break R157's table and are refused like the cases of R158.
Log entry 73, DEDUCED. -/
def recordOk (bs : List Byte) (words : Nat) : Bool :=
  let r := recordOf bs
  decide (r.klen ≤ 256) && decide (field bs 18 1 < 64) && decide (r.kind < 6) && decide (field bs 21 1 < 64) &&
  decide (field bs 21 1 % 8 ≤ 6) && decide (field bs 21 1 / 8 ≤ 4) && r.code % 64 == 0 &&
  r.rot % 8 == 0 && decide (r.rot ≤ 128) && decide (r.rot ≤ 32 * r.vu) && decide (r.vu ≤ 12) && decide (r.at_ ≤ 8) &&
  decide (r.pro < words) && decide (r.ker < words) && decide (r.epi < words) &&
  (r.klen != 0 || (r.ker == 0 && r.epi == 0)) && (r.kind ≤ 1 || (r.ins.isEmpty && r.outs.isEmpty)) && refsOk bs r

/-- R158: the physical address of code at a virtual address, when its page is readable by the task. -/
def State.codePage (s : State) (part va : Nat) : Option Nat :=
  match s.hubXlat part va { write := false, user := true, read := true } with
  | .ok pa => some pa
  | _ => none

/-- R158: the parts of a code image, at most 56 KiB, that lie in readable pages up to the first that does not. -/
def State.codeParts (s : State) (part : Nat) : List (Nat × Nat) → List (Nat × Nat)
  | [] => []
  | p :: ps =>
    match s.codePage part p.1 with
    | some pa => (pa, p.2) :: s.codeParts part ps
    | none => []

/-- The little-endian words of a row of bytes; an incomplete last word is left out. -/
def wordsOf : List Byte → List (BitVec 32)
  | a :: b :: c :: d :: r => (d ++ c ++ b ++ a) :: wordsOf r
  | _ => []

/-- R14, R158: the code image at CODE. -/
def State.codeImage (s : State) (part code : Nat) : Image :=
  { base := code, words := wordsOf (readParts s.mem (s.codeParts part (pageParts code 57344))) }

/-! ### Readiness and order -/

/-- R168: a task's dependences have retired. -/
def Launch.stencilReady (l : Launch) (t : Task) : Bool :=
  match t.prod with
  | none => true
  | some p =>
    match l.boards.find? fun b => b.node == p with
    | none => true
    | some b =>
      (List.range 64).all fun i =>
        let x := t.x + i / 8
        let y := t.y + i % 8
        !(t.stencil.getLsbD i) || decide (x < 3) || decide (y < 3) || decide (b.w + 3 ≤ x) || decide (b.h + 3 ≤ y) ||
          b.retired.contains ((y - 3) * b.w + (x - 3))

/-- R179: a task's effective priority. -/
def Task.eff (t : Task) : Nat := min 7 (t.prio + t.waited)

/-- R169: the order in which ready tasks are placed. -/
def Task.before (a b : Task) : Bool :=
  if a.eff = b.eff then
    (if a.launch = b.launch then decide (a.id < b.id) else decide (a.launch < b.launch))
  else decide (b.eff < a.eff)

/-- Insert a task in the order of R169. -/
def insertTask (t : Task) : List Task → List Task
  | [] => [t]
  | u :: us => if t.before u then t :: u :: us else u :: insertTask t us

/-- R169, R179, R236: a task waits for a place: it is stencil-ready and posted or saved. -/
def Hub.waits (h : Hub) (part : Nat) (t : Task) : Bool :=
  (t.run == .posted || t.run == .saved) && t.waitEv.isNone &&
  match h.launch? t.launch with
  | none => false
  | some l => h.partOf l == part && l.fault.isNone && (t.auditOf.isSome || l.stencilReady t)

/-- R169: the tasks of a partition that wait for a place, in the walker's order. -/
def Hub.waiting (h : Hub) (part : Nat) : List Task :=
  (h.tasks.filter fun t => h.waits part t).foldl (fun xs t => insertTask t xs) []

/-! ### Places -/

/-- A bank of a core. -/
def State.bankOf (s : State) (c b : Nat) : Bank := (s.coreAt c).bankAt b

/-- R177: a bank that holds no task. -/
def State.bankFree (s : State) (c b : Nat) : Bool := (s.bankOf c b).run == .empty

/-- R179: the effective priority of the task a bank holds; a firmware task's is 0. -/
def State.bankPrio (s : State) (c b : Nat) : Nat :=
  match (s.bankOf c b).task with
  | none => 0
  | some t => ((s.hub.task? t.task).map Task.eff).getD 0

/-- R171, R172: the ring units that member p of a task declares: inputs, then outputs. -/
def LoopRec.inUnits (r : LoopRec) (p : Nat) : List Nat :=
  (List.range r.ins.length).filter fun i => (r.ins[i]?).any fun x => x.cores.testBit p
/-- R171: the output units. -/
def LoopRec.outUnits (r : LoopRec) (p : Nat) : List Nat :=
  ((List.range r.outs.length).filter fun i => (r.outs[i]?).any fun x => x.cores.testBit p).map (8 + ·)

/-- R170: the lines of ring units of a bank. -/
def unitPins (b : Nat) (us : List Nat) : BitVec 65536 := us.foldl (fun m u => pinRange m (unitAddr b u / 128) 512) 0

/-- R28, R100, R177: an allotment and pinned lines fit beside the other bank of a core. -/
def State.fitsBank (s : State) (vu at_ : Nat) (pins : BitVec 65536) (c b : Nat) : Bool :=
  let o := s.bankOf c (1 - b)
  decide (vu + o.vu ≤ 24) && decide (at_ + o.at_ ≤ 8) && (pins &&& o.pinsAhead == 0) && waysOk (pins ||| o.pinsAhead)

/-- R176, R231, R232, R238: a cell of a partition that takes tasks. -/
def Hub.takes (h : Hub) (part n : Nat) : Bool :=
  let c := h.cell n
  c.run == .enabled && c.part == some part && c.testing.isNone && !(h.part part).quarantined

/-- R236: the cells a rerun may take: not those of earlier runs, and on another die while the partition has one. -/
def Hub.rerunCells (h : Hub) (part : Nat) (banned : List Nat) : List Nat :=
  let cells := (List.range 64).filter fun n => h.takes part n && !(banned.contains n)
  match banned with
  | [] => cells
  | f :: _ =>
    let away := cells.filter fun n => n / 16 != f / 16
    if away.isEmpty then cells else away

/-- R157: the number of cells of a kind; 0 for solo. -/
def kindCells (kind : Nat) : Nat := if kind = 0 then 0 else 2 ^ (kind - 1)

/-- R177: the candidate places of a kind among cells: groups of cores, lowest first. -/
def groupsOf (kind : Nat) (cells : List Nat) : List (List Nat) :=
  let n := kindCells kind
  if n = 0 then cells.flatMap fun c => (List.range 4).map fun q => [4 * c + q]
  else ((List.range (64 / n)).filter fun i => (List.range n).all fun j => cells.contains (n * i + j)).map fun i =>
    (List.range (4 * n)).map (4 * n * i + ·)

/-- R177: both banks of every core are free and the task fits bank b. -/
def State.placeFree (s : State) (vu at_ : Nat) (pins : Nat → BitVec 65536) (b : Nat) (g : List Nat) : Bool :=
  (g.zipIdx).all fun x => s.bankFree x.1 0 && s.bankFree x.1 1 && s.fitsBank vu at_ (pins x.2) x.1 b

/-- R177: bank b of every core is free beside a task of no higher priority, and the task fits. A task of several cores takes
the same bank of each, and finds no place where their free banks differ.
Log entry 88, DESIGN CHOICE. -/
def State.placeBeside (s : State) (prio vu at_ : Nat) (pins : Nat → BitVec 65536) (b : Nat) (g : List Nat) : Bool :=
  (g.zipIdx).all fun x => s.bankFree x.1 b && decide (s.bankPrio x.1 (1 - b) ≤ prio) &&
    s.fitsBank vu at_ (pins x.2) x.1 b

/-- R177: the place of a task: cores in order of member, and the bank; `banks` the banks it may take. -/
def State.placeFor (s : State) (groups : List (List Nat)) (banks : List Nat) (prio vu at_ : Nat)
    (pins : Nat → Nat → BitVec 65536) : Option (List Nat × Nat) :=
  let first := banks.headD 0
  match groups.find? (s.placeFree vu at_ (pins first) first) with
  | some g => some (g, first)
  | none =>
    (groups.flatMap fun g => banks.map fun b => (g, b)).find? fun x =>
      s.placeBeside prio vu at_ (pins x.2) x.2 x.1

/-- R177, R179: the place that a task with a record finds; a saved task keeps its bank number and its pinned lines.
Log entry 44, DEDUCED. -/
def State.findPlace (s : State) (part : Nat) (t : Task) (r : LoopRec) : Option (List Nat × Nat) :=
  let groups := groupsOf r.kind (s.hub.rerunCells part t.banned)
  if t.run = .saved then
    let saved (p : Nat) : Option Saved := (s.hub.part part).saved.find? fun v => v.task == t.id && v.member == p
    let b0 := (saved 0).map (·.bank)
    s.placeFor groups [t.bank] t.eff ((b0.map (·.vu)).getD 0) ((b0.map (·.at_)).getD 0) fun _ p =>
      ((saved p).map (·.bank.pins)).getD 0
  else
    s.placeFor groups [0, 1] t.eff r.vu r.at_ fun b p => unitPins b (r.inUnits p ++ r.outUnits p)

/-! ### Audit selection (11 R233, R234) -/

/-- R110, R157: the tile that a reference names for a task: its tensor and its number, none outside the extents. -/
def TileRef.tileOf (r : TileRef) (t : Tensor) (x y : Nat) : Option Nat :=
  let a : Int := (if r.swap then y else x) + (if r.swap then r.dy else r.dx)
  let b : Int := (if r.swap then x else y) + (if r.swap then r.dx else r.dy)
  if a < 0 || b < 0 then none else t.tileOf [a.toNat, b.toNat, 0, 0, 0]

/-- R234: the home dies of a task's declared input tiles, as their tile entries name them; 12 and up has no base
die. -/
def State.inputHomes (s : State) (part c b : Nat) (t : Task) (r : LoopRec) : List Nat :=
  r.ins.filterMap fun i =>
    match sget (s.bankOf c b).tensors i.tensor with
    | none => none
    | some d =>
      match i.tileOf d t.x t.y with
      | none => none
      | some n =>
        match s.hubXlat part ((d.ttb.toNat + 8 * n) % 2 ^ 64) { write := false, user := true, read := true } with
        | .ok pa => some (bitsAt (readNat s.mem pa 8) 4 4)
        | _ => none

/-- R234: the audit reserve of every home die has room for the tiles. -/
def Hub.reserveRoom (h : Hub) (dies : List Nat) : Bool :=
  dies.all fun d => decide (d < 12) &&
    decide ((dies.filter (· == d)).length + ((h.audits.filter fun a => !a.decided).flatMap fun a =>
      a.dies.filter (· == d)).length ≤ 64)

/-- R234: the hash, over row x and column y, chooses a task. -/
def Partition.chooses (p : Partition) (launch node x y : Nat) : Bool :=
  let h := flurryHash p.audSeed.toNat (launch % 2 ^ 32 ^^^ node) x y
  decide (h / 2 ^ 48 < min p.audRate 65536)

/-- R234: a cell task placed on a cell is audited. -/
def State.audited (s : State) (part : Nat) (t : Task) (r : LoopRec) (c b : Nat) : Bool :=
  r.kind == 1 && t.auditOf.isNone && (s.hub.part part).chooses t.launch t.node t.x t.y &&
  (List.range 64).any (fun n => n != cellOf c && s.hub.takes part n) && s.hub.reserveRoom (s.inputHomes part c b t r)

/-! ### Placement -/

/-- R102, R171, R177: member p of a task takes bank b of a core: its allotment and image are held, its ring units pinned, and
the global lines that they evict leave. -/
def State.holdBank (s : State) (part : Nat) (t : Task) (r : LoopRec) (img : Image) (b n : Nat) (x : Nat × Nat) : State :=
  let ins := r.inUnits x.2
  let outs := r.outUnits x.2
  s.onCoreBank x.1 b fun s =>
    let k : BankTask := { task := t.id, launch := t.launch, part := part, x := t.x, y := t.y,
                          gang := if 1 < n then some t.id else none, member := x.2, tret := false, digest := [],
                          inUnits := ins, outUnits := outs, marked := [], pulled := [] }
    let store := (ins ++ outs).foldl (fun m u => zeroRange m (unitAddr b u) 65536) s.core.store
    (s.setCore { s.core with store := store, bank := { s.core.bank.vacate with
      run := .placed, vu := r.vu, at_ := r.at_, image := img, pins := unitPins b (ins ++ outs), task := some k } }).evictWays

/-- R159, R237: a record with TRIP = 0 retires at once, each output as retired without a write; a cell task's digest,
over no byte, counts in the step digest.
Log entry 43, DEDUCED. -/
def State.retireEmpty (s : State) (t : Task) : State :=
  let h := s.hub.mapTask t.id fun t => { t with retired := true, run := .ended, digest := some 0 }
  let h := if t.auditOf.isSome then h
    else h.mapLaunch t.launch fun l =>
      let l := l.setBit t
      if (t.lrec.map (·.kind)) = some 1 then { l with digests := l.digests ++ [([t.node, t.entry, t.y, t.x], 0)] } else l
  (s.setHub h).wake t.launch

/-- R171, R172: what is due after a placement: the deliveries, or the start. -/
def startTurns (id : Nat) (r : LoopRec) : List Turn :=
  if r.ins.isEmpty then [.event (.taskStart id)]
  else (List.range r.ins.length).map fun i => .event (.moraineDelivery id i)

/-- R158: the number of words of the code image at CODE. -/
def State.codeLen (s : State) (part code : Nat) : Nat :=
  ((s.codeParts part (pageParts code 57344)).map (·.2)).sum / 4

/-- R177: a task takes its place: it holds its banks, its gang forms, and its inputs are due. -/
def State.putTask (s : State) (part : Nat) (t : Task) (r : LoopRec) (cores : List Nat) (b : Nat) : State :=
  let img := s.codeImage part r.code
  let c0 := cores.headD 0
  let aud := s.audited part t r c0 b
  let a : Audit := { task := t.id, launch := t.launch, cells := [cellOf c0], digests := [], data := [],
                     dies := s.inputHomes part c0 b t r, ends := (s.hub.part part).audAct, rerun := none,
                     decided := false }
  let s := (cores.zipIdx).foldl (fun s x => s.holdBank part t r img b cores.length x) s
  let qth := (s.hub.part part).qth
  let h := s.hub.mapTask t.id fun t =>
    { t with run := .placed, since := none, cores := cores, bank := b, lrec := some r, qth := qth,
             audit := if aud then some t.id else none }
  let gangs := if 1 < cores.length then h.gangs ++ [{ id := t.id, cores := cores, bank := b, steps := [] }] else h.gangs
  let audits := if aud then h.audits ++ [a]
    else h.audits.map fun a => if some a.task = t.auditOf then { a with cells := a.cells ++ [cellOf c0] } else a
  (s.setHub { h with gangs := gangs, audits := audits }).later (startTurns t.id r)

/-- R111, R206, R226: a fault of the hub or of a controller for a task ends its launch; the status block names the task's
place, and no bank. -/
def State.moraineFault (s : State) (t : Task) (cause addr : Nat) : State :=
  (s.setHub (s.hub.mapLaunch t.launch fun l =>
    l.fail { cause := cause, thread := none, cb := 0, addr := addr, aux := 0 } (some (0xFFFF, 0, t.x, t.y, 0)))).later
    [.event (.faultEndLaunch t.launch)]

/-- R157, R164: a task's record, read once, or why its placement waits or ends the launch. -/
def State.taskRecord (s : State) (part : Nat) (t : Task) : Except State LoopRec :=
  match t.lrec with
  | some r => .ok r
  | none =>
    match s.hubRead part t.recAddr 64 true with
    | .event va =>
      let ev := s.hub.nextEvent
      let h := s.hub.queueEvent (some t.launch) 0xFFFF 0 none none va none false
      .error (s.setHub (h.mapTask t.id fun t => { t with waitEv := some ev }))
    | .fault va x => .error ((s.logErrorFor part x).moraineFault t 0x0D va)
    | .ok bs =>
      if recordOk bs (s.codeLen part (recordOf bs).code) then .ok (recordOf bs)
      else .error (s.moraineFault t 0x0B t.recAddr)

/-- R177: one task is placed if it finds a place. A saved task is resumed by its own step. Its record is read once, at the first
attempt, and kept.
Log entry 89, DESIGN CHOICE. -/
def State.tryPlace (s : State) (part : Nat) (t : Task) : State × Bool :=
  match s.taskRecord part t with
  | .error s => (s, false)
  | .ok r =>
    match s.findPlace part t r with
    | none => (s.setHub (s.hub.mapTask t.id fun t => { t with lrec := some r }), false)
    | some (cores, b) =>
      if t.run = .saved then (s.later [.event (.taskResume part)], true)
      else if r.trip = 0 then (s.retireEmpty { t with lrec := some r }, true)
      else (s.putTask part t r cores b, true)

/-- R169: the first of the waiting tasks that finds a place takes it; one that finds none does not hold back those behind it.
Log entry 87, DESIGN CHOICE. -/
def State.placeFirst (s : State) (part : Nat) : List Task → State
  | [] => s
  | t :: ts =>
    let r := s.tryPlace part t
    if r.2 then (if t.run = .saved then r.1 else r.1.later [.event (.taskPlace part)]) else r.1.placeFirst part ts

/-- R179: the wait of a partition's tasks that are ready and have no place counts from a cycle on. -/
def Hub.startWaits (h : Hub) (part now : Nat) : Hub :=
  { h with tasks := h.tasks.map fun t => if t.since.isNone && h.waits part t then { t with since := some now } else t }

/-- R169, R177, R179: the step TASK_PLACE. -/
def execTaskPlace (part : Nat) (s : State) : Out :=
  if s.hub.regs.fatal then .next s
  else
    let s := s.setHub (s.hub.startWaits part s.now)
    .next (s.placeFirst part (s.hub.waiting part))

/-- R179: a task has waited a further 2^20 cycles for a place, below effective priority 7. -/
def Task.agedAt (t : Task) (now : Nat) : Bool :=
  decide (t.prio + t.waited < 7) && t.since.any fun n => decide (n + 2 ^ 20 ≤ now)

/-- R179: the step PRIORITY_AGING: a task that has waited a further 2^20 cycles for a place rises by one, up to 7. -/
def execPriorityAging (task : Nat) (s : State) : Out :=
  match s.hub.task? task with
  | none => .next s
  | some t =>
    let part := match s.hub.launch? t.launch with
      | some l => s.hub.partOf l
      | none => 0
    if s.hub.waits part t && t.agedAt s.now then
      .next ((s.setHub (s.hub.mapTask task fun t =>
        { t with waited := t.waited + 1, since := t.since.map (· + 2 ^ 20) })).later [.event (.taskPlace part)])
    else .next s

/-! ### Deliveries and the start of a task -/

/-- R119, R171, R180: a delivery or a pull waits on a translation event for a tile, which keeps the tensor's descriptor. -/
def State.moraineEvent (s : State) (t : Task) (core tid n : Nat) (d : Tensor) : State :=
  let ev := s.hub.nextEvent
  let h := s.hub.queueEvent (some t.launch) core t.bank none none (tileCode tid n) (some (tid, n)) false (some d)
  s.setHub (h.mapTask t.id fun t => { t with waitEv := some ev })

/-- The key under which a task keeps the lines of input i that have landed in member p's core. -/
def landKey (i p : Nat) : Nat := 16 * i + p

/-- R171: the lines of input i that have landed in member p's core. -/
def Task.landedIn (t : Task) (i p : Nat) : Nat := (sget t.landed (landKey i p)).getD 0

/-- R171: the members in whose cores an input lands. -/
def Task.receivers (t : Task) (ref : TileRef) : List Nat := (t.cores.zipIdx.filter fun x => ref.cores.testBit x.2).map (·.2)

/-- R171: the member whose core takes the next line of input i: the first of those that have the fewest.
Log entry 69, DESIGN CHOICE. -/
def Task.nextReceiver (t : Task) (i : Nat) (ref : TileRef) : Option Nat :=
  (t.receivers ref).foldl (fun (m : Option Nat) p =>
    if 512 ≤ t.landedIn i p then m
    else
      match m with
      | none => some p
      | some q => if t.landedIn i p < t.landedIn i q then some p else some q) none

/-- R171: the window address at which the next line of input i lands in member p's core. -/
def Task.landAddr (t : Task) (i p : Nat) : Nat := unitAddr t.bank i + 128 * t.landedIn i p

/-- R172, R234: an input is resident once its last line has landed in every named core; the task starts once the last input
is. The audit reserve keeps an audited task's. -/
def State.inputLanded (s : State) (t : Task) (r : LoopRec) (i : Nat) (ref : TileRef) : State :=
  let c := t.cores.getD ((t.receivers ref).headD 0) 0
  let bytes := readBytes (s.coreAt c).store (unitAddr t.bank i) 65536
  let h := s.hub.mapTask t.id fun t => { t with resident := t.resident ++ [i] }
  let audits := if t.audit.isSome then
      h.audits.map fun a => if a.task = t.id then { a with data := a.data ++ [(i, bytes)] } else a
    else h.audits
  let s := s.setHub { h with audits := audits }
  if (List.range r.ins.length).all (fun j => j == i || t.resident.contains j) then s.later [.event (.taskStart t.id)] else s

/-- R37, R171: a line of input i lands in member p's core, and the next one is due. -/
def State.landLine (s : State) (t : Task) (r : LoopRec) (i : Nat) (ref : TileRef) (p : Nat) (bytes : List Byte) : State :=
  let a := t.landAddr i p
  let s := s.onCoreBank (t.cores.getD p 0) t.bank fun s =>
    (s.setCore { s.core with store := writeBytes s.core.store a bytes }).claimPorts a bytes.length
  let u := { t with landed := sput t.landed (landKey i p) (t.landedIn i p + 1) }
  let s := s.setHub (s.hub.mapTask t.id fun t => { t with landed := u.landed })
  if (u.nextReceiver i ref).isNone then s.inputLanded u r i ref else s.later [.event (.moraineDelivery t.id i)]

/-- n free bytes. -/
def State.freeBytes (s : State) (n : Nat) : List Byte × State :=
  ((List.range n).map fun i => Config.freeByte (s.free + i), { s with free := s.free + n })

/-- R236: the bytes of an input in the audit reserve.
Log entry 42, DEDUCED. -/
def Hub.reserved (h : Hub) (o i : Nat) : Option (List Byte) :=
  ((h.audits.find? fun a => a.task == o).bind fun a => a.data.find? fun d => d.1 == i).map (·.2)

/-- R111: line k of a tile as it is read: elements outside the extents read as zero. -/
def Tensor.readLine (t : Tensor) (m : Mem) (n pa k : Nat) : List Byte :=
  if t.full n then readBytes m (pa + 128 * k) 128 else ((t.readTile m n pa).drop (128 * k)).take 128

/-- R111: what a controller does where a tile has no frame: it waits for the tile's event, or the launch faults. -/
def State.tileStop (s : State) (part : Nat) (t : Task) (core tid n : Nat) (d : Tensor) : TileAt → State
  | .absent => s.moraineEvent t core tid n d
  | .unbacked pa => (s.logErrorFor part pa).moraineFault t 0x0D (tileCode tid n)
  | _ => (s.logErrorFor part (tileCode tid n)).moraineFault t 0x0D (tileCode tid n)

/-- R111, R142, R171: the next line of declared input i of a placed task is delivered to member p from its tile, with the
clock of the tile's base die: its descriptor stands in the table of the first named core's bank; with none there its bytes
are free (log entry 38, DESIGN CHOICE). -/
def State.deliverInput (s : State) (part : Nat) (t : Task) (r : LoopRec) (i : Nat) (ref : TileRef) (p : Nat) : State :=
  let c := t.cores.getD p 0
  let k := t.landedIn i p
  match sget (s.bankOf (t.cores.getD ((t.receivers ref).headD 0) 0) t.bank).tensors ref.tensor with
  | none =>
    let f := s.freeBytes 128
    f.2.landLine t r i ref p f.1
  | some d =>
    let n := ref.tileOf d t.x t.y
    if d.edgeFault n then s.moraineFault t 0x0D (tileCode ref.tensor (n.getD 0))
    else
      match n with
      | none => s.landLine t r i ref p (leBytes 128 0)
      | some n =>
        s.withTile c t.bank part true d ref.tensor n false (fun x s => s.tileStop part t c ref.tensor n d x) fun pa s =>
          ((s.touchL2 (dieOf c) (pa + 128 * k) 0).carry (homeOf pa) (dieOf c)).landLine t r i ref p (d.readLine s.mem n pa k)

/-- R37, R171, R172, R353: the step MORAINE_DELIVERY: the next line of an input is delivered, unless its port is taken. A
rerun's inputs come from the audit reserve. -/
def execMoraineDelivery (task input : Nat) (s : State) : Out :=
  match s.hub.task? task with
  | none => .next s
  | some t =>
    match t.lrec, s.hub.launch? t.launch with
    | some r, some l =>
      match r.ins[input]? with
      | none => .next s
      | some ref =>
        if t.run ≠ .placed || t.waitEv.isSome || t.resident.contains input || l.fault.isSome then .next s
        else
          match t.nextReceiver input ref with
          | none => .next (s.inputLanded t r input ref)
          | some p =>
            if s.deliveryHeld (t.cores.getD p 0) t.bank (t.landAddr input p / 128) then
              .next (s.retryOn (t.cores.getD p 0) (.event (.moraineDelivery task input)))
            else
              match t.auditOf.bind fun o => s.hub.reserved o input with
              | some bytes => .next (s.landLine t r input ref p ((bytes.drop (128 * t.landedIn input p)).take 128))
              | none => .next (s.deliverInput (s.hub.partOf l) t r input ref p)
    | _, _ => .next s

/-- R159, R160: the bank of member p at task start.
Log entry 21, DEDUCED. -/
def startBank (b : Bank) (a : ArmSlot) (l : Launch) (t : Task) (r : LoopRec) (core p : Nat) : Bank :=
  let addr (w : Nat) : Word := BitVec.ofNat 64 (r.code + 4 * w)
  let regs := ((((Vector.replicate 64 (0 : Word)).set 1 l.payload).set 2 (BitVec.ofNat 64 t.x)).set 3
    (BitVec.ofNat 64 t.y)).set 4 (BitVec.ofNat 64 l.id) |>.set 5 a.args
  { Bank.clear with
    epc := b.epc, cause := b.cause, tvec := b.tvec, tfbase := b.tfbase, s := regs, rotSize := r.rot, vu := r.vu,
    at_ := r.at_, pins := b.pins, image := b.image, task := b.task, stencil := t.stencil,
    status := { Bank.clear.status with ie := true, guard := a.flags.testBit 0, debug := a.flags.testBit 1 },
    pos := if r.kind = 0 then core % 4 else p, glog := if r.kind = 0 then 0 else r.kind - 1,
    kernel := if r.klen = 0 then none
      else some { ker := addr r.ker, epi := addr r.epi, trip := r.trip, stages := r.stages, len := r.klen },
    pc := addr r.pro, run := .active }

/-- R137, R160: member p starts: an acquire, at FABRIC scope where the message that fired the launch has crossed the
fabric, with planes that no MLDW has loaded and no translation kept (R111). -/
def State.startMember (s : State) (a : ArmSlot) (l : Launch) (t : Task) (r : LoopRec) (x : Nat × Nat) : State :=
  let s := s.onCoreBank x.1 t.bank fun s =>
    let s := (s.setBank (startBank s.core.bank a l t r x.1 x.2)).acquire (if l.fabric then 4 else 3)
    s.setCore { s.core with planes := Planes.none, xlats := s.core.xlats.filter (fun y => y.bank != t.bank), shadow := if a.flags.testBit 0 then some s.core.bank else none }
  s.rouse x.1

/-- R172: the step TASK_START: the task's members start once every declared input is resident. -/
def execTaskStart (task : Nat) (s : State) : Out :=
  match s.hub.task? task with
  | none => .next s
  | some t =>
    match t.lrec, s.hub.launch? t.launch with
    | some r, some l =>
      if t.run ≠ .placed || l.fault.isSome || !((List.range r.ins.length).all t.resident.contains) then .next s
      else
        let s := (t.cores.zipIdx).foldl (fun s x => s.startMember (s.hub.slotOf l) l t r x) s
        let n := s.hub.starts
        let h := s.hub.mapTask task fun t => { t with run := .running, waited := 0, since := none, started := n }
        .next (s.setHub { h with starts := n + 1 })
    | _, _ => .next s

/-! ### Pulls and the end of a task -/

/-- R161, R175, R235: a pull has completed: the unit is free of it and the output's bytes are digested. -/
def State.pulled (s : State) (t : Task) (c o tid n : Nat) (bytes : List Byte) : State :=
  let s := s.onCoreBank c t.bank fun s =>
    match s.core.bank.task with
    | none => s
    | some k => s.setBank { s.core.bank with task := some { k with pulled := k.pulled ++ [8 + o] } }
  let s := s.setHub (s.hub.mapTask t.id fun t =>
    { t with pulls := t.pulls ++ [o], outData := t.outData ++ [(o, tid, n, bytes)] })
  (s.checkRetire t.id).rouse c

/-- R104, R137, R142: the base die that holds a tile acquires a core's release and writes the pulled bytes. -/
def State.pullInto (s : State) (die pa : Nat) (bytes : List Byte) : State :=
  ((s.dieAcquire die (homeOf pa) 3).touchHome pa bytes.length 0 true).putFrom (homeOf pa) pa bytes

/-- R137: writes of a bank to a unit that its release covers are still to come: rows of an epilogue. -/
def Bank.unitFlight (b : Bank) (a : Nat) : Bool :=
  b.epiMeets (a / 128) 512 || b.allPend.any fun e => !e.pub && e.writeMeets (a / 128) 512

/-- R111, R137, R175: output o of a task is pulled from its unit into its tile, after an acquire by the base die that
holds it, so that the write carries the die's clock component; it takes in what the release covers, and waits for rows of an
epilogue that are still to come. Bytes outside the extents are dropped, and a rerun's output is discarded. A tile outside the
extents enters the digest as tile 0 (log entry 93, DESIGN CHOICE). With no descriptor in the table the launch ends with cause
0x0B (log entry 38, DESIGN CHOICE). -/
def State.pullOutput (s : State) (part : Nat) (t : Task) (c o : Nat) (ref : TileRef) : State :=
  let a := unitAddr t.bank (8 + o)
  let bytes := readBytes ((s.coreAt c).bankSeen t.bank 0) a 65536
  if (s.bankOf c t.bank).unitFlight a then s.retryOn c (.event (.outputPullDone t.id o))
  else
  match sget (s.bankOf c t.bank).tensors ref.tensor with
  | none => s.moraineFault t 0x0B (tileCode ref.tensor 0)
  | some d =>
    let n := ref.tileOf d t.x t.y
    if d.edgeFault n then s.moraineFault t 0x0D (tileCode ref.tensor (n.getD 0))
    else
      match n with
      | none => s.pulled t c o ref.tensor 0 bytes
      | some n =>
        if t.auditOf.isSome then s.pulled t c o ref.tensor n bytes
        else
          s.withTile c t.bank part true d ref.tensor n true (fun x s => s.tileStop part t c ref.tensor n d x) fun pa s =>
            (s.pullInto (dieOf c) pa (d.trim n bytes (readBytes s.mem pa 65536))).pulled t c o ref.tensor n bytes

/-- R161, R175: the step OUTPUT_PULL_DONE. -/
def execOutputPullDone (task output : Nat) (s : State) : Out :=
  match s.hub.task? task with
  | none => .next s
  | some t =>
    match t.lrec, s.hub.launch? t.launch with
    | some r, some l =>
      match r.outs[output]? with
      | none => .next s
      | some ref =>
        match t.cores.zipIdx.find? (fun x => ref.cores.testBit x.2) with
        | none => .next s
        | some (c, _) =>
          let due := match (s.bankOf c t.bank).task with
            | some k => k.task == task && k.marked.contains (8 + output) && !(k.pulled.contains (8 + output))
            | none => false
          .next (if !due || t.waitEv.isSome || l.fault.isSome then s
            else s.pullOutput (s.hub.partOf l) t c output ref)
    | _, _ => .next s

/-- R161, R162: a pull of a marked unit is not complete. -/
def BankTask.pulling (t : BankTask) : Bool := t.marked.any fun u => !(t.pulled.contains u)

/-- R162, R236: every member of a task has ended: it ends, and what waits on it is due; an audited task's digest is
recorded. -/
def State.taskEnded (s : State) (t : Task) : State :=
  let h := s.hub
  let dg := t.digest.getD t.digestOf
  let own := t.auditOf.getD t.id
  let audits := h.audits.map fun a =>
    if a.task = own && (t.audit.isSome || t.auditOf.isSome) then
      { a with digests := a.digests ++ [dg], rerun := none }
    else a
  let h := { h.mapTask t.id fun t => { t with run := .ended } with
    gangs := h.gangs.filter (fun g => g.id != t.id), audits := audits }
  let s := (s.setHub h).wake t.launch
  if t.auditOf.isSome then s.later [.event (.auditDecide own)]
  else if t.audit.isSome then s.later [.event (.auditRerun own)]
  else s

/-- R162, R179: the members of a gang that have not ended are all saved: so is their task. -/
def Hub.noteSaved (h : Hub) (part task : Nat) : Hub :=
  let n := ((h.part part).saved.filter fun x => x.task == task).length
  h.mapTask task fun k =>
    if 0 < n && n + k.ends.length = k.cores.length then { k with run := .saved, waited := 0, since := none } else k

/-- R32, R162 step 4: the running bank's task ends: its threads stop, its lines, its loop buffer and its allotment are
released, and the bank is free. -/
def State.endBank (s : State) : State :=
  let c := s.core
  let threads := c.threads.map fun t =>
    if t.bank = c.curBank then { t with running := false, busy := false, due := none, eff := .none, waitEv := none } else t
  let t := c.bank.task
  let s := s.setCore { c with threads := threads, bank := c.bank.vacate, shadow := none }
  match t with
  | none => s
  | some k =>
    let s := s.setHub (s.hub.mapTask k.task fun t => { t with ends := t.ends ++ [k.member] })
    let s := s.checkRetire k.task
    let s := match s.hub.task? k.task with
      | some t => if t.ends.length = t.cores.length then s.taskEnded t else s.setHub (s.hub.noteSaved k.part k.task)
      | none => s
    (s.testQuarantined (cellOf s.cur)).later [.event (.taskPlace k.part)]

end Sys2Proof.Machine
end

