-- ==== Sys2Proof/Machine/Audit.lean ====
section
/-! DEFINITION. Audit reruns and their decision, suspicion and quarantine, self-test, spares and the cells of
partitions (08 R176; 11 R231-R236; 16 R274; 21 R373). -/

namespace Sys2Proof.Machine

/-! ### Suspicion and quarantine -/

/-- R236, R274: a cell's score in the service record. -/
def Service.putSusp (v : Service) (n x : Nat) : Service := { v with record := { v.record with susp := sput v.record.susp n x } }

/-- R233, R236, R357: a cell that reaches QTH, as it stood when the task concerned was placed, is quarantined and takes no new
task. -/
def State.quarantine (s : State) (n qth : Nat) : State :=
  let c := s.hub.cell n
  if c.run == .enabled && decide (qth ≤ c.susp) then
    ((s.setHub (s.hub.mapCell n fun c => { c with run := .quarantined })).logMc 24 1 16 0 0x0041 0 n c.part).testQuarantined n
  else s

/-- R236: a cell gains suspicion, up to 255. -/
def State.suspect (s : State) (n by_ qth : Nat) : State :=
  let x := min 255 ((s.hub.cell n).susp + by_)
  let s := s.setHub (s.hub.mapCell n fun c => { c with susp := x })
  ({ s with svc := s.svc.putSusp n x }).touchService.quarantine n qth

/-- R236: a cell loses suspicion, down to 0. -/
def State.unsuspect (s : State) (n by_ : Nat) : State :=
  let x := (s.hub.cell n).susp - by_
  let s := s.setHub (s.hub.mapCell n fun c => { c with susp := x })
  ({ s with svc := s.svc.putSusp n x }).touchService

/-! ### Reruns -/

/-- R236: the rerun of an audited task: a task of the launch at priority 0, on none of the cells of earlier runs. -/
def rerunOf (t : Task) (id : Nat) (cells : List Nat) : Task :=
  { t with id := id, stencil := 0, prod := none, prio := 0, waited := 0, since := none, run := .posted, retired := false, cores := [],
           bank := 0, landed := [], resident := [], pulls := [], trets := [], ends := [], digest := none, folds := [],
           outData := [], audit := none, auditOf := some t.id, banned := cells, started := 0, waitEv := none }

/-- Change the audit of a task. -/
def Hub.mapAudit (h : Hub) (task : Nat) (f : Audit → Audit) : Hub :=
  { h with audits := h.audits.map fun a => if a.task = task then f a else a }

/-- R236: a rerun of an audited task waits for a place. -/
def State.postRerun (s : State) (a : Audit) (t : Task) : State :=
  let id := s.hub.nextTask
  let h := s.hub.mapAudit a.task fun a => { a with rerun := some id }
  let part := match s.hub.launch? a.launch with
    | some l => s.hub.partOf l
    | none => 0
  (s.setHub { h with tasks := h.tasks ++ [rerunOf t id a.cells], nextTask := id + 1 }).later [.event (.taskPlace part)]

/-- R236: the step AUDIT_RERUN: an audited task has ended, and its rerun is due. -/
def execAuditRerun (task : Nat) (s : State) : Out :=
  match s.hub.audits.find? (fun a => a.task == task), s.hub.task? task with
  | some a, some t =>
    .next (if a.decided || a.rerun.isSome || a.digests.length ≠ 1 then s else s.postRerun a t)
  | _, _ => .next s

/-- R234, R236: an audit is decided: its reserve is free and its launch may end; with AUDACT.END a mismatch ends it
with cause 0x23. -/
def State.auditDecided (s : State) (a : Audit) (t : Task) (mismatch : Bool) : State :=
  let h := s.hub.mapAudit a.task fun a => { a with decided := true, dies := [], data := [] }
  if mismatch && a.ends then
    let r : Raised := { cause := 0x23, thread := none, cb := 0, addr := (a.digests.getD 0 0).toNat,
                        aux := (a.digests.getD 1 0).toNat }
    let h := h.mapLaunch a.launch fun l => l.fail r (some (0xFFFF, 0, t.x, t.y, 0))
    (s.setHub h).later [.event (.faultEndLaunch a.launch)]
  else (s.setHub h).later [.event (.launchEnd a.launch)]

/-- R236: a third run has disagreed with at least one of the first two. -/
def State.judgeThird (s : State) (cells : List Nat) (d : List Word) (qth : Nat) : State :=
  let c (i : Nat) : Nat := cells.getD i 64
  let x (i : Nat) : Word := d.getD i 0
  if x 2 = x 0 then ((s.suspect (c 1) 32 qth).unsuspect (c 0) 4).unsuspect (c 2) 4
  else if x 2 = x 1 then ((s.suspect (c 0) 32 qth).unsuspect (c 1) 4).unsuspect (c 2) 4
  else s.suspect (c 2) 8 qth

/-- R236: the step AUDIT_DECIDE: the digests of an audited task's runs are compared. -/
def execAuditDecide (task : Nat) (s : State) : Out :=
  match s.hub.audits.find? (fun a => a.task == task), s.hub.task? task with
  | some a, some t =>
    if a.decided || a.rerun.isSome then .next s
    else
      match a.digests with
      | [x, y] =>
        let c0 := a.cells.getD 0 64
        let c1 := a.cells.getD 1 64
        if x = y then .next (((s.unsuspect c0 1).unsuspect c1 1).auditDecided a t false)
        else
          let part := match s.hub.launch? a.launch with
            | some l => s.hub.partOf l
            | none => 0
          let s := ((s.suspect c0 8 t.qth).suspect c1 8 t.qth).logMc 24 (if a.ends then 2 else 1) 16 0 0x0040 0 c0 (some part)
          .next (if (List.range 64).any (fun n => s.hub.takes part n && !(a.cells.contains n)) then s.postRerun a t
            else s.auditDecided a t true)
      | [_, _, _] => .next ((s.judgeThird a.cells a.digests t.qth).auditDecided a t true)
      | _ => .next s
  | _, _ => .next s

/-! ### Self-test, retirement and spares -/

/-- R231, R274: a cell is retired: it leaves its partition, which is owed a spare; `part` names that partition until
a spare has taken its place. -/
def State.retireCell (s : State) (n : Nat) : State :=
  let part := (s.hub.cell n).part
  let s := s.setHub (s.hub.mapCell n fun c => { c with run := .retired, testing := none })
  let s := ({ s with svc := { s.svc with record := { s.svc.record with retired := s.svc.record.retired ++ [n] } } }).touchService
  match part with
  | some p => s.later [.event (.spareSubstitute p)]
  | none => s

/-- R373: the cores of a cell hold nothing after a test. -/
def State.zeroCell (s : State) (n : Nat) : State :=
  (List.range 4).foldl (fun s q => s.onCore (4 * n + q) fun s =>
    s.setCore { s.core with store := [], dcache := [], ways := [] }) s

/-- R232, R373: the step SELFTEST_DONE: a pass returns the cell to its partition with score 0, a failure retires it;
the hub tells the issuing core. -/
def execSelftestDone (cell : Nat) (pass : Bool) (s : State) : Out :=
  match (s.hub.cell cell).testing with
  | none => .next s
  | some (_, core) =>
    let s := s.zeroCell cell
    let s := match core with
      | some c => s.setPend c 1
      | none => s
    let part := (s.hub.cell cell).part
    if pass then
      let s := s.setHub (s.hub.mapCell cell fun c =>
        { c with testing := none, susp := 0, run := if c.run = .quarantined then .enabled else c.run })
      let s := ({ s with svc := s.svc.putSusp cell 0 }).touchService
      .next (match part with
        | some p => s.later [.event (.taskPlace p)]
        | none => s)
    else .next ((s.retireCell cell).logMc (cell / 16) 2 (cell / 16) (cell % 16) 0x0042 0 cell part)

/-- R231: the step SPARE_SUBSTITUTE: once a partition has no launch, the lowest-numbered spare cell takes the place
of a cell it has lost. -/
def execSpareSubstitute (part : Nat) (s : State) : Out :=
  let lost := (List.range 64).find? fun n => (s.hub.cell n).run == .retired && (s.hub.cell n).part == some part
  let spare := (List.range 64).find? fun n => (s.hub.cell n).run == .spare
  match lost, spare with
  | some n, some m =>
    if !(s.hub.idle part) then .next s
    else
      let h := (s.hub.mapCell n fun c => { c with part := none }).mapCell m fun c =>
        { c with run := .enabled, part := some part }
      .next ((s.setHub h).later [.event (.spareSubstitute part), .event (.taskPlace part)])
  | _, _ => .next s

/-- R176, R232, R238: a cell is a partition's, though it may take no task for now: it is quarantined, or under test, or the
partition takes none. -/
def Hub.holdsCells (h : Hub) (p : Nat) : Bool :=
  (List.range 64).any fun n => (h.cell n).part == some p && ((h.cell n).run == .enabled || (h.cell n).run == .quarantined)

/-- R176: the step PARTITION_CELL_MOVE: firmware takes a cell from its partition, or gives it to another, while the
partitions concerned have no launch; a partition that holds no cell may be given one at any time. -/
def execPartitionCellMove (cell : Nat) (dst : Option Nat) (s : State) : Out :=
  let c := s.hub.cell cell
  let srcOk := match c.part with
    | some p => s.hub.idle p
    | none => true
  let dstOk := match dst with
    | some p => decide (p < 4) && (s.hub.idle p || !(s.hub.holdsCells p))
    | none => true
  if c.run ≠ .enabled || c.testing.isSome || !srcOk || !dstOk then .next s
  else
    let s := s.setHub (s.hub.mapCell cell fun c => { c with part := dst })
    .next (match dst with
      | some p => s.later [.event (.taskPlace p)]
      | none => s)

/-! ### The service record -/

/-- R274: the record as flash holds it from now on. -/
def Service.write (v : Service) : Service :=
  { v with flash := v.record, dirty := false }

/-- R274: the step SERVICE_RECORD_WRITE: the record is written to flash. -/
def execServiceRecordWrite (s : State) : Out := .next { s with svc := s.svc.write }

end Sys2Proof.Machine
end

