-- ==== Sys2Proof/Machine/Preempt.lean ====
section
/-! DEFINITION. Bank switches, interrupts, pre-emption and resumption (02 R30; 08 R178, R179; 11 R208, R211, R218-R220;
14 R262). -/

namespace Sys2Proof.Machine

/-! ### Bank switches -/

/-- R139, R375: an operation of a bank that a context save waits for: of a subscription, the slot in flight. -/
def EngineOp.drains (o : EngineOp) (core bank : Nat) : Bool :=
  o.core == core && o.bank == bank && o.saved.isNone && !o.halted &&
  match o.kind with
  | .subs => decide (0 < o.done)
  | _ => true

/-- R140, R141: the operations of a bank whose writes wait for its next CKPT. -/
def Bank.heldOps (b : Bank) : List Nat :=
  b.heldWrites.filterMap fun w => match w with
    | .barr op _ _ | .route _ op _ => some op
    | _ => none

/-- R139, R141: the running bank's engine operations have drained, but for those that wait for a CKPT. -/
def State.drained (s : State) : Bool :=
  !(s.ops.any fun o => o.drains s.cur s.core.curBank && !(s.core.bank.heldOps.contains o.id))

/-- R139: a thread's outstanding operation is a write that has still to be performed. -/
def Thread.writes (t : Thread) : Bool :=
  t.busy && t.waitEv.isNone && match t.eff with
  | .store _ _ _ | .atom _ _ _ _ _ | .gatom _ _ _ _ _ _ | .gstore _ _ _ _ | .hubStore _ _ | .msg _ => true
  | _ => false

/-- R139: the writes of the running bank's threads have drained. -/
def Core.threadsDrained (c : Core) : Bool := c.threads.toList.all fun t => t.bank != c.curBank || !t.writes

/-- R30, R91, R139, R163, R378: the step BANK_SWITCH: the bank's matrix operations complete and every result in flight lands;
once its engine operations and its threads' writes have drained too, the banks change places; 160 cycles follow in which
neither issues.
Log entry 11, DEDUCED.
Log entry 32, DEDUCED. -/
def execBankSwitch (s : State) : Out :=
  if s.core.switching ≠ some 161 then .next s
  else
    let s := s.drain
    if !s.drained || !s.core.threadsDrained then .next s
    else
      let s := if s.core.bank.run = .empty then s else s.saveRelease
      .next (s.setCore { s.core.swap with switching := some 160 }).again

/-- R119, R178: a core's other bank is to take it at a boundary: its event has been answered, or its task has the
higher priority. -/
def State.coreWants (s : State) (c : Nat) : Bool :=
  let k := s.coreAt c
  k.otherReady && (k.other.released || decide (s.bankPrio c k.curBank < s.bankPrio c (1 - k.curBank)))

/-- R178: the running bank stands at the boundary between two iterations. -/
def Bank.atTurn (b : Bank) : Bool := !b.handler && b.atBoundary && decide (0 < b.loop.iter)

/-- R178: the running bank stands at an iteration boundary or after its YIELD. -/
def Bank.switchPoint (b : Bank) : Bool := b.atTurn || (!b.handler && b.curYield)

/-- R119, R178, R41, R403: the running bank gives way here, but for one that has just taken its core. In a gang the lead
decides for the bundle at which every member does, and a YIELD that has not switched all of them switches none.
Log entry 66, DEDUCED. -/
def State.resumeDue (s : State) : Bool :=
  let b := s.core.bank
  s.core.switching.isNone &&
  match b.run with
  | .active =>
    b.taken != some b.gstep &&
    (match s.gang with
    | none => b.switchPoint && s.coreWants s.cur
    | some g => if b.pos = 0 then b.atTurn && g.cores.any s.coreWants else s.gangStep.switch)
  | .cpyw _ | .ending => false
  | _ => s.core.otherReady

/-- R178: the step BANK_RESUME: a waiting or higher-priority bank takes the core at a boundary. -/
def execBankResume (s : State) : Out := .next (if s.resumeDue && s.core.otherReady then s.startSwitch else s)

/-! ### Results, the timer and interrupts -/

/-- R15, R16: the step RESULT_WRITEBACK: the running bank's results due by its tick land. -/
def execResultWriteback (s : State) : Out := .next s.landDue

/-- R218: the step TIMER_EXPIRY: TIMER reaches 0 and sets PEND.TIMER. -/
def execTimerExpiry (s : State) : Out :=
  .next (if s.core.timer = 1 then ({ s with core := { s.core with timer := 0, expired := true } }).setPend s.cur 0 else s)

/-- R218: the step PEND_SOFT_SET. -/
def execPendSoftSet (core : Nat) (s : State) : Out := .next (if core < 256 then s.setPend core 3 else s)

/-- R208, R211: the running bank stands where it may be frozen: no branch is in its delay bundle, and in a kernel it
stands at an iteration boundary; both limits of the Rime latch bank hold. -/
def Bank.freezable (b : Bank) : Bool :=
  b.branch.isNone && b.newBranch.isNone && b.rimeFits &&
  match b.run with
  | .active => b.stall == 0 && (!b.loop.active || b.atBoundary)
  | .cpyw _ => !b.loop.active
  | _ => false

/-- R208: in guarded mode only the bundle after a CKPT may be preceded by a freeze. -/
def Bank.ckptPoint (b : Bank) : Bool := !b.status.guard || b.bundles == 0

/-- R208, R220: the lead, or a bank in no gang, takes an interrupt before its next bundle, or in a CPYW wait.
Log entry 30, DEDUCED.
Log entry 31, DEDUCED.
Log entry 58, DEDUCED. -/
def State.interruptDue (s : State) : Bool :=
  let b := s.core.bank
  (s.core.pend &&& s.core.inten != 0) && b.status.ie && s.core.switching.isNone && s.isLead && b.freezable &&
    b.ckptPoint

/-- R208: the interrupt is taken: the freeze precedes the bundle that would issue, or a waiting CPYW. -/
def State.takeInterrupt (s : State) : State :=
  let b := s.core.bank
  s.trapEntry 0x11 0 b.tick b.pc

/-- R208, R214: the step INTERRUPT. -/
def execInterrupt (s : State) : Out := .next (if s.interruptDue then s.takeInterrupt else s)

/-! ### Pre-emption -/

/-- R179: of two running tasks the one that gives way: the lower priority, then the one started last. -/
def Task.yielder (a b : Task) : Task :=
  if b.eff < a.eff then b else if a.eff < b.eff then a else if a.started < b.started then b else a

/-- R179: the running task of a partition that is saved for a waiting task that finds no place. -/
def State.victim (s : State) (part : Nat) : Option Task :=
  let waits := (s.hub.waiting part).filter fun t =>
    match t.lrec with
    | some r => (s.findPlace part t r).isNone
    | none => false
  let running := s.hub.tasks.filter fun t => t.run == .running &&
    match s.hub.launch? t.launch with
    | some l => s.hub.partOf l == part && l.fault.isNone
    | none => false
  match waits, running with
  | w :: _, t :: ts =>
    let v := ts.foldl Task.yielder t
    if v.eff < w.eff then some v else none
  | _, _ => none

/-- R179: a point at which the running bank may be saved: an iteration boundary, a YIELD, or TASKEND. -/
def Bank.savePoint (b : Bank) : Bool :=
  !b.handler && b.branch.isNone && b.rimeFits && b.ckptPoint &&
  match b.run with
  | .active => b.stall == 0 && (b.atBoundary || b.curYield)
  | .ending => true
  | _ => false

/-- R179: a gang's member in TASKEND is saved with those that have been. -/
def State.gangSaved (s : State) : Bool :=
  match s.core.bank.task with
  | none => false
  | some t => t.gang.isSome && s.core.bank.savePoint && s.core.switching.isNone &&
      (s.hub.part t.part).saved.any fun v => v.task == t.task

/-- R179: the running bank's task is to be saved here. -/
def State.preemptDue (s : State) : Bool :=
  let b := s.core.bank
  match b.task with
  | none => false
  | some t => b.savePoint && s.core.switching.isNone && (s.victim t.part).any fun v => v.id == t.task

/-- The queues of the guest that hold packets of a launch. -/
def Guest.queuesOf (g : Guest) (launch : Nat) : List Nat :=
  (g.queues.filter fun q => q.2.any fun p => p.launch == some launch && field p.bytes 0 1 != 0xF0).map (·.1)

/-- R262: the guest has stopped in every queue that holds packets of a launch. -/
def Guest.stoppedFor (g : Guest) (launch : Nat) : Bool := (g.queuesOf launch).all fun q => g.paused.contains (launch, q)

/-- R259, R262: a packet of the hub: PREEMPT or RESUME, with a save area and a flag that the spec leaves open (log
entry 6). -/
def hubPacket (op q launch : Nat) : List Byte :=
  leBytes 1 op ++ leBytes 1 0 ++ leBytes 1 q ++ leBytes 1 7 ++ leBytes 1 3 ++ leBytes 3 0 ++
    leBytes 8 ((Config.freeKey (2 ^ 65 + 4 * launch + 1)).toNat / 8 * 8) ++
    leBytes 8 ((Config.freeKey (2 ^ 65 + 4 * launch + 2)).toNat % 2 ^ 63) ++
    leBytes 32 0 ++ leBytes 8 (Config.freeKey (2 ^ 65 + 4 * launch)).toNat

/-- A packet of the hub at the head of a queue. -/
def Guest.putHead (g : Guest) (op q launch : Nat) : Guest :=
  let p : Packet := { id := g.nextPacket, bytes := hubPacket op q launch, launch := some launch }
  { g with queues := sput g.queues q (p :: (sget g.queues q).getD []), nextPacket := g.nextPacket + 1 }

/-- R262: PREEMPT at the head of every queue that holds the launch's packets and has none yet. -/
def Guest.preempt (g : Guest) (launch : Nat) : Guest :=
  (g.queuesOf launch).foldl (fun g q =>
    let has := ((sget g.queues q).getD []).any fun p => p.launch == some launch && field p.bytes 0 1 == 0xF0
    if has || g.paused.contains (launch, q) then g else g.putHead 0xF0 q launch) g

/-- R262: RESUME in every queue in which PREEMPT has stopped the launch. -/
def Guest.resume (g : Guest) (launch : Nat) : Guest :=
  (g.paused.filter fun x => x.1 == launch).foldl (fun g x => g.putHead 0xF1 x.2 launch) g

/-- R32: the threads of the running bank have no operation outstanding. -/
def Core.threadsQuiet (c : Core) : Bool := c.threads.toList.all fun t => t.bank != c.curBank || !t.running || !t.busy

/-- The lines of a bank, as bytes. -/
def pinnedBytes (m : Mem) (pins : BitVec 65536) : Mem := m.filter fun e => pins.getLsbD (e.1 / 128)

/-- R219: the hub copies the running bank's context to the partition's save area, and the bank is free. -/
def State.saveContext (s : State) (t : BankTask) : State :=
  let c := s.core
  let threads := (List.range 8).filterMap fun n =>
    if (c.thread n).bank = c.curBank && (c.thread n).task = t.task + 1 then some (n, c.thread n) else none
  let v : Saved := { task := t.task, member := t.member, bank := c.bank, lines := pinnedBytes c.store c.bank.pins,
                     planes := c.planes, threads := threads, guestSave := !(s.guest.queuesOf t.launch).isEmpty }
  let mine (o : EngineOp) : Bool := o.core == s.cur && o.bank == c.curBank && o.saved.isNone
  let s := { s with ops := s.ops.map fun o => if mine o then { o with saved := some (t.task, t.member) } else o }
  let s := s.setCore { c with
    threads := c.threads.map (fun x => if x.bank = c.curBank then { x with running := false, busy := false } else x),
    bank := c.bank.vacate, shadow := none, switching := none }
  let h := s.hub.mapPart t.part fun p => { p with saved := p.saved ++ [v] }
  ((s.setHub (h.noteSaved t.part t.task)).testQuarantined (cellOf s.cur)).later [.event (.taskPlace t.part)]

/-- R219: the freeze, the frame with the drift area and CAUSE 0x12, and the save; a frame outside the bank's pinned
lines ends the launch (R212). -/
def State.savePreempt (s : State) (t : BankTask) : State :=
  let b := s.core.bank
  if !b.framePinned then
    (s.setCore { s.core with switching := none, bank := { b with handler := true } }).takeFault
      { cause := 0x06, thread := none, cb := 0, addr := 128 * b.tfbase, aux := 0 }
  else
    let cause := causeBits 0x12 none false 0 0
    let s := s.capture b.tick b.pc cause true
    let s := s.saveRelease
    (s.setBank { s.core.bank with epc := b.pc, cause := cause }).saveContext t

/-- R91, R139, R219, R262: the step PREEMPTION: the bank is frozen, its matrix operations' reads made; once its engine operations, its threads' operations and
the guest have stopped, its context is saved. -/
def execPreemption (s : State) : Out :=
  match s.core.bank.task with
  | none => .next s
  | some t =>
    if !(s.preemptDue || s.core.switching == some 162) then .next s
    else
      let s := { s.freezeMatrix with core := { s.freezeMatrix.core with switching := some 162 }, guest := s.guest.preempt t.launch }
      if s.drained && s.core.threadsQuiet && s.guest.stoppedFor t.launch then .next (s.savePreempt t).again
      else .next s

/-! ### Resumption -/

/-- The lines of a bank put back in a window. -/
def putBack (m : Mem) (pins : BitVec 65536) (bs : Mem) : Mem :=
  bs.foldl (fun m e => memPut m e.1 e.2) (m.filter fun e => !(pins.getLsbD (e.1 / 128)))

/-- R161, R175: the pulls of a task's marked outputs that are still to come. -/
def BankTask.pullTurns (t : BankTask) : List Turn :=
  (t.marked.filter fun u => !(t.pulled.contains u)).map fun u => .event (.outputPullDone t.task (u - 8))

/-- R180: a saved bank that stands in its new place goes on from its trap frame, as an ERET restores it. -/
def State.rejoin (s : State) (v : Saved) : State :=
  let rs := (rimesRead s.core.store (128 * v.bank.tfbase)).map (·.1)
  let s := (s.restore v.bank.tick v.bank.pc rs).acquire 4
  let b := { s.core.bank with run := if v.bank.run = .ending then .ending else .active,
                              curYield := false, epc := v.bank.epc, cause := v.bank.cause }
  s.setCore { s.core with bank := b,
                          shadow := if b.status.guard then some { b with saved := v.planes } else none }

/-- R102, R180, R216, R219: the saved context of a member is restored in a bank; the replay starts at its next tick, and its
outputs' pulls go on. -/
def State.restoreMember (s : State) (t : Task) (v : Saved) (core : Nat) : State :=
  let s := s.onCore core fun s =>
    let s := s.setCore (v.threads.foldl (fun (c : Core) x => c.setThread x.1 { x.2 with bank := t.bank }) s.core)
    s.onBank t.bank fun s =>
      (s.setCore { s.core with store := putBack s.core.store v.bank.pins v.lines, planes := v.planes,
                               bank := v.bank }).evictWays.rejoin v
  let mine (o : EngineOp) : Bool := o.saved == some (t.id, v.member)
  let ops := s.ops.filter mine
  let s := { s with ops := s.ops.map fun o => if mine o then { o with core := core, bank := t.bank, saved := none } else o }
  (s.later ((ops.filterMap fun o => if o.halted then none else some o.nextEvent) ++
    ((v.bank.task.map BankTask.pullTurns).getD []))).rouse core

/-- R31: the threads of a saved context are free on a core. -/
def State.threadsFree (s : State) (core : Nat) (v : Saved) : Bool :=
  v.threads.all fun x => !((s.coreAt core).thread x.1).running

/-- R219: a saved task takes a place of its kind and goes on. -/
def State.resumeTask (s : State) (part : Nat) (t : Task) (cores : List Nat) : State :=
  let vs := (s.hub.part part).saved.filter fun v => v.task == t.id
  if !(vs.all fun v => s.threadsFree (cores.getD v.member 0) v) then s
  else
    let n := s.hub.starts
    let h := s.hub.mapTask t.id fun k => { k with run := .running, cores := cores, waited := 0, since := none, started := n }
    let h := (h.mapPart part fun p => { p with saved := p.saved.filter fun v => v.task != t.id }).mapGang t.id fun g =>
      { g with cores := cores }
    let s := { s.setHub { h with starts := n + 1 } with guest := s.guest.resume t.launch }
    vs.foldl (fun s v => s.restoreMember t v (cores.getD v.member 0)) s

/-- R219: the step TASK_RESUME: the first saved task of a partition that finds a place resumes there. -/
def execTaskResume (part : Nat) (s : State) : Out :=
  let place (t : Task) : Option (Task × List Nat) :=
    if t.run ≠ .saved then none
    else
      match t.lrec with
      | some r => (s.findPlace part t r).map fun x => (t, x.1)
      | none => none
  match (s.hub.waiting part).findSome? place with
  | some x => .next (s.resumeTask part x.1 x.2)
  | none => .next s

end Sys2Proof.Machine
end

