-- ==== Sys2Proof/Machine/Device.lean ====
section
/-! DEFINITION. Boot and reset, attestation, hub register writes, replicas, the guest, power and heat, errors and
guarded reruns, and coherent accesses of the host and the guest (11 R222-R229, R237, R238; 14 R244, R261-R263;
16 R267-R274). -/

namespace Sys2Proof.Machine

/-! ### Reset and boot (16 R268) -/

/-- R105: the end of HBM. -/
def hbmEnd : Nat := 0x0C000000000

/-- The bytes of an image. -/
def Image.bytes (im : Image) : List Byte := im.words.flatMap fun w => leBytes 4 w.toNat

/-- R269: the firmware image keeps its header: 256 bytes with the magic, the length and the digest of the body, signed
with the key whose hash the fuses hold.
Log entry 8, DESIGN CHOICE. -/
def Service.imageOk (v : Service) : Bool :=
  let h := v.header
  let body := v.firmware.bytes
  sha384 v.pubKey == bytesBe 48 v.keyHash.toNat && h.length == 256 && field h 0 4 == 0x50464D57 &&
  field h 8 8 == body.length && (h.drop 16).take 48 == sha384 body &&
  signedBy v.pubKey (h.take 128) ((h.drop 128).take 48) ((h.drop 176).take 48)

/-- R268 steps 1 to 3, R269: BOOTSTAT.CODE of a boot that halts before step 4. -/
def Service.earlyCode (v : Service) : Nat :=
  if !v.imageOk then 1
  else if field v.header 4 4 < v.fuseVersion then 2
  else if !v.trainOk then 3
  else 0

/-- R268, R269: BOOTSTAT.CODE after a boot. -/
def Service.bootCode (v : Service) : Nat :=
  if v.earlyCode ≠ 0 then v.earlyCode
  else if (List.range 64).all fun n => !(v.harvest.testBit n) || v.record.retired.contains n then 4
  else 0

/-- R270: the guest's certificate: a body, then the signature over it under Pravel's key (log entry 80, PRESUMED). -/
def Service.guestOk (v : Service) : Bool :=
  let n := v.guestCert.length - 96
  decide (96 ≤ v.guestCert.length) &&
  signedBy v.pubKey (v.guestCert.take n) ((v.guestCert.drop n).take 48) (v.guestCert.drop (n + 48))

/-- R274: the service record as flash holds it. -/
def Service.load (v : Service) : Service := { v with record := v.flash, dirty := false }

/-- R268 step 5: a cell as the harvest map and the service record leave it. -/
def Service.cell (v : Service) (n : Nat) : Cell :=
  let c : Cell := { run := .spare, part := none, susp := (sget v.record.susp n).getD 0, testing := none }
  let own := v.harvest.testBit n
  if v.record.retired.contains n then { c with run := .retired, part := if own then some 0 else none }
  else if own then { c with run := .enabled, part := some 0 }
  else c

/-- R249, R274: a port with the lane map of the service record, and the channels that firmware gives to partitions. -/
def Service.port (v : Service) (p : Nat) : Nat × Port :=
  let own := (v.setup.channels.filter fun x => x.1 == p).foldl (fun m x => sput m x.2.1 x.2.2) []
  (p, { Port.clear with spareFor := (v.record.lanes.find? fun x => x.1 == p).map (·.2), owners := own })

/-- R14, R268 step 6: the supervisor image of a core, at most 16 KiB.
Log entry 79, DESIGN CHOICE. -/
def Service.supOf (v : Service) (core : Nat) : Image :=
  let im := ((v.setup.sups.find? fun x => x.1 == core).map (·.2)).getD v.firmware
  { im with words := im.words.take 4096 }

/-- R268: the hub as the boot finds it: the machine-check banks of a fatal error stay. -/
def Hub.boot (h : Hub) : Hub :=
  let r := h.regs
  { Hub.clear with
    mc := if r.fatal then h.mc else Hub.clear.mc,
    regs := { HubRegs.clear with prevFatal := r.fatal, rev := r.rev, svcThreshold := r.svcThreshold } }

/-- R202: the bank of a firmware task at the first bundle of the supervisor image (log entry 1, DEDUCED). -/
def firmwareBank (im : Image) : Bank :=
  { Bank.clear with status := { Bank.clear.status with sup := true, ie := true }, image := im,
                    pc := BitVec.ofNat 64 im.base, byBranch := true, run := .active }

/-- R231, R273, R274: the rows of the service record remapped in a stack. -/
def Record.rowsOf (r : Record) (stack : Nat) : Nat := (r.rows.filter fun x => x / 2 ^ 36 == stack).length

/-- R231, R268 step 3: the spare maps of the service record are applied. -/
def State.applyMaps (s : State) : State :=
  let v := s.svc
  let s := { s with ports := ((List.range 24).map v.port).filter fun x => x.2 != Port.clear }
  let low := (List.range 12).any fun k => decide (0 < v.record.rowsOf k) && Config.rowsLow (v.record.rowsOf k)
  s.setRegs { s.hub.regs with svcLanes := !v.record.lanes.isEmpty, svcChan := !v.record.chans.isEmpty, svcRows := low }

/-- R268 steps 4 and 5: HBM is zeroed, and the cells are enabled. -/
def State.applyCells (s : State) : State :=
  { s with mem := s.mem.filter (fun e => hbmEnd ≤ e.1),
           hub := { s.hub with cells := Vector.ofFn fun n : Fin 64 => s.svc.cell n.val } }

/-- R268 step 6: a core of a cell that is not retired gets its supervisor image; in an enabled cell firmware runs. -/
def State.loadCore (s : State) (c : Nat) : State :=
  let im := s.svc.supOf c
  let r := (s.hub.cell (cellOf c)).run
  if r == .retired then s
  else
    let s := s.onCore c fun s => s.setCore { s.core with sup := im }
    if r == .enabled && !im.words.isEmpty then
      (s.onCore c fun s => s.setBank (firmwareBank im)).later [.core c]
    else s

/-- R196, R269: what firmware sets up as it comes up (log entry 79, DESIGN CHOICE). -/
def State.applySetup (s : State) : State :=
  let u := s.svc.setup
  { s with hub := { s.hub with device := u.device, expertBase := u.sliceBase },
           svc := { s.svc with fuseVersion := max s.svc.fuseVersion u.version } }

/-- R268, R269, R274: a boot with the service record as the hub has it. A failure sets CODE and halts: before step 4, or in
step 5; else the supervisor images are loaded and READY is set. A record that flash does not hold yet is still written. -/
def State.boot (s : State) : State :=
  let v := s.svc
  let s := { State.reset with
    agenda := if v.dirty then [.event .serviceRecordWrite] else [], mem := s.mem, hub := s.hub.boot, svc := v,
    free := s.free, guest := { Guest.clear with present := s.guest.present,
                                                attested := s.guest.present && v.guestOk } }
  let halt (s : State) : State := s.setRegs { s.hub.regs with bootCode := v.bootCode }
  if v.earlyCode ≠ 0 then halt s
  else
    let s := s.applyMaps.applyCells
    if v.bootCode ≠ 0 then halt s
    else
      let s := s.applySetup
      let s := (s.setRegs { s.hub.regs with ready := true }).later [.event (.spareSubstitute 0)]
      (List.range 256).foldl State.loadCore s

/-- R268: the step POWER_ON: flash gives the service record. -/
def execPowerOn (s : State) : Out := .next ({ s with svc := s.svc.load }).boot

/-- R267, R268: the step COLD_RESET. -/
def execColdReset (s : State) : Out := .next s.boot

/-- R274: the step POWER_FAILURE: everything but flash, fuses and the memory of others is lost; a change of the
service record that flash does not hold is lost with it. -/
def execPowerFailure (s : State) : Out :=
  .next { State.reset with agenda := [], mem := s.mem.filter (fun e => hbmEnd ≤ e.1), svc := s.svc.load, free := s.free,
                           guest := { Guest.clear with present := s.guest.present } }

/-! ### Attestation and registers -/

/-- R270: the bytes of the supervisor images of every core as they are loaded, in order. -/
def State.supBytes (s : State) : List Byte := (List.range 256).flatMap fun c => (s.coreAt c).sup.bytes

/-- R270: the cells that the service record retires: bits 3:0 the spare slots, bits 31:4 cells folded by 28.
Log entry 48, DESIGN CHOICE. -/
def Service.retiredBits (v : Service) : Nat :=
  let gone := v.record.retired
  let spares := (List.range 64).filter fun n => !(v.harvest.testBit n)
  bitsNat ((List.range 4).map fun i => (spares[i]?).any gone.contains) +
    16 * bitsNat ((List.range 28).map fun i => gone.any fun c => c % 28 == i)

/-- R270: bytes 0x000 to 0x10F of the report. -/
def State.report (s : State) (nonce : BitVec 384) : List Byte :=
  let v := s.svc
  let g := s.guest
  leBytes 2 368 ++ leBytes 1 1 ++ leBytes 1 (if g.present && g.attested then 1 else 0) ++ leBytes 4 v.fuseVersion ++
    leBytes 8 0 ++ leBytes 48 nonce.toNat ++ sha384 v.rom ++ sha384 (v.header ++ v.firmware.bytes) ++ sha384 s.supBytes ++
    (if g.present then sha384 v.guestCert else leBytes 48 0) ++ leBytes 8 v.harvest ++ leBytes 4 v.retiredBits ++
    leBytes 4 v.life

/-- R270: the step ATTEST_REQUEST: the signed report is written at 0x2040 and the request byte cleared. -/
def execAttestRequest (nonce : BitVec 384) (s : State) : Out :=
  if memByte s.hub.attest 0x30 ≠ 1 then .next s
  else
    let r := s.report nonce
    let all := r ++ bytesBe 48 (Config.signR r).toNat ++ bytesBe 48 (Config.signS r).toNat
    .next (s.setHub { s.hub with attest := memPut (writeBytes s.hub.attest 0x40 all) 0x30 0 })

/-- R267: the step REGISTER_WRITE: an aligned write of a hub register. -/
def execRegisterWrite (offset : Nat) (value : Word) (s : State) : Out :=
  .next (if offset % 8 = 0 && decide (offset < 0x10000) then s.regWrite offset value else s)

/-! ### Replicas (11 R237, R238) -/

/-- R237: the step digest goes to the other replicas (log entry 47, DESIGN CHOICE). -/
def State.sendDigest (s : State) : State :=
  ((List.range 24).filter fun p => s.hub.regs.replPorts.testBit p).foldl (fun s p =>
    s.sendMessage { tag := 0, dest := BitVec.ofNat 8 (p + 2), payload := s.hub.regs.replDigest, rtag := 0, rdest := 0 }) s

/-- R237: the step REPLICA_STEP: the partition's queue halts and the digest is sent. -/
def execReplicaStep (part : Nat) (s : State) : Out :=
  if !s.hub.regs.replOn || s.hub.regs.replHalted then .next s
  else
    let s := s.setHub (s.hub.mapPart part fun p => { p with halted := true })
    .next (s.setRegs { s.hub.regs with replHalted := true, replPart := part }).sendDigest

/-- R238: a halted queue runs again, and its partition takes tasks. -/
def State.replResume (s : State) : State :=
  let p := s.hub.regs.replPart
  let s := s.setRegs { s.hub.regs with replHalted := false }
  (s.setHub ((s.hub.letRun p).mapPart p fun x => { x with quarantined := false })).later
    [.event (.launchStart p), .event (.taskPlace p)]

/-- R238: the step REPLCTL_RESUME. -/
def execReplctlResume (s : State) : Out := .next (if s.hub.regs.replHalted then s.replResume else s)

/-- R238: more than half of the replicas hold a digest. -/
def majority (n : Nat) (all : List Word) : Bool := all.any fun d => decide (n < 2 * (all.filter (· == d)).length)

/-- R238: the step REPLICA_COMPARE: with the digests of the others. A device in the majority goes on; any other one
stays halted and logs the disagreement, and where a majority disagrees with it its partition is quarantined. -/
def execReplicaCompare (part : Nat) (digests : List (BitVec 64)) (s : State) : Out :=
  let r := s.hub.regs
  if !r.replHalted || digests.length + 1 ≠ r.replN then .next s
  else
    let same := 1 + (digests.filter fun d => d == r.replDigest).length
    if r.replN < 2 * same then .next s.replResume
    else
      let s := s.logMc 25 2 16 0 0x0050 0 0 (some part)
      .next (if majority r.replN digests then
        s.setHub (s.hub.mapPart r.replPart fun p => { p with quarantined := true })
      else s)

/-! ### The guest (14 R261-R263) -/

/-- R261: a release by the guest, clock component 17. -/
def State.guestRelease (s : State) (scope : Nat) : State :=
  { s with ord := s.ord ++ [.guestRelease scope], clocks := bumpClock s.clocks 17 }

/-- The queue and the packet of a number. -/
def Guest.packet? (g : Guest) (id : Nat) : Option (Nat × Packet) :=
  (g.queues.flatMap fun q => q.2.map fun p => (q.1, p)).find? fun x => x.2.id == id

/-- A packet leaves its queue. -/
def Guest.dropPacket (g : Guest) (id : Nat) : Guest :=
  { g with queues := g.queues.map fun q => (q.1, q.2.filter fun p => p.id != id) }

/-- R259, R261, R262: the guest may complete a packet: one with ORDER set once it heads its queue, and none of a launch
that PREEMPT has stopped in that queue. -/
def Guest.mayEnd (g : Guest) (q : Nat) (p : Packet) : Bool :=
  let first := match sget g.queues q with
    | some (x :: _) => x.id == p.id
    | _ => false
  let hubs := 0xF0 ≤ field p.bytes 0 1
  (field p.bytes 1 1 % 2 == 0 || first) && (hubs || !(p.launch.any fun l => g.paused.contains (l, q)))

/-- R262: FVAL of a hub's packet as the guest writes it: bit 0 says whether it has saved its state. -/
def Packet.ackVal (p : Packet) (saved : Bool) : Nat := field p.bytes 16 8 / 2 * 2 + if saved then 1 else 0

/-- R261, R262: a packet of the hub is acknowledged: PREEMPT stops its launch in the queue, RESUME lets it go on. -/
def Guest.acknowledge (g : Guest) (q : Nat) (p : Packet) (saved : Bool) : Guest :=
  let g := g.dropPacket p.id
  match p.launch with
  | none => g
  | some l =>
    if field p.bytes 0 1 = 0xF0 then
      { g with paused := g.paused ++ [(l, q)], acks := g.acks ++ [(l, q, BitVec.ofNat 64 (p.ackVal saved))] }
    else { g with paused := g.paused.filter (fun x => x != (l, q)),
                  acks := g.acks.filter fun x => x.1 != l || x.2.1 != q }

/-- R261: the guest writes a value to a packet's flag as a release. On a page that is not present the hub queues an
event, and the guest tries again; an error response ends the packet (log entry 46, DEDUCED). -/
def State.guestFlag (s : State) (p : Packet) (v : Nat) : State :=
  let va := field p.bytes 8 8
  let part := s.hub.regs.guestPart
  let gone := { s with guest := s.guest.dropPacket p.id }
  match s.hubXlat part va { write := true, user := true, read := false } with
  | .ok pa => (gone.guestRelease (field p.bytes 4 1)).putFrom 17 pa (leBytes 8 v)
  | .absent => s.setHub (s.hub.queueEvent p.launch 0xFFFF 0 none none va none true none (some part))
  | .denied => gone.logErrorFor part va
  | .unbacked pa => gone.logErrorFor part pa

/-- R261: a guest that may act. -/
def State.guestLive (s : State) : Bool := s.guest.present && !s.hub.regs.guestFenced

/-- R261, R262: the guest acknowledges a packet of the hub: it writes FVAL to the packet's flag, and the packet's order takes
effect; on a page that is not present it tries again.
Log entry 46, DEDUCED. -/
def State.guestAck (s : State) (q : Nat) (p : Packet) : State :=
  let saved := (Config.freeByte s.free).getLsbD 0
  let t := { s with free := s.free + 1 }.guestFlag p (p.ackVal saved)
  if (t.guest.packet? p.id).isSome then t else { t with guest := t.guest.acknowledge q p saved }

/-- R261, R262: the step GUEST_COMPLETION. -/
def execGuestCompletion (packet : Nat) (s : State) : Out :=
  match s.guest.packet? packet with
  | none => .next s
  | some (q, p) =>
    if !s.guestLive || !(s.guest.mayEnd q p) then .next s
    else if 0xF0 ≤ field p.bytes 0 1 then .next (s.guestAck q p)
    else .next (s.guestFlag p (field p.bytes 16 8))

/-- R261: the step GUEST_FAULT. -/
def execGuestFault (packet : Nat) (code : BitVec 16) (severity : BitVec 2) (s : State) : Out :=
  match s.guest.packet? packet with
  | none => .next s
  | some (q, p) =>
    if !s.guestLive || !(s.guest.mayEnd q p) || 0xF0 ≤ field p.bytes 0 1 || code.toNat < 0x8000 ||
        (severity != 1 && severity != 2) then .next s
    else .next ((s.guestFlag p (field p.bytes 16 8 + 2 ^ 63)).logMc 31 severity.toNat 17 0 code.toNat 0 0
      (some s.hub.regs.guestPart))

/-- R258, R261, R263: the step GUEST_REPORT: a report above 250 W fences the guest. -/
def execGuestReport (watts temp : BitVec 8) (s : State) : Out :=
  if !s.guest.present then .next s
  else
    let s := s.setRegs { s.hub.regs with guestWatts := watts.toNat, guestTemp := temp.toNat }
    .next (if 250 < watts.toNat then s.later [.event .guestFence] else s)

/-- R261: the step GUEST_TRANSLATION: the hub's answer, which the guest may keep; it keeps at most 4,096. -/
def execGuestTranslation (va : Nat) (s : State) : Out :=
  let part := s.hub.regs.guestPart
  if !s.guestLive then .next s
  else
    match s.hubXlat part va { write := false, user := true, read := true } with
    | .ok _ =>
      let p := va / 65536 * 65536
      .next { s with guest := { s.guest with held := ((s.guest.held.filter fun x => x != p) ++ [p]).reverse.take 4096 |>.reverse } }
    | .absent => .next (s.setHub (s.hub.queueEvent none 0xFFFF 0 none none va none true none (some part)))
    | .denied => .next (s.logErrorFor part va)
    | .unbacked pa => .next (s.logErrorFor part pa)

/-- R261: the step GUEST_INVAL_ACK. -/
def execGuestInvalAck (va : Nat) (s : State) : Out :=
  let g := s.guest
  if !(g.invalidating.contains (va / 65536)) then .next s
  else .next { s with guest := { g with held := g.held.filter (fun x => x / 65536 != va / 65536),
                                        invalidating := g.invalidating.filter fun x => x != va / 65536 } }

/-- R263 step 5: every launch of a partition ends with a cause. -/
def State.endLaunches (s : State) (part cause : Nat) : State :=
  (s.hub.launches.filter fun l => s.hub.partOf l == part).foldl (fun s l => s.graphFault l.id cause 0) s

/-- R263: the step GUEST_FENCE.
Log entry 50, DEDUCED. -/
def execGuestFence (s : State) : Out :=
  if !s.guestLive then .next s
  else
    let part := s.hub.regs.guestPart
    let ps := s.guest.queues.flatMap (·.2)
    let s := s.setRegs { s.hub.regs with guestFenced := true, fencedPart := part }
    let s := { s with guest := { s.guest with held := [], invalidating := [], queues := [], paused := [], acks := [] } }
    let s := ps.foldl State.fenceFlag s
    let s := s.logMc 31 2 17 0 0x0060 0 0 (some part)
    .next ((s.setHub (s.hub.mapPart part fun p => { p with halted := true })).endLaunches part 0x20)

/-! ### Power and heat (16 R271, R272) -/

/-- R271: a die clock one step up or down, from 900 to 1,800 MHz. -/
def stepClock (up : Bool) (f : Nat) : Nat := if up then min 1800 (f + 100) else max 900 (f - 100)

/-- R271, R272: the step CLOCK_THROTTLE; while THERM.HOT is set no clock rises. -/
def execClockThrottle (die : Nat) (up : Bool) (s : State) : Out :=
  if up && s.hub.regs.thermHot then .next s
  else .next { s with dieClock := s.dieClock.zipIdx.map fun x => if x.2 = die then stepClock up x.1 else x.1 }

/-- R272: THERM.HOT after a reading: set at 95 degrees, clear below 90. -/
def hotAfter (hot : Bool) (temp : Nat) : Bool := decide (95 ≤ temp) || (hot && decide (90 ≤ temp))

/-- R272: THERM takes a reading, and while it is hot the clocks of all four dies step down.
Log entry 95, DESIGN CHOICE. -/
def State.heat (s : State) (temp : Nat) : State :=
  let hot := hotAfter s.hub.regs.thermHot temp
  let s := s.setRegs { s.hub.regs with thermMax := temp, thermHot := hot }
  if hot then { s with dieClock := s.dieClock.map (stepClock false) } else s

/-- R229: a fatal error stops every partition. -/
def State.stopAll (s : State) : State :=
  let s := s.setRegs { s.hub.regs with fatal := true }
  s.setHub { s.hub with parts := s.hub.parts.map fun p => { p with halted := true } }

/-- R272: a reading of the hottest sensor; at 110 degrees it is fatal. -/
def State.sensor (s : State) (temp : Nat) : State :=
  if temp < 110 then s.heat temp else ((s.heat temp).logMc 16 3 16 0 0x00F1 0 0 none).stopAll

/-- R272: the step THERMAL_HOT. -/
def execThermalHot (temp : BitVec 8) (s : State) : Out := .next (s.sensor temp.toNat)

/-- R272: the step THERMAL_TRIP. -/
def execThermalTrip (temp : BitVec 8) (s : State) : Out :=
  if temp.toNat < 110 then .next s else .next (s.sensor temp.toNat)

/-! ### Errors (11 R225, R226) -/

/-- R227, R228: the clock component that names a bank's source. -/
def sourceOf (bank : Nat) : Nat := if bank ≤ 16 then bank else if bank = 31 then 17 else 16

/-- R227: a bank that records errors. -/
def isSource (bank : Nat) : Bool := decide (bank < 26) || bank == 31

/-- An error of a site. -/
def State.logSite (s : State) (e : ErrorSite) (sev code : Nat) (part : Option Nat) : State :=
  s.logMc e.bank sev (sourceOf e.bank) e.unit.toNat code e.addr e.synd.toNat part

/-- R225: the step ECC_CORRECTED. -/
def execEccCorrected (e : ErrorSite) (s : State) : Out :=
  .next (if isSource e.bank then s.logSite e 1 0x0001 none else s)

/-- The partition of what consumed a word. -/
def State.consumerPart (s : State) : Consumer → Option Nat
  | .primary c | .drift c _ => (s.hub.cell (cellOf c)).part
  | .engine id => (s.op? id).map (·.part)
  | .moraine t => ((s.hub.task? t).bind fun t => s.hub.launch? t.launch).map s.hub.partOf

/-- R226: the running bank of a core takes cause 0x20. -/
def State.wordFault (s : State) (thread : Option Nat) (addr : Word) : State :=
  match s.core.bank.run with
  | .empty | .placed => s
  | _ => s.takeFault { cause := 0x20, thread := thread, cb := 0, addr := addr.toNat, aux := 0, late := true }

/-- R226: the word reaches its consumer. -/
def State.consume (s : State) (e : ErrorSite) : Consumer → State
  | .primary c => if c < 256 then (s.onCore c fun s => s.wordFault none e.addr).rouse c else s
  | .drift c n =>
    let t := (s.coreAt c).thread n
    if c < 256 && t.running then (s.onCoreBank c t.bank fun s => s.wordFault (some n) e.addr).rouse c else s
  | .engine id =>
    match s.op? id with
    | some o => if o.live then s.stopOp o .uncorrectable e.addr.toNat (o.lineAt e.addr.toNat) else s
    | none => s
  | .moraine id =>
    match s.hub.task? id with
    | some t => s.moraineFault t 0x20 e.addr.toNat
    | none => s

/-- R231, R273: where a stack has spent its spare rows, one of its two spare pseudo-channels takes over. -/
def Record.takeChan (r : Record) (stack : Nat) : Record :=
  let n := (r.chans.filter fun x => x.1 == stack).length
  if Config.rowsGone (r.rowsOf stack) && decide (n < 2) then { r with chans := r.chans ++ [(stack, n)] } else r

/-- R226, R231, R273, R274: the repair map moves a row of HBM to a spare: the words of it that could be corrected keep
their values, and the lost one is written as zero.
Log entry 51, DEDUCED.
Log entry 81, DESIGN CHOICE. -/
def State.repair (s : State) (e : ErrorSite) : State :=
  let a := e.addr.toNat / 8 * 8
  if hbmEnd ≤ a then s
  else
    let k := a / 2 ^ 36
    let r := { s.svc.record with rows := s.svc.record.rows ++ [a] }.takeChan k
    let s := { s with mem := zeroRange s.mem a 8, svc := { s.svc with record := r } }
    let s := s.setRegs { s.hub.regs with svcRows := s.hub.regs.svcRows || Config.rowsLow (r.rowsOf k),
                                         svcChan := s.hub.regs.svcChan || !r.chans.isEmpty }
    (s.logSite e 1 0x0003 none).touchService

/-- R226, R229: the step UNCORRECTABLE_ERROR: the error is contained in what consumed the word, and the row is repaired;
in the hub or a vector clock it is fatal. -/
def execUncorrectableError (e : ErrorSite) (consumer : Consumer) (s : State) : Out :=
  if !(isSource e.bank) then .next s
  else if e.bank = 16 then .next (s.logSite e 3 0x00F0 none).stopAll
  else
    let s := s.logSite e 2 0x0002 (s.consumerPart consumer)
    let s := s.consume e consumer
    .next (if 4 ≤ e.bank && e.bank < 16 then s.repair e else s)

/-! ### Guarded reruns (11 R222, R223) -/

/-- R223: an error of a core's cell in its die's bank. -/
def State.logCell (s : State) (core sev code : Nat) : State :=
  let n := cellOf core
  s.logMc (dieOf core) sev (dieOf core) (n % 16) code 0 n (s.hub.cell n).part

/-- R223: what is in flight in the running bank is dropped: its engine operations from a place in its order on, with their
place in a port's queues. -/
def State.dropOps (s : State) (keep : Nat) : State :=
  let gone (o : EngineOp) : Bool := o.core == s.cur && o.bank == s.core.curBank && o.drift.isNone && o.saved.isNone &&
    decide (keep ≤ o.seq)
  let ids := (s.ops.filter gone).map (·.id)
  let ports := s.ports.map fun x => (x.1, { x.2 with sends := x.2.sends.filter fun y => !(ids.contains y.2),
                                                     recvs := x.2.recvs.filter fun y => !(ids.contains y.2) })
  { s with ops := s.ops.filter fun o => !(gone o), ports := ports }

/-- R141, R223: the running bank returns to its last CKPT; run n of the rerun starts. An operation whose wait the CKPT has armed
issued before it, and goes on.
Log entry 52, DEDUCED. -/
def State.rollback (s : State) (r : Rerun) : State :=
  match s.core.shadow with
  | none => s
  | some b =>
    let s := s.core.bank.sysUndo.foldl State.undoSys s
    let store := s.core.bank.undo.foldl (fun m x => putN m (128 * x.1) 128 x.2.toNat) s.core.store
    let s := s.dropOps (16 * b.tick)
    (s.setCore { s.core with store := store, planes := b.saved, xlats := s.core.xlats.filter fun x => x.bank != s.core.curBank,
                             bank := { b with saved := Planes.none, rerun := some r } }).rouse s.cur

/-- R223: the first run of a rerun. -/
def Rerun.first : Rerun := { run := 1, sig1 := 0, n1 := 0, sig := 0xFFFFFFFF, fired := false }

/-- R223: a task that starts again from its beginning. -/
def Task.again (t : Task) : Task :=
  { t with waited := 0, since := none, run := .posted, retired := false, cores := [], bank := 0, landed := [], resident := [], pulls := [],
           trets := [], ends := [], digest := none, folds := [], outData := [], audit := none, started := 0,
           waitEv := none }

/-- R223: the members of a task leave their banks, and the task waits for another place. -/
def State.restartTask (s : State) (id : Nat) : State :=
  match s.hub.task? id with
  | none => s
  | some t =>
    let s := t.places.foldl (fun s x => (s.onCoreBank x.1 x.2 fun s =>
      let s := s.dropOps 0
      s.setCore { s.core with bank := s.core.bank.vacate, shadow := none }).rouse x.1) s
    let s := t.places.foldl (fun s x => s.testQuarantined (cellOf x.1)) s
    let h := s.hub.mapTask id Task.again
    let h := { h with gangs := h.gangs.filter (fun g => g.id != id), audits := h.audits.filter fun a => a.task != id }
    let part := match h.launch? t.launch with
      | some l => h.partOf l
      | none => 0
    (s.setHub h).later [.event (.taskPlace part)]

/-- R223: a bank at the end of the first run: how its second one starts. -/
def Bank.second (b : Bank) (r : Rerun) : Rerun :=
  { r with run := 2, sig1 := crc32End r.sig, n1 := b.bundles, sig := 0xFFFFFFFF, arrived := false }

/-- R223: at the end of the second run the two agree and no check has fired. -/
def Bank.agrees (b : Bank) : Bool :=
  match b.rerun with
  | some r => r.sig1 == crc32End r.sig && r.n1 == b.bundles && !r.fired
  | none => true

/-- R223: every member of a guarded gang returns to its last CKPT, where the gang's log ends. -/
def State.rollbackAll (s : State) (g : Gang) (f : Bank → Rerun) : State :=
  let n := match (s.coreAt (g.cores.getD 0 0)).shadow with
    | some b => b.gstep
    | none => 0
  let s := g.cores.foldl (fun s c => s.onCoreBank c g.bank fun s => s.rollback (f s.core.bank)) s
  s.setHub { s.hub with gangs := s.hub.gangs.map fun x => if x.id = g.id then { x with steps := x.steps.take n } else x }

/-- R223, R231: the cells of cores at which two runs disagree are retired, and the task starts again elsewhere. -/
def State.failRerun (s : State) (cores : List Nat) (task : Option Nat) : State :=
  let cells := (cores.map cellOf).eraseDups
  let s := cells.foldl (fun s n => (s.retireCell n).logCell (4 * n) 2 0x0011) s
  match task with
  | some t => s.restartTask t
  | none => s.setCore { s.core with bank := s.core.bank.vacate, shadow := none }

/-- R223: every member of a gang has come to the end of a run: the second run starts, or the two are compared over all of
them. -/
def State.gangPoint (s : State) (g : Gang) (run : Nat) : State :=
  let bank (c : Nat) : Bank := (s.coreAt c).bankAt g.bank
  if run = 1 then s.rollbackAll g fun b => b.second (b.rerun.getD Rerun.first)
  else
    let bad := g.cores.filter fun c => !(bank c).agrees
    if bad.isEmpty then
      let at_ := (g.cores.find? fun c => (bank c).rerun.any (·.origin)).getD s.cur
      (g.cores.foldl (fun s c => s.onCoreBank c g.bank fun s => s.setBank { s.core.bank with rerun := none }) s).logCell
        at_ 1 0x0010
    else s.failRerun bad (s.core.bank.task.map (·.task))

/-- R223: a run has come to the next CKPT or to TASKEND: the second run starts, or the two are compared. A member of a gang
waits until every one has come there. -/
def State.rerunPoint (s : State) (r : Rerun) : State :=
  let b := s.core.bank
  match s.gang with
  | some g =>
    let s := s.setBank { b with rerun := some { r with arrived := true } }
    if g.cores.all fun c => ((s.coreAt c).bankAt g.bank).rerun.any (·.arrived) then s.gangPoint g r.run else s
  | none =>
    if r.run = 1 then s.rollback (b.second r)
    else if b.agrees then (s.setBank { b with rerun := none }).logCell s.cur 1 0x0010
    else s.failRerun [s.cur] (b.task.map (·.task))

/-- R223, R225: a check fires in the running bank of a core. -/
def State.checkFires (s : State) : State :=
  let b := s.core.bank
  match b.run with
  | .empty | .placed => s
  | _ =>
    if b.status.guard then
      match b.rerun with
      | some r => s.setBank { b with rerun := some { r with fired := true } }
      | none =>
        match s.gang with
        | some g => (s.setBank { b with rerun := some { Rerun.first with origin := true } }).rollbackAll g fun b =>
            b.rerun.getD Rerun.first
        | none => s.rollback Rerun.first
    else
      let qth := match b.task.bind fun t => s.hub.task? t.task with
        | some t => t.qth
        | none => (s.hub.part s.part).qth
      let s := s.takeFault { cause := 0x20, thread := none, cb := 0, addr := 0, aux := 0, late := true }
      (s.logCell s.cur 2 0x0012).suspect (cellOf s.cur) 8 qth

/-- R225: the step DATAPATH_ERROR. -/
def execDatapathError (core : Nat) (s : State) : Out :=
  .next (if core < 256 then (s.onCore core State.checkFires).rouse core else s)

/-! ### Coherent accesses of others (14 R244, R258, R263) -/

/-- R105, R226: an error response to an access of the host. -/
def State.hostError (s : State) (x : Nat) : State := s.logMc 16 2 16 0 0x0020 (BitVec.ofNat 64 x) 0 none

/-- R104, R244: a line leaves the L2 caches. -/
def State.snoop (s : State) (a : Nat) : State :=
  { s with l2 := s.l2.filter fun x => x.2.line != a / 128 }

/-- R105, R244: the host reaches HBM and its own memory over CXL. -/
def cxlReaches (x len : Nat) : Bool :=
  decide (x + len ≤ hbmEnd) || (decide (0x10000000000 ≤ x) && decide (x + len ≤ 0x20000000000))

/-- R104, R105, R122, R244: the step CXL_MEM_ACCESS: the host reads or writes HBM, or its own memory, of which L2 lines then go.
Any other address is an error response. -/
def execCxlMemAccess (a : Coherent) (s : State) : Out :=
  if !s.hub.regs.ready then .next s
  else
    match a with
    | .read x n => .next (if cxlReaches x n then s.touchHome x n 0 false else s.hostError x)
    | .invalidate x => .next (s.snoop x)
    | .write x bytes =>
      .next (if cxlReaches x bytes.length then
          (((linesOf x bytes.length).foldl (fun s l => s.snoop (128 * l)) s).touchHome x bytes.length 0 true).putFrom 16 x bytes
        else s.hostError x)

/-- R263: the step GUEST_COHERENT_ACCESS: without a translation that the guest holds, the access fences it. -/
def execGuestCoherentAccess (a : Coherent) (s : State) : Out :=
  let part := s.hub.regs.guestPart
  if !s.guest.present then .next s
  else
    let use (x : Nat) (write : Bool) (k : Nat → State) : Out :=
      if s.hub.regs.guestFenced then .next (s.logErrorFor part x)
      else if !(s.guest.held.any fun h => h / 65536 == x / 65536) then .next (s.later [.event .guestFence])
      else
        match s.hubXlat part x { write := write, user := true, read := !write } with
        | .ok pa => .next (k pa)
        | .absent => .next (s.later [.event .guestFence])
        | .denied => .next (s.logErrorFor part x)
        | .unbacked pa => .next (s.logErrorFor part pa)
    match a with
    | .read x n => use x false fun pa => s.touchHome pa (min n (65536 - x % 65536)) 0 false
    | .write x bytes =>
      let bs := bytes.take (65536 - x % 65536)
      use x true fun pa => (s.touchHome pa bs.length 0 true).putFrom 17 pa bs
    | .invalidate x => use x false fun pa => s.snoop pa

end Sys2Proof.Machine
end

