-- ==== Sys2Proof/Machine/Vector.lean ====
section
/-! DEFINITION. The meanings of the V instructions that work lane by lane, move lanes, convert, or reduce
(22 R382-R387, R389-R401; 03 R55-R60, R66-R68; 10 R190, R195; 04 R97). -/

namespace Sys2Proof.Machine

/-- R55: any tag except NONE. -/
def tagAny (t : Tag) : Bool := 1 ≤ t.toNat && t.toNat ≤ 13

/-- R55: any tag except NONE and MASK. -/
def tagData (t : Tag) : Bool := 1 ≤ t.toNat && t.toNat ≤ 12

/-- A V instruction on one source, lane by lane. -/
def State.v1 (s : State) (o : VOp) (lat : Nat) (accept : Tag → Bool) (f : Tag → Nat → Nat) : Out :=
  s.vlanes o 1 lat accept id fun i _ => (map1 i.tag (f i.tag) (i.x 0), false)

/-- R53, R392: a V instruction on one FP32 source with an FP32 result. -/
def State.v1F (s : State) (o : VOp) (f : Nat → Nat) : Out :=
  s.vlanes o 1 8 (· == 1) (fun _ => 1) fun i _ => (map1 i.tag f (i.x 0), false)

/-- A V instruction on two sources of one tag, lane by lane. -/
def State.v2 (s : State) (o : VOp) (lat : Nat) (accept : Tag → Bool) (f : Tag → Nat → Nat → Nat) : Out :=
  s.vlanes o 2 lat accept id fun i _ => (map2 i.tag (f i.tag) (i.x 0) (i.x 1), false)

/-- A V instruction on three sources of one tag, lane by lane. -/
def State.v3 (s : State) (o : VOp) (lat : Nat) (accept : Tag → Bool) (f : Tag → Nat → Nat → Nat → Nat) : Out :=
  s.vlanes o 3 lat accept id fun i _ => (map3 i.tag (f i.tag) (i.x 0) (i.x 1) (i.x 2), false)

/-- R383: VADD. -/
def execVadd (o : VOp) (s : State) : Out := s.v2 o 2 tagArith fun t => laneAdd t (rndOf o.rnd)
/-- R383: VSUB. -/
def execVsub (o : VOp) (s : State) : Out := s.v2 o 2 tagArith fun t => laneSub t (rndOf o.rnd)
/-- R383: VMUL. -/
def execVmul (o : VOp) (s : State) : Out := s.v2 o 3 tagArith fun t => laneMul t (rndOf o.rnd)
/-- R393: VFMA. -/
def execVfma (o : VOp) (s : State) : Out := s.v3 o 4 tagFloat fun t => laneFma t (rndOf o.rnd) false false
/-- R393: VFMS. -/
def execVfms (o : VOp) (s : State) : Out := s.v3 o 4 tagFloat fun t => laneFma t (rndOf o.rnd) false true
/-- R393: VFNMA. -/
def execVfnma (o : VOp) (s : State) : Out := s.v3 o 4 tagFloat fun t => laneFma t (rndOf o.rnd) true false
/-- R383: VMIN. -/
def execVmin (o : VOp) (s : State) : Out := s.v2 o 2 tagArith laneMin
/-- R383: VMAX. -/
def execVmax (o : VOp) (s : State) : Out := s.v2 o 2 tagArith laneMax
/-- R382: VABS. -/
def execVabs (o : VOp) (s : State) : Out := s.v1 o 2 tagArith laneAbs
/-- R382: VNEG. -/
def execVneg (o : VOp) (s : State) : Out := s.v1 o 2 tagArith laneNeg

/-- R384: a bitwise operation on two sources of any tag except NONE. -/
def State.vlogic (s : State) (o : VOp) (f : VBits → VBits → VBits) : Out :=
  s.vlanes o 2 2 tagAny id fun i _ => (f (i.x 0) (i.x 1), false)

/-- R384: VAND. -/
def execVand (o : VOp) (s : State) : Out := s.vlogic o (· &&& ·)
/-- R384: VOR. -/
def execVor (o : VOp) (s : State) : Out := s.vlogic o (· ||| ·)
/-- R384: VXOR. -/
def execVxor (o : VOp) (s : State) : Out := s.vlogic o (· ^^^ ·)

/-- R399: a lane shifted right with copies of its top bit. -/
def laneSar (w x n : Nat) : Nat := ((BitVec.ofNat w x).sshiftRight n).toNat

/-- R399: VSHL. -/
def execVshl (o : VOp) (s : State) : Out :=
  s.v2 o 2 tagInt fun t a b => a * 2 ^ (b % tagWidth t) % 2 ^ tagWidth t
/-- R399: VSHR. -/
def execVshr (o : VOp) (s : State) : Out := s.v2 o 2 tagInt fun t a b => a / 2 ^ (b % tagWidth t)
/-- R399: VSAR. -/
def execVsar (o : VOp) (s : State) : Out := s.v2 o 2 tagInt fun t a b => laneSar (tagWidth t) a (b % tagWidth t)

/-- Bits that hold for each lane whether a test of it holds. -/
def laneTest (xs : List Bool) : VBits := BitVec.ofNat 2048 (bitsNat xs)

/-- R387: VCMP. It writes a mask and enters no latch. -/
def execVcmp (o : VOp) (s : State) : Out :=
  s.vrun o 2 0 false (fun i => kmOk o.km i.tag i.tag) (fun i => i.ok tagArith) fun i s =>
    let b := s.core.bank
    let w := tagWidth i.tag
    let bits := laneTest (List.zipWith (laneCmp i.tag o.c.toNat) (lanesOf w (i.x 0)) (lanesOf w (i.x 1)))
    s.setBank (b.addPend 2 (.k o.vd.toNat bits (b.mask o.km) (2048 / w)) 4 (flagBits false false i.lost))

/-- R401: VSEL. km selects lanes and masks nothing. -/
def execVsel (o : VOp) (s : State) : Out :=
  s.vrun o 2 0 true (fun i => i.tag != 13 || o.km == 0) (fun i => i.ok tagAny) fun i s =>
    s.vput 2 o i.tag (mergeBits (tagWidth i.tag) (s.core.bank.mask o.km) (i.x 0) (i.x 1)) (BitVec.allOnes 2048)
      (flagBits false false i.lost)

/-- R385: VMOV. -/
def execVmov (o : VOp) (s : State) : Out := s.vlanes o 1 2 tagAny id fun i _ => (i.x 0, false)
/-- R385: VBCAST. -/
def execVbcast (o : VOp) (s : State) : Out :=
  s.vlanes o 1 2 tagAny id fun i _ =>
    (ofLanes (tagWidth i.tag) (List.replicate (tagLanes i.tag) (laneAt (tagWidth i.tag) (i.x 0) 0)), false)
/-- R385: VIOTA. It reads no source. -/
def execViota (o : VOp) (s : State) : Out :=
  s.vrun o 0 0 true (fun _ => true) (fun _ => true) fun _ s =>
    s.vput 2 o 11 (ofLanes 32 (List.range 64)) (s.core.bank.mask o.km) 0

/-- R396: what a scalar broadcast field supplies. -/
def State.bcastVal (s : State) (f : BitVec 10) : Word :=
  match vsrc f with
  | .bcast n => s.core.bank.sregN n
  | _ => 0

/-- R22, R396: VPERM. A lost B carries A's tag. -/
def execVperm (o : VOp) (s : State) : Out :=
  s.vrun o 2 0 true (fun i => kmOk o.km (i.tagOf 0) (i.tagOf 0))
    (fun i =>
      let t := i.tagOf 0
      tagData t && t != 12 && (i.isPlain 1 || (tagNat (i.tagOf 1) && tagWidth (i.tagOf 1) == tagWidth t)))
    fun i s =>
      let t := i.tagOf 0
      let w := tagWidth t
      s.vput 4 o t (ofLanes w ((lanesOf w (i.x 1)).map fun n => if n < 2048 / w then laneAt w (i.x 0) n else 0))
        (s.core.bank.mask o.km) (flagBits false false i.lost)

/-- R396: VSLIDE. -/
def execVslide (o : VOp) (s : State) : Out :=
  let c := ((s.bcastVal o.b).setWidth 32).toInt
  s.vrun o 2 0 true (fun i => kmOk o.km i.tag i.tag) (fun i => i.agree && tagAny i.tag) fun i s =>
    let w := tagWidth i.tag
    let n := 2048 / w
    s.vput 4 o i.tag (ofLanes w ((List.range n).map fun (l : Nat) =>
        let k := (l : Int) + c
        if 0 ≤ k && k < n then laneAt w (i.x 0) k.toNat else 0))
      (s.core.bank.mask o.km) (flagBits false false i.lost)

/-- R396: VMOVS. -/
def execVmovs (o : VOp) (s : State) : Out :=
  let v := s.bcastVal o.b
  s.vrun o 2 0 true (fun i => kmOk o.km i.tag i.tag) (fun i => i.agree && tagData i.tag) fun i s =>
    let w := tagWidth i.tag
    s.vput 4 o i.tag (ofLanes w (v.toNat :: (lanesOf w (i.x 0)).dropLast)) (s.core.bank.mask o.km)
      (flagBits false false i.lost)

/-- R389: the lanes of a conversion between two tags, with NANINT of the lanes that a mask enables. -/
def convertLanes (src dst : Tag) (r : Rnd) (a k : VBits) : VBits × Bool :=
  let n := min (tagLanes src) (tagLanes dst)
  let xs := (List.range n).map fun l => convertElem src (laneAt (tagWidth src) a l) dst r
  (ofLanes (tagWidth dst) (xs.map (·.1)), (xs.mapIdx fun l x => x.2 && k.getLsbD l).any id)

/-- R389: VCVT. -/
def execVcvt (o : VOp) (s : State) : Out :=
  let t := o.c.setWidth 4
  s.vlanes o 1 3 tagData (fun _ => t) fun i k => convertLanes i.tag t (rndOf o.rnd) (i.x 0) k

/-- R390: VTAG. A source of any tag, NONE included. -/
def execVtag (o : VOp) (s : State) : Out :=
  s.vrun o 1 0 true (fun _ => true) (fun i => !(i.scalar && i.tag == 13)) fun i s =>
    s.vput 3 o (o.c.setWidth 4) (i.x 0) (BitVec.allOnes 2048) (flagBits false false i.lost)

/-! ### Quantisation (10 R195, 22 R391) -/

/-- The registers that a group of n names from a register field reads. -/
def Bank.group (b : Bank) (f : BitVec 10) (n : Nat) : List VReg :=
  (List.range n).map fun i => b.vreg (b.phys (f.toNat + i))

/-- R195: the largest finite magnitude of a block of F32 or BF16 codes, as a code; 0 if there is none. -/
def blockMax (t : Tag) (xs : List Nat) : Nat :=
  xs.foldl (fun m x =>
    match elemValue t x with
    | .fin _ _ _ => max m (laneAbs t x)
    | _ => m) 0

/-- R195: floor(log2 amax) of a positive finite code. -/
def floorLog2 (t : Tag) (x : Nat) : Int :=
  match elemValue t x with
  | .fin _ m e => (Nat.log2 m : Int) + e
  | _ => 0

/-- R195: the scale code of a block. -/
def scaleCode (t : Tag) (xs : List Nat) : Nat :=
  let a := blockMax t xs
  if a = 0 then 0 else (max 0 (min (floorLog2 t a - 8 + 127) 254)).toNat

/-- R195: one element quantised under a scale code. -/
def quantElem (t : Tag) (r : Rnd) (code x : Nat) : Nat :=
  encodeF .f8e4 r true ((elemValue t x).scale (127 - (code : Int)))

/-- R195: the F8E4 elements and the scale codes of 256 elements. -/
def quantize (t : Tag) (r : Rnd) (xs : List Nat) : VBits × VBits :=
  let bs := chunks 32 8 xs
  (ofLanes 8 (bs.flatMap fun b => b.map (quantElem t r (scaleCode t b))), ofLanes 8 (bs.map (scaleCode t)))

/-- R195: VQNT. Source A names four F32 or two BF16 registers; where its first one has another tag, four are checked
against the allotment.
Log entry 76, DESIGN CHOICE. -/
def execVqnt (o : VOp) (s : State) : Out :=
  s.primaryOnly o.g fun s =>
    let b := s.core.bank
    let a := o.a.toNat
    let t := (b.vreg (b.phys a)).tag
    let n := if t == 2 then 2 else 4
    let regs := b.group o.a n
    if !(b.vregIn o.vd.toNat) || !(b.vregIn (o.vd.toNat + 1)) || !(b.vregIn a) ||
        !((List.range n).all fun i => b.vregIn (a + i)) then s.raise 0x02
    else if !(tagFloat t) || !(regs.all fun r => r.tag == t) then s.raise 0x05
    else
      let q := quantize t (rndOf o.rnd) (regs.flatMap fun r => lanesOf (tagWidth t) r.bits)
      .next ((s.vput 3 o 3 q.1 (BitVec.allOnes 2048) 0).vputMore 3 (o.vd.toNat + 1) 9 q.2)

/-- R391: one element dequantised under a scale code. -/
def dequantElem (t : Tag) (code x : Nat) : Nat :=
  match elemValue t x with
  | .nan => 0x7FC00000
  | .inf neg => if code = 255 then 0x7FC00000 else encodeF .f32 .rne false (.inf neg)
  | .fin neg m e =>
    if code = 255 then 0x7FC00000 else encodeF .f32 .rtz true ((FVal.fin neg m e).scale ((code : Int) - 127))

/-- R391: VDQNT. It writes four F32 registers. -/
def execVdqnt (o : VOp) (s : State) : Out :=
  s.vrun o 2 3 true (fun _ => true)
    (fun i => !(i.isPlain 0) && (i.tagOf 0 == 3 || i.tagOf 0 == 4) && !(i.isPlain 1) && i.tagOf 1 == 9)
    fun i s =>
      let t := i.tagOf 0
      let y := (List.range 256).map fun e => dequantElem t (laneAt 8 (i.x 1) (e / 32)) (laneAt 8 (i.x 0) e)
      let part (n : Nat) : VBits := ofLanes 32 ((y.drop (64 * n)).take 64)
      let d := o.vd.toNat
      ((((s.vput 3 o 1 (part 0) (BitVec.allOnes 2048) (flagBits false false i.lost)).vputMore 3 (d + 1) 1
        (part 1)).vputMore 3 (d + 2) 1 (part 2)).vputMore 3 (d + 3) 1 (part 3))

/-- R22, R400: VSCL. B holds signed counts of the lane width, or is a scalar; a lost B carries A's tag. -/
def execVscl (o : VOp) (s : State) : Out :=
  s.vrun o 2 0 true (fun i => kmOk o.km (i.tagOf 0) (i.tagOf 0))
    (fun i =>
      let t := i.tagOf 0
      tagFloat t && (i.isPlain 1 || i.tagOf 1 == (if t == 1 then 8 else 7)))
    fun i s =>
      let t := i.tagOf 0
      s.vput 3 o t (map2 t (laneScale t (rndOf o.rnd)) (i.x 0) (i.x 1)) (s.core.bank.mask o.km)
        (flagBits false false i.lost)

/-- R392: VRCP. -/
def execVrcp (o : VOp) (s : State) : Out := s.v1F o vrcpF
/-- R392: VRSQ. -/
def execVrsq (o : VOp) (s : State) : Out := s.v1F o vrsqF
/-- R392: VEXP2. -/
def execVexp2 (o : VOp) (s : State) : Out := s.v1F o vexp2F
/-- R392: VLOG2. -/
def execVlog2 (o : VOp) (s : State) : Out := s.v1F o vlog2F

/-! ### Reductions (03 R66, R67) -/

/-- R66, R397: the lanes that enter a reduction: the identity for a disabled lane. -/
def reduceLanes (t : Tag) (k a : VBits) (ident : Nat) : List Nat :=
  (lanesOf (tagWidth t) a).mapIdx fun l x => if k.getLsbD l then x else ident

/-- R66, R397: a reduction into lane 0; every lane of vd is written. -/
def State.vreduce (s : State) (o : VOp) (ident : Tag → Nat) (f : Tag → Nat → Nat → Nat) : Out :=
  s.vrun o 1 0 true (fun i => kmOk o.km i.tag i.tag) (fun i => i.ok tagArith) fun i s =>
    let xs := reduceLanes i.tag (s.core.bank.mask o.km) (i.x 0) (ident i.tag)
    let r := treeReduce (f i.tag) 0 (Nat.log2 xs.length) xs
    s.vput 6 o i.tag (ofLanes (tagWidth i.tag) [r]) (BitVec.allOnes 2048) (flagBits false false i.lost)

/-- R397: VRSUM. -/
def execVrsum (o : VOp) (s : State) : Out := s.vreduce o (fun _ => 0) fun t => laneAdd t (rndOf o.rnd)
/-- R397: VRMAX. -/
def execVrmax (o : VOp) (s : State) : Out := s.vreduce o (fun t => extremeIdent t true) laneMax
/-- R397: VRMIN. -/
def execVrmin (o : VOp) (s : State) : Out := s.vreduce o (fun t => extremeIdent t false) laneMin

/-- R46: the produced NaN for a NaN lane. -/
def canonNan (t : Tag) (x : Nat) : Nat :=
  match tagFmt t with
  | some f => if decodeF f x == .nan then f.nanCode else x
  | none => x

/-- R67, R397: VSCAN.
Log entry 24, DEDUCED. -/
def execVscan (o : VOp) (s : State) : Out :=
  s.vrun o 1 0 true (fun i => kmOk o.km i.tag i.tag) (fun i => i.ok tagArith) fun i s =>
    let xs := reduceLanes i.tag (s.core.bank.mask o.km) (i.x 0) 0
    let r := (scanSweep (laneAdd i.tag (rndOf o.rnd)) (Nat.log2 xs.length) xs).map (canonNan i.tag)
    s.vput 8 o i.tag (ofLanes (tagWidth i.tag) r) (BitVec.allOnes 2048) (flagBits false false i.lost)

/-- R190: VPOPC. With MASK, lane 0 receives the count of all 2048 bits. -/
def execVpopc (o : VOp) (s : State) : Out :=
  s.vlanes o 1 3 (fun t => tagInt t || t == 13) (fun t => if t == 13 then 11 else t) fun i _ =>
    if i.tag == 13 then (BitVec.ofNat 2048 (popCount (i.x 0).toNat 2048), false)
    else (map1 i.tag (fun x => popCount x (tagWidth i.tag)) (i.x 0), false)

/-- R395: VHASH. -/
def execVhash (o : VOp) (s : State) : Out := s.v2 o 5 (fun t => t == 8 || t == 11) fun _ => laneHash

/-- R386: VCLASS. -/
def execVclass (o : VOp) (s : State) : Out :=
  s.vlanes o 1 3 tagFloat (fun t => if t == 1 then 11 else if t == 2 then 10 else t) fun i _ => (map1 i.tag (laneClass i.tag) (i.x 0), false)

/-- R398: VRND. -/
def execVrnd (o : VOp) (s : State) : Out :=
  s.v1 o 3 tagFloat fun t x =>
    match tagFmt t with
    | some f => integralF f (rndOf o.rnd) x
    | none => x

/-! ### Generator values (04 R97) -/

/-- R95: the stream key of the running task's launch.
Log entry 27, DESIGN CHOICE. -/
def State.streamKey (s : State) : Word :=
  match s.core.bank.task with
  | none => Config.freeKey (2 ^ 64)
  | some t =>
    match s.hub.launch? t.launch with
    | some l => l.key
    | none => Config.freeKey (2 ^ 64)

/-- R97, R394: VGEN. -/
def execVgen (o : VOp) (s : State) : Out :=
  s.vrun o 0 0 true (fun _ => true) (fun _ => true) fun _ s =>
    let b := s.core.bank
    let g := b.gen (o.c.toNat % 8)
    let t := genTag g
    let row := (s.bcastVal o.a).toNat % 2 ^ 32
    let col := (s.bcastVal o.b).toNat % 2 ^ 32
    let key := s.streamKey
    let xs := (List.range (tagLanes t)).map fun l =>
      if 8 ≤ o.c.toNat then genElem g key (col + l) row else genElem g key row (col + l)
    s.vput 6 o t (ofLanes (tagWidth t) xs) (b.mask o.km) 0

end Sys2Proof.Machine
end

