-- ==== Sys2Proof/Machine/Matrix.lean ====
section
/-! DEFINITION. The meanings of the M instructions (04 R73-R91, R96; 21 R349, R353, R355, R358, R360, R363, R364,
R367). What the engine does tick by tick after issue stands in MatrixOps. -/

namespace Sys2Proof.Machine

/-- R76: the row count of MMUL, MMULZ and MEPI. -/
def State.rowCount (s : State) (o : MOp) : Nat := if o.rows = 0 then (s.core.bank.sreg o.sn).toNat else o.rows.toNat

/-- R77 step 5: a range of lines lies inside the window and is pinned by the running bank. -/
def State.linesOk (s : State) (first n : Nat) : Option Nat :=
  if 65536 < first + n then some 0x06 else checkLines s.core.bank.pins s.core.other.pins first n

/-- R77 step 5, R354: several ranges: 0x06 for any of them comes before 0x0D for any. -/
def State.rangesOk (s : State) (rs : List (Nat × Nat)) : Option Nat :=
  let cs := rs.filterMap fun r => s.linesOk r.1 r.2
  if cs.contains 0x06 then some 0x06 else cs.head?

/-- R87, R364: a write to a tile that lands at a tick would land before a hold on the tile ends. -/
def Bank.tileHeld (b : Bank) (acc land : Nat) : Bool := b.holds.any fun h => h.1 == acc && decide (land < h.2)

/-- R78, R89: lines read or written at a tick claim their ports; reads are tracked. -/
def Bank.reads (b : Bank) (tick first n : Nat) : Bank :=
  let ls := (List.range n).map (first + ·)
  { b.claim tick ls with tracked := b.tracked ++ ls.map fun l => (l, tick) }

/-- R96: the generator operand of an instruction, captured at issue. -/
def State.genOf (s : State) (o : MOp) : Option (Gen × Word × Bool) :=
  if o.useGen then some (s.core.bank.gen o.gen.toNat, s.streamKey, o.t) else none

/-- R96: the mode field names the code of the generator operand. -/
def State.genFits (s : State) (o : MOp) : Bool :=
  match s.genOf o with
  | some g => genCode g.1 == o.mode.toNat
  | none => true

/-! ### MLDW and MFLIP -/

/-- R79: the shadow planes an MLDW of a code fills: WA, WB. -/
def fills (plane code : Nat) : Bool × Bool := (plane == 0 || code == 4, plane == 1 || code == 4)

/-- R90: an issued MMUL still streams a physical plane. -/
def Bank.streams_ (b : Bank) (id : Nat) : Bool := b.planeUse.any fun u => u.1 == id && decide (b.tick ≤ u.2)

/-- R90, R210: a shadow plane's MLDW has not reached issue + 64; one that a trap has frozen has not. -/
def Bank.loadingPlane (b : Bank) (wa wb : Bool) : Bool :=
  let hit (plane code : Nat) : Bool := (wa && (fills plane code).1) || (wb && (fills plane code).2)
  (b.loader.any fun l => hit l.plane l.code) ||
  (b.pend ++ b.parked.flatMap (·.pend)).any fun e => match e.eff with
    | .shadow plane code _ _ _ => hit plane code
    | _ => false

/-- R79, R358, R359: MLDW. -/
def execMldw (o : MOp) (s : State) : Out :=
  s.primaryOnly o.g fun s =>
    let b := s.core.bank
    let code := o.mode.toNat
    let lw := weightLines code
    let base := o.line.toNat
    let gen := s.genOf o
    let f := fills o.plane.toNat code
    let n := 128 * lw + if codeScaled code then 8 else 0
    if !(s.genFits o) then s.raise 0x05
    else if gen.isNone && base % lw ≠ 0 then s.raise 0x08
    else
      match (if gen.isNone then s.linesOk base n else none) with
      | some c => s.raise c
      | none =>
        let p := s.core.planes
        if (f.1 && b.streams_ p.waS.id) || (f.2 && b.streams_ p.wbS.id) then s.raise 0x0A
        else if b.tick < b.loadBusy then s.raise 0x04
        else
          let l : Loader := { seq := b.seq, issue := b.tick, plane := o.plane.toNat, code := code, base := base,
                              gen := gen, wa := [], wb := [], scales := [], next := 0 }
          let b := if gen.isSome then b else
            (List.range 64).foldl (fun b c =>
              let b := b.reads (b.tick + c) (base + 2 * c * lw) (2 * lw)
              if codeScaled code && decide (c < 8) then b.reads (b.tick + c) (base + 128 * lw + c) 1 else b) b
          .next (s.setBank { b with loader := some l, loadBusy := b.tick + 64 })

/-- R80, R90, R355: MFLIP. -/
def execMflip (o : MOp) (s : State) : Out :=
  s.primaryOnly o.g fun s =>
    let wa := o.plane != 1 || s.core.planes.paired
    let wb := o.plane != 0 || s.core.planes.paired
    if s.core.bank.loadingPlane wa wb then s.raise 0x0A else .next (s.result 1 (.flip wa wb))

/-! ### Streams -/

/-- R80, R81: the front planes a stream binds, with the tick of its last step, until which it reads them. -/
def Planes.bind (p : Planes) (wa wb : Bool) (last : Nat) : List (Nat × Nat) :=
  (if wa then [(p.waF.id, last)] else []) ++ if wb then [(p.wbF.id, last)] else []

/-- R82, R360: the ports a stream's line operand claims, and the reads that are tracked. -/
def Bank.streamReads (b : Bank) (np code base m : Nat) : Bank :=
  let la := actLines code
  let step := if np = 5 then 6 else 1
  (List.range m).foldl (fun b i =>
    let b := b.reads (b.tick + step * i) (base + i * la) la
    if (code = 5 ∨ code = 6) ∧ i % 32 = 0 then b.reads (b.tick + step * i) (base + m * la + i / 32) 1 else b) b

/-- R81, R82, R360: MMUL and MMULZ.
Log entry 28, DEDUCED. -/
def State.stream (s : State) (o : MOp) (zero : Bool) : Out :=
  s.primaryOnly o.g fun s =>
    let b := s.core.bank
    let m := s.rowCount o
    if 128 < m then s.raise 0x01
    else if m = 0 then .next s
    else
      let acc := o.acc.toNat
      let np := o.np.toNat
      let code := o.mode.toNat
      let wa := o.plane != 1
      let wb := o.plane != 0
      let p := s.core.planes
      let wc := if wa then p.waF.code else p.wbF.code
      let la := actLines code
      let base := o.line.toNat
      let gen := s.genOf o
      let scl := if code = 5 ∨ code = 6 then (m + 31) / 32 else 0
      let steps := if np = 5 then 6 * m else m
      if b.at_ ≤ acc then s.raise 0x02
      else if (wa && wb && p.waF.code != p.wbF.code) || !(pairOk np (wc.getD 99) code) || !(s.genFits o) ||
          (!zero && (b.tile acc).tag != profileTag np) then s.raise 0x05
      else if gen.isNone && base % la ≠ 0 then s.raise 0x08
      else
        match (if gen.isNone then s.linesOk base (m * la + scl) else none) with
        | some c => s.raise c
        | none =>
          if b.tileHeld acc (b.tick + 40) then s.raise 0x0A
          else if b.tick < b.streamBusy then s.raise 0x04
          else
            let st : Stream := { seq := b.seq, issue := b.tick, acc := acc, np := np, code := code, base := base,
                                 rows := m, zero := zero, gen := gen, sel := o.plane.toNat, rowb := b.rowb,
                                 wa := p.waF, wb := p.wbF, next := 0, old := 0, act := [], scl := [] }
            let last := b.tick + steps - 1
            let b := if gen.isNone then b.streamReads np code base m else b
            .next (s.setBank { b with streams := b.streams ++ [st], streamBusy := last + 1,
                                      planeUse := b.planeUse ++ p.bind (wa || code == 4) (wb || code == 4) last })

/-- R81, R360, R361: MMUL. -/
def execMmul (o : MOp) (s : State) : Out := s.stream o false
/-- R81, R360, R361: MMULZ. -/
def execMmulz (o : MOp) (s : State) : Out := s.stream o true

/-- R84, R349: MBND. -/
def execMbnd (o : MOp) (s : State) : Out :=
  s.primaryOnly o.g fun s => .next (s.result 1 (.rowb (min (s.rowCount o) 128)))

/-! ### The epilogue -/

/-- R86: the 256 FP32 words of eight lines. -/
def colWords (m : Mem) (line : Nat) : List Nat :=
  let bs := readRow m line 8
  (List.range 256).map (byteElem bs 4)

/-- R87, R89: a row of output lines would land at or before a tracked read. -/
def Bank.epiHazard (b : Bank) (dest rows n : Nat) : Bool :=
  (List.range rows).any fun i => b.hazard ((List.range n).map (dest + i * n + ·)) (b.tick + 24 + i)

/-- R86, R87, R353, R354: MEPI. -/
def execMepi (o : MOp) (s : State) : Out :=
  s.primaryOnly o.g fun s =>
    let b := s.core.bank
    let p := 4 ≤ o.mode.toNat
    let m := s.rowCount o
    if 128 < m then s.raise 0x01
    else if m = 0 then .next s
    else
      let acc := o.acc.toNat
      let n := epiLines o.np
      let dest := o.line.toNat
      let par := (b.sreg o.sn).toNat % 65536
      let tag := (b.tile acc).tag
      if b.at_ ≤ acc then s.raise 0x02
      else if tag != 1 && tag != 8 then s.raise 0x05
      else if dest % n ≠ 0 ∨ (p ∧ par % 16 ≠ 0) then s.raise 0x08
      else
        match s.rangesOk ((dest, m * n) :: if p then [(par, 16)] else []) with
        | some c => s.raise c
        | none =>
          let lines := (List.range (m * n)).map (dest + ·)
          if b.epiHazard dest m n || s.unitHeld (128 * dest) (128 * m * n) then s.raise 0x0A
          else if 512 < b.undo.length + (s.newUndo lines).length then s.raise 0x21
          else if b.tick < b.epiBusy then s.raise 0x04
          else
            let s := s.logUndo lines
            let b := s.core.bank
            let e : Epi := { seq := b.seq, issue := b.tick, acc := acc, rows := m, dest := dest, out := o.np,
                             act := o.mode.toNat % 4,
                             param := if p then some (colWords s.core.store par, colWords s.core.store (par + 8))
                                      else none, next := 0 }
            let b := if p then b.claim b.tick ((List.range 16).map (par + ·)) else b
            let b := (List.range m).foldl
              (fun b i => b.claim (b.tick + 24 + i) ((List.range n).map (dest + i * n + ·))) b
            .next (s.setBank { b with epis := b.epis ++ [e], epiBusy := b.tick + m,
                                      holds := b.holds ++ [(acc, b.tick + 24 + m)] })

/-! ### Tiles and vector registers -/

/-- R76: the row of MRDA and MWRA. -/
def State.rowOf (s : State) (o : MOp) : Nat :=
  if 4 ≤ o.mode.toNat then (s.core.bank.sreg o.sn).toNat % 128 else o.rows.toNat

/-- R85: 64 columns of a row as 2048 bits. -/
def segBits (r : AccRow) (seg : Nat) : VBits := r.extractLsb' (2048 * seg) 2048

/-- R85, R363: MRDA. -/
def execMrda (o : MOp) (s : State) : Out :=
  s.primaryOnly o.g fun s =>
    let b := s.core.bank
    let v := o.line.toNat % 512
    if b.at_ ≤ o.acc.toNat || !(b.vregIn v) then s.raise 0x02
    else
      let t := b.tile o.acc.toNat
      .next (s.setBank (b.addPend 6
        (.v (b.phys v) t.tag (segBits (t.row (s.rowOf o)) (o.mode.toNat % 4)) (BitVec.allOnes 2048)) 3 0))

/-- R85, R363: MWRA. -/
def execMwra (o : MOp) (s : State) : Out :=
  s.primaryOnly o.g fun s =>
    let b := s.core.bank
    let v := o.line.toNat % 512
    let acc := o.acc.toNat
    if b.at_ ≤ acc || !(b.vregIn v) then s.raise 0x02
    else
      let r := b.vreg (b.phys v)
      if r.tag != (b.tile acc).tag then s.raise 0x05
      else if b.tileHeld acc (b.tick + 6) then s.raise 0x0A
      else .next (s.result 6 (.seg acc (s.rowOf o) (o.mode.toNat % 4) r.bits))

/-- R85, R367: MZERO. -/
def execMzero (o : MOp) (s : State) : Out :=
  s.primaryOnly o.g fun s =>
    let b := s.core.bank
    let acc := o.acc.toNat
    if b.at_ ≤ acc then s.raise 0x02
    else if b.tileHeld acc (b.tick + 8) then s.raise 0x0A
    else .next (s.result 8 (.tileZero acc (if o.mode = 1 then 8 else 1)))

/-! ### The reduction across a cell -/

/-- R88, R364: a bank's tile allotment and the tag of a tile at a later tick, by the results in flight. -/
def Bank.tileAt (b : Bank) (acc tick : Nat) : Nat × Tag :=
  (byDue (b.pend.filter fun e => decide (e.due ≤ tick))).foldl (fun x e =>
    match e.eff with
    | .tileZero a tag => if a = acc then (x.1, tag) else x
    | .accRow a _ _ _ (some tag) => if a = acc then (x.1, tag) else x
    | .allot true n => (n, if n ≤ acc then 0 else x.2)
    | _ => x) (b.at_, (b.tile acc).tag)

/-- R40, R88: the tile of the member at cell position q at its own issue of this MRED: as it was where the member has
issued it, or as it will be, its cycles behind this member's. -/
def State.mredTile (s : State) (acc q : Nat) : Nat × Tag :=
  let b := s.core.bank
  let c := s.cur / 4 * 4 + q
  if c = s.cur then (b.at_, (b.tile acc).tag)
  else
    let k := (s.coreAt c).bankAt s.core.curBank
    match k.mreds.find? fun r => r.seq == b.mredN with
    | some r => (acc + 1, r.tag)
    | none => k.tileAt acc (k.tick + (b.gstep - k.gstep))

/-- R88, R364: the cause that the tiles of the cell's members raise in every member: one beyond its allotment, or a tag
that is not the profile's. -/
def State.mredFault (s : State) (acc np : Nat) : Option Nat :=
  let ts := (List.range 4).map (s.mredTile acc)
  if ts.any fun t => decide (t.1 ≤ acc) then some 0x02
  else if ts.any fun t => t.2 != profileTag np then some 0x05
  else none

/-- R88, R364, R365: MRED.
Log entry 29, DEDUCED. -/
def execMred (o : MOp) (s : State) : Out :=
  s.primaryOnly o.g fun s =>
    if s.gang.isNone then s.raise 0x01
    else
      let r := s.leadRows (s.rowCount o)
      let m := r.1
      let s := r.2
      let b := s.core.bank
      let acc := o.acc.toNat
      let lead := b.pos % 4 == 0
      if 128 < m then s.raise 0x01
      else if m = 0 then .next s
      else
        match s.mredFault acc o.np.toNat with
        | some c => s.raise c
        | none =>
          if lead && b.tileHeld acc (b.tick + 48) then s.raise 0x0A
          else if b.tick < b.mredBusy then s.raise 0x04
          else
            let q : Mred := { seq := b.mredN, issue := b.tick, acc := acc, rows := m, tag := (b.tile acc).tag,
                              out := [] }
            .next (s.setBank { b with mreds := b.mreds ++ [q], mredN := b.mredN + 1, mredBusy := b.tick + m,
                                      holds := if lead then b.holds ++ [(acc, b.tick + 48 + m)] else b.holds })

end Sys2Proof.Machine
end

