-- ==== Sys2Proof/Machine/Select.lean ====
section
/-! DEFINITION. The vector selection instructions VSORT, VTOPK, VMERGEK and VCOMP (10 R184-R189, 22 R388). -/

namespace Sys2Proof.Machine

/-- R185: the tags of a selection's data operand: F32, I32 and N32. -/
def tagRanked (t : Tag) : Bool := t == 1 || t == 8 || t == 11

/-- R184, R185: the lanes that take part: enabled, and their index is not the empty one. -/
def candLanes (k a : VBits) (base : Nat) : List (Nat × Nat × Nat) :=
  (List.range 64).filterMap fun l =>
    let n := (base + l) % 2 ^ 32
    if k.getLsbD l && n != emptyIndex then some (l, laneAt 32 a l, n) else none

/-- The entries (value, index) of candidate lanes. -/
def candEntries (cs : List (Nat × Nat × Nat)) : List (Nat × Nat) := cs.map fun c => (c.2.1, c.2.2)

/-- A list of entries as a values register and an index register, the fill behind it (R185). -/
def State.putList (s : State) (lat : Nat) (o : VOp) (t : Tag) (xs : List (Nat × Nat)) (lost : Bool) : State :=
  let ls := listLanes t xs
  (s.vput lat o t (ofLanes 32 ls.1) (BitVec.allOnes 2048) (flagBits false false lost)).vputMore lat
    (o.vd.toNat + 1) 11 (ofLanes 32 ls.2)

/-- R53, R185: a selection on data source A that writes `more` registers after vd, the first of them the indexes under
N32. -/
def State.vselect (s : State) (o : VOp) (more : Nat) (fin : VIn → State → State) : Out :=
  s.vrun o 1 more true (fun i => kmOk o.km i.tag 11) (fun i => i.ok tagRanked) fin

/-- R188: VSORT. -/
def execVsort (o : VOp) (s : State) : Out :=
  let base := (s.bcastVal o.b).toNat % 2 ^ 32
  s.vselect o 1 fun i s =>
    s.putList 10 o i.tag (rankSort i.tag (candEntries (candLanes (s.core.bank.mask o.km) (i.x 0) base))) i.lost

/-- R186: the sum of the lanes with an index that a test takes, 0 for the others. -/
def lanesSum (t : Tag) (cs : List (Nat × Nat × Nat)) (p : Nat → Bool) : Nat :=
  let xs := (List.range 64).map fun l =>
    match cs.find? (fun c => c.1 == l) with
    | some c => if p c.2.2 then c.2.1 else 0
    | none => 0
  treeReduce (laneAdd t .rne) 0 6 xs

/-- R186: VTOPK. -/
def execVtopk (o : VOp) (s : State) : Out :=
  let k := (s.bcastVal o.b).toNat % 2 ^ 32
  let base := (s.bcastVal o.c).toNat % 2 ^ 32
  s.vselect o 2 fun i s =>
    let cs := candLanes (s.core.bank.mask o.km) (i.x 0) base
    let sel := (rankSort i.tag (candEntries cs)).take k
    let taken (n : Nat) : Bool := sel.any fun e => e.2 == n
    (s.putList 12 o i.tag sel i.lost).vputMore 12 (o.vd.toNat + 2) i.tag
      (ofLanes 32 [lanesSum i.tag cs taken, lanesSum i.tag cs fun n => !(taken n)])

/-- R187: the entries of a list in two registers that are not empty. -/
def listEntries (vals idx : VBits) : List (Nat × Nat) :=
  (List.range 64).filterMap fun l =>
    let n := laneAt 32 idx l
    if n = emptyIndex then none else some (laneAt 32 vals l, n)

/-- R185, R187, R191: VMERGEK. -/
def execVmergek (o : VOp) (s : State) : Out :=
  s.primaryOnly o.g fun s =>
    let b := s.core.bank
    let k := (s.bcastVal o.c).toNat % 2 ^ 32
    if !(b.vregIn o.a.toNat) || !(b.vregIn (o.a.toNat + 1)) || !(b.vregIn o.b.toNat) ||
        !(b.vregIn (o.b.toNat + 1)) || !(b.vregIn o.vd.toNat) || !(b.vregIn (o.vd.toNat + 1)) then s.raise 0x02
    else
      let xs := b.group o.a 2
      let ys := b.group o.b 2
      let at_ (l : List VReg) (n : Nat) : VReg := l.getD n { bits := 0, tag := 0 }
      let t := (at_ xs 0).tag
      if !(tagRanked t) || (at_ ys 0).tag != t || (at_ xs 1).tag != 11 || (at_ ys 1).tag != 11 then s.raise 0x05
      else
        let es := listEntries (at_ xs 0).bits (at_ xs 1).bits ++ listEntries (at_ ys 0).bits (at_ ys 1).bits
        .next (s.putList 8 o t ((rankSort t es).take (min k 64)) false)

/-- R189: VCOMP. -/
def execVcomp (o : VOp) (s : State) : Out :=
  let thr := (s.bcastVal o.b).toNat % 2 ^ 32
  let base := (s.bcastVal o.c).toNat % 2 ^ 32
  s.vselect o 2 fun i s =>
    let sel := (candEntries (candLanes (s.core.bank.mask o.km) (i.x 0) base)).filter fun e => valueAbove i.tag e.1 thr
    (s.putList 6 o i.tag sel i.lost).vputMore 6 (o.vd.toNat + 2) 11 (ofLanes 32 [sel.length])

end Sys2Proof.Machine
end

