-- ==== Sys2Proof/Machine/Dispatch.lean ====
section
/-! DEFINITION. The dispatch: one arm for each constructor of Instr. -/

namespace Sys2Proof.Machine

def exec (i : Instr) (s : State) : Host.Outcome State Fault Refusal :=
  match i with
  -- S class (19 R306)
  | .nop => Sys2Proof.Machine.execNop s
  | .nopW => Sys2Proof.Machine.execNopW s
  | .add o => Sys2Proof.Machine.execAdd o s
  | .sub o => Sys2Proof.Machine.execSub o s
  | .mul o => Sys2Proof.Machine.execMul o s
  | .mulh o => Sys2Proof.Machine.execMulh o s
  | .mulhn o => Sys2Proof.Machine.execMulhn o s
  | .div o => Sys2Proof.Machine.execDiv o s
  | .divn o => Sys2Proof.Machine.execDivn o s
  | .min_ o => Sys2Proof.Machine.execMin o s
  | .max_ o => Sys2Proof.Machine.execMax o s
  | .minn o => Sys2Proof.Machine.execMinn o s
  | .maxn o => Sys2Proof.Machine.execMaxn o s
  | .and_ o => Sys2Proof.Machine.execAnd o s
  | .or_ o => Sys2Proof.Machine.execOr o s
  | .xor_ o => Sys2Proof.Machine.execXor o s
  | .shl o => Sys2Proof.Machine.execShl o s
  | .shr o => Sys2Proof.Machine.execShr o s
  | .sar o => Sys2Proof.Machine.execSar o s
  | .clz o => Sys2Proof.Machine.execClz o s
  | .popc o => Sys2Proof.Machine.execPopc o s
  | .sel o => Sys2Proof.Machine.execSel o s
  | .mov o => Sys2Proof.Machine.execMov o s
  | .cmp o => Sys2Proof.Machine.execCmp o s
  | .pand o => Sys2Proof.Machine.execPand o s
  | .por o => Sys2Proof.Machine.execPor o s
  | .pxor o => Sys2Proof.Machine.execPxor o s
  | .pandn o => Sys2Proof.Machine.execPandn o s
  | .movp o => Sys2Proof.Machine.execMovp o s
  | .setp o => Sys2Proof.Machine.execSetp o s
  | .addi o => Sys2Proof.Machine.execAddi o s
  | .andi o => Sys2Proof.Machine.execAndi o s
  | .ori o => Sys2Proof.Machine.execOri o s
  | .xori o => Sys2Proof.Machine.execXori o s
  | .shli o => Sys2Proof.Machine.execShli o s
  | .shri o => Sys2Proof.Machine.execShri o s
  | .sari o => Sys2Proof.Machine.execSari o s
  | .movi o => Sys2Proof.Machine.execMovi o s
  | .cmpeqi o => Sys2Proof.Machine.execCmpeqi o s
  | .cmplti o => Sys2Proof.Machine.execCmplti o s
  | .cmplei o => Sys2Proof.Machine.execCmplei o s
  | .cmpltni o => Sys2Proof.Machine.execCmpltni o s
  -- L class (19 R309)
  | .br o => Sys2Proof.Machine.execBr o s
  | .bri o => Sys2Proof.Machine.execBri o s
  | .brb o => Sys2Proof.Machine.execBrb o s
  | .call o => Sys2Proof.Machine.execCall o s
  | .ret o => Sys2Proof.Machine.execRet o s
  | .loop o => Sys2Proof.Machine.execLoop o s
  | .lmark o => Sys2Proof.Machine.execLmark o s
  | .taskend o => Sys2Proof.Machine.execTaskend o s
  | .yield o => Sys2Proof.Machine.execYield o s
  -- X class (19 R308)
  | .movl o => Sys2Proof.Machine.execMovl o s
  | .movh o => Sys2Proof.Machine.execMovh o s
  | .addl o => Sys2Proof.Machine.execAddl o s
  | .ldt o => Sys2Proof.Machine.execLdt o s
  | .mbr o => Sys2Proof.Machine.execMbr o s
  | .mfsr o => Sys2Proof.Machine.execMfsr o s
  | .mtsr o => Sys2Proof.Machine.execMtsr o s
  | .trap o => Sys2Proof.Machine.execTrap o s
  | .eret o => Sys2Proof.Machine.execEret o s
  | .ckpt o => Sys2Proof.Machine.execCkpt o s
  | .digest o => Sys2Proof.Machine.execDigest o s
  | .grow o => Sys2Proof.Machine.execGrow o s
  | .shrink o => Sys2Proof.Machine.execShrink o s
  | .arm o => Sys2Proof.Machine.execArm o s
  | .disarm o => Sys2Proof.Machine.execDisarm o s
  | .condw o => Sys2Proof.Machine.execCondw o s
  | .tret o => Sys2Proof.Machine.execTret o s
  | .dstart o => Sys2Proof.Machine.execDstart o s
  | .dstop o => Sys2Proof.Machine.execDstop o s
  | .genset o => Sys2Proof.Machine.execGenset o s
  | .selftest o => Sys2Proof.Machine.execSelftest o s
  -- V class (19 R310)
  | .vadd o => Sys2Proof.Machine.execVadd o s
  | .vsub o => Sys2Proof.Machine.execVsub o s
  | .vmul o => Sys2Proof.Machine.execVmul o s
  | .vfma o => Sys2Proof.Machine.execVfma o s
  | .vfms o => Sys2Proof.Machine.execVfms o s
  | .vfnma o => Sys2Proof.Machine.execVfnma o s
  | .vmin o => Sys2Proof.Machine.execVmin o s
  | .vmax o => Sys2Proof.Machine.execVmax o s
  | .vabs o => Sys2Proof.Machine.execVabs o s
  | .vneg o => Sys2Proof.Machine.execVneg o s
  | .vand o => Sys2Proof.Machine.execVand o s
  | .vor o => Sys2Proof.Machine.execVor o s
  | .vxor o => Sys2Proof.Machine.execVxor o s
  | .vshl o => Sys2Proof.Machine.execVshl o s
  | .vshr o => Sys2Proof.Machine.execVshr o s
  | .vsar o => Sys2Proof.Machine.execVsar o s
  | .vcmp o => Sys2Proof.Machine.execVcmp o s
  | .vsel o => Sys2Proof.Machine.execVsel o s
  | .vmov o => Sys2Proof.Machine.execVmov o s
  | .vbcast o => Sys2Proof.Machine.execVbcast o s
  | .viota o => Sys2Proof.Machine.execViota o s
  | .vperm o => Sys2Proof.Machine.execVperm o s
  | .vslide o => Sys2Proof.Machine.execVslide o s
  | .vcvt o => Sys2Proof.Machine.execVcvt o s
  | .vqnt o => Sys2Proof.Machine.execVqnt o s
  | .vdqnt o => Sys2Proof.Machine.execVdqnt o s
  | .vscl o => Sys2Proof.Machine.execVscl o s
  | .vrcp o => Sys2Proof.Machine.execVrcp o s
  | .vrsq o => Sys2Proof.Machine.execVrsq o s
  | .vexp2 o => Sys2Proof.Machine.execVexp2 o s
  | .vlog2 o => Sys2Proof.Machine.execVlog2 o s
  | .vrsum o => Sys2Proof.Machine.execVrsum o s
  | .vrmax o => Sys2Proof.Machine.execVrmax o s
  | .vrmin o => Sys2Proof.Machine.execVrmin o s
  | .vscan o => Sys2Proof.Machine.execVscan o s
  | .vsort o => Sys2Proof.Machine.execVsort o s
  | .vtopk o => Sys2Proof.Machine.execVtopk o s
  | .vmergek o => Sys2Proof.Machine.execVmergek o s
  | .vcomp o => Sys2Proof.Machine.execVcomp o s
  | .vpopc o => Sys2Proof.Machine.execVpopc o s
  | .vmovs o => Sys2Proof.Machine.execVmovs o s
  | .vhash o => Sys2Proof.Machine.execVhash o s
  | .vgen o => Sys2Proof.Machine.execVgen o s
  | .vclass o => Sys2Proof.Machine.execVclass o s
  | .vrnd o => Sys2Proof.Machine.execVrnd o s
  | .vtag o => Sys2Proof.Machine.execVtag o s
  -- M class (19 R312)
  | .mldw o => Sys2Proof.Machine.execMldw o s
  | .mflip o => Sys2Proof.Machine.execMflip o s
  | .mmul o => Sys2Proof.Machine.execMmul o s
  | .mmulz o => Sys2Proof.Machine.execMmulz o s
  | .mbnd o => Sys2Proof.Machine.execMbnd o s
  | .mepi o => Sys2Proof.Machine.execMepi o s
  | .mrda o => Sys2Proof.Machine.execMrda o s
  | .mwra o => Sys2Proof.Machine.execMwra o s
  | .mzero o => Sys2Proof.Machine.execMzero o s
  | .mred o => Sys2Proof.Machine.execMred o s
  -- C class (19 R314)
  | .ld o => Sys2Proof.Machine.execLd o s
  | .st o => Sys2Proof.Machine.execSt o s
  | .ldv o => Sys2Proof.Machine.execLdv o s
  | .stv o => Sys2Proof.Machine.execStv o s
  | .gath o => Sys2Proof.Machine.execGath o s
  | .scat o => Sys2Proof.Machine.execScat o s
  | .cpy o => Sys2Proof.Machine.execCpy o s
  | .cpyw o => Sys2Proof.Machine.execCpyw o s
  | .mcast o => Sys2Proof.Machine.execMcast o s
  | .pin o => Sys2Proof.Machine.execPin o s
  | .unpin o => Sys2Proof.Machine.execUnpin o s
  | .atom o => Sys2Proof.Machine.execAtom o s
  | .flagw o => Sys2Proof.Machine.execFlagw o s
  | .flagr o => Sys2Proof.Machine.execFlagr o s
  | .fence o => Sys2Proof.Machine.execFence o s
  | .barr o => Sys2Proof.Machine.execBarr o s
  | .msend o => Sys2Proof.Machine.execMsend o s
  | .lsend o => Sys2Proof.Machine.execLsend o s
  | .lrecv o => Sys2Proof.Machine.execLrecv o s
  | .lradd o => Sys2Proof.Machine.execLradd o s
  | .subs o => Sys2Proof.Machine.execSubs o s
  | .slotdn o => Sys2Proof.Machine.execSlotdn o s
  | .bdred o => Sys2Proof.Machine.execBdred o s
  | .bdtopk o => Sys2Proof.Machine.execBdtopk o s
  | .xroute o => Sys2Proof.Machine.execXroute o s
  | .gpost o => Sys2Proof.Machine.execGpost o s
  | .pref o => Sys2Proof.Machine.execPref o s
  | .wbl o => Sys2Proof.Machine.execWbl o s
  | .invl o => Sys2Proof.Machine.execInvl o s
  -- steps of the other agents (95)
  | .resultWriteback => Sys2Proof.Machine.execResultWriteback s
  | .loopIteration => Sys2Proof.Machine.execLoopIteration s
  | .driftSlotFill => Sys2Proof.Machine.execDriftSlotFill s
  | .driftOpComplete core thread => Sys2Proof.Machine.execDriftOpComplete core thread s
  | .tokenWindow grant => Sys2Proof.Machine.execTokenWindow grant s
  | .engineLineLand op => Sys2Proof.Machine.execEngineLineLand op s
  | .engineOpComplete op => Sys2Proof.Machine.execEngineOpComplete op s
  | .engineOpFault op kind va => Sys2Proof.Machine.execEngineOpFault op kind va s
  | .eventAnswer ev entry => Sys2Proof.Machine.execEventAnswer ev entry s
  | .bankSwitch => Sys2Proof.Machine.execBankSwitch s
  | .bankResume => Sys2Proof.Machine.execBankResume s
  | .timerExpiry => Sys2Proof.Machine.execTimerExpiry s
  | .interrupt => Sys2Proof.Machine.execInterrupt s
  | .taggedMessage m => Sys2Proof.Machine.execTaggedMessage m s
  | .armResult core => Sys2Proof.Machine.execArmResult core s
  | .launchStart part => Sys2Proof.Machine.execLaunchStart part s
  | .launchEnd launch => Sys2Proof.Machine.execLaunchEnd launch s
  | .faultEndLaunch launch => Sys2Proof.Machine.execFaultEndLaunch launch s
  | .nodeTaskset launch branch => Sys2Proof.Machine.execNodeTaskset launch branch s
  | .nodeCond launch branch => Sys2Proof.Machine.execNodeCond launch branch s
  | .nodeWhile launch branch => Sys2Proof.Machine.execNodeWhile launch branch s
  | .nodeBucket launch branch => Sys2Proof.Machine.execNodeBucket launch branch s
  | .nodeJoin launch branch => Sys2Proof.Machine.execNodeJoin launch branch s
  | .nodeMessage launch branch => Sys2Proof.Machine.execNodeMessage launch branch s
  | .nodeTest launch branch => Sys2Proof.Machine.execNodeTest launch branch s
  | .taskPlace part => Sys2Proof.Machine.execTaskPlace part s
  | .moraineDelivery task input => Sys2Proof.Machine.execMoraineDelivery task input s
  | .taskStart task => Sys2Proof.Machine.execTaskStart task s
  | .outputPullDone task output => Sys2Proof.Machine.execOutputPullDone task output s
  | .subsSlotFill op => Sys2Proof.Machine.execSubsSlotFill op s
  | .priorityAging task => Sys2Proof.Machine.execPriorityAging task s
  | .preemption => Sys2Proof.Machine.execPreemption s
  | .taskResume part => Sys2Proof.Machine.execTaskResume part s
  | .linkPair port channel => Sys2Proof.Machine.execLinkPair port channel s
  | .linkTransferDone port channel => Sys2Proof.Machine.execLinkTransferDone port channel s
  | .flitReceive port f => Sys2Proof.Machine.execFlitReceive port f s
  | .laneFail port lane => Sys2Proof.Machine.execLaneFail port lane s
  | .stampedWriteApply die w => Sys2Proof.Machine.execStampedWriteApply die w s
  | .messagePortWrite offset size m => Sys2Proof.Machine.execMessagePortWrite offset size m s
  | .lndropRead => Sys2Proof.Machine.execLndropRead s
  | .mpcntRead => Sys2Proof.Machine.execMpcntRead s
  | .coldReset => Sys2Proof.Machine.execColdReset s
  | .powerOn => Sys2Proof.Machine.execPowerOn s
  | .attestRequest nonce => Sys2Proof.Machine.execAttestRequest nonce s
  | .replctlResume => Sys2Proof.Machine.execReplctlResume s
  | .registerWrite offset value => Sys2Proof.Machine.execRegisterWrite offset value s
  | .guestCompletion packet => Sys2Proof.Machine.execGuestCompletion packet s
  | .guestFault packet code severity => Sys2Proof.Machine.execGuestFault packet code severity s
  | .guestReport watts temp => Sys2Proof.Machine.execGuestReport watts temp s
  | .guestTranslation va => Sys2Proof.Machine.execGuestTranslation va s
  | .guestInvalAck va => Sys2Proof.Machine.execGuestInvalAck va s
  | .guestFence => Sys2Proof.Machine.execGuestFence s
  | .clockThrottle die up => Sys2Proof.Machine.execClockThrottle die up s
  | .thermalHot temp => Sys2Proof.Machine.execThermalHot temp s
  | .thermalTrip temp => Sys2Proof.Machine.execThermalTrip temp s
  | .eccCorrected e => Sys2Proof.Machine.execEccCorrected e s
  | .uncorrectableError e consumer => Sys2Proof.Machine.execUncorrectableError e consumer s
  | .datapathError core => Sys2Proof.Machine.execDatapathError core s
  | .auditRerun task => Sys2Proof.Machine.execAuditRerun task s
  | .auditDecide task => Sys2Proof.Machine.execAuditDecide task s
  | .selftestDone cell pass => Sys2Proof.Machine.execSelftestDone cell pass s
  | .spareSubstitute part => Sys2Proof.Machine.execSpareSubstitute part s
  | .serviceRecordWrite => Sys2Proof.Machine.execServiceRecordWrite s
  | .replicaStep part => Sys2Proof.Machine.execReplicaStep part s
  | .replicaCompare part digests => Sys2Proof.Machine.execReplicaCompare part digests s
  | .powerFailure => Sys2Proof.Machine.execPowerFailure s
  | .cxlMemAccess a => Sys2Proof.Machine.execCxlMemAccess a s
  | .guestCoherentAccess a => Sys2Proof.Machine.execGuestCoherentAccess a s
  | .pendSoftSet core => Sys2Proof.Machine.execPendSoftSet core s
  | .partitionCellMove cell dst => Sys2Proof.Machine.execPartitionCellMove cell dst s

end Sys2Proof.Machine
end

