-- ==== Sys2Proof/Machine/Issue.lean ====
section
/-! DEFINITION. How a core's turn runs: the issue of a bundle, waits, the end of a task, drift turns and the end of a
cycle (02 R8-R10, R14-R18, R24, R30-R41; 05 R115, R117; 08 R162, R178, R179; 11 R205, R208, R221-R223; 18 R304). -/

namespace Sys2Proof.Machine

/-! ### What a bundle holds -/

/-- A bundle's instructions with the class of each. -/
abbrev Bundle := List (Nat × Except Reject Instr)

/-- Some instruction of a bundle, its fields legal or not, is of a kind. -/
def Bundle.has (xs : Bundle) (f : Instr → Bool) : Bool := xs.any fun x => (candidate x.2).any f

/-- The legal instructions of a bundle. -/
def Bundle.legal (xs : Bundle) : List Instr :=
  xs.filterMap fun x => match x.2 with
    | .ok i => some i
    | .error _ => none

/-- A CKPT. -/
def isCkpt : Instr → Bool
  | .ckpt _ => true
  | _ => false

/-- The operand of an MBR. -/
def mbrOp : Instr → Option XOp
  | .mbr o => some o
  | _ => none

/-- R37: an instruction that claims the core's injection slot. -/
def isInjection : Instr → Bool
  | .msend _ | .lsend _ => true
  | _ => false

/-- R9, R33: an instruction leaves its slot announced: a NOP with sa bit 0 set. -/
def leavesSlot : Instr → Bool
  | .nop => true
  | _ => false

/-- R221: a CKPT with a true guard stands in the bundle. -/
def State.ckptHere (s : State) (xs : Bundle) : Bool :=
  xs.legal.any fun i => isCkpt i && s.core.bank.guard (guardOf i)

/-- R33: the slots a bundle leaves empty, and what it uses of the ports and the network. -/
def State.emptySlots (s : State) (xs : Bundle) : Slots :=
  let copies := (xs.filter fun x => x.1 == 4).length
  { scalar := (xs.filter fun x => x.1 == 0 || x.1 == 1 || x.1 == 5).all fun x => (candidate x.2).any leavesSlot,
    copy0 := decide (copies < 1), copy1 := decide (copies < 2), ports := true,
    net := xs.legal.any fun i => isInjection i && s.core.bank.guard (guardOf i) }

/-- R33: the slots of a cycle in which no bundle issues; `ports` while results still land. -/
def allSlots (ports : Bool) : Slots := { scalar := true, copy0 := true, copy1 := true, ports := ports, net := false }

/-! ### The end of a cycle -/

/-- R10, R24, R347: the loop after a bundle of the running bank, with the rotation and the stage predicates. -/
def Bank.loopAfter (b : Bank) : Bank :=
  match b.newLoop with
  | some (l, _) =>
    let p := if l.active then b.p else Vector.ofFn fun i : Fin 16 => b.p[i] && decide (i.val < 8)
    { b with loop := l, rotBase := 0, atLoop := l.active, p := p }
  | none =>
    if !b.loop.active then b
    else if b.loop.idx + 1 < b.loop.len then { b with loop := { b.loop with idx := b.loop.idx + 1 } }
    else if b.loop.more then { b with atLoop := true, loop := { b.loop with idx := 0 } }
    else { b with loop := { b.loop with active := false } }

/-- R18, R24: the bank goes on to the bundle after the one that issued. -/
def Bank.advance (b : Bank) : Bank :=
  let empty := match b.newLoop with
    | some (l, _) => !l.active
    | none => false
  let c := b.loopAfter
  { c with pc := b.nextPc, byBranch := b.branch.isSome && b.newLoop.isNone, branch := b.newBranch, newBranch := none,
           newLoop := none, newTrap := none, prevCtl := b.curCtl && !empty, prevBr := b.curBr, isMbr := false,
           mid := false, leaf := none }

/-- The bank has left its bundle: a trap, an ERET, a fault, a wait or the end of the task. -/
def Bank.redirected (b : Bank) : Bool := b.run != .active || b.stall != 0

/-- R221, R222: the bundle count of guarded mode, and the shadow state after a CKPT. -/
def State.countBundle (s : State) : State :=
  let b := s.core.bank
  if !b.status.guard then s
  else if b.curCkpt then
    let b := { b with bundles := 0, curCkpt := false }
    s.setCore { s.core with bank := b, shadow := some { b with saved := s.core.planes } }
  else s.setBank { b with bundles := b.bundles + 1 }

/-- A cycle of latencies passes in the running bank. -/
def Bank.tickOn (b : Bank) : Bank :=
  let t := b.tick + 1
  { b with tick := t, gstep := b.gstep + 1, claims := b.claims.filter (fun c => decide (t ≤ c.1)) }

/-- The running bank at the end of a cycle. -/
def State.bankAfter (s : State) (p : Phase) : State :=
  match p with
  | .frozen => s
  | .idle => s.setBank s.core.bank.tickOn
  | .issued =>
    let b := s.core.bank
    (s.setBank (if b.redirected then b else b.advance).tickOn).countBundle

/-- R37, R38, R218, R302, R356: the core's own counters at the end of a cycle. `expired` says in the next one that TIMER has
reached 0 with it. -/
def State.coreAfter (s : State) : State :=
  let c := s.core
  let n := c.cycle + 1
  let s := s.setCore { c with cycle := n, delivered := [], netUsed := false, serving := false, timer := if 1 < c.timer.toNat then c.timer - 1 else c.timer,
                              bank := c.resDue.foldl Bank.countRes c.bank, resDue := [], expired := decide (c.timer = 1),
                              tokens := if n % 256 = 0 then c.grant else c.tokens }
  if c.timer = 1 then { s.setPend s.cur 0 with core := { (s.setPend s.cur 0).core with timer := 0 } } else s

/-- R218, R302: k cycles pass in a core that has nothing to do. -/
def State.passIdle (s : State) (k : Nat) : State :=
  let c := s.core
  let n := c.cycle + k
  let t := c.timer.toNat
  let s := s.setCore { c with cycle := n, timer := c.timer - BitVec.ofNat 64 (min k t), expired := 0 < t && t == k,
                              tokens := if n / 256 = c.cycle / 256 then c.tokens else c.grant }
  if 0 < t && decide (t ≤ k) then s.setPend s.cur 0 else s

/-- R302: CYCLE counts on in a core without work: before its next turn it passes the cycles that the furthest core has
passed meanwhile (log entry 13, DESIGN CHOICE). -/
def State.catchUp (s : State) : State :=
  if s.core.resting then
    let m := s.others.foldl (fun m x => max m x.2.cycle) 0
    let s := s.passIdle (m - 1 - s.core.cycle)
    s.setCore { s.core with resting := false }
  else s

/-- R179: the tasks that have waited a further 2^20 cycles are due to rise. -/
def State.ageTasks (s : State) : State :=
  let due := (s.hub.tasks.filter fun t => t.agedAt s.now).map fun t => Turn.event (.priorityAging t.id)
  s.later (due.filter fun e => !(s.agenda.contains e))

/-- The core has something to do in its next cycle. -/
def Core.hasWork (c : Core) : Bool :=
  c.switching.isSome || c.otherReady || !c.due.isEmpty ||
  (match c.bank.run with
  | .active | .cpyw _ | .ending => true
  | _ => false) ||
  c.threads.toList.any fun t => t.running && ((t.bank == c.curBank && t.waitEv.isNone && !t.busy) || t.due.isSome)

/-- The end of a cycle: the bank, the core's counters, the drift operations that fall due, and the core's next turn. -/
def State.endCycle (s : State) (p : Phase) : State :=
  let s := (s.bankAfter p).coreAfter.driftDue.ageTasks
  if s.core.hasWork then s.rouse s.cur else s.setCore { s.core with resting := true }

/-- R33, R37: the primary's part of a cycle is over: the engine steps that wait for the core's cycle come, then the
announced slots are filled, then the cycle ends. -/
def State.close (s : State) (p : Phase) (sl : Slots) : State :=
  let due := s.core.due
  let s := s.setCore { s.core with slots := sl }
  let fill : List Turn :=
    if s.core.slotsOpen && (List.range 8).any s.core.threadIsReady then [.event .driftSlotFill] else []
  if due.isEmpty && fill.isEmpty then s.endCycle p
  else { s with core := { s.core with due := [], serving := true }, agenda := due ++ fill ++ .endCycle p :: s.agenda }

/-- A cycle in which the running bank is frozen. -/
def State.frozen (s : State) : State := s.close .frozen (allSlots false)

/-- A cycle in which latencies count and no bundle issues. -/
def State.idle (s : State) : State := s.close .idle (allSlots true)

/-! ### Landing -/

/-- R15, R122, R223: the results due at the bank's tick land, but for an ATOM that a read holds; during a rerun they
enter its signature. -/
def State.land_ (s : State) : State :=
  let b := s.core.bank.holdAtoms
  let s := s.setBank b
  match b.rerun with
  | none => s.landDue
  | some r =>
    let r := (b.pend.filter fun e => decide (e.due ≤ b.tick)).foldl b.foldSig r
    (s.setBank { b with rerun := some r }).landDue

/-- R17, R122: while the bank is frozen an ATOM on a pinned line goes on, but for one whose line a tracked read still has
to read (log entry 35, DEDUCED). -/
def State.atomsOn (s : State) : State :=
  let b := s.core.bank
  let goes (e : Pend) : Bool := match e.eff with
    | .atom a _ _ _ _ _ => !(b.stillReads (a / 128) b.readTick)
    | _ => false
  (s.setBank { b with pend := b.pend.map fun e => if goes e then { e with due := e.due - 1 } else e }).landDue

/-! ### Gangs (02 R40, R41; 11 R220) -/

/-- The bank waits in a CPYW. -/
def Bank.waits (b : Bank) : Bool :=
  match b.run with
  | .cpyw _ => true
  | _ => false

/-- R40, R41: a member lets another one run bundle n at its own place p in the gang; the cycles in which it waits in a
CPYW freeze all. One at the end of a rerun's run waits for the others there (R223). -/
def State.memberLets (s : State) (g : Gang) (p n q c : Nat) : Bool :=
  let k := s.coreAt c
  let x := k.bankAt g.bank
  let frozen := decide (x.waitFrom < s.core.cycle && (x.waits || s.core.cycle ≤ x.waitTo))
  if c = s.cur || (x.task.bind (·.gang)) != some g.id || x.rerun.any (·.arrived) then true
  else if frozen then false
  else
    match x.run with
    | .active => if k.curBank = g.bank && k.switching.isNone then decide (n + p ≤ x.gstep + q) else decide (n < x.gstep)
    | .event _ _ => false
    | _ => true

/-- R40, R41: member p of a gang is p cycles past the lead's decision for its next bundle. -/
def State.gangSkew (s : State) : Bool :=
  match s.gang with
  | none => true
  | some g =>
    let b := s.core.bank
    b.pos == 0 || (g.steps[b.gstep]?).any fun x => decide (x.at_ + b.pos ≤ s.core.cycle)

/-- R40, R41: every other member lets the running bank pass its next cycle. -/
def State.gangLets (s : State) : Bool :=
  match s.gang with
  | none => true
  | some g => g.cores.zipIdx.all fun x => s.memberLets g s.core.bank.pos s.core.bank.gstep x.2 x.1

/-- R40, R41: the running bank may pass its next cycle: every member keeps the skew, none waits, and member p is p
cycles past the lead's decision. -/
def State.gangGo (s : State) : Bool := s.gangSkew && s.gangLets

/-- The lead opens the entry of its log for this cycle, or opens it anew when it comes back to it after a switch or a
pre-emption. -/
def State.openStep (s : State) : State :=
  match s.gang with
  | none => s
  | some g =>
    if s.core.bank.pos ≠ 0 then s
    else if g.steps.length ≤ s.core.bank.gstep then
      s.setHub (s.hub.mapGang g.id fun g => { g with steps := g.steps ++ [{ GangStep.none with at_ := s.core.cycle }] })
    else s.setHub (s.hub.mapGang g.id fun g => g.mapStep s.core.bank.gstep fun x =>
      { x with at_ := s.core.cycle, irq := false, pre := false, switch := false })

/-- R220: the lead notes in its log what is taken before this bundle. -/
def State.noteStep (s : State) (f : GangStep → GangStep) : State :=
  match s.gang with
  | none => s
  | some g => s.setHub (s.hub.mapGang g.id fun g => g.mapStep s.core.bank.gstep f)

/-- R208, R220: an interrupt is taken before the next bundle. -/
def State.interruptNow (s : State) : Bool := if s.isLead then s.interruptDue else s.gangStep.irq

/-- R179: a pre-emption is taken before the next bundle. -/
def State.preemptNow (s : State) : Bool := if s.isLead then s.preemptDue else s.gangStep.pre

/-! ### Issuing a bundle (18 R304) -/

/-- The bank as a bundle begins: the address after it, and what it holds. -/
def Bank.begin_ (b : Bank) (next : Word) (xs : Bundle) (leaf : Option (Option Nat)) : Bank :=
  { b with next := next, curCtl := xs.has isControl, curBr := xs.has isBranch, curYield := false, curCkpt := false,
           newBranch := none, newLoop := none, newTrap := none, raised := none, isMbr := leaf.isSome, mid := true,
           leaf := leaf.join, waitPc := none }

/-- R26, R27: the leaf of the bundle's MBR: none outside an MBR bundle. -/
def State.bundleLeaf (s : State) (xs : Bundle) : Option (Option Nat) :=
  (xs.findSome? fun x => (candidate x.2).bind mbrOp).map fun o =>
    let d := s.mbrDecision o
    if d.guard then d.leaf else none

/-- R291, R18, R222: the checks of a bundle before its instructions. -/
def State.bundleFault (s : State) (xs : Bundle) : Option Nat :=
  let b := s.core.bank
  if !(slotsOk (xs.map (·.1))) then some 0x04
  else if (b.prevCtl && b.curCtl) || (b.prevBr && xs.has isYield) then some 0x01
  else if b.status.guard && decide (4096 ≤ b.bundles) && !(s.ckptHere xs) then some 0x21
  else none

/-- R215: a TRAP stands in word order for its checks; it is taken once the bundle is over. The lead's decision stands
in its log (R41, R220). -/
def State.checkTrap (i : Instr) (s : State) : Out :=
  match exec i s with
  | .next t => .next (if t.core.bank.raised.isSome then t else s.setHub t.hub)
  | o => o

/-- R304 step 3: one instruction of the bundle in word order. TRAP and CPYW take effect after the others (R17, R208);
ERET stands alone (R216). -/
def runOne (r : Except Reject Instr) (alone : Bool) (s : State) : Out :=
  match r with
  | .error .unassigned => s.raise 0x01
  | .error (.illegalField g i) => if s.core.bank.guard g || isDstop i then s.raise 0x01 else .next s
  | .ok i =>
    if isCpyw i then .next s
    else if isTrap i then s.checkTrap i
    else if isEret i && !alone && s.core.bank.guard (guardOf i) && s.sup? then s.raise 0x01
    else exec i s

/-- R304: the instructions of a bundle in word order until one raises a cause. -/
def runAll (alone : Bool) : Bundle → (sub v c : Nat) → State → Out
  | [], _, _, _, s => .next s
  | x :: xs, sub, v, c, s =>
    match runOne x.2 alone (s.setBank { s.core.bank with sub := sub, vslot := v, cslot := c }) with
    | .next t =>
      if t.core.bank.raised.isSome then .next t
      else runAll alone xs (sub + 1) (if x.1 = 2 then v + 1 else v) (if x.1 = 4 then c + 1 else c) t
    | o => o

/-- R115: the CPYWs of a bundle, after its other instructions. -/
def runWaits : List Instr → State → Out
  | [], s => .next s
  | i :: is, s =>
    match exec i s with
    | .next t => runWaits is t
    | o => o

/-- R208, R215: a TRAP is taken after its bundle. -/
def State.takeTrap (s : State) (code : Nat) : State :=
  let b := s.core.bank
  (s.setBank { b with newTrap := none }).trapAfter code

/-- The phase of a cycle in which a bundle has issued, or waits. -/
def Bank.phase (b : Bank) : Phase :=
  match b.run with
  | .active | .ending => .issued
  | _ => .frozen

/-- R17, R82: after the instructions of the bundle the matrix engine passes the cycle; a TRAP whose bundle is over is
taken, and the cycle closes. -/
def State.finish (s : State) (sl : Slots) : State :=
  let s := match s.core.bank.run with
    | .active | .ending | .cpyw _ => s.matrixTick
    | _ => s
  let s := match s.core.bank.run, s.core.bank.newTrap with
    | .active, some code => s.takeTrap code
    | _, _ => s
  s.close s.core.bank.phase sl

/-- R211, R215: the TRAP of a bundle, checked against all the bundle's results, is due after it. -/
def State.armTrap (s : State) : Option Instr → Out
  | none => .next s
  | some i =>
    match exec i s with
    | .next t =>
      .next (if t.core.bank.raised.isSome then t
        else if t.core.bank.handler then
          (s.setHub t.hub).setBank
            { s.core.bank with newTrap := some (match i with | .trap o => o.imm.toNat | _ => 0) }
        else s.setHub t.hub)
    | o => o

/-- R205: a bundle at fault takes no effect: the state before it takes the fault. -/
def State.bundleStops (s : State) (r : Raised) : State := (s.takeFault r).frozen

/-- A fault with only a cause. -/
def Raised.of (cause : Nat) : Raised := { cause := cause, thread := none, cb := 0, addr := 0, aux := 0 }

/-- R304, R205: the instructions of a bundle on state `s`; `s0` is the state a fault returns to. -/
def State.runBundle (s s0 : State) (xs : Bundle) : Out :=
  match runAll (decide (xs.length = 1)) xs 0 0 0 s with
  | .next t =>
    match t.core.bank.raised with
    | some r => .next (s0.bundleStops r)
    | none =>
      match t.armTrap (xs.legal.find? isTrap) with
      | .next u =>
        match u.core.bank.raised with
        | some r => .next (s0.bundleStops r)
        | none =>
          match runWaits (xs.legal.filter isCpyw) u with
          | .next w => .next (w.finish (s.emptySlots xs))
          | o => o
      | o => o
  | o => o

/-- R289, R304: the bundle at the bank's pc issues. -/
def State.issueBundle (s : State) : Out :=
  let b := s.core.bank
  match s.image.fetch b.pc.toNat b.byBranch with
  | .error c => .next (s.bundleStops (Raised.of c))
  | .ok (ws, next) =>
    let xs := decodeBundle 16 ws
    let t := s.setBank (b.begin_ (BitVec.ofNat 64 next) xs (s.bundleLeaf xs))
    match t.bundleFault xs with
    | some c => .next (s.bundleStops (Raised.of c))
    | none =>
      match b.rerun with
      | some r => if s.ckptHere xs then
          let u := s.rerunPoint r
          if u.core.bank.rerun.isNone && u.core.bank.run == .active then
            (u.setBank (u.core.bank.begin_ (BitVec.ofNat 64 next) xs (s.bundleLeaf xs))).runBundle s xs
          else .next u.frozen
        else t.runBundle s xs
      | none => t.runBundle s xs

/-- R41, R208: the lead decides its waiting bundle's control transfer once more as it did before the interrupt. -/
def State.recall (s : State) : State :=
  match s.gang with
  | none => s
  | some g =>
    match g.steps.reverse.find? fun x => x.irq && x.pc == s.core.bank.pc with
    | none => s
    | some old => if s.core.bank.pos = 0 then s.noteStep fun x => { old with at_ := x.at_, irq := false } else s

/-- R115, R216: a bundle whose CPYW was waiting issues again: only its waits are left. -/
def State.waitAgain (s : State) (w : CpywWait) : Out :=
  let b := s.core.bank
  let s := s.setBank { b with next := BitVec.ofNat 64 (s.image.after b.pc.toNat), newLoop := w.loop, newTrap := w.trap,
                              curCtl := w.ctl, curBr := w.br, curYield := false, waitPc := none, mid := true }
  let s := s.recall
  match w.cbs with
  | n :: ns => .next ((s.cpywTry n ns).finish (allSlots false))
  | [] => .next (s.finish (allSlots false))

/-- The bundle at the bank's pc issues, or goes on with its waits after an ERET. -/
def State.issue (s : State) : Out :=
  match s.core.bank.waitPc with
  | some w => if w.pc = s.core.bank.pc then s.waitAgain w else s.issueBundle
  | none => s.issueBundle

/-! ### A turn of a bank -/

/-- R159: the kernel of a loop record starts at its first bundle; not while a LOOP of the prologue runs.
Log entry 74, DEDUCED. -/
def Bank.enterKernel (b : Bank) : Bank :=
  match b.kernel with
  | some k =>
    if b.pc = k.ker && !b.loop.active && !b.handler then
      { b with loop := { loopOf k.trip k.stages k.len k.ker with exit := some k.epi }, rotBase := 0, atLoop := true,
               kernel := none }
    else b
  | none => b

/-- R10, R23: at an iteration boundary the next iteration starts. -/
def State.boundary (s : State) : State :=
  s.setBank s.core.bank.iterate

/-- R208, R214: the interrupt is taken and the entry's first cycle passes. -/
def State.interrupted (s : State) : State :=
  let s := (s.noteStep fun x => { x with irq := true }).takeInterrupt
  let b := s.core.bank
  match b.run with
  | .active => ((s.setBank { b with stall := b.stall - 1, next := b.pc }).landDue).idle
  | _ => s.frozen

/-- The cycles of a trap entry or of an ERET. -/
def State.stalled (s : State) : State :=
  let s := s.land_
  (s.setBank { s.core.bank with stall := s.core.bank.stall - 1, next := s.core.bank.pc }).idle

/-- R179: the running bank's task is to be saved: the core turns to it at once. -/
def State.startPreempt (s : State) : State :=
  ({ s.noteStep (fun x => { x with pre := true }) with core := { s.core with switching := some 162 } }).again

/-- R41, R178: the lead's log says that the gang gives way before this bundle. -/
def State.noteSwitch (s : State) : State := s.openStep.noteStep fun x => { x with switch := true }

/-- A turn of a bank that issues: at an iteration boundary the results due land before the stage predicates shift. A member of
a gang that gives way does so at its own skewed cycle, without waiting for the others (R178).
Log entry 70, DEDUCED. -/
def State.activeTurn (s : State) : Out :=
  if 0 < s.core.bank.stall then .next (if s.gangGo then s.openStep.stalled else s.frozen)
  else if !s.gangSkew then .next s.frozen
  else if s.resumeDue && s.core.otherReady then .next s.noteSwitch.startSwitch.again
  else if !s.gangLets then .next s.frozen
  else
    let s := if s.resumeDue then s.noteSwitch else s.openStep
    if s.preemptNow then .next s.startPreempt
    else if s.interruptNow then .next s.interrupted
    else
      let s := s.setBank s.core.bank.enterKernel
      s.land_.boundary.issue

/-- R17, R115: a turn of a bank whose CPYW waits on barrier n. -/
def State.waitTurn (s : State) (n : Nat) : Out :=
  if s.interruptDue then .next (s.setBank { s.core.bank with waitTo := s.core.cycle }).interrupted
  else
    let s := s.atomsOn
    let s := s.setBank { s.core.bank with next := s.core.bank.next }
    let cbs := match s.core.bank.waitPc with
      | some w => w.cbs.drop 1
      | none => []
    let s := s.cpywTry n cbs
    let done := s.setBank { s.core.bank with waitTo := s.core.cycle }
    match s.core.bank.run, s.core.bank.newTrap with
    | .active, some code => .next ((done.takeTrap code).close .issued (allSlots false))
    | .active, none => .next (done.close .issued (allSlots false))
    | _, _ => .next s.frozen

/-- R162 step 1: something of the bank is still to land. -/
def Bank.inFlight (b : Bank) : Bool :=
  !b.pend.isEmpty || !b.streams.isEmpty || !b.epis.isEmpty || b.loader.isSome || !b.mreds.isEmpty

/-- R115, R162 step 2: the first barrier of the bank with a fault record. -/
def Bank.recordDue (b : Bank) : Option (Nat × FaultRec) :=
  (List.range 8).findSome? fun n => (b.cb n).record.map fun r => (n, r)

/-- R162 steps 3 and 4: the barriers' results land, TRET takes effect, and once the outputs are pulled the bank is
free. -/
def State.endTask (s : State) : State :=
  let s := (List.range 8).foldl (fun s n => s.landBarrier n) s
  let s := match s.core.bank.task with
    | some t => if t.tret then s else s.tret
    | none => s
  if s.core.bank.task.any BankTask.pulling then s else s.endBank

/-- R162, R179, R223: a turn of a bank whose task ends. -/
def State.endingTurn (s : State) : Out :=
  if s.preemptDue || s.gangSaved then .next s.startPreempt
  else if s.core.bank.inFlight then .next s.land_.matrixTick.idle
  else
    let s := if s.core.bank.status.guard then s.sendHeld.armWaits else s
    let b := s.core.bank
    match b.recordDue with
    | some x => .next (s.raiseRecord b.pc x.1 x.2 .ending).frozen
    | none =>
      if b.cbs.toList.all Barrier.complete then
        match b.rerun with
        | some r =>
          let u := s.rerunPoint r
          .next (if u.core.bank.run == .ending && u.core.bank.rerun.isNone then u.endTask.frozen else u.frozen)
        | none => .next s.endTask.frozen
      else .next s.frozen

/-- A turn of the running bank. -/
def State.bankTurn (s : State) : Out :=
  match s.core.bank.run with
  | .active => s.activeTurn
  | .cpyw n => s.waitTurn n
  | .ending => s.endingTurn
  | _ => .next (if s.resumeDue then s.startSwitch.again else s.frozen)

/-- R30: one of the 160 cycles of a switch passes. -/
def State.switchTick (s : State) (n : Nat) : State := { s with core := { s.core with switching := some (n - 1) } }

/-- R30, R139, R178: after the last cycle of a switch the incoming bank resumes, which is an acquire. -/
def State.switchOver (s : State) : State :=
  let s := { s with core := { s.core with switching := none } }
  if s.core.bank.run = .empty then s
  else (s.setBank { s.core.bank with released := false, taken := some s.core.bank.gstep }).acquire 4

/-- The outcome of a step of a switch or of a pre-emption; a cycle passes while it still waits. -/
def passing (code : Nat) (o : Out) : Out :=
  match o with
  | .next s => .next (if s.core.switching = some code then s.frozen else s)
  | o => o

/-- R13: a turn of the core in `core`. -/
def State.coreTurn (s : State) : Out :=
  let s := { s with agent := .primary }
  match s.core.switching with
  | none => s.bankTurn
  | some 0 => s.switchOver.bankTurn
  | some n =>
    if n = 161 then passing 161 (execBankSwitch s)
    else if n = 162 then passing 162 (execPreemption s)
    else .next (s.switchTick n).frozen

/-! ### A drift turn (02 R31-R35) -/

/-- R31: the operations a thread may execute. -/
def driftMay : Instr → Bool
  | .nop | .nopW | .add _ | .sub _ | .mul _ | .mulh _ | .mulhn _ | .div _ | .divn _ | .min_ _ | .max_ _ | .minn _ | .maxn _
  | .and_ _ | .or_ _ | .xor_ _ | .shl _ | .shr _ | .sar _ | .clz _ | .popc _ | .sel _ | .mov _ | .cmp _ | .pand _ | .por _
  | .pxor _ | .pandn _ | .movp _ | .setp _ | .addi _ | .andi _ | .ori _ | .xori _ | .shli _ | .shri _ | .sari _
  | .movi _ | .cmpeqi _ | .cmplti _ | .cmplei _ | .cmpltni _ | .movl _ | .movh _ | .addl _ | .mfsr _ | .dstop _ | .br _
  | .bri _ | .call _ | .ret _ | .ld _ | .st _ | .atom _ | .flagw _ | .flagr _ | .fence _ | .msend _ | .lsend _
  | .lrecv _ | .pref _ => true
  | _ => false

/-- The instruction of a thread: an encoding that stands for none, an operation that threads may not execute, or one
with an illegal field raises cause 0x01; with a false guard the last is skipped (R304, log entry 12, DEDUCED). -/
def State.driftRun (s : State) (n : Nat) (r : Except Reject Instr) : Out :=
  match r with
  | .error .unassigned => s.raise 0x01
  | .error (.illegalField g i) =>
    if decide (4 ≤ g.toNat) || (s.core.thread n).pred g.toNat || !(driftMay i) then s.raise 0x01 else .next s.skip
  | .ok i => exec i s

/-- The thread goes on to its next bundle, and the primary is the agent again. -/
def State.driftOver (s : State) (n : Nat) : State :=
  let t := s.core.thread n
  let s := s.setCore (s.core.setThread n { t with pc := t.next })
  { s.setBank { s.core.bank with raised := none } with agent := .primary }

/-- R31, R292: thread n of the running bank issues. -/
def State.driftTurn (s : State) (n : Nat) : Out :=
  let s := { s with agent := Agent.drift n }
  match s.driftNext n with
  | .fault c => .next { (s.threadFault c 0) with agent := .primary }
  | .run _ r after =>
    let s := s.setThread { s.thread with next := BitVec.ofNat 64 after, byBranch := false }
    match s.driftRun n r with
    | .next t => .next (t.driftOver n)
    | o => o

/-! ### Turns -/

/-- R229: what still happens after a fatal error: resets, the host's registers, and what no partition does. -/
def afterFatal : Instr → Bool
  | .powerOn | .coldReset | .powerFailure | .attestRequest _ | .registerWrite _ _ | .lndropRead | .mpcntRead
  | .serviceRecordWrite | .clockThrottle _ _ | .thermalHot _ | .thermalTrip _ | .eccCorrected _ | .guestReport _ _
  | .cxlMemAccess _ => true
  | _ => false

/-- R171: the core that the next step of a delivery puts a line into. -/
def State.deliversTo (s : State) (task input : Nat) : Option Nat :=
  (s.hub.task? task).bind fun t => (t.lrec.bind fun r => r.ins[input]?).bind fun ref =>
    (t.nextReceiver input ref).map fun p => t.cores.getD p 0

/-- R37: the core whose ports or injection slot an engine's step may claim; none when it claims none. -/
def State.claimsOf (s : State) : Instr → Option Nat
  | .engineLineLand id | .engineOpComplete id => (s.op? id).bind EngineOp.claims
  | .subsSlotFill id => (s.op? id).map (·.core)
  | .moraineDelivery task input => s.deliversTo task input
  | _ => none

/-- R37: the core whose cycle an engine's step waits for: a step that may claim its ports or its injection slot comes
after the primary's part of the cycle; none when the step happens at once. -/
def State.waitsFor (s : State) (i : Instr) : Option Nat :=
  match s.claimsOf i with
  | none => none
  | some c => if c < 256 && !(s.coreAt c).serving && s.agenda.contains (.core c) then some c else none

/-- One turn of the agenda.
Log entry 14, DESIGN CHOICE.
Log entry 62, PRESUMED. -/
def State.turn (s : State) : Turn → Out
  | .event i =>
    if s.hub.regs.fatal && !(afterFatal i) then .next s
    else
      match s.waitsFor i with
      | some c => .next (s.onCore c fun s => s.setCore { s.core with due := s.core.due ++ [.event i] })
      | none => exec i s
  | .core c =>
    if 256 ≤ c then .fault .noSuchCore
    else if s.hub.regs.fatal then .next s
    else (s.focus c).catchUp.coreTurn
  | .drift n => s.driftTurn n
  | .endCycle p => .next (s.endCycle p)

/-! ### An instruction placed where the next step fetches -/

/-- An image that holds one instruction of two words at its first bundle, filled with pad words. -/
def fetchImage (w0 w1 : Nat) : Image :=
  let first : IWord := BitVec.ofNat 32 w0 ||| 0x80000000
  let two := (classWords (classOf first).toNat) == some 2
  { base := 0x10000, words := if two then [first, BitVec.ofNat 32 w1] ++ List.replicate 14 padWord
                              else [first] ++ List.replicate 15 padWord }

end Sys2Proof.Machine
end

