-- ==== Sys2Proof/Machine/Step.lean ====
section
/-! DEFINITION. One step of the device: the next turn of the agenda, or a cycle of the core in `core`. -/

namespace Sys2Proof.Machine

/-- One step of the device. -/
def step (s : State) : Host.Outcome State Fault Refusal :=
  match s.agenda with
  | [] => if s.hub.regs.fatal then .next s else s.coreTurn
  | t :: ts => State.turn { s with agenda := ts } t

/-- An instruction stored where the next step fetches: the running bank of the core in `core` holds it in its image, and
the core's turn is next. -/
def State.withFetchWord (s : State) (nbits w : Nat) : State :=
  let w := w % 2 ^ nbits
  let im := fetchImage (w % 2 ^ 32) (w / 2 ^ 32)
  let b := { s.core.bank with image := im, pc := 0x10000, byBranch := true, run := .active, stall := 0, atLoop := false, atIter := false,
                              kernel := none, waitPc := none }
  let core := { s.core with bank := b, switching := none, pend := 0, sup := im }
  let regs := { s.hub.regs with fatal := false }
  { s with agenda := [], agent := .primary, core := core, hub := { s.hub with regs := regs } }

end Sys2Proof.Machine
end

