-- ==== Sys2Proof/Safety.lean ====
section
/-! DEFINITION. What a safe state and a safe run are, in the terms the statements use. -/

namespace Sys2Proof.Machine

/-! ### Memories in canonical form -/

/-- The memory of a core is in canonical form. -/
def Core.memOk (c : Core) : Bool := Mem.wf c.store

/-- Every memory of the device is in canonical form: global memory, each core's window, the attestation buffer and
the lines of every saved context. -/
def State.memOk (s : State) : Bool :=
  Mem.wf s.mem && Mem.wf s.hub.attest && s.core.memOk && (s.others.all fun x => x.2.memOk) &&
    s.hub.parts.toList.all fun p => p.saved.all fun v => Mem.wf v.lines

/-! ### The hard-wired registers -/

/-- The registers of a bank that are wired read as the spec says: s0 zero, p0 true, k0 all ones. -/
def Bank.wired (b : Bank) : Prop := b.sreg 0 = 0 ∧ b.pred 0 = true ∧ b.mask 0 = BitVec.allOnes 2048

/-! ### When an instruction takes effect -/

/-- R31, R300: the agent's guard is true; in drift code its code is one of the four that name a predicate. -/
def State.runs (s : State) (g : BitVec 4) : Prop :=
  match s.agent with
  | .primary => s.core.bank.guard g = true
  | .drift n => g.toNat < 4 ∧ (s.core.thread n).pred g.toNat = true

/-- The primary issues the instruction and its guard is true. -/
def State.primaryRuns (s : State) (g : BitVec 4) : Prop := s.agent = .primary ∧ s.core.bank.guard g = true

/-- A drift thread issues the instruction and its guard is true. -/
def State.threadRuns (s : State) (n : Nat) (g : BitVec 4) : Prop :=
  s.agent = .drift n ∧ g.toNat < 4 ∧ (s.core.thread n).pred g.toNat = true

/-- R18, R24: the primary issues a control transfer outside a delay bundle and outside a kernel, in a task that runs on
one core, with a true guard. -/
def State.controlRuns (s : State) (g : BitVec 4) : Prop :=
  s.primaryRuns g ∧ s.core.bank.prevCtl = false ∧ s.core.bank.loop.active = false ∧ s.gang = none

/-! ### V instructions -/

/-- What a V instruction that reads n positions reads at issue. -/
def State.vIn (s : State) (o : VOp) (n : Nat) : VIn := s.core.bank.vread s.core.bank.vslot (vfields o n)

/-- The state once a V instruction that reads n positions has held the sources it names. -/
def State.vHeld (s : State) (o : VOp) (n : Nat) : State :=
  s.setBank (s.core.bank.holdAll s.core.bank.vslot (vfields o n) (s.vIn o n).xs)

/-- R54, R376: the primary issues a V instruction with a true guard, its sources lie inside the allotment, no lost
source meets debug mode, and no MASK source meets a mask other than k0 (R53). -/
def State.vReads (s : State) (o : VOp) (n : Nat) : Prop :=
  s.primaryRuns o.g ∧ ((vfields o n).all fun f => s.core.bank.srcIn f.1) = true ∧
  ((s.vIn o n).lost = false ∨ s.core.bank.status.debug = false) ∧ (o.km = 0 ∨ (s.vIn o n).anyMask = false)

/-- R54, R376: the same, with vd and `more` registers after it inside the allotment. -/
def State.vReady (s : State) (o : VOp) (n more : Nat) : Prop :=
  s.vReads o n ∧ (o.w = false → ∀ i ≤ more, s.core.bank.vregIn (o.vd.toNat + i) = true)

/-- The flags of a V result that sets LATCHLOST alone. -/
def State.vLost (s : State) (o : VOp) (n : Nat) : BitVec 3 := flagBits false false (s.vIn o n).lost

/-- A V instruction of n sources completes: a result of tag t lands `lat` ticks after issue in vd under the mask k, and
lane l of it is f l. -/
def State.vGives (s : State) (i : Instr) (o : VOp) (n lat : Nat) (t : Tag) (k : VBits) (f : Nat → Nat) : Prop :=
  ∃ bits, exec i s = .next ((s.vHeld o n).vput lat o t bits k (s.vLost o n)) ∧
    ∀ l < tagLanes t, laneAt (tagWidth t) bits l = f l % 2 ^ tagWidth t

/-- Lane l of source n of a V instruction. -/
def VIn.lane (i : VIn) (n l : Nat) : Nat := laneAt (tagWidth i.tag) (i.x n) l

/-! ### Frames -/

/-- Every register of a bank that a result or a frame may change stands as it stood: general registers, predicates,
masks, branch targets, vector registers, tiles, generators, STATUS, rotation, loop, latches, pinned lines, tensors, the
trap registers and the residue counters. -/
def Bank.sameRegs (a b : Bank) : Prop :=
  a.s = b.s ∧ a.p = b.p ∧ a.k = b.k ∧ a.b = b.b ∧ a.v = b.v ∧ a.acc = b.acc ∧ a.gens = b.gens ∧
  a.status = b.status ∧ a.rotSize = b.rotSize ∧ a.rotBase = b.rotBase ∧ a.loop = b.loop ∧ a.vu = b.vu ∧
  a.at_ = b.at_ ∧ a.lat0 = b.lat0 ∧ a.lat1 = b.lat1 ∧ a.latE = b.latE ∧ a.latS = b.latS ∧ a.rowb = b.rowb ∧
  a.tensors = b.tensors ∧ a.pins = b.pins ∧ a.tvec = b.tvec ∧ a.tfbase = b.tfbase ∧ a.resslot = b.resslot ∧
  a.resbank = b.resbank ∧ a.resnet = b.resnet ∧ a.respwr = b.respwr ∧ a.saved = b.saved

/-- R126: the results in flight stand, each at its tick; of a write to the window, a release may have made it visible. -/
def sameFlight : List Pend → List Pend → Prop
  | [], [] => True
  | a :: xs, b :: ys => b.due = a.due ∧ b.seq = a.seq ∧ b.eff.isWrite = a.eff.isWrite ∧
      (a.eff.isWrite = false → b = a) ∧ sameFlight xs ys
  | _, _ => False

/-- Every byte of global memory and of the core's window reads as before. -/
def State.sameMemory (s t : State) : Prop :=
  (∀ a, memByte t.mem a = memByte s.mem a) ∧ ∀ a, memByte t.core.store a = memByte s.core.store a

/-- R304: the members of a bundle in word order, each exec of its instruction on what the one before it left, with the
numbers of the words, vector words and C words before it; none raises a cause. -/
def execInOrder : List (Nat × Instr) → Nat → Nat → Nat → State → State → Prop
  | [], _, _, _, s, t => t = s
  | x :: xs, n, v, c, s, t => ∃ u, exec x.2 (s.setBank { s.core.bank with sub := n, vslot := v, cslot := c }) = .next u ∧
      u.core.bank.raised = none ∧
      execInOrder xs (n + 1) (if x.1 = 2 then v + 1 else v) (if x.1 = 4 then c + 1 else c) u t

end Sys2Proof.Machine
end

