-- ==== Sys2Proof/Certificates/Slice0/Obligations.lean ====
section
/-! DEFINITION. The statements for the provers. Each cites the rules of spec/ it formalises; where a clause rests on a
choice of the model, its docstring names the log entry. -/

open Sys2Proof Sys2Proof.Machine

/-! ### Scalar instructions and branches (18, 20 to 22) -/

/-- R317: the scalar register operations, for both agents: the result of every operation, with its latency for the
primary and for a drift thread. A high product is bits 127:64 of the product of the operands extended to 128 bits; a
signed quotient is rounded toward zero, -1 for a zero divisor; an unsigned quotient is 2^64 - 1 for a zero divisor. -/
def Obligations.ScalarRegisterResults : Prop :=
  ∀ (o : SOp) (s : State), s.runs o.g → s.dregsOk [o.d, o.a, o.b] = true → s.destOk o.d = true →
    let x := s.rs o.a
    let y := s.rs o.b
    let n := (y.extractLsb' 0 6).toNat
    exec (.add o) s = .next (s.scalarResult 1 4 o.d (x + y)) ∧
    exec (.sub o) s = .next (s.scalarResult 1 4 o.d (x - y)) ∧
    exec (.mul o) s = .next (s.scalarResult 3 8 o.d (x * y)) ∧
    exec (.min_ o) s = .next (s.scalarResult 1 4 o.d (BitVec.ofInt 64 (min x.toInt y.toInt))) ∧
    exec (.max_ o) s = .next (s.scalarResult 1 4 o.d (BitVec.ofInt 64 (max x.toInt y.toInt))) ∧
    exec (.minn o) s = .next (s.scalarResult 1 4 o.d (BitVec.ofNat 64 (min x.toNat y.toNat))) ∧
    exec (.maxn o) s = .next (s.scalarResult 1 4 o.d (BitVec.ofNat 64 (max x.toNat y.toNat))) ∧
    exec (.and_ o) s = .next (s.scalarResult 1 4 o.d (x &&& y)) ∧
    exec (.or_ o) s = .next (s.scalarResult 1 4 o.d (x ||| y)) ∧
    exec (.xor_ o) s = .next (s.scalarResult 1 4 o.d (x ^^^ y)) ∧
    exec (.shl o) s = .next (s.scalarResult 1 4 o.d (x <<< n)) ∧
    exec (.shr o) s = .next (s.scalarResult 1 4 o.d (x >>> n)) ∧
    exec (.sar o) s = .next (s.scalarResult 1 4 o.d (x.sshiftRight n)) ∧
    exec (.mulh o) s =
      .next (s.scalarResult 3 8 o.d ((x.signExtend 128 * y.signExtend 128).extractLsb' 64 64)) ∧
    exec (.mulhn o) s =
      .next (s.scalarResult 3 8 o.d ((x.setWidth 128 * y.setWidth 128).extractLsb' 64 64)) ∧
    exec (.div o) s =
      .next (s.scalarResult 20 24 o.d (if y = 0 then -1 else BitVec.ofInt 64 (x.toInt.tdiv y.toInt))) ∧
    exec (.divn o) s =
      .next (s.scalarResult 20 24 o.d (if y = 0 then -1 else BitVec.ofNat 64 (x.toNat / y.toNat)))

/-- R318, R319, R327, R372: CLZ, POPC, MOV, SEL, the immediate operations and the long immediates, for both agents:
what each writes and after how many cycles. CLZ counts the zero bits above the highest one bit. SEL has no guard; its
selector names a predicate as the first column of R300 does, in an MBR bundle too. The immediate operations have no
guard. A reserved field that is not 0 or a shift count outside 0 to 63 raises cause 0x01, for both agents; in drift code
a guard or selector code of 4 to 15 and a register field of 32 or more do; in user mode a destination of s56 to s59
raises cause 0x0C. The result lands in its register at its tick, a write to s0 or d0 is discarded, and the primary's
enters scalar latch 0. -/
def Obligations.MoveAndImmediateResults : Prop :=
  (∀ (o : SOp) (s : State),
    (s.runs o.g → s.dregsOk [o.d, o.a] = true → s.destOk o.d = true →
      (∃ n : Nat, n ≤ 64 ∧ exec (.clz o) s = .next (s.scalarResult 1 4 o.d (BitVec.ofNat 64 n)) ∧
        (∀ i, 64 - n ≤ i → (s.rs o.a).getLsbD i = false) ∧ (n < 64 → (s.rs o.a).getLsbD (63 - n) = true)) ∧
      exec (.popc o) s = .next (s.scalarResult 1 4 o.d
        (BitVec.ofNat 64 (((List.range 64).filter fun i => (s.rs o.a).getLsbD i).length))) ∧
      exec (.mov o) s = .next (s.scalarResult 1 4 o.d (s.rs o.a))) ∧
    (s.agent = .primary → s.destOk o.d = true → exec (.sel o) s =
      .next (s.scalarResult 1 4 o.d (if s.core.bank.pred o.g then s.core.bank.sreg o.a else s.core.bank.sreg o.b))) ∧
    (∀ n, s.agent = .drift n → o.g.toNat < 4 → s.dregsOk [o.d, o.a, o.b] = true → exec (.sel o) s =
      .next (s.scalarResult 1 4 o.d
        (if (s.core.thread n).pred o.g.toNat then (s.core.thread n).dreg o.a else (s.core.thread n).dreg o.b))) ∧
    (∀ n, s.agent = .drift n →
      (4 ≤ o.g.toNat → ∀ i ∈ [Instr.clz o, .popc o, .mov o, .sel o], exec i s = s.raise 0x01) ∧
      (s.dregsOk [o.d, o.a, o.b] = false → exec (.sel o) s = s.raise 0x01) ∧
      (s.threadRuns n o.g → s.dregsOk [o.d, o.a] = false →
        ∀ i ∈ [Instr.clz o, .popc o, .mov o], exec i s = s.raise 0x01)) ∧
    (o.b ≠ 0 → ∀ i ∈ [Instr.clz o, .popc o, .mov o],
      (s.primaryRuns o.g → runOne (checked (some i)) true s = s.raise 0x01) ∧
      ∀ n, s.threadRuns n o.g → s.driftRun n (checked (some i)) = s.raise 0x01) ∧
    (s.agent = .primary → s.core.bank.guard o.g = true → s.sup? = false → 56 ≤ o.d.toNat → o.d.toNat ≤ 59 →
      exec (.clz o) s = s.raise 0x0C ∧ exec (.popc o) s = s.raise 0x0C ∧ exec (.mov o) s = s.raise 0x0C ∧
      exec (.sel o) s = s.raise 0x0C)) ∧
  (∀ (o : SImm) (s : State),
    let x := s.rs o.a
    let i := o.imm.signExtend 64
    (s.dregsOk [o.d, o.a] = true → s.destOk o.d = true →
      exec (.addi o) s = .next (s.scalarResult 1 4 o.d (x + i)) ∧
      exec (.andi o) s = .next (s.scalarResult 1 4 o.d (x &&& i)) ∧
      exec (.ori o) s = .next (s.scalarResult 1 4 o.d (x ||| i)) ∧
      exec (.xori o) s = .next (s.scalarResult 1 4 o.d (x ^^^ i)) ∧
      exec (.shli o) s = .next (s.scalarResult 1 4 o.d (x <<< o.imm.toNat)) ∧
      exec (.shri o) s = .next (s.scalarResult 1 4 o.d (x >>> o.imm.toNat)) ∧
      exec (.sari o) s = .next (s.scalarResult 1 4 o.d (x.sshiftRight o.imm.toNat)) ∧
      exec (.movi o) s = .next (s.scalarResult 1 4 o.d i)) ∧
    (64 ≤ o.imm.toNat → ∀ j ∈ [Instr.shli o, .shri o, .sari o],
      (s.agent = .primary → runOne (checked (some j)) true s = s.raise 0x01) ∧
      ∀ n, s.driftRun n (checked (some j)) = s.raise 0x01) ∧
    (o.a ≠ 0 → (s.agent = .primary → runOne (checked (some (.movi o))) true s = s.raise 0x01) ∧
      ∀ n, s.driftRun n (checked (some (.movi o))) = s.raise 0x01) ∧
    (∀ n, s.agent = .drift n → s.dregsOk [o.d, o.a] = false →
      ∀ j ∈ [Instr.addi o, .andi o, .ori o, .xori o, .shli o, .shri o, .sari o, .movi o], exec j s = s.raise 0x01) ∧
    (s.agent = .primary → s.sup? = false → 56 ≤ o.d.toNat → o.d.toNat ≤ 59 →
      ∀ j ∈ [Instr.addi o, .andi o, .ori o, .xori o, .shli o, .shri o, .sari o, .movi o], exec j s = s.raise 0x0C)) ∧
  (∀ (o : XOp) (s : State),
    (s.runs o.g → s.dregsOk [o.d, o.a] = true → s.destOk o.d = true →
      exec (.addl o) s = .next (s.scalarResult 1 4 o.d (s.rs o.a + o.imm.signExtend 64)) ∧
      exec (.movl o) s = .next (s.scalarResult 1 4 o.d (o.imm.signExtend 64)) ∧
      exec (.movh o) s = .next (s.scalarResult 1 4 o.d (o.imm ++ (s.rs o.d).extractLsb' 0 32))) ∧
    (∀ j ∈ [Instr.addl o, .movl o, .movh o], o.sub ≠ 0 ∨ (o.a ≠ 0 ∧ j ≠ .addl o) →
      (s.primaryRuns o.g → runOne (checked (some j)) true s = s.raise 0x01) ∧
      ∀ n, s.threadRuns n o.g → s.driftRun n (checked (some j)) = s.raise 0x01) ∧
    (∀ n, s.agent = .drift n →
      (4 ≤ o.g.toNat → ∀ j ∈ [Instr.addl o, .movl o, .movh o], exec j s = s.raise 0x01) ∧
      (s.threadRuns n o.g → 32 ≤ o.d.toNat → ∀ j ∈ [Instr.addl o, .movl o, .movh o], exec j s = s.raise 0x01) ∧
      (s.threadRuns n o.g → 32 ≤ o.a.toNat → exec (.addl o) s = s.raise 0x01)) ∧
    (s.primaryRuns o.g → s.sup? = false → 56 ≤ o.d.toNat → o.d.toNat ≤ 59 →
      ∀ j ∈ [Instr.addl o, .movl o, .movh o], exec j s = s.raise 0x0C)) ∧
  (∀ (s : State) (lat n : Nat) (v : Word) (t : Nat), s.agent = .primary → s.core.bank.pend = [] → n < 64 → 0 < lat →
    let u := s.scalarResult lat lat (BitVec.ofNat 6 n) v
    let w := (u.setBank { u.core.bank with tick := t }).landDue
    (t < s.core.bank.tick + lat → w.core.bank.s = s.core.bank.s ∧ w.core.bank.latS = s.core.bank.latS) ∧
    (s.core.bank.tick + lat ≤ t →
      w.core.bank.sregN n = (if n = 0 then 0 else v) ∧
      (∀ m < 64, m ≠ n → w.core.bank.sregN m = s.core.bank.sregN m) ∧
      w.core.bank.latS[0].val = v ∧ w.core.bank.latS[0].valid = true ∧ w.core.bank.latS[1] = s.core.bank.latS[0]) ∧
    w.core.bank.p = s.core.bank.p ∧ w.core.bank.k = s.core.bank.k ∧ w.core.bank.v = s.core.bank.v ∧
    w.core.bank.b = s.core.bank.b ∧ w.core.bank.acc = s.core.bank.acc ∧ w.core.bank.status = s.core.bank.status ∧
    w.core.store = s.core.store ∧ w.mem = s.mem ∧ w.hub = s.hub) ∧
  ∀ (s : State) (n lat dlat : Nat) (d : BitVec 6) (v : Word), s.agent = .drift n → n < 8 → d.toNat < 32 →
    (s.core.thread n).bank = s.core.curBank → (∀ m < 8, m ≠ n → (s.core.thread m).busy = false) →
    let t := s.scalarResult lat dlat d v
    let u := (t.setCore { t.core with cycle := s.core.cycle + dlat }).driftDue
    t.core.bank = s.core.bank ∧ (t.core.thread n).busy = true ∧
    (t.core.thread n).due = some (s.core.cycle + dlat) ∧
    (u.core.thread n).dreg d = (if d = 0 then 0 else v) ∧ (u.core.thread n).busy = false ∧
    u.core.bank = s.core.bank ∧ u.core.store = s.core.store ∧ u.mem = s.mem ∧ ∀ m < 8, m ≠ n → u.core.thread m = s.core.thread m

/-- R307, R328, R362: the compares and the predicate operations, for both agents: what each writes to its predicate.
In drift code a predicate field of 4 to 15 and a register field of 32 or more raise cause 0x01; a condition of 6 or more
does for both agents. R280, R15: a predicate result lands in its predicate and, outside a kernel and for p1 to p7, its
complement in p(N+8); every other predicate, every other register and memory stand. A drift thread's lands in its own
predicate after 4 cycles. -/
def Obligations.PredicateResults : Prop :=
  (∀ (o : SOp) (s : State), s.runs o.g → (s.agent = .primary ∨ (o.d.toNat % 16 < 4 ∧ o.a.toNat < 4 ∧ o.b.toNat < 4)) →
    let d := o.d.toNat % 16
    exec (.pand o) s = .next (s.predState d (s.predSrc o.a && s.predSrc o.b)) ∧
    exec (.por o) s = .next (s.predState d (s.predSrc o.a || s.predSrc o.b)) ∧
    exec (.pxor o) s = .next (s.predState d (s.predSrc o.a ^^ s.predSrc o.b)) ∧
    exec (.pandn o) s = .next (s.predState d (s.predSrc o.a && !s.predSrc o.b)) ∧
    exec (.movp o) s = .next (s.predState d (s.predSrc o.a))) ∧
  (∀ (o : SOp) (s : State), s.dregsOk [o.a, o.b] = true → (s.agent = .primary ∨ o.d.toNat % 16 < 4) →
    let d := o.d.toNat % 16
    let x := s.rs o.a
    let y := s.rs o.b
    (s.runs o.g → exec (.setp o) s = .next (s.predState d (decide (x ≠ 0)))) ∧
    (o.g = 0 → exec (.cmp o) s = .next (s.predState d (decide (x = y)))) ∧
    (o.g = 1 → exec (.cmp o) s = .next (s.predState d (decide (x ≠ y)))) ∧
    (o.g = 2 → exec (.cmp o) s = .next (s.predState d (decide (x.toInt < y.toInt)))) ∧
    (o.g = 3 → exec (.cmp o) s = .next (s.predState d (decide (x.toInt ≤ y.toInt)))) ∧
    (o.g = 4 → exec (.cmp o) s = .next (s.predState d (decide (x.toNat < y.toNat)))) ∧
    (o.g = 5 → exec (.cmp o) s = .next (s.predState d (decide (x.toNat ≤ y.toNat))))) ∧
  (∀ (o : SImm) (s : State), s.dregsOk [o.a] = true → (s.agent = .primary ∨ o.d.toNat % 16 < 4) →
    let d := o.d.toNat % 16
    let x := s.rs o.a
    let i := o.imm.signExtend 64
    exec (.cmpeqi o) s = .next (s.predState d (decide (x = i))) ∧
    exec (.cmplti o) s = .next (s.predState d (decide (x.toInt < i.toInt))) ∧
    exec (.cmplei o) s = .next (s.predState d (decide (x.toInt ≤ i.toInt))) ∧
    exec (.cmpltni o) s = .next (s.predState d (decide (x.toNat < i.toNat)))) ∧
  (∀ (o : SOp) (i : SImm) (s : State) (n : Nat), s.agent = .drift n →
    (4 ≤ o.d.toNat % 16 ∨ s.dregsOk [o.a, o.b] = false → exec (.cmp o) s = s.raise 0x01) ∧
    (4 ≤ i.d.toNat % 16 ∨ 32 ≤ i.a.toNat →
      ∀ j ∈ [Instr.cmpeqi i, .cmplti i, .cmplei i, .cmpltni i], exec j s = s.raise 0x01) ∧
    (4 ≤ o.g.toNat → ∀ j ∈ [Instr.pand o, .por o, .pxor o, .pandn o, .movp o, .setp o], exec j s = s.raise 0x01) ∧
    (s.threadRuns n o.g →
      (4 ≤ o.d.toNat % 16 ∨ 4 ≤ o.a.toNat ∨ 4 ≤ o.b.toNat →
        ∀ j ∈ [Instr.pand o, .por o, .pxor o, .pandn o], exec j s = s.raise 0x01) ∧
      (4 ≤ o.d.toNat % 16 ∨ 4 ≤ o.a.toNat → exec (.movp o) s = s.raise 0x01) ∧
      (4 ≤ o.d.toNat % 16 ∨ 32 ≤ o.a.toNat → exec (.setp o) s = s.raise 0x01))) ∧
  (∀ (o : SOp) (s : State), 6 ≤ o.g.toNat →
    (s.agent = .primary → runOne (checked (some (.cmp o))) true s = s.raise 0x01) ∧
    ∀ n, s.agent = .drift n → s.driftRun n (checked (some (.cmp o))) = s.raise 0x01) ∧
  (∀ (s : State) (n k : Nat) (v : Bool), s.agent = .drift n → n < 8 → k < 4 →
    (s.core.thread n).bank = s.core.curBank → (∀ m < 8, m ≠ n → (s.core.thread m).busy = false) →
    let t := s.predState k v
    let u := (t.setCore { t.core with cycle := s.core.cycle + 4 }).driftDue
    t.core.bank = s.core.bank ∧ (t.core.thread n).due = some (s.core.cycle + 4) ∧
    (u.core.thread n).pred k = (if k = 0 then true else v) ∧ (u.core.thread n).busy = false ∧
    (∀ m < 4, m ≠ k → (u.core.thread n).pred m = (s.core.thread n).pred m) ∧ u.core.bank = s.core.bank ∧
    u.core.store = s.core.store ∧ u.mem = s.mem) ∧
  ∀ (s : State) (n : Nat) (v : Bool), s.agent = .primary → s.core.bank.pend = [] → n < 16 →
    let u := s.predState n v
    let w := (u.setBank { u.core.bank with tick := u.core.bank.tick + 1 }).landDue
    w.core.bank.pred (BitVec.ofNat 4 n) = (if n = 0 then true else v) ∧
    (s.core.bank.loop.active = false → 1 ≤ n → n ≤ 7 → w.core.bank.pred (BitVec.ofNat 4 (n + 8)) = !v) ∧
    w.core.bank.s = s.core.bank.s ∧ w.core.bank.k = s.core.bank.k ∧ w.core.bank.v = s.core.bank.v ∧
    w.core.bank.status = s.core.bank.status ∧ w.core.store = s.core.store ∧ w.mem = s.mem ∧
    ∀ m < 16, m ≠ n → (s.core.bank.loop.active = true ∨ n = 0 ∨ 7 < n ∨ m ≠ n + 8) →
      w.core.bank.pred (BitVec.ofNat 4 m) = s.core.bank.pred (BitVec.ofNat 4 m)

/-- R300, R77, R303, R304: an instruction of the scalar, vector, matrix and copy classes, or of the system class MBR
and DSTOP apart, has no effect at all when the primary issues it with a false guard. A legal opcode with an illegal field
raises cause 0x01 exactly when its guard is true; words of no opcode, and a DSTOP, which is none of the primary's
instructions (R305, R333), raise it whatever the guard. R31, R305: in drift code an instruction outside the list of R31
raises cause 0x01, whatever its guard and its fields. -/
def Obligations.GuardsAndIllegalFields : Prop :=
  (∀ (i : Instr) (ws : List IWord) (s : State), encode i = some ws → classOf (ws.headD 0) ≠ 5 → isMbrInstr i = false →
    isDstop i = false → s.agent = .primary → s.core.bank.guard (guardOf i) = false → exec i s = .next s) ∧
  (∀ (i : Instr) (ws : List IWord) (s : State) (n : Nat), encode i = some ws → driftMay i = false → s.agent = .drift n →
    s.driftRun n (checked (some i)) = s.raise 0x01) ∧
  ∀ (i : Instr) (alone : Bool) (s : State), s.agent = .primary →
    (fieldsOk i = false → runOne (checked (some i)) alone s =
      if s.core.bank.guard (fieldGuard i) || isDstop i then s.raise 0x01 else .next s) ∧
    (isDstop i = true → exec i s = s.raise 0x01) ∧
    runOne (checked none) alone s = s.raise 0x01

/-- R368: NOP: with sa bit 0 = 1 the scalar slot stays announced to the drift threads, with 0 it is withheld; a
non-zero sd, sa[5:1], sb or pg raises cause 0x01; it changes nothing when the primary issues it and occupies a drift
thread for four cycles. -/
def Obligations.NopEffect : Prop :=
  decodeWords 0x80000400 0 = .ok .nop ∧ decodeWords 0x80000000 0 = .ok .nopW ∧
  (∀ (w : IWord), classOf w = 0 → bitsOf w 22 6 = 0 → (bitsOf w 0 10 ≠ 0 ∨ bitsOf w 11 11 ≠ 0) →
    ∀ s : State, s.agent = .primary → s.core.bank.guard (bitsOf w 0 4) = true →
      runOne (decodeWords w 0) true s = s.raise 0x01) ∧
  ∀ (s : State),
    (s.emptySlots [(0, .ok .nop)]).scalar = true ∧ (s.emptySlots [(0, .ok .nopW)]).scalar = false ∧
    (s.emptySlots []).scalar = true ∧
    (s.agent = .primary → exec .nop s = .next s ∧ exec .nopW s = .next s) ∧
    ∀ n, s.agent = .drift n → exec .nop s = .next (s.driftIssue 4 .none) ∧ exec .nopW s = .next (s.driftIssue 4 .none)

/-- R325, R18: the branches issued by the primary alone, out of a delay bundle and a kernel: the target each takes
after the delay bundle, and CALL's link in s62, the first bundle after the delay bundle. R18: a branch is taken after
its delay bundle: the bundle after the branch issues next, and the target after it, as a branch target. R31, R325: a
drift thread's branch has no delay bundle: its next bundle is the target, and CALL links d30. -/
def Obligations.Branches : Prop :=
  ((∀ (o : LImm) (s : State), s.controlRuns o.g →
    let b := s.core.bank
    let t := b.pc + 4 * o.imm.signExtend 64
    let u := s.setBank { b with newBranch := some t }
    exec (.br o) s = .next u ∧
    exec (.call o) s =
      .next (u.result 1 (.sPlain 62 (BitVec.ofNat 64 (s.image.after (s.image.after b.pc.toNat)))))) ∧
  ∀ (o : LReg) (s : State), s.controlRuns o.g →
    let b := s.core.bank
    exec (.bri o) s = .next (s.setBank { b with newBranch := some (b.sreg o.a + 4 * o.imm.signExtend 64) }) ∧
    exec (.brb o) s = .next (s.setBank { b with newBranch := some (b.breg o.imm.toNat) }) ∧
    exec (.ret o) s = .next (s.setBank { b with newBranch := some (b.sreg 62) })) ∧
  (∀ (b : Bank) (t n : Word), b.newLoop = none → b.branch = none → b.loop.active = false → b.newBranch = some t →
    b.advance.pc = b.next ∧ b.advance.byBranch = false ∧ b.advance.prevCtl = b.curCtl ∧
    ({ b.advance with next := n } : Bank).advance.pc = t ∧
    ({ b.advance with next := n } : Bank).advance.byBranch = true) ∧
  (∀ (r : LReg) (o : LImm) (s : State) (n : Nat), n < 8 → r.a.toNat < 32 →
    let h := (s.core.thread n).pc
    (s.threadRuns n o.g →
      (∃ t, exec (.br o) s = .next t ∧ (t.core.thread n).next = h + 4 * o.imm.signExtend 64 ∧
        (t.core.thread n).due = some (s.core.cycle + 4) ∧ t.core.bank = s.core.bank) ∧
      ∃ t, exec (.call o) s = .next t ∧ (t.core.thread n).next = h + 4 * o.imm.signExtend 64 ∧
        (t.core.thread n).eff = .d 30 (BitVec.ofNat 64 (s.image.after h.toNat)) ∧ t.core.bank = s.core.bank) ∧
    (s.threadRuns n r.g →
      (∃ t, exec (.bri r) s = .next t ∧
        (t.core.thread n).next = (s.core.thread n).dreg r.a + 4 * r.imm.signExtend 64 ∧
        t.core.bank = s.core.bank) ∧
      (∃ t, exec (.ret r) s = .next t ∧ (t.core.thread n).next = (s.core.thread n).dreg 30 ∧
        t.core.bank = s.core.bank) ∧
      exec (.brb r) s = s.raise 0x01))

/-- R18, R24: directly after a control transfer a branch, a LOOP, an LMARK or an MBR raises cause 0x01 whatever its
guard, and so does one with a true guard inside a kernel, a TASKEND and a YIELD among them. R41: a gang's member takes
the lead's decision, its guard, target, count and leaf, whatever its own guard and registers say, and traps with it (R220); that the lead's
decisions stand in a log that the members read is the model's choice (log entry 13). -/
def Obligations.ControlTransferRules : Prop :=
  (∀ (o : LImm) (r : LReg) (x : XOp) (s : State), s.agent = .primary →
    (s.core.bank.prevCtl = true →
      exec (.br o) s = s.raise 0x01 ∧ exec (.call o) s = s.raise 0x01 ∧ exec (.bri r) s = s.raise 0x01 ∧
      exec (.brb r) s = s.raise 0x01 ∧ exec (.ret r) s = s.raise 0x01 ∧ exec (.loop r) s = s.raise 0x01 ∧
      exec (.lmark o) s = s.raise 0x01 ∧ exec (.mbr x) s = s.raise 0x01) ∧
    (s.core.bank.prevCtl = false → s.gang = none → s.core.bank.loop.active = true →
      (s.core.bank.guard o.g = true →
        exec (.br o) s = s.raise 0x01 ∧ exec (.call o) s = s.raise 0x01 ∧ exec (.lmark o) s = s.raise 0x01 ∧
        exec (.taskend o) s = s.raise 0x01 ∧ (s.core.bank.prevBr = false → exec (.yield o) s = s.raise 0x01)) ∧
      (s.core.bank.pred x.g = true → exec (.mbr x) s = s.raise 0x01) ∧
      (s.core.bank.guard r.g = true →
        exec (.bri r) s = s.raise 0x01 ∧ exec (.brb r) s = s.raise 0x01 ∧ exec (.ret r) s = s.raise 0x01 ∧
        exec (.loop r) s = s.raise 0x01))) ∧
  (∀ (o : LImm) (r : LReg) (x : XOp) (s : State) (g : Gang) (d : GangStep), s.agent = .primary →
    s.core.bank.prevCtl = false → s.core.bank.loop.active = false → s.gang = some g → s.core.bank.pos ≠ 0 →
    g.steps[s.core.bank.gstep]? = some d →
    let b := s.core.bank
    let u := s.setBank { b with newBranch := some d.target }
    let start := s.image.after b.pc.toNat
    (d.guard = false → ∀ i ∈ [Instr.br o, .call o, .lmark o, .taskend o, .bri r, .brb r, .ret r, .loop r],
      exec i s = .next s) ∧
    (d.guard = false → (b.prevBr = false → exec (.yield o) s = .next s) ∧ exec (.trap x) s = .next s ∧
      exec (.mbr x) s = .next (s.setBank { b with isMbr := true, leaf := none })) ∧
    (d.guard = true →
      exec (.br o) s = .next u ∧ exec (.bri r) s = .next u ∧ exec (.brb r) s = .next u ∧ exec (.ret r) s = .next u ∧
      exec (.call o) s = .next (u.result 1 (.sPlain 62 (BitVec.ofNat 64 (s.image.after start)))) ∧
      exec (.loop r) s = .next (s.setBank { b with
        newLoop := some (loopOf d.count (r.imm.toNat / 256) (r.imm.toNat % 256) (BitVec.ofNat 64 start),
          BitVec.ofNat 64 (s.image.afterN (r.imm.toNat % 256) start)) }) ∧
      exec (.lmark o) s = .next (s.setBank { b with
        loopBuf := { first := BitVec.ofNat 64 start, count := o.imm.toNat, valid := true } }) ∧
      exec (.mbr x) s = .next (s.setBank { b with isMbr := true, leaf := d.leaf, newBranch := some d.target }) ∧
      (b.handler = false →
        exec (.taskend o) s = .next (s.setBank { b with run := .ending, newBranch := none, branch := none }) ∧
        (b.status.guard = false → b.rimeFits = true → exec (.trap x) s = .next (s.trapAfter x.imm.toNat)) ∧
        (b.prevBr = false →
          let y := s.setBank { b with curYield := true }
          exec (.yield o) s = .next (if d.count = 1 then y.startSwitch else y)))))

/-- R26, R350: MBR, its guard true: the leaf its four tests choose, read at issue from predicates and polarities, and
the branch to b[base + leaf]. With a false guard no leaf and no branch is taken. -/
def Obligations.MbrLeaf : Prop :=
  ∀ (o : XOp) (s : State), s.agent = .primary → s.core.bank.prevCtl = false → s.core.bank.loop.active = false →
    s.gang = none →
    let b := s.core.bank
    let t (q : Nat) : Bool := b.pred (o.imm.extractLsb' (4 * q) 4) ^^ o.imm.getLsbD (16 + q)
    let leaf : Nat :=
      if o.sub.getLsbD 0 then (if t 0 then (if t 1 then 0 else 1) else if t 2 then 2 else if t 3 then 3 else 4)
      else if t 0 then 0 else if t 1 then 1 else if t 2 then 2 else if t 3 then 3 else 4
    exec (.mbr o) s =
      .next (s.setBank (if b.pred o.g then
        { b with isMbr := true, leaf := some leaf,
                 newBranch := some (b.breg ((o.imm.extractLsb' 20 3).toNat + leaf)) }
      else { b with isMbr := true, leaf := none }))

/-- R347, R10, R24: LOOP outside a delay bundle and a kernel: LC holds N, S - 1 drain iterations and ACTIVE, the
kernel is the L bundles after the LOOP, ROTSZ.BASE becomes 0, and with N = 0 the loop is over at once: p8 to p15 are 0
and the bundle after the kernel issues next. R10, R23, R43: an iteration boundary: the stage predicates shift and p8
says whether the new iteration is one of the N, the rotation moves by one register from the second iteration on, and
one iteration less is left. -/
def Obligations.LoopKernel : Prop :=
  (∀ (o : LReg) (s : State), s.controlRuns o.g →
    let b := s.core.bank
    let n := (b.sreg o.a).toNat % 2 ^ 32
    let start := s.image.after b.pc.toNat
    ∃ t, exec (.loop o) s = .next t ∧ t.core.bank.sameRegs b ∧
      let c := t.core.bank.advance
      c.rotBase = 0 ∧ c.loop.active = decide (0 < n) ∧ c.loop.left = n ∧ c.loop.start = BitVec.ofNat 64 start ∧
      c.loop.len = o.imm.toNat % 256 ∧ c.loop.stages = o.imm.toNat / 256 ∧
      (0 < n → c.loop.drain = o.imm.toNat / 256 - 1 ∧ c.pc = BitVec.ofNat 64 start) ∧
      (n = 0 → c.pc = BitVec.ofNat 64 (s.image.afterN (o.imm.toNat % 256) start) ∧
        ∀ i, 8 ≤ i → i < 16 → c.pred (BitVec.ofNat 4 i) = false)) ∧
  (∀ (s : State), s.core.bank.atLoop = true →
    ∃ t, exec .loopIteration s = .next t ∧
      let b := s.core.bank
      let c := t.core.bank
      c.pred 8 = decide (b.loop.iter < b.loop.trip) ∧
      (∀ i < 8, c.pred (BitVec.ofNat 4 i) = b.pred (BitVec.ofNat 4 i)) ∧
      (b.loop.iter = 0 → c.rotBase = b.rotBase ∧ ∀ i, 9 ≤ i → i < 16 → c.pred (BitVec.ofNat 4 i) = false) ∧
      (0 < b.loop.iter →
        (0 < b.rotSize → c.rotBase = (b.rotBase + b.rotSize - 1) % b.rotSize) ∧
        ∀ i, 9 ≤ i → i < 16 → c.pred (BitVec.ofNat 4 i) = b.pred (BitVec.ofNat 4 (i - 1))) ∧
      c.loop.iter = b.loop.iter + 1 ∧ c.loop.left = b.loop.left - 1 ∧
      (b.loop.left = 0 → c.loop.drain = b.loop.drain - 1) ∧ c.s = b.s ∧ c.v = b.v ∧ c.pend = b.pend)

/-- R25, R346: LMARK names the bundles that the loop buffer holds: the given count from the bundle after it. R162,
R379: TASKEND outside a handler and a kernel ends the task's issue. R163, R403: YIELD starts a switch exactly when the
other bank holds a task that is ready. -/
def Obligations.MarkEndYield : Prop :=
  ∀ (o : LImm) (s : State), s.controlRuns o.g →
    let b := s.core.bank
    exec (.lmark o) s = .next (s.setBank { b with
      loopBuf := { first := BitVec.ofNat 64 (s.image.after b.pc.toNat), count := o.imm.toNat, valid := true } }) ∧
    (b.handler = false → exec (.taskend o) s =
      .next (s.setBank { b with run := .ending, newBranch := none, branch := none })) ∧
    (b.handler = false → b.prevBr = false → ∃ t, exec (.yield o) s = .next t ∧
      t.core.bank = { b with curYield := true } ∧
      t.core.switching = if s.core.otherReady then some 161 else s.core.switching)

/-! ### System instructions, exceptions and the return from them (11, 18 R302) -/

/-- R302, R43, R207, R218, R228, R231, R233: what MFSR gives, for both agents, at issue + 2 (4 cycles in drift code):
each register by the state it holds. VCLK, MCSEL and SUSP read by their index; the reserved machine-check banks 26 to 30
read zero. A firmware task's audit registers are those of its core's partition (R176). -/
def Obligations.SystemRegisterRead : Prop :=
  ∀ (o : XOp) (s : State), s.runs o.g → s.dregsOk [o.d, o.a] = true → s.destOk o.d = true →
    (sysIndexed o.imm.toNat = true → s.agent = .primary ∧ s.sup? = true) →
    let b := s.core.bank
    let r (n : Nat) (v : Word) : Prop := o.imm.toNat = n → exec (.mfsr o) s = .next (s.scalarResult 2 4 o.d v)
    r 0x08 b.epc ∧ r 0x09 b.cause ∧ r 0x0A b.tvec ∧ r 0x0B (BitVec.ofNat 64 (b.tfbase % 65536 * 128)) ∧
    r 0x0C (s.core.inten.setWidth 64) ∧ r 0x0D (s.core.pend.setWidth 64) ∧
    r 0x0E (BitVec.ofNat 64 s.core.cycle) ∧ r 0x0F s.core.timer ∧ r 0x10 b.stencil ∧
    r 0x11 b.resslot ∧ r 0x12 b.resbank ∧ r 0x13 b.resnet ∧ r 0x14 b.respwr ∧
    r 0x00 b.status.word ∧ r 0x06 b.rotWord ∧ r 0x07 b.loop.word ∧
    r 0x02 (BitVec.ofNat 64 (cellOf s.cur % 64)) ∧ r 0x03 (BitVec.ofNat 64 (dieOf s.cur % 4)) ∧
    r 0x1B (BitVec.ofNat 64 (s.hub.cell ((s.rs o.a).toNat % 64)).susp) ∧
    r 0x20 (s.vclk ((s.rs o.a).toNat % 32)) ∧
    r 0x01 (BitVec.ofNat 64 (b.pos % 64 + b.glog % 8 * 256)) ∧
    r 0x04 (BitVec.ofNat 64 (s.core.curBank % 2 + if s.core.other.run = .empty then 0 else 2)) ∧
    r 0x05 (BitVec.ofNat 64 (b.vu % 16 + b.at_ % 16 * 16 + (24 - b.vu - s.core.other.vu) % 32 * 256 +
      (8 - b.at_ - s.core.other.at_) % 16 * 2 ^ 13)) ∧
    (∀ p : Fin 4, (b.task.map (·.part)).getD (s.hub.partOfCore s.cur) = p →
      let q := s.hub.parts[p]
      r 0x18 (BitVec.ofNat 64 q.audRate) ∧ r 0x19 q.audSeed ∧ r 0x1A (if q.audAct then 1 else 0) ∧
      r 0x1C (BitVec.ofNat 64 q.qth)) ∧
    (let i := (s.rs o.a).toNat
     let m := s.hub.mcBank (i % 32)
     r 0x21 (if 26 ≤ i % 32 ∧ i % 32 ≤ 30 then 0
       else if i / 32 % 4 = 0 then
         BitVec.ofNat 64 ((if m.valid then 2 ^ 63 else 0) + (if m.ovf then 2 ^ 62 else 0) + m.sev % 4 * 2 ^ 60 +
           m.src % 32 * 2 ^ 55 + m.unit % 128 * 2 ^ 48 + m.code % 2 ^ 16)
       else if i / 32 % 4 = 1 then m.addr
       else if i / 32 % 4 = 2 then BitVec.ofNat 64 (m.count % 2 ^ 32 + m.synd % 2 ^ 16 * 2 ^ 32)
       else BitVec.ofNat 64 ((if m.en then 1 else 0) + if m.notify then 2 else 0))) ∧
    (let h := s.hub.regs
     let spare := (s.hub.cells.toList.filter fun c => c.run == .spare).length
     let cells := decide (spare < h.svcThreshold)
     r 0x22 (BitVec.ofNat 64 ((if cells || h.svcRows || h.svcChan || h.svcLanes then 1 else 0) +
       (if cells then 0x100 else 0) + (if h.svcRows then 0x200 else 0) + (if h.svcChan then 0x400 else 0) +
       (if h.svcLanes then 0x800 else 0) + spare % 8 * 2 ^ 16))) ∧
    exec (.mfsr o) s = .next (s.scalarResult 2 4 o.d (s.sysRead o.imm.toNat (s.rs o.a)))

/-- R302, R23, R218, R60, R233: an MTSR in supervisor mode puts a write in flight that governs from issue + 2, whatever
its register but a ROTSZ that R23 forbids, for which it raises cause 0x01 or 0x02; what each register then holds: PEND
and the STATUS flags are write-one-to-clear, the bit of a timer that expires in the cycle ending set (R357), ROTSZ starts at base 0, TFBASE keeps bits 22:7, AUDRATE 16:0, AUDACT bit 0
and QTH 7:0. In user mode STATUS keeps IE and clears its flags as before, ROTSZ is written as in supervisor mode, and a
write of one of the other registers has no effect; the residue counters are among these by log entry 56, the model's
reading. -/
def Obligations.SystemRegisterWrite : Prop :=
  (∀ (o : XOp) (s : State), s.primaryRuns o.g →
    let v := s.rs o.a
    let n := v.toNat % 256
    let bad := s.core.bank.loop.active = true ∨ n % 8 ≠ 0 ∨ 128 < n
    (o.imm.toNat = 0x06 →
      (bad → exec (.mtsr o) s = s.raise 0x01) ∧
      (¬bad → 32 * s.core.bank.vu < n → exec (.mtsr o) s = s.raise 0x02) ∧
      (¬bad → n ≤ 32 * s.core.bank.vu → exec (.mtsr o) s = .next (s.result 2 (.sys 0x06 v)))) ∧
    (s.sup? = true → o.imm.toNat ≠ 0x06 → exec (.mtsr o) s = .next (s.result 2 (.sys o.imm.toNat v))) ∧
    (s.sup? = false →
      (o.imm.toNat = 0x00 → exec (.mtsr o) s = .next (s.result 2 (.sys 0x100 v))) ∧
      (o.imm.toNat ∈ [0x11, 0x12, 0x13, 0x14, 0x22] → exec (.mtsr o) s = .next s) ∧
      (o.imm.toNat ∈ [0x01, 0x02, 0x03, 0x04, 0x05, 0x07, 0x0E, 0x10] →
        exec (.mtsr o) s = .next (s.result 2 (.sys o.imm.toNat v))))) ∧
  ∀ (s : State) (v i : Word),
      let w (n : Nat) : State := s.landOne { due := 0, seq := 0, eff := .sys n v, unit := 4, flags := 0 }
      let part (f : Partition → Partition) : Hub := s.hub.mapPart s.part f
      (w 0x18).hub = part (fun p => { p with audRate := v.toNat % 2 ^ 17 }) ∧
      (w 0x19).hub = part (fun p => { p with audSeed := v }) ∧
      (w 0x1A).hub = part (fun p => { p with audAct := v.getLsbD 0 }) ∧
      (w 0x1C).hub = part (fun p => { p with qth := v.toNat % 256 }) ∧
      (w 0x100).core.bank.status = { s.core.bank.status with
        nanint := s.core.bank.status.nanint && !v.getLsbD 0, isat := s.core.bank.status.isat && !v.getLsbD 1,
        latchlost := s.core.bank.status.latchlost && !v.getLsbD 2 } ∧
      (w 0x08).sysRead 0x08 i = v ∧ (w 0x0A).sysRead 0x0A i = v ∧
      (w 0x0B).sysRead 0x0B i = v &&& 0x7FFF80 ∧ (w 0x0C).sysRead 0x0C i = v &&& 0xF ∧
      (w 0x0D).core.pend = s.core.pend &&& ~~~(v.extractLsb' 0 4) ||| (if s.core.expired then 1 else 0) ∧ (w 0x0F).sysRead 0x0F i = v ∧
      (w 0x11).sysRead 0x11 i = v ∧ (w 0x12).sysRead 0x12 i = v ∧ (w 0x13).sysRead 0x13 i = v ∧
      (w 0x14).sysRead 0x14 i = v ∧
      (w 0x06).core.bank.rotSize = v.toNat % 256 ∧ (w 0x06).core.bank.rotBase = 0 ∧
      (w 0x00).core.bank.status = { s.core.bank.status with
        nanint := s.core.bank.status.nanint && !v.getLsbD 0, isat := s.core.bank.status.isat && !v.getLsbD 1,
        latchlost := s.core.bank.status.latchlost && !v.getLsbD 2, ie := v.getLsbD 9 } ∧
      (∀ n ∈ [0x01, 0x02, 0x03, 0x04, 0x05, 0x07, 0x09, 0x0E, 0x10, 0x1B, 0x20, 0x21, 0x22], w n = s)

/-- R202, R302, R205: in user mode an MTSR of a privileged register raises cause 0x0C, and so do ARM, DISARM, ERET and
SELFTEST, and an MFSR of an indexed register: the bank stops with CAUSE 0x0C and EPC at the bundle. R202, R317: in
user mode an instruction that names s56 to s59 as its destination raises cause 0x0C: a scalar operation, an immediate or
long immediate, an MFSR, a GROW or SHRINK, an LDT, an LD, a PIN, an
ATOM, a FLAGR, a BARR and a GPOST. -/
def Obligations.UserModePrivilege : Prop :=
  (∀ (o : XOp) (s : State), s.primaryRuns o.g → s.sup? = false →
    (∃ t, s.raise 0x0C = .next t ∧ t.core.bank.run = .stopped ∧ t.core.bank.epc = s.core.bank.pc ∧
      t.core.bank.cause.toNat % 256 = 0x0C ∧ t.core.bank.s = s.core.bank.s ∧ t.core.store = s.core.store) ∧
    (o.imm.toNat ∈ [0x08, 0x09, 0x0A, 0x0B, 0x0C, 0x0D, 0x0F, 0x18, 0x19, 0x1A, 0x1B, 0x1C, 0x20, 0x21] →
      exec (.mtsr o) s = s.raise 0x0C) ∧
    (o.imm.toNat ∈ [0x1B, 0x20, 0x21] → exec (.mfsr o) s = s.raise 0x0C) ∧
    exec (.arm o) s = s.raise 0x0C ∧ exec (.disarm o) s = s.raise 0x0C ∧ exec (.eret o) s = s.raise 0x0C ∧
    exec (.selftest o) s = s.raise 0x0C) ∧
  (∀ (o : SOp) (i : SImm) (s : State), s.agent = .primary → s.core.bank.guard o.g = true → s.sup? = false →
    56 ≤ o.d.toNat → o.d.toNat ≤ 59 → 56 ≤ i.d.toNat → i.d.toNat ≤ 59 →
    ∀ j ∈ [Instr.add o, .sub o, .mul o, .mulh o, .mulhn o, .div o, .divn o, .min_ o, .max_ o, .minn o, .maxn o, .and_ o,
        .or_ o, .xor_ o, .shl o, .shr o, .sar o, .clz o, .popc o, .mov o, .sel o, .addi i, .andi i, .ori i, .xori i,
        .shli i, .shri i, .sari i, .movi i],
      exec j s = s.raise 0x0C) ∧
  ∀ (x : XOp) (c : COp) (s : State), s.sup? = false →
    (s.primaryRuns x.g → 56 ≤ x.d.toNat → x.d.toNat ≤ 59 →
      ∀ j ∈ [Instr.mfsr x, .addl x, .movl x, .movh x, .grow x, .shrink x, .ldt x], exec j s = s.raise 0x0C) ∧
    (s.primaryRuns c.g → 56 ≤ c.data.toNat % 64 → c.data.toNat % 64 ≤ 59 →
      (∀ j ∈ [Instr.ld c, .pin c, .atom c, .barr c, .gpost c], exec j s = s.raise 0x0C) ∧
      (c.cb = 0 → exec (.flagr c) s = s.raise 0x0C))

/-- R208, R210, R212, R214, R215: TRAP of a bank of one core whose frame lies in its pinned lines, outside a kernel,
guarded mode and a handler, with at most the entries that the Rime latches hold: EPC takes the bundle that would issue next and
CAUSE 0x0E with the code; the mode becomes supervisor with interrupts off; no loop and no rotation is left; the bundle
at TVEC issues 48 cycles after the freeze; the frame holds EPC, CAUSE, the STATUS before the trap, LC, ROTSZ, the
predicates, the masks, the scalar latches, the number of Rime entries, and an entry for each scalar result in flight.
Registers, and memory outside the frame, stand. R215: a TRAP in a kernel, in guarded mode or in a handler raises cause
0x01. R212: a trap whose frame reaches past the bank's pinned lines ends the launch with cause 0x06 and NESTED. -/
def Obligations.TrapEntry : Prop :=
  (∀ (o : XOp) (s : State), s.primaryRuns o.g → s.gang = none → s.core.bank.loop.active = false →
    s.core.bank.status.guard = false → s.core.bank.handler = false → s.core.bank.rimeFits = true →
    s.core.bank.framePinned = true →
    let b := s.core.bank
    let base := 128 * b.tfbase
    ∃ t, exec (.trap o) s = .next t ∧
      let c := t.core.bank
      c.epc = b.nextPc ∧ c.cause.toNat % 256 = 0x0E ∧ c.cause.toNat / 65536 = o.imm.toNat % 65536 ∧
      c.status = { b.status with sup := true, ie := false } ∧ c.pc = b.tvec ∧ c.stall = 48 ∧ c.handler = true ∧
      c.run = .active ∧ c.loop.active = false ∧ c.rotSize = 0 ∧ c.rotBase = 0 ∧ (∀ e ∈ c.pend, e.eff.keepsRunning = true) ∧
      c.s = b.s ∧ c.k = b.k ∧ c.v = b.v ∧ c.b = b.b ∧ c.tvec = b.tvec ∧ c.tfbase = b.tfbase ∧
      (∀ a, a < base ∨ base + 0x6000 ≤ a → memByte t.core.store a = memByte s.core.store a) ∧
      (let v := if b.atLoop then b.shiftOn else b
       let m := t.core.store
       readNat m (base + 0x18) 8 = v.loop.word.toNat ∧ readNat m (base + 0x20) 8 = v.rotWord.toNat ∧
       (∀ i < 16, (readNat m (base + 0x28) 8).testBit i = v.pred (BitVec.ofNat 4 i)) ∧
       (∀ i, 1 ≤ i → i < 8 → readNat m (base + 256 * i) 256 = (b.mask (BitVec.ofNat 3 i)).toNat) ∧
       (∀ i : Fin 4, readNat m (base + 0x60 + 8 * i) 8 = b.latS[i].val.toNat) ∧
       readNat m (base + 0x58) 8 = b.rimeCount.1 ∧
       ∀ e ∈ b.pend, ∀ n x, e.eff = .s n x → n < 64 → b.tick < e.due → e.due ≤ b.tick + 64 →
         ∃ i < b.rimeCount.1, let r := (rimeRead m base i).1
           r.cls = 0 ∧ r.dest = n ∧ r.bar = false ∧ r.remain = e.due - (b.tick + 1) ∧ r.unit = 2 ∧ r.val = x) ∧
      readNat t.core.store base 8 = b.nextPc.toNat ∧ readNat t.core.store (base + 8) 8 = c.cause.toNat ∧
      readNat t.core.store (base + 16) 8 = b.status.word.toNat ∧ t.mem = s.mem) ∧
  (∀ (o : XOp) (s : State), s.primaryRuns o.g → s.gang = none →
    ((s.core.bank.loop.active = true ∨ s.core.bank.status.guard = true ∨ s.core.bank.handler = true) →
      exec (.trap o) s = s.raise 0x01) ∧
    ∀ (code tcode f : Nat) (epc : Word), s.core.bank.framePinned = false →
      let t := s.trapEntry code tcode f epc
      t.core.bank.run = .stopped ∧ t.core.bank.cause.toNat % 256 = 0x06 ∧
      t.core.bank.cause.getLsbD 12 = true ∧ t.core.store = s.core.store)

/-- R216: ERET in supervisor mode, from a frame in pinned lines whose entries are legal and none FAULTED: the bundle
at EPC issues at issue + 48, and STATUS, the predicates, the masks, LC, ROTSZ, the loop buffer, the latches and the held
values are those of the frame; a scalar entry lands REMAIN cycles after that bundle. Scalar and vector registers and
memory stand. R212, R213, R205: a frame outside the bank's pinned lines raises cause 0x06 with NESTED, an entry out of
range 0x01 with NESTED; that a count of entries over 64 does so too is the model's choice (log entry 92). R217: an
entry that is FAULTED as its operation is becomes a translation event, EPC unchanged. -/
def Obligations.EretRestores : Prop :=
  (∀ (o : XOp) (s : State), s.primaryRuns o.g → s.sup? = true →
    let b := s.core.bank
    let xs := rimesRead s.core.store (128 * b.tfbase)
    (b.framePinned = false → exec (.eret o) s = s.raiseNested 0x06) ∧
    (b.framePinned = true → (64 < xs.length ∨ ∃ x ∈ xs, b.rimeLegal x = false) →
      exec (.eret o) s = s.raiseNested 0x01) ∧
    (∀ c < 256, ∃ t, s.raiseNested c = .next t ∧ t.core.bank.run = .stopped ∧ t.core.bank.cause.toNat % 256 = c ∧
      t.core.bank.cause.getLsbD 12 = true ∧ t.core.bank.epc = b.pc ∧ t.core.bank.s = b.s ∧
      t.core.store = s.core.store) ∧
    ∀ x h, b.framePinned = true → xs = [x] → b.rimeLegal x = true → x.1.bar = true → x.1.faulted = true →
      b.heldRes b.heldBars = [h] → s.opStuck h.2.op = true →
      ∃ va t, exec (.eret o) s = .next t ∧ t = s.takeEvent b.pc x.1.cb va (some h.2.op) .reissue) ∧
  ∀ (o : XOp) (s : State), s.primaryRuns o.g → s.sup? = true → s.core.bank.framePinned = true →
    let b := s.core.bank
    let m := s.core.store
    let base := 128 * b.tfbase
    let xs := rimesRead m base
    xs.length ≤ 64 → (∀ x ∈ xs, b.rimeLegal x = true ∧ x.1.faulted = false) →
    (∀ id ∈ b.heldBars, s.opStuck id = false) →
    ∃ t, exec (.eret o) s = .next t ∧
      let c := t.core.bank
      c.pc = b.epc ∧ c.byBranch = true ∧ c.run = .active ∧ c.stall = 47 ∧
      c.status = statusOf (readNat m (base + 0x10) 8) ∧
      (∀ i, 1 ≤ i → i < 16 → c.pred (BitVec.ofNat 4 i) = (readNat m (base + 0x28) 8).testBit i) ∧
      (∀ i, 1 ≤ i → i < 8 → c.mask (BitVec.ofNat 3 i) = BitVec.ofNat 2048 (readNat m (base + 256 * i) 256)) ∧
      c.loop.left = readNat m (base + 0x18) 8 % 2 ^ 32 ∧
      c.loop.active = (readNat m (base + 0x18) 8).testBit 35 ∧ c.rotSize = readNat m (base + 0x20) 8 % 256 ∧
      c.loop.drain = readNat m (base + 0x18) 8 / 2 ^ 32 % 8 ∧ c.rotBase = readNat m (base + 0x20) 8 / 256 % 128 ∧
      c.loopBuf.first.toNat = readNat m (base + 0x30) 8 ∧ c.loopBuf.count = readNat m (base + 0x38) 8 % 128 ∧
      c.loopBuf.valid = (readNat m (base + 0x38) 8).testBit 7 ∧
      (∀ i : Fin 4, c.latS[i].val.toNat = readNat m (base + 0x60 + 8 * i) 8 ∧
        c.lat0[i].bits.toNat = readNat m (base + 0x800 + 256 * i) 256 ∧
        c.lat1[i].bits.toNat = readNat m (base + 0xC00 + 256 * i) 256 ∧
        c.latE[i].bits.toNat = readNat m (base + 0x1000 + 256 * i) 256 ∧
        c.latS[i].valid = (readNat m (base + 0x50) 8).testBit (12 + i)) ∧
      (∀ i : Fin 3, c.held0[i].bits.toNat = readNat m (base + 0x1400 + 256 * i) 256 ∧
        c.held1[i].bits.toNat = readNat m (base + 0x1700 + 256 * i) 256) ∧
      (∀ x ∈ xs, x.1.cls = 0 → x.1.bar = false → ∃ e ∈ c.pend, e.due = b.tick + 48 + x.1.remain ∧
        e.eff = if x.1.unit = 2 then .s x.1.dest x.1.val else .sPlain x.1.dest x.1.val) ∧
      c.s = b.s ∧ c.v = b.v ∧ c.b = b.b ∧ c.epc = b.epc ∧ c.tvec = b.tvec ∧ t.core.store = m ∧ t.mem = s.mem

/-- R29, R340: GROW within the bank's limit and the core's free units answers 0 and adds the units one cycle later;
otherwise it answers 1 and changes no allotment; what a new allotment grants reads zero with tag NONE, and what it
keeps stands. SHRINK answers the allotment it leaves; it raises cause 0x02 below 0 and below ROTSZ, and 0x22 when a
result in flight or a stream targets what it would give up. R326, R221: CKPT has no effect outside guarded mode; in it, with nothing exposed outstanding, the undo log and the hold buffer empty and the
bundle count restarts; with something outstanding it raises cause 0x21. R93, R338: GENSET puts the sum of its register
and immediate in flight for one field of one generator; once it has landed that field holds the low bits and every
other generator stands; a KIND of 7 or an FMT of 3 raises cause 0x01. R232, R373: SELFTEST in supervisor mode answers a code and, on 0, the named cell is under
test. -/
def Obligations.AllotmentCheckpointGenerator : Prop :=
  (∀ (o : XOp) (s : State), s.primaryRuns o.g → s.destOk o.d = true → (o.sub = 0 ∨ o.sub = 1) →
    let c := s.core
    let n := o.imm.toNat
    let tiles := decide (o.sub = 1)
    let have_ := if tiles then c.bank.at_ else c.bank.vu
    let free := if tiles then 8 - c.bank.at_ - c.other.at_ else 24 - c.bank.vu - c.other.vu
    (have_ + n ≤ (if tiles then 8 else 12) → n ≤ free →
      exec (.grow o) s = .next ((s.result 1 (.s o.d.toNat 0)).result 1 (.allot tiles (have_ + n)))) ∧
    ((if tiles then 8 else 12) < have_ + n ∨ free < n → exec (.grow o) s = .next (s.result 1 (.s o.d.toNat 1))) ∧
    (n ≤ have_ → (o.sub = 0 → c.bank.rotSize ≤ 32 * (have_ - n)) →
      c.bank.targets tiles (if tiles then have_ - n else 32 * (have_ - n)) = false →
      exec (.shrink o) s = .next
        ((s.result 1 (.s o.d.toNat (BitVec.ofNat 64 (have_ - n)))).result 1 (.allot tiles (have_ - n)))) ∧
    ((have_ < n ∨ (o.sub = 0 ∧ 32 * (have_ - n) < c.bank.rotSize)) → exec (.shrink o) s = s.raise 0x02) ∧
    (n ≤ have_ → (o.sub = 0 → c.bank.rotSize ≤ 32 * (have_ - n)) →
      c.bank.targets tiles (if tiles then have_ - n else 32 * (have_ - n)) = true → exec (.shrink o) s = s.raise 0x22)) ∧
  (∀ (s : State) (n r : Nat),
    let land (tiles : Bool) : Bank :=
      (s.landOne { due := 0, seq := 0, eff := .allot tiles n, unit := 4, flags := 0 }).core.bank
    let b := s.core.bank
    (land false).vu = n ∧ (land true).at_ = n ∧
    (land false).vreg r = (if r < 32 * n ∧ r < 32 * b.vu then b.vreg r else { bits := 0, tag := 0 }) ∧
    (land true).tile r = (if r < n ∧ r < b.at_ then b.tile r else { tag := 0, rows := [] }) ∧
    (land false).acc = b.acc ∧ (land true).v = b.v ∧ (land false).s = b.s ∧ (land true).s = b.s) ∧
  (∀ (o : XOp) (s : State), s.primaryRuns o.g →
    (s.core.bank.status.guard = false → exec (.ckpt o) s = .next s) ∧
    (s.core.bank.status.guard = true → s.core.bank.quiet = true → ∃ t, exec (.ckpt o) s = .next t ∧
      t.core.bank.undo = [] ∧ t.core.bank.heldWrites = [] ∧ t.core.bank.bundles = 0 ∧
      t.core.bank.sameRegs s.core.bank ∧ t.core.store = s.core.store) ∧
    (s.core.bank.status.guard = true → s.core.bank.quiet = false → exec (.ckpt o) s = s.raise 0x21)) ∧
  (∀ (o : XOp) (s : State), s.primaryRuns o.g →
    let v := s.rs o.a + o.imm.signExtend 64
    ((o.sub = 0 ∧ v.toNat % 8 = 7) ∨ (o.sub = 7 ∧ v.toNat % 4 = 3) → exec (.genset o) s = s.raise 0x01) ∧
    ((o.sub = 0 → v.toNat % 8 ≠ 7) → (o.sub = 7 → v.toNat % 4 ≠ 3) →
      exec (.genset o) s = .next (s.result 1 (.gen o.d.toNat o.sub.toNat v)) ∧
      (o.d.toNat < 8 →
        let w := s.landOne { due := 0, seq := 0, eff := .gen o.d.toNat o.sub.toNat v, unit := 4, flags := 0 }
        w.core.bank.gen o.d.toNat = (s.core.bank.gen o.d.toNat).put o.sub.toNat v ∧
        ∀ m < 8, m ≠ o.d.toNat → w.core.bank.gen m = s.core.bank.gen m)) ∧
    (s.sup? = true →
      let n := (s.rs o.a).toNat % 64
      let code := s.selftestCode n
      ∃ t, exec (.selftest o) s = .next t ∧
        t.core.bank.pend = (s.result 1 (.s o.d.toNat (BitVec.ofNat 64 code))).core.bank.pend ∧
        (code = 0 → (t.hub.cell n).testing = some (o.imm.toNat, some s.cur)) ∧ (code ≠ 0 → t.hub = s.hub)))

/-- R151, R320: ARM with room in the core's queue of four captures its block and answers 0; with the queue full it
answers 1 and asks nothing. DISARM empties its slot's queue and disarms it. R109, R344: LDT of a descriptor that keeps
R108 answers 0 and puts the entry in flight, else it answers 1. R353: the capture claims the ports of the block's line in
the issue cycle. R108: the descriptors that keep it, and the fields read from their bytes; that the tile sizes beyond RANK
may be any powers of two is the model's reading (log entry 71). -/
def Obligations.ArmDisarmLdt : Prop :=
  (∀ bs : List Byte,
    let f := field bs
    let rank := f 0 1
    let ok : Prop := 1 ≤ rank ∧ rank ≤ 5 ∧ 1 ≤ f 1 1 ∧ f 1 1 ≤ 12 ∧ f 2 1 ≤ 1 ∧ f 3 1 ≤ 1 ∧ f 4 4 = 0 ∧ f 38 2 = 0 ∧
      f 48 16 = 0 ∧ (∀ d < 5, 1 ≤ f (8 + 4 * d) 4 ∧ ∃ k < 16, f (28 + 2 * d) 2 = 2 ^ k) ∧
      (∀ d < 5, rank ≤ d → f (8 + 4 * d) 4 = 1) ∧
      f 28 2 * f 30 2 * f 32 2 * f 34 2 * f 36 2 * (tagWidth (BitVec.ofNat 4 (f 1 1)) / 8) = 65536 ∧ f 40 8 % 8 = 0
    ((tensorOf bs).isSome = true ↔ ok) ∧
    ∀ t, tensorOf bs = some t → t.rank = rank ∧ t.fmt = BitVec.ofNat 4 (f 1 1) ∧ t.layout = f 2 1 ∧ t.edge = f 3 1 ∧
      t.ttb = BitVec.ofNat 64 (f 40 8) ∧ ∀ d < 5, t.ext.getD d 0 = f (8 + 4 * d) 4 ∧ t.tile.getD d 0 = f (28 + 2 * d) 2) ∧
  ∀ (o : XOp) (s : State) (bs : List Byte), s.primaryRuns o.g → s.sup? = true →
    s.block (s.rs o.a).toNat 64 64 = .ok bs →
    let u := s.claimNow (s.rs o.a).toNat 64
    u.core.bank.claims = s.core.bank.claims ++ [(s.core.bank.tick, (s.rs o.a).toNat / 128 % 16)] ∧
    (s.core.hubq.length < 4 → ∃ t, exec (.arm o) s = .next t ∧
      t.core.hubq = s.core.hubq ++ [.arm o.imm.toNat bs ((s.rs o.a).toNat + 56) s.core.curBank] ∧
      t.core.bank.pend = (s.result 1 (.s o.d.toNat 0)).core.bank.pend ∧ t.core.bank.sameRegs s.core.bank) ∧
    (4 ≤ s.core.hubq.length → exec (.arm o) s = .next (u.result 1 (.s o.d.toNat 1)) ∧
      exec (.disarm o) s = .next (s.result 1 (.s o.d.toNat 1))) ∧
    (s.core.hubq.length < 4 → ∃ t, exec (.disarm o) s = .next t ∧
      t.core.bank.pend = (s.result 1 (.s o.d.toNat 0)).core.bank.pend ∧ t.core.bank.sameRegs s.core.bank ∧
      (t.hub.slot o.imm.toNat).armed = false ∧ (t.hub.slot o.imm.toNat).queued = []) ∧
    (s.destOk o.d = true → ∀ d, tensorOf bs = some d →
      exec (.ldt o) s = .next ((u.result 1 (.s o.d.toNat 0)).result 1 (.ldt o.imm.toNat d))) ∧
    (s.destOk o.d = true → tensorOf bs = none → exec (.ldt o) s = .next (u.result 1 (.s o.d.toNat 1)))

/-- R166, R329, R332, R161: in a task: CONDW updates the launch's condition word by its form (a write, a sum, an OR, an
unsigned maximum) and is a release at DEVICE scope, from which on the core's drift threads see its earlier writes (R126);
in guarded mode release and update wait in the hold buffer (R140), that the update waits there being the model's reading of R140
and R223 (log entry 36). DIGEST
folds its register into a gang task's digest and does nothing in a solo task; TRET retires the member once. After the
member's TRET, DIGEST and TRET raise cause 0x01. -/
def Obligations.TaskWords : Prop :=
  (∀ old v : Word, condUpdate 0 old v = v ∧ condUpdate 1 old v = old + v ∧ condUpdate 2 old v = old ||| v ∧
    condUpdate 3 old v = BitVec.ofNat 64 (max old.toNat v.toNat)) ∧
  ∀ (o : XOp) (s : State) (k : BankTask) (l : Launch), s.primaryRuns o.g → s.core.bank.task = some k →
    (s.core.bank.status.guard = false → s.isRerun = false → s.hub.launch? k.launch = some l → o.imm.toNat < 16 →
      ∃ t, exec (.condw o) s = .next t ∧ t.core = s.core.publish s.core.bank.seq ∧ t.ord = s.ord ++ [.release s.cur none 3] ∧ t.mem = s.mem ∧
        ∃ m, t.hub.launch? k.launch = some m ∧
          m.word o.imm.toNat = condUpdate o.sub.toNat (l.word o.imm.toNat) (s.rs o.a) ∧
          ∀ c < 16, c ≠ o.imm.toNat → m.word c = l.word c) ∧
    (s.core.bank.status.guard = true → s.isRerun = false → s.core.bank.heldLines.length ≤ 256 →
      ∃ t, exec (.condw o) s = .next t ∧ t.hub = s.hub ∧ t.mem = s.mem ∧ t.ord = s.ord ∧
        t.core.bank.heldWrites = s.core.bank.heldWrites ++
          [.release 3, .cond k.launch o.imm.toNat o.sub.toNat (s.rs o.a)]) ∧
    (k.tret = false → k.gang = none → exec (.digest o) s = .next s) ∧
    (∀ g, k.tret = false → k.gang = some g → exec (.digest o) s =
      .next (s.setBank { s.core.bank with task := some { k with digest := k.digest ++ [s.rs o.a] } })) ∧
    (k.tret = false → ∃ t, exec (.tret o) s = .next t ∧ (t.core.bank.task.any fun x => x.tret) = true ∧
      t.core.bank.sameRegs s.core.bank ∧ sameFlight s.core.bank.pend t.core.bank.pend) ∧
    (k.tret = true → exec (.digest o) s = s.raise 0x01 ∧ exec (.tret o) s = s.raise 0x01)

/-- R12, R32, R333: DSTART of a stopped thread outside guarded mode: the thread runs from the named bundle for the
running bank, from the image the bank runs (log entry 84), its registers 0 at its first start in the task, else as they were;
DSTOP stops the thread that issues it. A DSTART of a running thread raises cause 0x0D, one in guarded mode or in drift
code 0x01, and so does a DSTOP of the primary. -/
def Obligations.DriftStartStop : Prop :=
  ∀ (o : XOp) (s : State), o.d.toNat < 8 →
    let n := o.d.toNat
    (s.primaryRuns o.g → s.core.bank.status.guard = false → (s.core.thread n).running = false →
      (s.core.thread n).busy = false →
      ∃ t, exec (.dstart o) s = .next t ∧ t.core.bank = s.core.bank ∧
        (t.core.thread n).running = true ∧ (t.core.thread n).bank = s.core.curBank ∧
        (t.core.thread n).pc = s.core.bank.pc + 4 * o.imm.signExtend 64 ∧
        (∀ k, s.core.bank.task = some k → (s.core.thread n).task ≠ k.task + 1 →
          (∀ i, (t.core.thread n).dreg i = 0) ∧ ∀ i, 1 ≤ i → (t.core.thread n).pred i = false) ∧
        (∀ k, s.core.bank.task = some k → (s.core.thread n).task = k.task + 1 →
          (s.core.thread n).bank = s.core.curBank →
          (t.core.thread n).d = (s.core.thread n).d ∧ (t.core.thread n).p = (s.core.thread n).p) ∧
        (t.core.thread n).sup = s.core.bank.status.sup ∧
        ∀ m < 8, m ≠ n → t.core.thread m = s.core.thread m) ∧
    (s.primaryRuns o.g → s.core.bank.status.guard = false → (s.core.thread n).running = true →
      exec (.dstart o) s = s.raise 0x0D) ∧
    (s.agent = .primary → exec (.dstop o) s = s.raise 0x01) ∧
    (s.primaryRuns o.g → s.core.bank.status.guard = true → exec (.dstart o) s = s.raise 0x01) ∧
    (∀ m, s.agent = .drift m → exec (.dstart o) s = s.raise 0x01) ∧
    ∀ m < 8, s.threadRuns m o.g → ∃ t, exec (.dstop o) s = .next t ∧ (t.core.thread m).running = false ∧
      (t.core.thread m).d = (s.core.thread m).d ∧ t.core.bank = s.core.bank

/-! ### Vector instructions (03, 10, 22) -/

/-- R383, R382, R399, R56: the integer lanes of the arithmetic and shift instructions: sums, differences and products
modulo 2^w, minimum and maximum by the tag's signedness, magnitude and negation modulo 2^w, and shifts by the count
modulo w. -/
def Obligations.VectorIntegerLanes : Prop :=
  ∀ (o : VOp) (s : State),
    (s.vReady o 2 0 → tagInt (s.vIn o 2).tag = true → (s.vIn o 2).agree = true →
      kmOk o.km (s.vIn o 2).tag (s.vIn o 2).tag = true →
      let i := s.vIn o 2
      let w := tagWidth i.tag
      let k := s.core.bank.mask o.km
      let v (x : Nat) : Int := if tagSigned i.tag then (BitVec.ofNat w x).toInt else x
      let pick (p : Prop) [Decidable p] (x y : Nat) : Nat := if p then x else y
      s.vGives (.vadd o) o 2 2 i.tag k (fun l => i.lane 0 l + i.lane 1 l) ∧
      s.vGives (.vsub o) o 2 2 i.tag k (fun l => i.lane 0 l + 2 ^ w - i.lane 1 l) ∧
      s.vGives (.vmul o) o 2 3 i.tag k (fun l => i.lane 0 l * i.lane 1 l) ∧
      s.vGives (.vmin o) o 2 2 i.tag k (fun l => pick (v (i.lane 0 l) ≤ v (i.lane 1 l)) (i.lane 0 l) (i.lane 1 l)) ∧
      s.vGives (.vmax o) o 2 2 i.tag k (fun l => pick (v (i.lane 1 l) ≤ v (i.lane 0 l)) (i.lane 0 l) (i.lane 1 l)) ∧
      s.vGives (.vshl o) o 2 2 i.tag k (fun l => i.lane 0 l * 2 ^ (i.lane 1 l % w)) ∧
      s.vGives (.vshr o) o 2 2 i.tag k (fun l => i.lane 0 l / 2 ^ (i.lane 1 l % w)) ∧
      s.vGives (.vsar o) o 2 2 i.tag k
        (fun l => ((BitVec.ofNat w (i.lane 0 l)).sshiftRight (i.lane 1 l % w)).toNat)) ∧
    (s.vReady o 1 0 → tagInt (s.vIn o 1).tag = true → (s.vIn o 1).agree = true →
      kmOk o.km (s.vIn o 1).tag (s.vIn o 1).tag = true →
      let i := s.vIn o 1
      let w := tagWidth i.tag
      let k := s.core.bank.mask o.km
      s.vGives (.vneg o) o 1 2 i.tag k (fun l => 2 ^ w - i.lane 0 l) ∧
      s.vGives (.vabs o) o 1 2 i.tag k (fun l =>
        if tagSigned i.tag = true ∧ 2 ^ (w - 1) ≤ i.lane 0 l then 2 ^ w - i.lane 0 l else i.lane 0 l))

/-- R56, R382, R383, R393, R398: the floating lanes: each result is the exact sum, product or fused sum of the
operands' values, rounded once to the source format in the instruction's mode; VABS and VNEG act on the sign alone but
for a NaN; VRND gives the integral value that the mode selects, with the sign of its source. -/
def Obligations.VectorFloatLanes : Prop :=
  (∀ (f : FFmt) (r : Rnd) (x : Nat),
    (decodeF f x = .nan → integralF f r x = f.nanCode) ∧ (∀ neg, decodeF f x = .inf neg → integralF f r x = x) ∧
    ∀ neg m e, decodeF f x = .fin neg m e → (0 ≤ e → integralF f r x = x) ∧
      (e < 0 →
        let d := 2 ^ (-e).toNat
        let q := m / d
        let up : Prop := match r with
          | .rne => d < 2 * (m % d) ∨ (2 * (m % d) = d ∧ q % 2 = 1)
          | .rtz => False
          | .rdn => neg = true ∧ m % d ≠ 0
          | .rup => neg = false ∧ m % d ≠ 0
        (up → integralF f r x = encodeF f r false (.fin neg (q + 1) 0)) ∧
        (¬up → integralF f r x = encodeF f r false (.fin neg q 0)))) ∧
  ∀ (o : VOp) (s : State) (f : FFmt),
    (∀ n, n = 2 ∨ n = 3 → s.vReady o n 0 → tagFmt (s.vIn o n).tag = some f → tagFloat (s.vIn o n).tag = true →
      (s.vIn o n).agree = true → kmOk o.km (s.vIn o n).tag (s.vIn o n).tag = true →
      let i := s.vIn o n
      let k := s.core.bank.mask o.km
      let r := rndOf o.rnd
      let x (l : Nat) : FVal := decodeF f (i.lane 0 l)
      let y (l : Nat) : FVal := decodeF f (i.lane 1 l)
      let z (l : Nat) : FVal := decodeF f (i.lane 2 l)
      (n = 2 →
        s.vGives (.vadd o) o 2 2 i.tag k (fun l => encodeF f r false (FVal.add r (x l) (y l))) ∧
        s.vGives (.vsub o) o 2 2 i.tag k (fun l => encodeF f r false (FVal.add r (x l) (y l).neg)) ∧
        s.vGives (.vmul o) o 2 3 i.tag k (fun l => encodeF f r false ((x l).mul (y l))) ∧
        s.vGives (.vmin o) o 2 2 i.tag k (fun l => encodeF f .rne false ((x l).min (y l))) ∧
        s.vGives (.vmax o) o 2 2 i.tag k (fun l => encodeF f .rne false ((x l).max (y l)))) ∧
      (n = 3 →
        s.vGives (.vfma o) o 3 4 i.tag k (fun l => encodeF f r false (FVal.add r ((x l).mul (y l)) (z l))) ∧
        s.vGives (.vfms o) o 3 4 i.tag k (fun l => encodeF f r false (FVal.add r ((x l).mul (y l)) (z l).neg)) ∧
        s.vGives (.vfnma o) o 3 4 i.tag k (fun l => encodeF f r false (FVal.add r ((x l).mul (y l)).neg (z l))))) ∧
    (s.vReady o 1 0 → tagFmt (s.vIn o 1).tag = some f → tagFloat (s.vIn o 1).tag = true → (s.vIn o 1).agree = true →
      kmOk o.km (s.vIn o 1).tag (s.vIn o 1).tag = true →
      let i := s.vIn o 1
      let k := s.core.bank.mask o.km
      s.vGives (.vrnd o) o 1 3 i.tag k (fun l => integralF f (rndOf o.rnd) (i.lane 0 l)) ∧
      s.vGives (.vabs o) o 1 2 i.tag k (fun l =>
        if decodeF f (i.lane 0 l) = .nan then f.nanCode else i.lane 0 l % 2 ^ f.signPos) ∧
      s.vGives (.vneg o) o 1 2 i.tag k (fun l =>
        if decodeF f (i.lane 0 l) = .nan then f.nanCode else (i.lane 0 l + 2 ^ f.signPos) % 2 ^ (f.signPos + 1)))

/-- R384, R385, R390, R401: the bitwise instructions, VMOV, VBCAST, VIOTA, VSEL and VTAG. VIOTA reads no source; VSEL
chooses lane by lane by its mask; VTAG writes every bit of its source under a new tag. R97, R394: VGEN writes the
lanes of a generator: elements of one row from a column on, or of one column from a row on, in the generator's format. -/
def Obligations.VectorLogicMovesGenerator : Prop :=
  (∀ (o : VOp) (s : State),
    let k := s.core.bank.mask o.km
    (s.vReady o 2 0 → (s.vIn o 2).ok tagAny = true → kmOk o.km (s.vIn o 2).tag (s.vIn o 2).tag = true →
      let i := s.vIn o 2
      let u (b : VBits) : State := (s.vHeld o 2).vput 2 o i.tag b k (s.vLost o 2)
      exec (.vand o) s = .next (u (i.x 0 &&& i.x 1)) ∧ exec (.vor o) s = .next (u (i.x 0 ||| i.x 1)) ∧
      exec (.vxor o) s = .next (u (i.x 0 ^^^ i.x 1))) ∧
    (s.vReady o 1 0 → (s.vIn o 1).ok tagAny = true → kmOk o.km (s.vIn o 1).tag (s.vIn o 1).tag = true →
      let i := s.vIn o 1
      exec (.vmov o) s = .next ((s.vHeld o 1).vput 2 o i.tag (i.x 0) k (s.vLost o 1)) ∧
      s.vGives (.vbcast o) o 1 2 i.tag k (fun _ => i.lane 0 0)) ∧
    (s.vReady o 0 0 → ∃ bits, exec (.viota o) s = .next ((s.vHeld o 0).vput 2 o 11 bits k 0) ∧
      ∀ l < 64, laneAt 32 bits l = l) ∧
    (s.vReady o 2 0 → (s.vIn o 2).ok tagAny = true → ((s.vIn o 2).tag = 13 → o.km = 0) →
      let i := s.vIn o 2
      s.vGives (.vsel o) o 2 2 i.tag (BitVec.allOnes 2048)
        (fun l => if k.getLsbD l then i.lane 0 l else i.lane 1 l)) ∧
    (s.vReady o 1 0 → ¬((s.vIn o 1).scalar = true ∧ (s.vIn o 1).tag = 13) →
      exec (.vtag o) s = .next ((s.vHeld o 1).vput 3 o (o.c.setWidth 4) ((s.vIn o 1).x 0) (BitVec.allOnes 2048)
        (s.vLost o 1)))) ∧
  (∀ (o : VOp) (s : State), s.vReady o 0 0 →
    let g := s.core.bank.gen (o.c.toNat % 8)
    let row := (s.bcastVal o.a).toNat % 2 ^ 32
    let col := (s.bcastVal o.b).toNat % 2 ^ 32
    ∃ bits, exec (.vgen o) s = .next ((s.vHeld o 0).vput 6 o (genTag g) bits (s.core.bank.mask o.km) 0) ∧
      ∀ l < tagLanes (genTag g), laneAt (tagWidth (genTag g)) bits l =
        (if 8 ≤ o.c.toNat then genElem g s.streamKey (col + l) row else genElem g s.streamKey row (col + l)) %
          2 ^ tagWidth (genTag g))

/-- R387, R386, R190, R395: VCMP puts in flight, for k[vd mod 8], the bits of the lanes whose test holds, under its
mask, with the bits beyond the lanes cleared; VCLASS sets one class bit a lane; VPOPC counts one bits; VHASH gives the
top half of the hash of the lane pair. R396: VPERM takes the lane its index names, 0 when there is none; VSLIDE moves
lanes by a signed count of a scalar register and fills with 0; VMOVS shifts every lane up by one and puts a scalar
register in lane 0. R311: the eight tests on integer and on floating lanes, the class bits by sign, exponent and
fraction, the count and the hash, each written out. -/
def Obligations.VectorTestsPermutes : Prop :=
  (∀ (o : VOp) (s : State),
    let k := s.core.bank.mask o.km
    (s.vReads o 2 → (s.vIn o 2).ok tagArith = true → kmOk o.km (s.vIn o 2).tag (s.vIn o 2).tag = true →
      let i := s.vIn o 2
      let w := tagWidth i.tag
      ∃ bits, exec (.vcmp o) s = .next ((s.vHeld o 2).setBank
          ((s.vHeld o 2).core.bank.addPend 2 (.k o.vd.toNat bits k (2048 / w)) 4 (s.vLost o 2))) ∧
        ∀ l < 2048 / w, bits.getLsbD l = laneCmp i.tag o.c.toNat (i.lane 0 l) (i.lane 1 l)) ∧
    (s.vReady o 1 0 → (s.vIn o 1).ok tagFloat = true →
      kmOk o.km (s.vIn o 1).tag (if (s.vIn o 1).tag = 1 then 11 else 10) = true →
      let i := s.vIn o 1
      s.vGives (.vclass o) o 1 3 (if i.tag = 1 then 11 else 10) k (fun l => laneClass i.tag (i.lane 0 l))) ∧
    (s.vReady o 1 0 → (s.vIn o 1).ok tagInt = true → kmOk o.km (s.vIn o 1).tag (s.vIn o 1).tag = true →
      let i := s.vIn o 1
      s.vGives (.vpopc o) o 1 3 i.tag k (fun l => popCount (i.lane 0 l) (tagWidth i.tag))) ∧
    (s.vReady o 1 0 → (s.vIn o 1).ok (· == 13) = true → o.km = 0 →
      exec (.vpopc o) s = .next ((s.vHeld o 1).vput 3 o 11
        (BitVec.ofNat 2048 (popCount ((s.vIn o 1).x 0).toNat 2048)) k (s.vLost o 1))) ∧
    (s.vReady o 2 0 → (s.vIn o 2).ok (fun t => t == 8 || t == 11) = true →
      kmOk o.km (s.vIn o 2).tag (s.vIn o 2).tag = true →
      let i := s.vIn o 2
      s.vGives (.vhash o) o 2 5 i.tag k (fun l => laneHash (i.lane 0 l) (i.lane 1 l)))) ∧
  (∀ (o : VOp) (s : State), s.vReady o 2 0 →
    let i := s.vIn o 2
    let k := s.core.bank.mask o.km
    (let t := i.tagOf 0
     let w := tagWidth t
     kmOk o.km t t = true → tagData t = true → t ≠ 12 →
      (i.isPlain 1 = true ∨ (tagNat (i.tagOf 1) = true ∧ tagWidth (i.tagOf 1) = w)) →
      s.vGives (.vperm o) o 2 4 t k
        (fun l => if laneAt w (i.x 1) l < 2048 / w then laneAt w (i.x 0) (laneAt w (i.x 1) l) else 0)) ∧
    ∀ n : BitVec 6, vsrc o.b = .bcast n.toNat → kmOk o.km i.tag i.tag = true → i.agree = true → tagAny i.tag = true →
      let w := tagWidth i.tag
      let c := ((s.core.bank.sreg n).setWidth 32).toInt
      s.vGives (.vslide o) o 2 4 i.tag k
        (fun l => if 0 ≤ l + c ∧ l + c < (2048 / w : Nat) then i.lane 0 (l + c).toNat else 0) ∧
      (tagData i.tag = true → s.vGives (.vmovs o) o 2 4 i.tag k
        (fun l => if l = 0 then (s.core.bank.sreg n).toNat else i.lane 0 (l - 1)))) ∧
  (∀ (t : Tag) (a b : Nat), tagInt t = true → a < 2 ^ tagWidth t → b < 2 ^ tagWidth t →
    let v (x : Nat) : Int := if tagSigned t then (BitVec.ofNat (tagWidth t) x).toInt else x
    laneCmp t 0 a b = decide (v a = v b) ∧ laneCmp t 1 a b = decide (v a ≠ v b) ∧
    laneCmp t 2 a b = decide (v a < v b) ∧ laneCmp t 3 a b = decide (v a ≤ v b) ∧
    laneCmp t 4 a b = decide (v b < v a) ∧ laneCmp t 5 a b = decide (v b ≤ v a) ∧
    laneCmp t 6 a b = false ∧ laneCmp t 7 a b = true) ∧
  (∀ (t : Tag) (f : FFmt) (a b : Nat), tagFloat t = true → tagFmt t = some f →
    let x := decodeF f a
    let y := decodeF f b
    (x = .nan ∨ y = .nan → laneCmp t 1 a b = true ∧ laneCmp t 6 a b = true ∧
      ∀ c ∈ [0, 2, 3, 4, 5, 7], laneCmp t c a b = false) ∧
    (x ≠ .nan → y ≠ .nan → laneCmp t 0 a b = (!x.lt y && !y.lt x) ∧ laneCmp t 1 a b = (x.lt y || y.lt x) ∧
      laneCmp t 2 a b = x.lt y ∧ laneCmp t 3 a b = !y.lt x ∧ laneCmp t 4 a b = y.lt x ∧
      laneCmp t 5 a b = !x.lt y ∧ laneCmp t 6 a b = false ∧ laneCmp t 7 a b = true)) ∧
  (∀ (t : Tag) (x : Nat), tagFloat t = true → x < 2 ^ tagWidth t →
    let frac := x % 2 ^ (tagWidth t - 9)
    let exp := x / 2 ^ (tagWidth t - 9) % 256
    let neg := 2 ^ (tagWidth t - 1) ≤ x
    laneClass t x = if exp = 255 ∧ frac ≠ 0 then 256
      else if exp = 255 then (if neg then 1 else 128)
      else if exp = 0 ∧ frac = 0 then (if neg then 8 else 16)
      else if exp = 0 then (if neg then 4 else 32)
      else if neg then 2 else 64) ∧
  (∀ x w : Nat, popCount x w = ((List.range w).filter fun i => x.testBit i).length) ∧
  ∀ a b : Nat, a < 2 ^ 32 → b < 2 ^ 32 →
    let h0 : Word := BitVec.ofNat 64 (a * 2 ^ 32 + b)
    let h1 : Word := (h0 ^^^ (h0 >>> 30)) * 0xBF58476D1CE4E5B9
    let h2 : Word := (h1 ^^^ (h1 >>> 27)) * 0x94D049BB133111EB
    laneHash a b = (h2 ^^^ (h2 >>> 31)).toNat / 2 ^ 32

/-- R389, R391, R195, R400: the conversions: VCVT converts the lanes that both tags have; VQNT writes 256 F8E4
elements and their eight block scales; VDQNT writes four F32 registers; VSCL multiplies by a power of two, rounded
once. R58, R59: an integer conversion clamps to the target's range and gives 0 for NaN. R195: the scale code of a block
by its largest finite magnitude, and each element scaled and rounded. -/
def Obligations.VectorConversions : Prop :=
  (∀ (src dst : Tag) (r : Rnd) (x : Nat), tagInt dst = true →
    let w := tagWidth dst
    let lo : Int := if tagSigned dst then -(2 ^ (w - 1)) else 0
    let hi : Int := if tagSigned dst then 2 ^ (w - 1) - 1 else 2 ^ w - 1
    (tagInt src = true → x < 2 ^ tagWidth src →
      let v : Int := if tagSigned src then (BitVec.ofNat (tagWidth src) x).toInt else x
      convertElem src x dst r = ((max lo (min hi v) % 2 ^ w).toNat, false)) ∧
    ∀ f, tagFmt src = some f →
      (decodeF f x = .nan → convertElem src x dst r = (0, true)) ∧
      ∀ neg, decodeF f x = .inf neg → convertElem src x dst r = (((if neg then lo else hi) % 2 ^ w).toNat, false)) ∧
  (∀ (t : Tag) (f : FFmt) (r : Rnd) (x n : Nat), tagFloat t = true → tagFmt t = some f →
    laneScale t r x n = encodeF f r false ((decodeF f x).scale (BitVec.ofNat (tagWidth t) n).toInt)) ∧
  (∀ (t : Tag) (f : FFmt) (code x : Nat), t = 3 ∨ t = 4 → tagFmt t = some f →
    (decodeF f x = .nan ∨ code = 255 → dequantElem t code x = 0x7FC00000) ∧
    (code ≠ 255 → ∀ neg, decodeF f x = .inf neg → dequantElem t code x = if neg then 0xFF800000 else 0x7F800000) ∧
    (code ≠ 255 → ∀ neg m e, decodeF f x = .fin neg m e →
      dequantElem t code x = encodeF .f32 .rtz true (.fin neg m (e + code - 127)))) ∧
  (∀ (t : Tag) (f : FFmt) (r : Rnd) (xs : List Nat), tagFloat t = true → tagFmt t = some f → xs.length = 256 →
    let q := quantize t r xs
    let val (e : Nat) : FVal := decodeF f (xs.getD e 0)
    (∀ e < 256, laneAt 8 q.1 e =
      encodeF .f8e4 r true ((val e).scale (127 - (laneAt 8 q.2 (e / 32) : Int))) % 256) ∧
    (∀ b, 8 ≤ b → b < 256 → laneAt 8 q.2 b = 0) ∧
    ∀ b < 8,
      ((∀ e < 32, ∀ neg m g, val (32 * b + e) = .fin neg m g → m = 0) → laneAt 8 q.2 b = 0) ∧
      ∀ k : Int,
        (∀ e < 32, ∀ neg m g, val (32 * b + e) = .fin neg m g → (FVal.fin false m g).lt (.fin false 1 (k + 1)) = true) →
        (∃ e < 32, ∃ neg m g, val (32 * b + e) = .fin neg m g ∧ (FVal.fin false m g).lt (.fin false 1 k) = false) →
        (laneAt 8 q.2 b : Int) = max 0 (min 254 (k - 8 + 127))) ∧
  ∀ (o : VOp) (s : State),
    let k := s.core.bank.mask o.km
    let t : Tag := o.c.setWidth 4
    (s.vReady o 1 0 → (s.vIn o 1).ok tagData = true → kmOk o.km (s.vIn o 1).tag t = true → tagWidth t ≠ 0 →
      let i := s.vIn o 1
      let r := convertLanes i.tag t (rndOf o.rnd) (i.x 0) k
      exec (.vcvt o) s = .next ((s.vHeld o 1).vput 3 o t r.1 k (flagBits r.2 false i.lost)) ∧
      ∀ l < min (tagLanes i.tag) (tagLanes t),
        laneAt (tagWidth t) r.1 l = (convertElem i.tag (i.lane 0 l) t (rndOf o.rnd)).1 % 2 ^ tagWidth t) ∧
    (s.vReady o 2 0 →
      let i := s.vIn o 2
      let ty := i.tagOf 0
      let w := tagWidth ty
      tagFloat ty = true → kmOk o.km ty ty = true → (i.isPlain 1 = true ∨ i.tagOf 1 = (if ty = 1 then 8 else 7)) →
      s.vGives (.vscl o) o 2 3 ty k
        (fun l => laneScale ty (rndOf o.rnd) (laneAt w (i.x 0) l) (laneAt w (i.x 1) l))) ∧
    (s.vReady o 2 3 → (s.vIn o 2).isPlain 0 = false → (s.vIn o 2).isPlain 1 = false →
      ((s.vIn o 2).tagOf 0 = 3 ∨ (s.vIn o 2).tagOf 0 = 4) → (s.vIn o 2).tagOf 1 = 9 →
      let i := s.vIn o 2
      ∃ y : Nat → VBits, exec (.vdqnt o) s = .next (((((s.vHeld o 2).vput 3 o 1 (y 0) (BitVec.allOnes 2048) (s.vLost o 2)).vputMore 3
          (o.vd.toNat + 1) 1 (y 1)).vputMore 3 (o.vd.toNat + 2) 1 (y 2)).vputMore 3 (o.vd.toNat + 3) 1 (y 3)) ∧
        ∀ n < 4, ∀ l < 64, laneAt 32 (y n) l =
          dequantElem (i.tagOf 0) (laneAt 8 (i.x 1) ((64 * n + l) / 32)) (laneAt 8 (i.x 0) (64 * n + l)) % 2 ^ 32) ∧
    (s.primaryRuns o.g →
      let b := s.core.bank
      let ty := (b.vreg (b.phys o.a.toNat)).tag
      let n := if ty = 2 then 2 else 4
      let regs := b.group o.a n
      b.vregIn o.vd.toNat = true → b.vregIn (o.vd.toNat + 1) = true → (∀ j < n, b.vregIn (o.a.toNat + j) = true) →
      tagFloat ty = true → (∀ r ∈ regs, r.tag = ty) →
      let q := quantize ty (rndOf o.rnd) (regs.flatMap fun r => lanesOf (tagWidth ty) r.bits)
      exec (.vqnt o) s =
        .next ((s.vput 3 o 3 q.1 (BitVec.allOnes 2048) 0).vputMore 3 (o.vd.toNat + 1) 9 q.2))

/-- R66, R67, R397: the reductions: the disabled lanes enter as the identity, the tree of R66 gives lane 0, and every
other lane of vd is written 0; for the integer tags VRSUM's lane is the sum of the enabled lanes modulo 2^w. VSCAN's
lanes come from the sweep of R67. R68, R392: the elementary functions on F32 lanes: each lane is the model's rounded
function of the source's lane (log entry 7); it has the special values of R68's table, and 2^n and log2 of 2^n are exact
for an integer n. -/
def Obligations.VectorReductionsElementary : Prop :=
  (∀ (o : VOp) (s : State), s.vReady o 1 0 → (s.vIn o 1).ok tagArith = true →
    kmOk o.km (s.vIn o 1).tag (s.vIn o 1).tag = true →
    let i := s.vIn o 1
    let w := tagWidth i.tag
    let k := s.core.bank.mask o.km
    let all := BitVec.allOnes 2048
    let tree (f : Nat → Nat → Nat) (e : Nat) : Nat :=
      treeReduce f 0 (Nat.log2 (2048 / w)) (reduceLanes i.tag k (i.x 0) e)
    s.vGives (.vrsum o) o 1 6 i.tag all (fun l => if l = 0 then tree (laneAdd i.tag (rndOf o.rnd)) 0 else 0) ∧
    (tagInt i.tag = true → s.vGives (.vrsum o) o 1 6 i.tag all (fun l =>
      if l = 0 then ((List.range (2048 / w)).map fun j => if k.getLsbD j then i.lane 0 j else 0).sum else 0)) ∧
    s.vGives (.vrmax o) o 1 6 i.tag all
      (fun l => if l = 0 then tree (laneMax i.tag) (extremeIdent i.tag true) else 0) ∧
    s.vGives (.vrmin o) o 1 6 i.tag all
      (fun l => if l = 0 then tree (laneMin i.tag) (extremeIdent i.tag false) else 0) ∧
    s.vGives (.vscan o) o 1 8 i.tag all (fun l =>
      ((scanSweep (laneAdd i.tag (rndOf o.rnd)) (Nat.log2 (2048 / w)) (reduceLanes i.tag k (i.x 0) 0)).map
        (canonNan i.tag)).getD l 0)) ∧
  (∀ (o : VOp) (s : State), s.vReady o 1 0 → (s.vIn o 1).tag = 1 → (s.vIn o 1).agree = true →
    let i := s.vIn o 1
    let k := s.core.bank.mask o.km
    s.vGives (.vrcp o) o 1 8 1 k (fun l => vrcpF (i.lane 0 l)) ∧
    s.vGives (.vrsq o) o 1 8 1 k (fun l => vrsqF (i.lane 0 l)) ∧
    s.vGives (.vexp2 o) o 1 8 1 k (fun l => vexp2F (i.lane 0 l)) ∧
    s.vGives (.vlog2 o) o 1 8 1 k (fun l => vlog2F (i.lane 0 l))) ∧
  (∀ x : Nat, x < 2 ^ 32 →
    let v := decodeF .f32 x
    let nan := 0x7FC00000
    (v = .nan → vrcpF x = nan ∧ vrsqF x = nan ∧ vexp2F x = nan ∧ vlog2F x = nan) ∧
    (v = .inf false → vrcpF x = 0 ∧ vrsqF x = 0 ∧ vexp2F x = 0x7F800000 ∧ vlog2F x = 0x7F800000) ∧
    (v = .inf true → vrcpF x = 0x80000000 ∧ vrsqF x = nan ∧ vexp2F x = 0 ∧ vlog2F x = nan) ∧
    (x % 2 ^ 31 = 0 → vrcpF x = x + 0x7F800000 ∧ vrsqF x = x + 0x7F800000 ∧ vexp2F x = 0x3F800000 ∧
      vlog2F x = 0xFF800000) ∧
    ∀ m e, v = .fin true m e → 0 < m → vrsqF x = nan ∧ vlog2F x = nan) ∧
  (∀ n : Nat, n < 128 →
    vexp2F (encodeF .f32 .rne false (.fin false n 0)) = encodeF .f32 .rne false (.fin false 1 n) ∧
    vlog2F (encodeF .f32 .rne false (.fin false 1 n)) = encodeF .f32 .rne false (.fin false n 0)) ∧
  ∀ n : Nat, 1 ≤ n → n < 150 →
    vexp2F (encodeF .f32 .rne false (.fin true n 0)) = encodeF .f32 .rne false (.fin false 1 (-n)) ∧
    vlog2F (encodeF .f32 .rne false (.fin false 1 (-n))) = encodeF .f32 .rne false (.fin true n 0)

/-- R184 to R189: the selections. VSORT writes every candidate lane as a list of (value, index) entries: a permutation
of them in which no entry ranks above the one before it. VTOPK writes the first K of that list and, in lanes 0 and 1 of
vd+2, the tree sums of the lanes it takes and of the candidates it leaves; VMERGEK the first K of
two lists, VCOMP the entries above a threshold. -/
def Obligations.VectorSelections : Prop :=
  ∀ (o : VOp) (s : State),
    let k := s.core.bank.mask o.km
    (s.vReady o 1 1 → (s.vIn o 1).ok tagRanked = true →
      let i := s.vIn o 1
      let cs := candEntries (candLanes k (i.x 0) ((s.bcastVal o.b).toNat % 2 ^ 32))
      ∃ es, exec (.vsort o) s = .next ((s.vHeld o 1).putList 10 o i.tag es i.lost) ∧ es.Perm cs ∧
        ∀ j, j + 1 < es.length → entryAbove i.tag (es.getD (j + 1) (0, 0)) (es.getD j (0, 0)) = false) ∧
    (s.vReady o 1 2 → (s.vIn o 1).ok tagRanked = true →
      let i := s.vIn o 1
      let cs := candLanes k (i.x 0) ((s.bcastVal o.c).toNat % 2 ^ 32)
      (let sel := (rankSort i.tag (candEntries cs)).take ((s.bcastVal o.b).toNat % 2 ^ 32)
       let sum (p : Nat → Bool) : Nat := treeReduce (laneAdd i.tag .rne) 0 6 ((List.range 64).map fun l =>
         match cs.find? (fun c => c.1 == l) with
         | some c => if p c.2.2 then c.2.1 else 0
         | none => 0)
       ∃ bits, exec (.vtopk o) s =
           .next (((s.vHeld o 1).putList 12 o i.tag sel i.lost).vputMore 12 (o.vd.toNat + 2) i.tag bits) ∧
         laneAt 32 bits 0 = sum (fun n => sel.any fun e => e.2 == n) % 2 ^ 32 ∧
         laneAt 32 bits 1 = sum (fun n => !(sel.any fun e => e.2 == n)) % 2 ^ 32 ∧
         ∀ l, 2 ≤ l → l < 64 → laneAt 32 bits l = 0) ∧
      ∃ es, exec (.vcomp o) s = .next (((s.vHeld o 1).putList 6 o i.tag es i.lost).vputMore 6 (o.vd.toNat + 2) 11
          (ofLanes 32 [es.length])) ∧
        es = (candEntries cs).filter fun e => valueAbove i.tag e.1 ((s.bcastVal o.b).toNat % 2 ^ 32)) ∧
    (s.primaryRuns o.g →
      let b := s.core.bank
      let a (n : Nat) : VReg := b.vreg (b.phys (o.a.toNat + n))
      let c (n : Nat) : VReg := b.vreg (b.phys (o.b.toNat + n))
      b.vregIn o.a.toNat = true → b.vregIn (o.a.toNat + 1) = true → b.vregIn o.b.toNat = true →
      b.vregIn (o.b.toNat + 1) = true → b.vregIn o.vd.toNat = true → b.vregIn (o.vd.toNat + 1) = true →
      tagRanked (a 0).tag = true → (c 0).tag = (a 0).tag → (a 1).tag = 11 → (c 1).tag = 11 →
      exec (.vmergek o) s = .next (s.putList 8 o (a 0).tag ((rankSort (a 0).tag
        (listEntries (a 0).bits (a 1).bits ++ listEntries (c 0).bits (c 1).bits)).take
          (min ((s.bcastVal o.c).toNat % 2 ^ 32) 64)) false))

/-- R53, R54, R376, R304, R19: the checks of a lane-wise V instruction on one, two or three sources, in order: a register
beyond the allotment raises 0x02; then a mask other than k0 where the result has another lane count than the sources (the
elementary functions give F32 whatever their source) or a source carries MASK, 0x01; then tags that disagree
or are not accepted, or a scalar beside a MASK source, 0x05; then a lost source in debug mode, 0x09. The selections, whose
indexes are N32, raise 0x01 likewise. In drift code a V instruction raises 0x01. -/
def Obligations.VectorChecks : Prop :=
  ∀ (o : VOp) (s : State),
    let forms : List (Nat × (Tag → Bool) × (Tag → Tag) × List Instr) :=
      [(2, tagArith, id, [.vadd o, .vsub o, .vmul o, .vmin o, .vmax o]),
       (2, tagInt, id, [.vshl o, .vshr o, .vsar o]), (2, tagAny, id, [.vand o, .vor o, .vxor o]),
       (3, tagFloat, id, [.vfma o, .vfms o, .vfnma o]), (1, tagArith, id, [.vabs o, .vneg o]),
       (1, tagAny, id, [.vmov o, .vbcast o]), (1, tagFloat, id, [.vrnd o]),
       (1, (· == 1), fun _ => 1, [.vrcp o, .vrsq o, .vexp2 o, .vlog2 o])]
    (∀ n, s.agent = .drift n → (∀ x ∈ forms, ∀ j ∈ x.2.2.2, exec j s = s.raise 0x01) ∧
      exec (.vsort o) s = s.raise 0x01 ∧ exec (.vqnt o) s = s.raise 0x01) ∧
    (s.primaryRuns o.g → ∀ x ∈ forms, ∀ j ∈ x.2.2.2,
      let b := s.core.bank
      let i := s.vIn o x.1
      let beyond : Prop := (∃ f ∈ [o.a, o.b, o.c].take x.1, b.srcIn f = false) ∨ (o.w = false ∧ b.vregIn o.vd.toNat = false)
      let masked : Prop := kmOk o.km i.tag (x.2.2.1 i.tag) = false ∨ (o.km ≠ 0 ∧ i.anyMask = true)
      let refused : Prop := i.agree = false ∨ x.2.1 i.tag = false ∨ (i.scalar = true ∧ i.tag = 13)
      (beyond → exec j s = s.raise 0x02) ∧
      (¬beyond → masked → exec j s = s.raise 0x01) ∧
      (¬beyond → ¬masked → refused → exec j s = s.raise 0x05) ∧
      (¬beyond → ¬masked → ¬refused → i.lost = true → b.status.debug = true → exec j s = s.raise 0x09)) ∧
    (s.primaryRuns o.g → kmOk o.km (s.vIn o 1).tag 11 = false ∨ (o.km ≠ 0 ∧ (s.vIn o 1).anyMask = true) →
      s.core.bank.srcIn o.a = true →
      (o.w = false → ∀ i ≤ 2, s.core.bank.vregIn (o.vd.toNat + i) = true) →
      exec (.vsort o) s = s.raise 0x01 ∧ exec (.vtopk o) s = s.raise 0x01 ∧ exec (.vcomp o) s = s.raise 0x01)

/-- R53, R377, R15: a vector result alone in flight lands at its due tick: the enabled bits of vd take the result, the
others keep their value, vd takes the tag, the unit's latch receives the merged value, and every other register
stands. With W = 1 no register changes. -/
def Obligations.VectorResultLands : Prop :=
  ∀ (o : VOp) (s : State) (lat : Nat) (t : Tag) (bits k : VBits), s.core.bank.pend = [] → s.core.bank.vslot = 0 →
    let b := s.core.bank
    let m := laneMask (tagWidth t) k
    let d := b.phys o.vd.toNat
    let u := s.vput lat o t bits k 0
    let w := (u.setBank { u.core.bank with tick := b.tick + lat }).landDue.core.bank
    (o.w = false →
      (∀ j < 2048, (w.vreg d).bits.getLsbD j = if m.getLsbD j then bits.getLsbD j else (b.vreg d).bits.getLsbD j) ∧
      (w.vreg d).tag = t ∧ w.lat0[0].bits = (w.vreg d).bits ∧ w.lat0[0].tag = t ∧ w.lat0[1] = b.lat0[0] ∧
      ∀ n, n ≠ d → w.vreg n = b.vreg n) ∧
    (o.w = true → w.v = b.v ∧ w.lat0[0].bits = bits &&& m ∧ w.lat0[0].tag = t) ∧
    w.s = b.s ∧ w.p = b.p ∧ w.k = b.k ∧ w.b = b.b ∧ w.acc = b.acc

/-- R376: no V instruction touches memory, and none changes a register at its issue, its results and the held values
apart, whether it completes or raises a cause. R77, R81: no matrix instruction changes a register, a tile, a byte of
the window or of memory at its issue, whether it completes or raises a cause: its results are in flight. -/
def Obligations.VectorMatrixFrame : Prop :=
  (∀ (i : Instr) (ws : List IWord) (s t : State), encode i = some ws → classOf (ws.headD 0) = 2 → exec i s = .next t →
    t.core.bank.sameRegs s.core.bank ∧ t.core.store = s.core.store ∧ t.mem = s.mem ∧
    t.core.bank.cbs = s.core.bank.cbs ∧ t.core.planes = s.core.planes) ∧
  (∀ (i : Instr) (ws : List IWord) (s t : State), encode i = some ws → classOf (ws.headD 0) = 3 → exec i s = .next t →
    t.core.bank.sameRegs s.core.bank ∧ t.core.store = s.core.store ∧ t.mem = s.mem ∧
    t.core.bank.cbs = s.core.bank.cbs)

/-! ### Matrix instructions (04, 21) -/

/-- R85, R363, R367, R84, R349, R80, R355: the matrix instructions that move a row, clear a tile, set the row bound or
flip planes: the result each puts in flight, with its latency, when its tile and register lie inside the allotment,
the tags agree and no hold or load forbids it. R80, R83, R85: what those results change when they land: MWRA's 64
columns of one row and no other column, MZERO's whole tile, MFLIP's front and shadow planes. -/
def Obligations.MatrixMoves : Prop :=
  (∀ (o : MOp) (s : State), s.primaryRuns o.g →
    let b := s.core.bank
    let acc := o.acc.toNat
    let v := o.line.toNat % 512
    let seg := o.mode.toNat % 4
    (acc < b.at_ → b.vregIn v = true →
      exec (.mrda o) s = .next (s.setBank (b.addPend 6
        (.v (b.phys v) (b.tile acc).tag (((b.tile acc).row (s.rowOf o)).extractLsb' (2048 * seg) 2048)
          (BitVec.allOnes 2048)) 3 0)) ∧
      ((b.vreg (b.phys v)).tag = (b.tile acc).tag → b.tileHeld acc (b.tick + 6) = false →
        exec (.mwra o) s = .next (s.result 6 (.seg acc (s.rowOf o) seg (b.vreg (b.phys v)).bits))) ∧
      ((b.vreg (b.phys v)).tag ≠ (b.tile acc).tag → exec (.mwra o) s = s.raise 0x05)) ∧
    (acc < b.at_ → b.tileHeld acc (b.tick + 8) = false →
      exec (.mzero o) s = .next (s.result 8 (.tileZero acc (if o.mode = 1 then 8 else 1)))) ∧
    exec (.mbnd o) s = .next (s.result 1 (.rowb (min (s.rowCount o) 128))) ∧
    (let wa := decide (o.plane ≠ 1) || s.core.planes.paired
     let wb := decide (o.plane ≠ 0) || s.core.planes.paired
     (b.loadingPlane wa wb = false → exec (.mflip o) s = .next (s.result 1 (.flip wa wb))) ∧
     (b.loadingPlane wa wb = true → exec (.mflip o) s = s.raise 0x0A)) ∧
    (b.at_ ≤ acc → exec (.mrda o) s = s.raise 0x02 ∧ exec (.mwra o) s = s.raise 0x02 ∧
      exec (.mzero o) s = s.raise 0x02)) ∧
  (∀ (s : State) (a r g : Nat) (bits : VBits) (tag : Tag) (wa wb : Bool), g < 4 →
    let land (e : Eff) : State := s.landOne { due := 0, seq := 0, eff := e, unit := 4, flags := 0 }
    let x := (land (.seg a r g bits)).core.bank
    let z := (land (.tileZero a tag)).core.bank
    let f := (land (.flip wa wb)).core.planes
    let p := s.core.planes
    (∀ j < 256, accCol ((x.tile a).row r) j =
      if j / 64 = g then laneAt 32 bits (j % 64) else accCol ((s.core.bank.tile a).row r) j) ∧
    (x.tile a).tag = (s.core.bank.tile a).tag ∧
    (∀ q, q ≠ r → (x.tile a).row q = (s.core.bank.tile a).row q) ∧ (∀ c, c ≠ a → x.tile c = s.core.bank.tile c) ∧
    (∀ q, (z.tile a).row q = 0) ∧ (z.tile a).tag = tag ∧ (∀ c, c ≠ a → z.tile c = s.core.bank.tile c) ∧
    (f.waF = if wa || p.paired then p.waS else p.waF) ∧ (f.waS = if wa || p.paired then p.waF else p.waS) ∧
    (f.wbF = if wb || p.paired then p.wbS else p.wbF) ∧ (f.wbS = if wb || p.paired then p.wbF else p.wbS))

/-- R81, R82, R360: an MMUL or MMULZ of m rows, 1 to 128, with its tile inside the allotment, its planes, profile and
tags fitting, its lines aligned and pinned or a generator of its code in their place, no hold on its tile and the
engine free starts a stream that captures its operands; with m = 0 it has no effect. R81, R82: a stream of a profile
other than NP5 reads activation row i at issue + i and puts accumulator row i in flight for issue + 40 + i: each
column is the profile's element of the old column (0 for MMULZ) and the dot product of the row. R63: NP1, NP2 and NP3 add
the fixed tree of their groups to the old element; NP4 adds the exact integer sum and clamps to I32. -/
def Obligations.MatrixStreams : Prop :=
  (∀ (o : MOp) (s : State) (zero : Bool), s.primaryRuns o.g →
    let i : Instr := if zero then .mmulz o else .mmul o
    let b := s.core.bank
    let p := s.core.planes
    let m := s.rowCount o
    let code := o.mode.toNat
    let np := o.np.toNat
    let acc := o.acc.toNat
    let wc := if o.plane = 1 then p.wbF.code else p.waF.code
    (m = 0 → exec i s = .next s) ∧ (128 < m → exec i s = s.raise 0x01) ∧
    (1 ≤ m → m ≤ 128 → acc < b.at_ → (o.plane = 0 ∨ o.plane = 1 ∨ p.waF.code = p.wbF.code) →
      pairOk np (wc.getD 99) code = true → (zero = false → (b.tile acc).tag = profileTag np) →
      s.genFits o = true →
      (o.useGen = false → o.line.toNat % actLines code = 0 ∧
        s.linesOk o.line.toNat (m * actLines code + if code = 5 ∨ code = 6 then (m + 31) / 32 else 0) = none) →
      b.tileHeld acc (b.tick + 40) = false → b.streamBusy ≤ b.tick →
      ∃ t st, exec i s = .next t ∧ t.core.bank.streams = b.streams ++ [st] ∧ st.issue = b.tick ∧ st.acc = acc ∧
        st.np = np ∧ st.code = code ∧ st.base = o.line.toNat ∧ st.rows = m ∧ st.zero = zero ∧ st.gen = s.genOf o ∧
        st.sel = o.plane.toNat ∧ st.rowb = b.rowb ∧ st.wa = p.waF ∧ st.wb = p.wbF ∧ st.next = 0 ∧
        t.core.bank.streamBusy = b.tick + (if np = 5 then 6 * m else m) ∧ t.core.bank.sameRegs b ∧
        t.core.store = s.core.store ∧ t.mem = s.mem)) ∧
  (∀ (b : Bank) (m : Mem) (st : Stream) (i : Nat), st.np ≠ 5 → i < st.rows → st.next ≤ i → b.tick = st.issue + i →
    (streamTick b m st).1.next = i + 1 ∧ ∃ e, (streamTick b m st).2 = [e] ∧ e.due = st.issue + 40 + i ∧ e.seq = st.seq ∧
      ∃ cols row tag, e.eff = .accRow st.acc i cols row tag ∧ cols = (if st.zero then 256 else profileCols st.np) ∧
        tag = (if st.zero && i == 0 then some (profileTag st.np) else none) ∧
        ∀ j < profileCols st.np, accCol row j =
          (profileElem st.np (((if st.useWa i then st.wa else st.wb).code).getD 0) st.code
            (st.dot i j (st.readAct m i) (st.readScl m i))
            (if st.zero then 0 else accCol ((b.tile st.acc).row i) j)).1 % 2 ^ 32) ∧
  ∀ (wc ac old : Nat) (d : DotIn), d.w.length = 128 → d.a.length = 128 →
    let add (x y : Nat) : Nat := encodeF .f32 .rne false (FVal.add .rne (decodeF .f32 x) (decodeF .f32 y))
    let four (g : List Nat) (n : Nat) : Nat := add (add (g.getD n 0) (g.getD (n + 1) 0)) (add (g.getD (n + 2) 0) (g.getD (n + 3) 0))
    let sum : Int := ((List.range 128).map fun k =>
      (BitVec.ofNat 8 (d.w.getD k 0)).toInt * (BitVec.ofNat 8 (d.a.getD k 0)).toInt).sum
    let v : Int := (BitVec.ofNat 32 old).toInt + sum
    let c : Int := max (-(2 ^ 31)) (min (2 ^ 31 - 1) v)
    profileElem 1 wc ac d old = (add old (four (groupVals 32 57 wc ac d) 0), false) ∧
    profileElem 2 wc ac d old = (add old (four (groupVals 32 56 wc ac d) 0), false) ∧
    (let g := groupVals 16 42 3 3 d
     profileElem 3 wc ac d old = (add old (add (four g 0) (four g 4)), false)) ∧
    profileElem 4 wc ac d old = ((c % 2 ^ 32).toNat, decide (c ≠ v))

/-- R79, R90, R358: an MLDW with its lines aligned and pinned, or a generator of its code in their place, its shadow
plane read by no stream and the loader free starts a load; the shadow plane is ready at issue + 64. -/
def Obligations.MatrixLoad : Prop :=
  (∀ (o : MOp) (s : State), s.primaryRuns o.g →
    let b := s.core.bank
    let p := s.core.planes
    let code := o.mode.toNat
    let lw := weightLines code
    let f := fills o.plane.toNat code
    s.genFits o = true →
    (o.useGen = false → o.line.toNat % lw = 0 ∧
      s.linesOk o.line.toNat (128 * lw + if codeScaled code then 8 else 0) = none) →
    (∀ u ∈ b.planeUse, (f.1 = true ∧ u.1 = p.waS.id) ∨ (f.2 = true ∧ u.1 = p.wbS.id) → u.2 < b.tick) →
    b.loadBusy ≤ b.tick →
    ∃ t l, exec (.mldw o) s = .next t ∧ t.core.bank.loader = some l ∧ l.issue = b.tick ∧ l.plane = o.plane.toNat ∧
      l.code = code ∧ l.base = o.line.toNat ∧ l.gen = s.genOf o ∧ l.next = 0 ∧ t.core.bank.loadBusy = b.tick + 64 ∧
      t.core.bank.sameRegs b ∧ t.core.planes = p ∧ t.core.store = s.core.store) ∧
  ∀ (s : State) (l : Loader), s.core.bank.loader = some l → s.core.bank.tick = l.issue + 63 → l.next ≤ 63 →
    let u := loaderTick s.core.store s.core.bank.tick l
    ∃ e ∈ s.matrixTick.core.bank.pend, e.due = l.issue + 64 ∧ e.eff = .shadow l.plane l.code u.wa u.wb u.scales

/-- R86, R87, R353, R77: an MEPI of m rows, 1 to 128, that passes its checks holds its tile until its last write; it reads
row i at issue + i and its output lines, 256 elements of the destination's tag, each the epilogue of its column, land at
issue + 24 + i; an I32 tile without scale and activation is copied to I32 and clamped to I8. A line of either
of its ranges that no bank has pinned raises cause 0x06, before one of the other bank raises 0x0D. -/
def Obligations.MatrixEpilogue : Prop :=
  (∀ (o : MOp) (s : State), s.primaryRuns o.g →
    let b := s.core.bank
    let m := s.rowCount o
    let acc := o.acc.toNat
    let n := epiLines o.np
    let par := (b.sreg o.sn).toNat % 65536
    let p := decide (4 ≤ o.mode.toNat)
    (m = 0 → exec (.mepi o) s = .next s) ∧
    (1 ≤ m → m ≤ 128 → acc < b.at_ → ((b.tile acc).tag = 1 ∨ (b.tile acc).tag = 8) → o.line.toNat % n = 0 →
      p = true → par % 16 = 0 →
      let d := s.linesOk o.line.toNat (m * n)
      let q := s.linesOk par 16
      ((d = some 0x06 ∨ q = some 0x06) → exec (.mepi o) s = s.raise 0x06) ∧
      (d ≠ some 0x06 → q ≠ some 0x06 → (d = some 0x0D ∨ q = some 0x0D) → exec (.mepi o) s = s.raise 0x0D)) ∧
    (1 ≤ m → m ≤ 128 → acc < b.at_ → ((b.tile acc).tag = 1 ∨ (b.tile acc).tag = 8) → o.line.toNat % n = 0 →
      (p = true → par % 16 = 0 ∧ s.linesOk par 16 = none) → s.linesOk o.line.toNat (m * n) = none →
      b.epiHazard o.line.toNat m n = false → s.unitHeld (128 * o.line.toNat) (128 * m * n) = false →
      b.epiBusy ≤ b.tick →
      b.undo.length + (s.newUndo ((List.range (m * n)).map (o.line.toNat + ·))).length ≤ 512 →
      ∃ t e, exec (.mepi o) s = .next t ∧ t.core.bank.epis = b.epis ++ [e] ∧ e.issue = b.tick ∧ e.acc = acc ∧
        e.rows = m ∧ e.dest = o.line.toNat ∧ e.out = o.np ∧ e.act = o.mode.toNat % 4 ∧ e.param.isSome = p ∧ e.next = 0 ∧
        t.core.bank.holds = b.holds ++ [(acc, b.tick + 24 + m)] ∧ t.core.bank.sameRegs b ∧
        t.core.store = s.core.store ∧ t.mem = s.mem)) ∧
  ∀ (b : Bank) (e : Epi) (i : Nat), i < e.rows → e.next ≤ i → b.tick = e.issue + i →
    ∃ x bytes, epiTick b e = [x] ∧ x.due = e.issue + 24 + i ∧
      x.eff = .store (128 * (e.dest + i * epiLines e.out)) bytes none ∧
      bytes.length = 256 * (tagWidth e.out / 8) ∧
      (∀ j < 256, let w := tagWidth e.out / 8
        field bytes (w * j) w = (epilogueElem (b.tile e.acc).tag (accCol ((b.tile e.acc).row i) j)
          (e.param.map fun p => (p.1.getD j 0, p.2.getD j 0)) e.act e.out).1 % 2 ^ (8 * w)) ∧
      ∀ c : Nat, c < 2 ^ 32 →
        (epilogueElem 8 c none 0 8).1 = c ∧
        ((epilogueElem 8 c none 0 6).1 : Int) = max (-128) (min 127 (BitVec.ofNat 32 c).toInt) % 256

/-- R88, R364: MRED in a gang, its lead's row count 1 to 128, the tile of each of the cell's four members inside its
allotment and of the profile's tag, starts; the core at cell position 0 holds its tile until the last result row. A tile
beyond a member's allotment raises cause 0x02 in every member, a tag that is not the profile's 0x05. In a solo task MRED
raises cause 0x01. The result rows land at issue + 48 + i: in F32 the sum of the first two members' elements and of the
last two's, each add rounded, in I32 the same sums, each clamped. How a member sees the tile of another one that has not issued
its MRED yet is the model's choice (log entry 29). -/
def Obligations.MatrixReduce : Prop :=
  (∀ (o : MOp) (s : State), s.primaryRuns o.g →
    let b := s.core.bank
    let m := (s.leadRows (s.rowCount o)).1
    let acc := o.acc.toNat
    let u := (s.leadRows (s.rowCount o)).2
    let tile (q : Nat) : Nat × Tag := s.mredTile acc q
    (s.gang = none → exec (.mred o) s = s.raise 0x01) ∧
    (s.gang ≠ none → (m = 0 → exec (.mred o) s = .next u) ∧ (128 < m → exec (.mred o) s = u.raise 0x01)) ∧
    (s.gang ≠ none → 1 ≤ m → m ≤ 128 →
      ((∃ q < 4, (tile q).1 ≤ acc) → exec (.mred o) s = u.raise 0x02) ∧
      ((∀ q < 4, acc < (tile q).1) → (∃ q < 4, (tile q).2 ≠ profileTag o.np.toNat) →
        exec (.mred o) s = u.raise 0x05)) ∧
    (s.gang ≠ none → 1 ≤ m → m ≤ 128 → (∀ q < 4, acc < (tile q).1 ∧ (tile q).2 = profileTag o.np.toNat) →
      (b.pos % 4 = 0 → b.tileHeld acc (b.tick + 48) = false) → b.mredBusy ≤ b.tick →
      ∃ t r, exec (.mred o) s = .next t ∧ t.core.bank.mreds = b.mreds ++ [r] ∧ r.seq = b.mredN ∧ r.issue = b.tick ∧
        r.acc = acc ∧ r.rows = m ∧ r.tag = (b.tile acc).tag ∧ t.core.bank.mredN = b.mredN + 1 ∧
        t.core.bank.holds = (if b.pos % 4 = 0 then b.holds ++ [(acc, b.tick + 48 + m)] else b.holds) ∧
        t.core.bank.sameRegs b ∧ t.core.store = s.core.store)) ∧
  (∀ (s : State) (acc q : Nat), q < 4 →
    let b := s.core.bank
    let c := s.cur / 4 * 4 + q
    let k := (s.coreAt c).bankAt s.core.curBank
    (c = s.cur → s.mredTile acc q = (b.at_, (b.tile acc).tag)) ∧
    (c ≠ s.cur → (∀ r ∈ k.mreds, r.seq ≠ b.mredN) → k.pend = [] → s.mredTile acc q = (k.at_, (k.tile acc).tag)) ∧
    ∀ r, c ≠ s.cur → k.mreds = [r] → r.seq = b.mredN → acc < (s.mredTile acc q).1 ∧ (s.mredTile acc q).2 = r.tag) ∧
  (∀ (s : State) (r : Mred) (i : Nat), s.core.bank.pos % 4 = 0 → i < r.rows → s.core.bank.tick = r.issue + 47 + i →
    let rows := s.mredRows s.core.curBank r.acc r.seq i
    ∃ e row, s.mredLand r = [e] ∧ e.due = r.issue + 48 + i ∧ e.eff = .accRow r.acc i 256 row none ∧
      ∀ j < 256, accCol row j = (mredElem r.tag (accCol (rows.getD 0 0) j) (accCol (rows.getD 1 0) j)
        (accCol (rows.getD 2 0) j) (accCol (rows.getD 3 0) j)).1 % 2 ^ 32) ∧
  ∀ c0 c1 c2 c3 : Nat,
    let add (x y : Nat) : Nat := encodeF .f32 .rne false (FVal.add .rne (decodeF .f32 x) (decodeF .f32 y))
    let v (c : Nat) : Int := (BitVec.ofNat 32 c).toInt
    let clamp (x : Int) : Int := max (-(2 ^ 31)) (min (2 ^ 31 - 1) x)
    mredElem 1 c0 c1 c2 c3 = (add (add c0 c1) (add c2 c3), false) ∧
    (mredElem 8 c0 c1 c2 c3).1 = (clamp (clamp (v c0 + v c1) + clamp (v c2 + v c3)) % 2 ^ 32).toNat

/-- R77, R361, R99, R28: the checks of an MMUL or MMULZ of any plane, of lines or of a generator, in their order: the tile
beyond the allotment 0x02, then codes and tags 0x05, then alignment 0x08, then a line outside the window or that neither
bank has pinned 0x06, then a line of the other bank 0x0D, then a tile that is held (R87) 0x0A, and last an engine that
still streams 0x04 (that order: log entry 28). A generator reads no line. -/
def Obligations.MatrixCheckOrder : Prop :=
  ∀ (o : MOp) (s : State) (zero : Bool), s.primaryRuns o.g → 1 ≤ s.rowCount o → s.rowCount o ≤ 128 →
    let i : Instr := if zero then .mmulz o else .mmul o
    let b := s.core.bank
    let p := s.core.planes
    let code := o.mode.toNat
    let np := o.np.toNat
    let lines := s.rowCount o * actLines code + if code = 5 ∨ code = 6 then (s.rowCount o + 31) / 32 else 0
    let first := o.line.toNat
    let wc := if o.plane = 1 then p.wbF.code else p.waF.code
    let fits : Prop := (o.plane = 0 ∨ o.plane = 1 ∨ p.waF.code = p.wbF.code) ∧ pairOk np (wc.getD 99) code = true ∧
      (o.useGen = true → genCode (b.gen o.gen.toNat) = code) ∧ (zero = false → (b.tile o.acc.toNat).tag = profileTag np)
    let passes : Prop := o.useGen = false → first % actLines code = 0 ∧ first + lines ≤ 65536 ∧
      ∀ l, first ≤ l → l < first + lines → b.pins.getLsbD l = true
    (b.at_ ≤ o.acc.toNat → exec i s = s.raise 0x02) ∧
    (o.acc.toNat < b.at_ → ¬fits → exec i s = s.raise 0x05) ∧
    (o.acc.toNat < b.at_ → fits →
      (o.useGen = false → first % actLines code ≠ 0 → exec i s = s.raise 0x08) ∧
      (o.useGen = false → first % actLines code = 0 →
        (65536 < first + lines ∨
          ∃ l, first ≤ l ∧ l < first + lines ∧ b.pins.getLsbD l = false ∧ s.core.other.pins.getLsbD l = false) →
        exec i s = s.raise 0x06) ∧
      (o.useGen = false → first % actLines code = 0 → first + lines ≤ 65536 →
        (∀ l, first ≤ l → l < first + lines → b.pins.getLsbD l = true ∨ s.core.other.pins.getLsbD l = true) →
        (∃ l, first ≤ l ∧ l < first + lines ∧ b.pins.getLsbD l = false) → exec i s = s.raise 0x0D) ∧
      (passes → b.tileHeld o.acc.toNat (b.tick + 40) = true → exec i s = s.raise 0x0A) ∧
      (passes → b.tileHeld o.acc.toNat (b.tick + 40) = false → b.tick < b.streamBusy → exec i s = s.raise 0x04))

/-! ### Loads, stores, pinning and the access checks (05, 20, 21) -/

/-- R342, R345, R16: the loads and stores of the primary whose access passes its checks: LD puts the little-endian
value, sign- or zero-extended by its format, in flight for issue + 5; LDV the 256 bytes under its tag for issue + 6;
ST and STV the bytes for issue + 3; a store that would land at or before a stream's read of its line raises cause 0x0A
(R89). R31, R35, R36: a drift thread's LD and ST of pinned lines of its bank: the thread
is busy for 12 cycles; the load's value was read at issue, and includes the stores of the primary that a release has
made visible (R126); the store's bytes are written when it completes, unless it has come to land at or before a tracked
read (R89), when the thread faults with cause 0x0A and writes nothing. -/
def Obligations.LoadsAndStores : Prop :=
  (∀ (o : COp) (s : State), s.primaryRuns o.g →
    let b := s.core.bank
    let a := s.ea o
    let w := tagWidth o.fmt / 8
    let d : BitVec 6 := o.data.setWidth 6
    (s.destOk d = true → s.checkLocal a w w = none →
      let n := readNat s.core.store a w
      let v : Word := if tagSigned o.fmt then BitVec.ofInt 64 (BitVec.ofNat (8 * w) n).toInt else BitVec.ofNat 64 n
      exec (.ld o) s = .next ((s.claimNow a w).result 5 (.sPlain d.toNat v))) ∧
    (s.checkLocal a w w = none → s.storeCheck a w (b.tick + 3) = none →
      exec (.st o) s = .next (s.storeAt 3 a (leBytes w (b.sreg d).toNat) none)) ∧
    (∀ l t, s.checkLocal a w w = none → l ∈ linesOf a w → (l, t) ∈ b.tracked → b.tick + 3 ≤ t →
      exec (.st o) s = s.raiseWith 0x0A 0 a 0) ∧
    (b.vregIn o.data.toNat = true → s.checkLocal a 256 64 = none →
      exec (.ldv o) s = .next ((s.claimNow a 256).result 6 (.v (b.phys o.data.toNat) o.fmt
        (BitVec.ofNat 2048 (readNat s.core.store a 256)) (BitVec.allOnes 2048))) ∧
      ((b.vreg (b.phys o.data.toNat)).tag = o.fmt → s.storeCheck a 256 (b.tick + 3) = none →
        exec (.stv o) s = .next (s.storeAt 3 a (leBytes 256 (b.vreg (b.phys o.data.toNat)).bits.toNat) none)) ∧
      ((b.vreg (b.phys o.data.toNat)).tag ≠ o.fmt → exec (.stv o) s = s.raise 0x05))) ∧
  (∀ (s : State) (n a : Nat) (bytes : List Byte), n < 8 → (s.core.thread n).bank = s.core.curBank →
    (s.core.thread n).eff = .store a bytes none → Mem.wf s.core.store = true →
    let t := s.driftDone n
    (s.landsLate (linesOf a bytes.length) = false →
      (∀ i < bytes.length, memByte t.core.store (a + i) = bytes.getD i 0) ∧
      (∀ x, x < a ∨ a + bytes.length ≤ x → memByte t.core.store x = memByte s.core.store x) ∧
      (t.core.thread n).busy = false) ∧
    (s.landsLate (linesOf a bytes.length) = true →
      t.core.store = s.core.store ∧ t.core.bank.run = .stopped ∧ t.core.bank.cause.toNat % 256 = 0x0A)) ∧
  (∀ (o : COp) (s : State) (n : Nat), n < 8 → s.threadRuns n o.g →
    let a := s.ea o
    let w := tagWidth o.fmt / 8
    let d : BitVec 6 := o.data.setWidth 6
    s.dregsOk [d, o.sa] = true → a < 2 ^ 32 → s.checkLocal a w w = none → 0 < w →
    (∃ t, exec (.ld o) s = .next t ∧ (t.core.thread n).busy = true ∧
      (t.core.thread n).due = some (s.core.cycle + 12) ∧
      (t.core.thread n).eff = .d d.toNat (loadValue (tagSigned o.fmt) w (readNat s.core.seen a w)) ∧
      ((∀ e ∈ s.core.bank.pend, e.pub = false) → (∀ q ∈ s.core.bank.parked, ∀ e ∈ q.pend, e.pub = false) →
        s.core.seen = s.core.store) ∧ t.core.bank = s.core.bank ∧ t.core.store = s.core.store) ∧
    (s.core.bank.hazard (linesOf a w) (s.core.bank.tick + 12) = false →
      ∃ t, exec (.st o) s = .next t ∧ (t.core.thread n).busy = true ∧
        (t.core.thread n).due = some (s.core.cycle + 12) ∧
        (t.core.thread n).eff = .store a (leBytes w ((s.core.thread n).dreg d).toNat) none ∧
        t.core.bank = s.core.bank ∧ t.core.store = s.core.store))

/-- R15, R16, R4: a store alone in flight changes nothing before its due tick; at it, each of its bytes reads as
stored, and every other byte of the window, all of global memory and every register read as before. -/
def Obligations.StoreLands : Prop :=
  ∀ (s : State) (lat a t : Nat) (bytes : List Byte), Mem.wf s.core.store = true → s.core.bank.pend = [] →
    let u := s.storeAt lat a bytes none
    let w := (u.setBank { u.core.bank with tick := t }).landDue
    (∀ x, memByte u.core.store x = memByte s.core.store x) ∧
    (t < s.core.bank.tick + lat → ∀ x, memByte w.core.store x = memByte s.core.store x) ∧
    (s.core.bank.tick + lat ≤ t →
      (∀ i < bytes.length, memByte w.core.store (a + i) = bytes.getD i 0) ∧
      (∀ x, x < a ∨ a + bytes.length ≤ x → memByte w.core.store x = memByte s.core.store x) ∧
      Mem.wf w.core.store = true ∧ (∀ x, memByte w.mem x = memByte s.mem x) ∧ w.core.bank.sameRegs s.core.bank)

/-- R99, R267: the checks of a scalar load in their order and the cause each raises with its address: 0x07 for an
address that is not canonical, 0x0C for the supervisor half in user mode, 0x08 for misalignment and in the hub register
window, 0x06 outside the window and for a line that neither bank has pinned, 0x0D for a line of the other bank. A scalar access aligned to its
width touches one line. -/
def Obligations.AccessCheckOrder : Prop :=
  ∀ (o : COp) (s : State), s.primaryRuns o.g → s.destOk (o.data.setWidth 6) = true →
    (o.fmt = 6 ∨ o.fmt = 7 ∨ o.fmt = 8 ∨ o.fmt = 12 ∨ o.fmt = 9 ∨ o.fmt = 10 ∨ o.fmt = 11) →
    let a := s.ea o
    let w := tagWidth o.fmt / 8
    let canon := a < 2 ^ 56 ∨ 2 ^ 64 - 2 ^ 56 ≤ a
    let edge := (a < 2 ^ 56 ∧ 2 ^ 56 < a + w) ∨ 2 ^ 64 < a + w
    let stops (c : Nat) : Prop := exec (.ld o) s = s.raiseWith c 0 a 0
    ((¬canon ∨ edge) → stops 0x07) ∧
    (canon → ¬edge → s.sup? = false → 2 ^ 56 ≤ a → stops 0x0C) ∧
    (canon → ¬edge → (s.sup? = true ∨ a < 2 ^ 56) → a % w ≠ 0 → stops 0x08) ∧
    (2 ^ 56 ≤ a → canon → ¬edge → s.sup? = true → a % w = 0 →
      (2 ^ 64 - 0x10000 ≤ a → stops 0x08) ∧ (a < 2 ^ 64 - 0x10000 → stops 0x06)) ∧
    (a < 2 ^ 56 → ¬edge → a % w = 0 →
      (0x800000 ≤ a → stops 0x06) ∧
      (a < 0x800000 →
        (s.core.bank.pins.getLsbD (a / 128) = false → s.core.other.pins.getLsbD (a / 128) = false → stops 0x06) ∧
        (s.core.bank.pins.getLsbD (a / 128) = false → s.core.other.pins.getLsbD (a / 128) = true → stops 0x0D) ∧
        (s.core.bank.pins.getLsbD (a / 128) = true → ∃ t, exec (.ld o) s = .next t ∧
          t.core.bank.raised = s.core.bank.raised)))

/-- R337: GATH and SCAT whose granules lie in pinned lines: GATH puts each named word in flight for its lane at issue
+ 12 and leaves the skipped lanes enabled nowhere; a granule in the hub register window raises cause 0x08, in user mode 0x0C
(R267); SCAT puts one four-byte store for each granule in flight, in lane
order. -/
def Obligations.GatherScatter : Prop :=
  ∀ (o : COp) (s : State), s.primaryRuns o.g →
    let b := s.core.bank
    let v := o.data.toNat
    let base := s.ea o
    let idx := b.vreg (b.phys (v + 1))
    let gs := granules base idx.bits
    b.vregIn v = true → b.vregIn (v + 1) = true → idx.tag = 11 → base % 64 = 0 →
    ((∃ g ∈ gs, 2 ^ 64 - 0x10000 ≤ g.2 ∧ g.2 < 2 ^ 64) →
      exec (.gath o) s = s.raiseWith (if s.sup? then 0x08 else 0x0C) 0 base 0) ∧
    (s.checkGranules gs = none → ∃ t bits k, exec (.gath o) s = .next t ∧
      t.core.bank.pend = b.pend ++
        [{ due := b.tick + 12, seq := b.seq, eff := .v (b.phys v) o.fmt bits k, unit := 4, flags := 0 }] ∧
      (∀ l < 64, laneAt 32 idx.bits l ≠ 0xFFFFFFFF →
        laneAt 32 bits l = readNat s.core.store (base + 4 * laneAt 32 idx.bits l) 4 ∧ laneAt 32 k l = 2 ^ 32 - 1) ∧
      (∀ l < 64, laneAt 32 idx.bits l = 0xFFFFFFFF → laneAt 32 k l = 0) ∧
      t.core.bank.sameRegs b ∧ t.core.store = s.core.store) ∧
    (s.checkGranules gs = none → (b.vreg (b.phys v)).tag = o.fmt →
      (gs.any fun g => s.unitHeld g.2 4) = false → b.hazard (gs.map fun g => g.2 / 128).eraseDups (b.tick + 12) = false →
      b.undo.length + (s.newUndo (gs.map fun g => g.2 / 128).eraseDups).length ≤ 512 →
      ∃ t, exec (.scat o) s = .next t ∧
        t.core.bank.pend.map (·.eff) = b.pend.map (·.eff) ++
          gs.map (fun g => .store g.2 (leBytes 4 (laneAt 32 (b.vreg (b.phys v)).bits g.1)) none) ∧
        (∀ e ∈ t.core.bank.pend, e ∈ b.pend ∨ e.due = b.tick + 12) ∧
        t.core.bank.sameRegs b ∧ t.core.store = s.core.store)

/-- R102, R103, R369, R370: PIN of a range in the window answers its code at issue + 6: 2 when the other bank has
pinned a line of it, else 1 when a set would hold more than 14 pinned ways, and on code 0 the whole range is pinned and
its new lines read zero; UNPIN of lines that nothing uses releases them one cycle later, of lines in use raises cause
0x0A, and of a line of the other bank 0x0D; a range that breaks the checks raises their cause. With n = 0 neither changes a line. R102, R103: what a granted PIN and an UNPIN
change when they land: exactly the lines of the range; a line that was pinned keeps its bytes, a newly pinned one
reads zero, and bytes outside the range stand. -/
def Obligations.PinUnpin : Prop :=
  (∀ (o : COp) (s : State), s.primaryRuns o.g →
    let a := s.ea o
    let n := (s.rs o.sb).toNat
    let d : BitVec 6 := o.data.setWidth 6
    let first := a / 128
    s.checkPinRange a n = none →
    (s.destOk d = true →
      let code := if n = 0 then 0 else s.pinCode first n
      (∃ t, exec (.pin o) s = .next t ∧
        t = (if code = 0 ∧ 0 < n then (s.result 6 (.sPlain d.toNat (BitVec.ofNat 64 code))).result 6 (.pin first n)
             else s.result 6 (.sPlain d.toNat (BitVec.ofNat 64 code)))) ∧
      ((∃ l, first ≤ l ∧ l < first + n ∧ s.core.other.pinsAhead.getLsbD l = true) → code = 2) ∧
      (0 < n → first + n ≤ 65536 → (∀ l, first ≤ l → l < first + n → s.core.other.pinsAhead.getLsbD l = false) →
        let pinned (l : Nat) : Bool := s.core.bank.pinsAhead.getLsbD l || s.core.other.pinsAhead.getLsbD l ||
          (decide (first ≤ l) && decide (l < first + n))
        let fits : Prop := ∀ set < 4096, ((List.range 16).filter fun w => pinned (4096 * w + set)).length ≤ 14
        (fits → code = 0) ∧ (¬fits → code = 1))) ∧
    (n = 0 → exec (.unpin o) s = .next s) ∧
    (0 < n → (∀ l, first ≤ l → l < first + n → s.core.other.pins.getLsbD l = false) → s.linesBusy first n = false →
      exec (.unpin o) s = .next (s.result 1 (.unpin first n))) ∧
    (0 < n → (∃ l, first ≤ l ∧ l < first + n ∧ s.core.other.pins.getLsbD l = true) →
      exec (.unpin o) s = s.raiseWith 0x0D 0 a 0) ∧
    (0 < n → (∀ l, first ≤ l → l < first + n → s.core.other.pins.getLsbD l = false) → s.linesBusy first n = true →
      exec (.unpin o) s = s.raiseWith 0x0A 0 a 0)) ∧
  (∀ (o : COp) (s : State) (c : Nat), s.primaryRuns o.g → s.checkPinRange (s.ea o) (s.rs o.sb).toNat = some c →
    (s.destOk (o.data.setWidth 6) = true → exec (.pin o) s = s.raiseWith c 0 (s.ea o) 0) ∧
    exec (.unpin o) s = s.raiseWith c 0 (s.ea o) 0) ∧
  (∀ (s : State) (first n : Nat), first + n ≤ 65536 → Mem.wf s.core.store = true →
    let land (e : Eff) : State := s.landOne { due := 0, seq := 0, eff := e, unit := 4, flags := 0 }
    let p := land (.pin first n)
    let u := land (.unpin first n)
    let old := s.core.bank.pins
    (∀ l < 65536, p.core.bank.pins.getLsbD l = (old.getLsbD l || (decide (first ≤ l) && decide (l < first + n)))) ∧
    (∀ l < 65536, u.core.bank.pins.getLsbD l = (old.getLsbD l && !(decide (first ≤ l) && decide (l < first + n)))) ∧
    (∀ x, memByte p.core.store x =
      if first ≤ x / 128 ∧ x / 128 < first + n ∧ old.getLsbD (x / 128) = false then 0 else memByte s.core.store x) ∧
    u.core.store = s.core.store ∧ Mem.wf p.core.store = true ∧ p.core.bank.s = s.core.bank.s ∧
    p.core.bank.v = s.core.bank.v)

/-! ### Engine operations, flags and barriers (05, 06, 08, 10, 14) -/

/-- R112, R330, R116, R351, R121, R133, R135, R341, R152: the engine operations that pass their checks with room on
their barrier start there: what CPY of a flat range, MCAST, a global ATOM, FLAGW and FLAGR, MSEND, WBL and INVL start,
with their result registers and their first event; a block's capture claims its ports at issue (R353). A global range of no
lines starts no cache operation (log entry 49). R114: a barrier takes an operation exactly while fewer than eight are
outstanding on it and fewer than thirty-two on the bank's barriers, the held ones among them (R141): with no room, CPY of
a flat range and of a tensor, MCAST, a global ATOM, FLAGW and FLAGR, MSEND, WBL and INVL raise cause 0x04, and starting
an operation raises its barrier's count by one and no other barrier's. -/
def Obligations.EngineOperationsStart : Prop :=
  (∀ (o : COp) (s : State), s.primaryRuns o.g →
    let n := o.cb.toNat
    let h := o.hint.toNat
    let a := s.ea o
    let d : BitVec 6 := o.data.setWidth 6
    let line (id : Nat) : List Turn := [.event (.engineLineLand id)]
    let done (id : Nat) : List Turn := [.event (.engineOpComplete id)]
    let scope : Option Nat := if o.fmt = 1 then some o.scope.toNat else none
    let u := s.claimNow a 64
    s.core.bank.barrierRoom n = true →
    (∀ bs, s.block a 64 64 = .ok bs → 2 ≤ o.data.toNat →
      let c := copyBlock bs
      c.zeros = true → c.gaddr % 128 = 0 → c.len % 128 = 0 → 128 ≤ c.len → c.len ≤ 7 * 2 ^ 20 →
      s.checkLocal c.loc c.len 128 = none → s.checkGlobal c.gaddr c.len 1 = none →
      exec (.cpy o) s =
        .next (u.startOp n h (.cpy o.data.toNat c.loc none c.coord c.box c.gaddr c.len) none none line)) ∧
    (∀ bs t, s.block a 64 64 = .ok bs → o.data.toNat < 2 →
      let c := copyBlock bs
      let len := boxSize c.box * t.width
      c.zeros = true → c.tid < 4096 → sget s.core.bank.tensors c.tid = some t → c.boxOk t = true → len % 128 = 0 →
      s.checkLocal c.loc len 128 = none → (t.edge = 1 → c.past t = false) →
      exec (.cpy o) s =
        .next (u.startOp n h (.cpy o.data.toNat c.loc (some t) c.coord c.box c.tid len) none none line)) ∧
    (let src := (s.rs o.sa).toNat
     let dst := (s.rs d).toNat
     let k := o.imm.toNat
     s.checkGlobal src (128 * k) 128 = none → checkSteps13 (!s.sup?) dst (128 * k) 128 = none →
     dst + 128 * k ≤ windowBytes →
     exec (.mcast o) s =
       .next (s.startOp n h (.mcast src dst (s.rs o.sb).toNat k s.core.bank.launchId) none none line)) ∧
    (windowBytes ≤ a → s.destOk d = true → s.checkGlobal a (atomBytes o.fmt.toNat) (atomBytes o.fmt.toNat) = none →
      exec (.atom o) s =
        .next (s.startOp n h (.atom a o.fmt.toNat (s.rs o.sb) (s.rs d) d.toNat) (some (.reg d.toNat)) none done)) ∧
    (windowBytes ≤ a → s.checkGlobal a 8 8 = none →
      exec (.flagw o) s = .next (s.startOp n h (.flagw a (s.rs d) scope) none none done) ∧
      (s.destOk d = true → exec (.flagr o) s =
        .next (s.startOp n h (.flagr a d.toNat scope) (some (.reg d.toNat)) scope done))) ∧
    (∀ bs, s.block a 64 64 = .ok bs → msendOk o bs = true →
      exec (.msend o) s = .next ((u.releaseHere o.scope.toNat).startOp n 0 (.msend (messageOf bs)) none none done)) ∧
    (let k := (s.rs o.sb).toNat
     k ≤ 65536 → checkSteps13 (!s.sup?) a (128 * k) 128 = none →
     (k = 0 → exec (.wbl o) s = .next s ∧ exec (.invl o) s = .next s) ∧
     (0 < k → 2 ^ 32 ≤ a → inHubWindow (a + 128 * k - 1) = false →
       exec (.wbl o) s = .next (s.startOp n h (.cache (a / 128) k false) none none done) ∧
       exec (.invl o) s = .next (s.startOp n h (.cache (a / 128) k true) none none done)))) ∧
  ((∀ (o : COp) (s : State) (bs : List Byte), s.primaryRuns o.g → s.core.bank.barrierRoom o.cb.toNat = false →
    let a := s.ea o
    let u := s.claimNow a 64
    let c := copyBlock bs
    (s.block a 64 64 = .ok bs → 2 ≤ o.data.toNat → c.zeros = true → c.gaddr % 128 = 0 → c.len % 128 = 0 →
      128 ≤ c.len → c.len ≤ 7 * 2 ^ 20 → s.checkLocal c.loc c.len 128 = none → s.checkGlobal c.gaddr c.len 1 = none →
      exec (.cpy o) s = u.raise 0x04) ∧
    (∀ t, s.block a 64 64 = .ok bs → o.data.toNat < 2 →
      let len := boxSize c.box * t.width
      c.zeros = true → c.tid < 4096 → sget s.core.bank.tensors c.tid = some t → c.boxOk t = true → len % 128 = 0 →
      s.checkLocal c.loc len 128 = none → (t.edge = 1 → c.past t = false) → exec (.cpy o) s = u.raise 0x04) ∧
    (s.block a 64 64 = .ok bs → msendOk o bs = true → exec (.msend o) s = u.raise 0x04) ∧
    (windowBytes ≤ a → s.checkGlobal a 8 8 = none →
      exec (.flagw o) s = s.raise 0x04 ∧ (s.destOk (o.data.setWidth 6) = true → exec (.flagr o) s = s.raise 0x04)) ∧
    (windowBytes ≤ a → s.destOk (o.data.setWidth 6) = true →
      s.checkGlobal a (atomBytes o.fmt.toNat) (atomBytes o.fmt.toNat) = none → exec (.atom o) s = s.raise 0x04) ∧
    (let src := (s.rs o.sa).toNat
     let dst := (s.rs (o.data.setWidth 6)).toNat
     s.checkGlobal src (128 * o.imm.toNat) 128 = none → checkSteps13 (!s.sup?) dst (128 * o.imm.toNat) 128 = none →
     dst + 128 * o.imm.toNat ≤ windowBytes → exec (.mcast o) s = s.raise 0x04) ∧
    (let k := (s.rs o.sb).toNat
     0 < k → k ≤ 65536 → checkSteps13 (!s.sup?) a (128 * k) 128 = none → 2 ^ 32 ≤ a →
     inHubWindow (a + 128 * k - 1) = false → exec (.wbl o) s = s.raise 0x04 ∧ exec (.invl o) s = s.raise 0x04)) ∧
  (∀ (b : Bank) (n : Nat), b.barrierRoom n = true ↔
    ((b.cb n).count + (b.cb n).waits < 8 ∧ ((List.range 8).map fun m => (b.cb m).count + (b.cb m).waits).sum < 32)) ∧
  (∀ (o : COp) (bs : List Byte), msendOk o bs = true ↔
    (field bs 7 1 = 0 ∧ field bs 23 41 = 0 ∧ field bs 6 1 ≤ 25 ∧ field bs 22 1 ≤ 25 ∧
      (2 ≤ field bs 6 1 → o.scope = 4))) ∧
  (∀ (o : COp) (s : State) (bs : List Byte), s.primaryRuns o.g → s.block (s.ea o) 64 64 = .ok bs →
    msendOk o bs = false → exec (.msend o) s = (s.claimNow (s.ea o) 64).raise 0x01) ∧
  ∀ (s : State) (n h : Nat) (kind : OpKind) (dest : Option BarDest) (acq : Option Nat) (turns : Nat → List Turn),
    s.agent = .primary → n < 8 →
    let t := s.startOp n h kind dest acq turns
    (t.core.bank.cb n).count = (s.core.bank.cb n).count + 1 ∧
    (∀ m, m ≠ n → t.core.bank.cb m = s.core.bank.cb m) ∧
    (∃ x, t.ops = s.ops ++ [x] ∧ x.id = s.nextOp ∧ x.kind = kind ∧ x.core = s.cur ∧ x.bank = s.core.curBank ∧
      x.cb = n ∧ x.done = 0 ∧ x.stop = none) ∧
    t.nextOp = s.nextOp + 1 ∧ t.core.bank.sameRegs s.core.bank ∧ t.core.store = s.core.store ∧ t.mem = s.mem)

/-- R133, R121, R122, R321, R336: the flags and the ATOM of the primary on a pinned line: FLAGW's word and its release land
at issue + 3, FLAGR samples at issue and writes at issue + 6, and ATOM is in flight with its operand and comparand, for
issue + 3 where no stream or load still has to read its line then, else for the cycle after the last of these reads; its
register result waits on its barrier. -/
def Obligations.LocalFlagsAndAtom : Prop :=
  ∀ (o : COp) (s : State), s.primaryRuns o.g →
    let b := s.core.bank
    let a := s.ea o
    let d : BitVec 6 := o.data.setWidth 6
    let scope : Option Nat := if o.fmt = 1 then some o.scope.toNat else none
    let got : Eff := .sPlain d.toNat (BitVec.ofNat 64 (readNat s.core.store a 8))
    a < windowBytes →
    (o.cb = 0 → s.checkLocal a 8 8 = none →
      (s.storeCheck a 8 (b.tick + 3) = none →
        exec (.flagw o) s = .next (s.storeAt 3 a (leBytes 8 (s.rs d).toNat) scope)) ∧
      (s.destOk d = true → ∃ t, exec (.flagr o) s = .next t ∧
        t.core.bank.pend = b.pend ++ [{ due := b.tick + 6, seq := b.seq, eff := got, unit := 4, flags := 0 }] ∧
        t.ord = s.ord ++ (match scope with | some sc => [.acquire s.cur none sc] | none => []) ∧
        t.core.bank.sameRegs b ∧ t.core.store = s.core.store)) ∧
    (let n := atomBytes o.fmt.toNat
     s.destOk d = true → s.checkLocal a n n = none → s.unitHeld a n = false →
     b.undo.length + (s.newUndo (linesOf a n)).length ≤ 512 → b.barrierRoom o.cb.toNat = true →
     ∃ t e, exec (.atom o) s = .next t ∧ t.core.bank.pend = b.pend ++ [e] ∧
       ((∀ x ∈ b.tracked, x.1 = a / 128 → x.2 < b.tick + 3) → e.due = b.tick + 3) ∧
       (∀ r, (a / 128, r) ∈ b.tracked → b.tick + 3 ≤ r → (∀ x ∈ b.tracked, x.1 = a / 128 → x.2 ≤ r) → e.due = r + 1) ∧
       e.eff = .atom a o.fmt.toNat (s.rs o.sb) (s.rs d) o.cb.toNat s.nextOp ∧
       (t.core.bank.cb o.cb.toNat).count = (b.cb o.cb.toNat).count + 1 ∧
       (t.core.bank.cb o.cb.toNat).results =
         (b.cb o.cb.toNat).results ++ [{ op := s.nextOp, dest := .reg d.toNat, val := none }] ∧ t.nextOp = s.nextOp + 1 ∧
       t.core.bank.sameRegs b ∧ t.core.store = s.core.store)

/-- R121: the atomic operations: the word an ATOM leaves, from the old word, its operand and its comparand: on 64
bits, or on 32 for FADD, which is a sum rounded once to nearest even. It answers the old word, zero-extended for FADD.
The word is aligned to its width, else cause 0x08; codes 11 to 15 raise cause 0x01. No other byte changes. -/
def Obligations.AtomicOperations : Prop :=
  (∀ (old x c : Word),
    let f (y : Word) : FVal := decodeF .f32 (y.toNat % 2 ^ 32)
    atomNew 0 old x c = old + x ∧ atomNew 1 old x c = BitVec.ofInt 64 (min old.toInt x.toInt) ∧
    atomNew 2 old x c = BitVec.ofInt 64 (max old.toInt x.toInt) ∧
    atomNew 3 old x c = BitVec.ofNat 64 (min old.toNat x.toNat) ∧
    atomNew 4 old x c = BitVec.ofNat 64 (max old.toNat x.toNat) ∧
    atomNew 5 old x c = old &&& x ∧ atomNew 6 old x c = old ||| x ∧ atomNew 7 old x c = old ^^^ x ∧
    atomNew 8 old x c = x ∧ (old = c → atomNew 9 old x c = x) ∧ (old ≠ c → atomNew 9 old x c = old) ∧
    atomNew 10 old x c = BitVec.ofNat 64 (encodeF .f32 .rne false (FVal.add .rne (f old) (f x)))) ∧
  (∀ (s : State) (a op cb id : Nat) (x c : Word), Mem.wf s.core.store = true → op ≤ 10 → cb < 8 →
    let w := s.landOne { due := 0, seq := 0, eff := .atom a op x c cb id, unit := 4, flags := 0 }
    let n := if op = 10 then 4 else 8
    let old : Word := BitVec.ofNat 64 (readNat s.core.store a n)
    readNat w.core.store a n = (atomNew op old x c).toNat % 2 ^ (8 * n) ∧
    (w.core.bank.cb cb).count = (s.core.bank.cb cb).count - 1 ∧
    (w.core.bank.cb cb).results =
      (s.core.bank.cb cb).results.map (fun r => if r.op = id then { r with val := some old } else r) ∧
    ∀ y, y < a ∨ a + n ≤ y → memByte w.core.store y = memByte s.core.store y) ∧
  ∀ (o : COp) (s : State), s.primaryRuns o.g →
    (11 ≤ o.fmt.toNat → runOne (checked (some (.atom o))) true s = s.raise 0x01) ∧
    (let n := if o.fmt = 10 then 4 else 8
     s.destOk (o.data.setWidth 6) = true → s.ea o + n ≤ 2 ^ 56 → s.ea o % n ≠ 0 →
      exec (.atom o) s = s.raiseWith 0x08 0 (s.ea o) 0)

/-- R115, R331, R17: CPYW on a complete barrier: its results land in issue order, so that of two results for one register
the later issued one stands, and the bank goes on; with an operation outstanding the bank waits on it; with a record it
takes the record's cause: 0x10, 0x0D or 0x20, with EPC at its own bundle (R205). R134, R335,
R371, R126, R127: FENCE releases and acquires by its order field and scope and changes nothing else of the primary;
in guarded mode its release waits in the hold buffer; PREF is a hint: it changes no register, no byte of memory and no
barrier. R135, R322: BARR with its word readable,
nothing held and room on its barrier is a release at its scope and starts an operation whose register result and
acquire wait on its barrier; in guarded mode the release and the add wait in the hold buffer in that order and the barrier
counts the wait instead, but for an add to a word of the bank's own window, which is performed at once (R140). -/
def Obligations.WaitsFencesBarriers : Prop :=
  (∀ (o : COp) (s : State), s.primaryRuns o.g → s.core.bank.run = .active →
    let b := s.core.bank
    let c := b.cb o.cb.toNat
    (c.record = none → c.waits = 0 → c.count = 0 → b.landing o.cb.toNat = [] →
      ∃ t, exec (.cpyw o) s = .next t ∧ t.core.bank.run = .active ∧ t.core.bank.s = b.s ∧
        (t.core.bank.cb o.cb.toNat).acq = []) ∧
    (∀ op d v l, c.record = none → c.waits = 0 → c.count = 0 →
      b.landing o.cb.toNat = [{ op := op, dest := .reg d, val := some v, land := l }] → d < 64 → ∃ t, exec (.cpyw o) s = .next t ∧ t.core.bank.run = .active ∧
        t.core.bank.sregN d = (if d = 0 then 0 else v) ∧
        (∀ m < 64, m ≠ d → t.core.bank.sregN m = b.sregN m) ∧ t.core.bank.landing o.cb.toNat = []) ∧
    (∀ op d v l op' d' v' l', c.record = none → c.waits = 0 → c.count = 0 → b.landing o.cb.toNat =
        [{ op := op, dest := .reg d, val := some v, land := l }, { op := op', dest := .reg d', val := some v', land := l' }] →
      d < 64 → d' < 64 → ∃ t, exec (.cpyw o) s = .next t ∧ t.core.bank.run = .active ∧
        t.core.bank.sregN d' = (if d' = 0 then 0 else v') ∧
        (d ≠ d' → t.core.bank.sregN d = if d = 0 then 0 else v) ∧
        (∀ m < 64, m ≠ d → m ≠ d' → t.core.bank.sregN m = b.sregN m) ∧ t.core.bank.landing o.cb.toNat = []) ∧
    (c.record = none → c.waits = 0 → 0 < c.count →
      ∃ t, exec (.cpyw o) s = .next t ∧ t.core.bank.run = .cpyw o.cb.toNat ∧ t.core.bank.sameRegs b) ∧
    (∀ r, c.record = some r → r.kind = .protection ∨ r.kind = .uncorrectable →
      ∃ t, exec (.cpyw o) s = .next t ∧ t.core.bank.run = .stopped ∧
        t.core.bank.cause.toNat % 256 = (if r.kind = .protection then 0x0D else 0x20) ∧
        t.core.bank.cause.toNat / 8192 % 8 = o.cb.toNat ∧ t.core.bank.epc = b.pc) ∧
    (∀ r, c.record = some r → r.kind = .translation → b.handler = false →
      ∃ t, exec (.cpyw o) s = .next t ∧ t.core.bank.run = .event s.hub.nextEvent (.cpyw o.cb.toNat) ∧
        t.core.bank.cause.toNat % 256 = 0x10 ∧ t.core.bank.cause.toNat / 8192 % 8 = o.cb.toNat ∧ t.core.bank.epc = b.pc ∧
        t.hub.events.length = s.hub.events.length + 1)) ∧
  (∀ (o : COp) (s : State), s.primaryRuns o.g →
    (s.core.bank.status.guard = false →
      ∃ t, exec (.fence o) s = .next t ∧ t.mem = s.mem ∧ t.hub = s.hub ∧
        t.core = { s.core with bank := { s.core.bank with
          fence := if o.fmt = 1 ∨ o.fmt = 3 then s.core.bank.seq else s.core.bank.fence } } ∧
        t.ord = s.ord ++ (if o.fmt = 1 ∨ o.fmt = 3 then [.release s.cur none o.scope.toNat] else []) ++
          (if o.fmt = 2 ∨ o.fmt = 3 then [.acquire s.cur none o.scope.toNat] else [])) ∧
    (s.core.bank.status.guard = true → 1 ≤ o.scope.toNat →
      ∃ t, exec (.fence o) s = .next t ∧ t.mem = s.mem ∧ t.hub = s.hub ∧ t.core.bank.sameRegs s.core.bank ∧
        t.core.store = s.core.store ∧
        t.core.bank.heldWrites = s.core.bank.heldWrites ++
          (if o.fmt = 1 ∨ o.fmt = 3 then [.release o.scope.toNat] else []) ∧
        t.ord = s.ord ++ (if o.fmt = 2 ∨ o.fmt = 3 then [.acquire s.cur none o.scope.toNat] else [])) ∧
    (s.checkGlobal (s.ea o) 1 1 = none → ∃ t, exec (.pref o) s = .next t ∧ t.core.bank = s.core.bank ∧
      t.core.store = s.core.store ∧ t.mem = s.mem ∧ t.hub = s.hub ∧ t.ops = s.ops)) ∧
  (∀ (o : COp) (s : State), s.primaryRuns o.g → s.destOk (o.data.setWidth 6) = true →
    s.core.bank.barrierRoom o.cb.toNat = true →
    let b := s.core.bank
    let a := s.ea o
    let d := (o.data.setWidth 6 : BitVec 6).toNat
    let g := b.status.guard && decide (windowBytes ≤ a)
    let w := s.heldAdd a o.hint.toNat
    (a < windowBytes → s.checkLocal a 8 8 = none ∧ s.unitHeld a 8 = false) →
    (windowBytes ≤ a → s.checkGlobal a 8 8 = none) →
    (g = true → (b.holding w).heldLines.length ≤ 256) →
    ∃ t x, exec (.barr o) s = .next t ∧ t.ops = s.ops ++ [x] ∧
      x.kind = .barr a (s.rs o.sb) d o.scope.toNat none g ∧
      (t.core.bank.cb o.cb.toNat).results = (b.cb o.cb.toNat).results ++ [{ op := s.nextOp, dest := .reg d, val := none }] ∧
      (t.core.bank.cb o.cb.toNat).acq = (b.cb o.cb.toNat).acq ++ [o.scope.toNat] ∧
      (g = false → (t.core.bank.cb o.cb.toNat).count = (b.cb o.cb.toNat).count + 1) ∧
      (g = true → (t.core.bank.cb o.cb.toNat).count = (b.cb o.cb.toNat).count ∧
        (t.core.bank.cb o.cb.toNat).waits = (b.cb o.cb.toNat).waits + 1) ∧
      t.core.bank.heldWrites = b.heldWrites ++ (if b.status.guard && decide (1 ≤ o.scope.toNat) then
        [.release o.scope.toNat] else []) ++ (if g then [w] else []) ∧
      t.core.bank.sameRegs b ∧ t.core.store = s.core.store ∧ t.mem = s.mem)

/-- R249, R250, R348: LSEND, LRECV and LRADD of a length from 128 bytes to 4 MiB, its range pinned, its channel the
partition's, fewer than four waiting there and the port up, start an operation and enter the channel's queue; a start or
a length that breaks the table raises cause 0x01, a channel of another partition 0x0D. R254,
R255, R323, R324, R339, R402, R198, R259: BDRED, BDTOPK, XROUTE and GPOST whose captured block keeps its rules and
names legal ranges are releases and start their operation; GPOST and XROUTE name where their answer lands. A block
that breaks its rules, which are spelled out, raises cause 0x01, its ports claimed by then (R353). -/
def Obligations.LinkAndBlockOperations : Prop :=
  (∀ (o : COp) (s : State), s.primaryRuns o.g → s.core.bank.barrierRoom o.cb.toNat = true →
    let a := s.ea o
    let len := (s.rs o.sb).toNat
    let port := linkPort o
    let ch := linkCh o
    let p := s.port port
    len % 128 = 0 → 128 ≤ len → len ≤ 2 ^ 22 → p.owner ch = s.part → p.down = false →
    (s.checkLocal a len 128 = none → (onChannel p.sends ch).length < 4 →
      ∃ t x, exec (.lsend o) s = .next t ∧ t.ops = s.ops ++ [x] ∧ x.kind = .lsend port ch a len ∧
        (t.port port).sends = p.sends ++ [(ch, s.nextOp)] ∧ t.core.store = s.core.store) ∧
    (s.checkLocal a len 128 = none → (onChannel p.recvs ch).length < 4 →
      ∃ t x, exec (.lrecv o) s = .next t ∧ t.ops = s.ops ++ [x] ∧ x.kind = .lrecv port ch a len ∧
        (t.port port).recvs = p.recvs ++ [(ch, s.nextOp)] ∧ t.core.store = s.core.store) ∧
    (s.checkLocal a (if o.fmt = 2 then 2 * len else len) 128 = none → (onChannel p.recvs ch).length < 4 →
      ∃ t x, exec (.lradd o) s = .next t ∧ t.ops = s.ops ++ [x] ∧ x.kind = .lradd port ch a len o.fmt.toNat ∧
        (t.port port).recvs = p.recvs ++ [(ch, s.nextOp)] ∧ t.core.store = s.core.store)) ∧
  (∀ (o : COp) (s : State), s.primaryRuns o.g →
    let a := s.ea o
    let len := (s.rs o.sb).toNat
    let span := if o.fmt = 2 then 2 * len else len
    (a % 128 ≠ 0 ∨ len % 128 ≠ 0 ∨ len < 128 ∨ 2 ^ 22 < len →
      exec (.lsend o) s = s.raise 0x01 ∧ exec (.lrecv o) s = s.raise 0x01 ∧ exec (.lradd o) s = s.raise 0x01) ∧
    (a % 128 = 0 → len % 128 = 0 → 128 ≤ len → len ≤ 2 ^ 22 → (s.port (linkPort o)).owner (linkCh o) ≠ s.part →
      (s.checkLocal a len 128 = none → exec (.lsend o) s = s.raiseWith 0x0D 0 a 0 ∧
        exec (.lrecv o) s = s.raiseWith 0x0D 0 a 0) ∧
      (s.checkLocal a span 128 = none → exec (.lradd o) s = s.raiseWith 0x0D 0 a 0))) ∧
  (∀ bs : List Byte,
    let f := field bs
    let dst := f 0 8
    let len := f 8 4
    let n := f 12 1
    let src (q : Nat) : Nat := f (32 + 8 * q) 8
    let w := if f 29 1 = 1 then 4 else 2
    (bdredOk bs = true ↔
      (dst % 128 = 0 ∧ 2 ^ 32 ≤ dst ∧ len % 128 = 0 ∧ 128 ≤ len ∧ len ≤ 2 ^ 26 ∧ 2 ≤ n ∧ n ≤ 16 ∧
        (f 13 1 = 1 ∨ f 13 1 = 2) ∧ f 14 1 ≤ 1 ∧ f 15 1 % 128 = 0 ∧ f 16 8 % 8 = 0 ∧ 2 ^ 32 ≤ f 16 8 ∧
        (∀ q < n, src q % 128 = 0 ∧ 2 ^ 32 ≤ src q ∧
          (src q = dst ∨ src q + len ≤ dst ∨ dst + len ≤ src q)) ∧
        (∀ q < 16, n ≤ q → src q = 0) ∧ f 160 96 = 0)) ∧
    (bdtopkOk bs = true ↔
      (2 ^ 32 ≤ f 0 8 ∧ f 0 8 % 64 = 0 ∧ 2 ^ 32 ≤ f 8 8 ∧ f 8 8 % 8 = 0 ∧ 1 ≤ f 16 4 ∧ f 16 4 ≤ 65536 ∧
        1 ≤ f 20 4 ∧ f 20 4 ≤ 65536 ∧ f 24 4 % 64 = 0 ∧ f 20 4 * w ≤ f 24 4 ∧ 1 ≤ f 28 1 ∧ f 28 1 ≤ 16 ∧
        f 28 1 ≤ f 20 4 ∧ (f 29 1 = 1 ∨ f 29 1 = 2) ∧ f 30 2 = 0 ∧ f 32 4 + f 20 4 - 1 < 2 ^ 31 ∧ f 36 28 = 0)) ∧
    (xrouteOk bs = true ↔
      (f 8 4 ≤ 4096 ∧ f 12 4 % 128 = 0 ∧ 128 ≤ f 12 4 ∧ f 12 4 ≤ 16384 ∧ f 20 44 = 0)) ∧
    (packetOk bs = true ↔
      (f 0 1 < 0xF0 ∧ f 1 1 ≤ 1 ∧ f 2 1 ≤ 15 ∧ f 3 1 ≤ 7 ∧ (f 4 1 = 3 ∨ f 4 1 = 4) ∧ f 5 1 ≤ 4 ∧ f 6 2 = 0 ∧
        f 8 8 % 8 = 0 ∧ 2 ^ 32 ≤ f 8 8 ∧ (f 8 8 < 2 ^ 56 ∨ 2 ^ 64 - 2 ^ 56 ≤ f 8 8) ∧ f 16 8 < 2 ^ 63 ∧
        ∀ i < 4, let ref := f (24 + 8 * i) 8
          (i < f 5 1 → ref / 4 % 16 = 0 ∧ 2 ^ 32 ≤ ref ∧ (ref < 2 ^ 56 ∨ 2 ^ 64 - 2 ^ 56 ≤ ref)) ∧
          (f 5 1 ≤ i → ref = 0)))) ∧
  (∀ (o : COp) (s : State) (bs : List Byte), s.primaryRuns o.g → s.core.bank.barrierRoom o.cb.toNat = true →
    s.core.bank.status.guard = false →
    let f := field bs
    let d := (o.data.setWidth 6 : BitVec 6)
    let u (n : Nat) : State := s.claimNow (s.ea o) n
    let starts (i : Instr) (kind : OpKind) (dest : Option BarDest) : Prop :=
      ∃ t x, exec i s = .next t ∧ t.ops = s.ops ++ [x] ∧ x.kind = kind ∧ x.cb = o.cb.toNat ∧
        t.ord.length = s.ord.length + 1 ∧
        (t.core.bank.cb o.cb.toNat).results = (s.core.bank.cb o.cb.toNat).results ++
          (match dest with | some e => [{ op := s.nextOp, dest := e, val := none }] | none => []) ∧
        t.core.bank.sameRegs s.core.bank ∧ t.core.store = s.core.store ∧ t.mem = s.mem
    (s.block (s.ea o) 256 128 = .ok bs →
      (bdredOk bs = true → s.checkRanges ((f 0 8, f 8 4) :: (f 16 8, 8) :: (bdredSrcs bs).map fun a => (a, f 8 4)) = none →
        starts (.bdred o) (.bdred (f 0 8) (f 8 4) (f 13 1) (f 16 8) (BitVec.ofNat 64 (f 24 8)) (blockScope (f 14 1)) (bdredSrcs bs))
          none) ∧
      (bdredOk bs = false → exec (.bdred o) s = (u 256).raise 0x01)) ∧
    (s.block (s.ea o) 64 64 = .ok bs →
      (bdtopkOk bs = true →
        s.checkRanges [(f 0 8, (f 16 4 - 1) * f 24 4 + f 20 4 * if f 29 1 = 1 then 4 else 2), (f 8 8, 8 * f 28 1 * f 16 4)] = none →
        starts (.bdtopk o) (.bdtopk (f 0 8) (f 8 8) (f 16 4) (f 20 4) (f 24 4) (f 28 1) (f 29 1) (f 32 4)) none) ∧
      (bdtopkOk bs = false → exec (.bdtopk o) s = (u 64).raise 0x01) ∧
      (xrouteOk bs = false → exec (.xroute o) s = (u 64).raise 0x01) ∧
      (s.destOk d = true → packetOk bs = false → exec (.gpost o) s = (u 64).raise 0x01) ∧
      (xrouteOk bs = true → s.checkLocal (f 4 4) (f 8 4 * f 12 4) 128 = none → s.checkLocal (f 16 4) 8 8 = none →
        starts (.xroute o) (.xroute (f 0 4) (f 4 4) (f 8 4) (f 12 4) (f 16 4)) (some (.word (f 16 4)))) ∧
      (s.destOk d = true → packetOk bs = true → s.part = s.hub.regs.guestPart →
        starts (.gpost o) (.gpost bs d.toNat) (some (.reg d.toNat))) ∧
      (s.destOk d = true → packetOk bs = true → s.part ≠ s.hub.regs.guestPart → exec (.gpost o) s = (u 64).raise 0x0D)))

/-- R173, R174, R374, R375: SUBS with a legal block, its slots pinned and free, fewer than four subscriptions and room
on its barrier adds the subscription; a block that breaks its rules or names an empty tensor entry raises cause 0x01, a
unit that is not pinned 0x06, one in use 0x0A, and a fifth subscription or a full barrier 0x04, in that order; that an
empty entry and a box extent of 0 raise 0x01 is the model's choice (log entry 91); SLOTDN of a slot of an active subscription frees that slot, of a declared output
unit marks it, of a declared input unit does nothing, and of any other unit raises cause 0x01. -/
def Obligations.Subscriptions : Prop :=
  ∀ (o : COp) (s : State), s.primaryRuns o.g →
    let b := s.core.bank
    let captured := s.claimNow (s.ea o) 64
    (∀ bs t, s.block (s.ea o) 64 64 = .ok bs → subsOk bs = true → sget b.tensors (field bs 0 2) = some t →
      let u := subOf bs s.nextOp o.hint.toNat o.cb.toNat t
      s.checkLocal u.stat 8 8 = none →
      (u.units.any fun n => lineMask (unitAddr s.core.curBank n / 128) 512 &&& ~~~b.pins != 0) = false →
      (u.units.any fun n => b.unitsInUse.contains n) = false → b.subs.length < 4 → b.barrierRoom o.cb.toNat = true →
      ∃ r x, exec (.subs o) s = .next r ∧ r.core.bank.subs = b.subs ++ [u] ∧ r.ops = s.ops ++ [x] ∧ x.kind = .subs ∧
        r.core.bank.sameRegs b) ∧
    (∀ bs, subsOk bs = true ↔
      (field bs 0 2 < 4096 ∧ 1 ≤ field bs 3 1 ∧ field bs 3 1 ≤ 16 ∧ field bs 4 1 ≤ 2 ∧ field bs 5 3 = 0 ∧
        (∀ d < 5, 1 ≤ field bs (28 + 2 * d) 2) ∧ field bs 38 2 = 0 ∧ field bs 48 16 = 0 ∧
        field bs 2 1 + field bs 3 1 * 2 ^ field bs 4 1 ≤ 16)) ∧
    (∀ bs, s.block (s.ea o) 64 64 = .ok bs → (subsOk bs = false ∨ sget b.tensors (field bs 0 2) = none) →
      exec (.subs o) s = captured.raise 0x01) ∧
    (∀ bs t, s.block (s.ea o) 64 64 = .ok bs → subsOk bs = true → sget b.tensors (field bs 0 2) = some t →
      s.checkLocal (field bs 40 8) 8 8 = none →
      let first := field bs 2 1
      let count := field bs 3 1 * 2 ^ field bs 4 1
      let pinned (u : Nat) : Prop := lineMask (unitAddr s.core.curBank u / 128) 512 &&& ~~~b.pins = 0
      ((∃ u, first ≤ u ∧ u < first + count ∧ ¬ pinned u) →
        exec (.subs o) s = captured.raiseWith 0x06 0 (unitAddr s.core.curBank first) 0) ∧
      ((∀ u, first ≤ u → u < first + count → pinned u) →
        ((∃ u, first ≤ u ∧ u < first + count ∧ u ∈ b.unitsInUse) → exec (.subs o) s = captured.raise 0x0A) ∧
        ((∀ u, first ≤ u → u < first + count → u ∉ b.unitsInUse) →
          (4 ≤ b.subs.length ∨ b.barrierRoom o.cb.toNat = false) → exec (.subs o) s = captured.raise 0x04))) ∧
    (∀ k, b.task = some k →
      let n := o.data.toNat
      (n ∈ k.outUnits → n ∉ k.marked → ∃ r, exec (.slotdn o) s = .next r ∧
        (r.core.bank.task.map fun x => x.marked) = some (k.marked ++ [n])) ∧
      ((n ∉ k.outUnits ∨ n ∈ k.marked) →
        (∀ u ∈ b.subs, u.slotAt n = none) →
        (n ∈ k.inUnits → exec (.slotdn o) s = .next s) ∧ (n ∉ k.inUnits → exec (.slotdn o) s = s.raise 0x01)) ∧
      (∀ u i, (n ∉ k.outUnits ∨ n ∈ k.marked) → b.subs = [u] → u.slotAt n = some i →
        ∃ r v, exec (.slotdn o) s = .next r ∧ r.core.bank.subs = [v] ∧ v.freed.testBit i = true ∧ v.op = u.op))

/-! ### The steps of agents (02, 05, 08, 11, 14, 16) -/

/-- R15, R30, R31, R34 to R38, R119, R178, R208, R214, R218: the steps of a core. RESULT_WRITEBACK lands exactly the
results that are due, the one issued later last. TIMER_EXPIRY and PEND_SOFT_SET set their PEND bits. TOKEN_WINDOW
fixes the grant, at most 512. DRIFT_OP_COMPLETE performs the load, the store or the register read that its thread
waits for. DRIFT_SLOT_FILL gives the announced scalar slot to the ready thread, or notes its refusal for want of a
token, which counts once the cycle is over (R37, R356). BANK_SWITCH exchanges the banks for 160 cycles, BANK_RESUME turns to a bank that is ready, but
not from one that has just taken its core, and INTERRUPT takes
the exception with cause 0x11 before the next bundle. -/
def Obligations.CoreEvents : Prop :=
  ∀ (s : State),
    let c := s.core
    let b := s.core.bank
    (∃ t, exec .resultWriteback s = .next t ∧ t.core.bank.tick = b.tick ∧
      t.core.bank.pend.map (fun e => (e.due, e.seq, e.eff)) =
        (b.pend.filter fun e => decide (b.tick < e.due)).map (fun e => (e.due, e.seq, e.eff))) ∧
    (∀ n v w x y, n < 64 → b.pend = [x, y] → x.eff = .sPlain n v → y.eff = .sPlain n w → x.due ≤ b.tick →
      y.due ≤ b.tick → ∃ t, exec .resultWriteback s = .next t ∧ t.core.bank.sregN n = if n = 0 then 0 else w) ∧
    (c.timer = 1 → ∃ t, exec .timerExpiry s = .next t ∧ t.core.timer = 0 ∧ t.core.pend = c.pend ||| 1 ∧
      t.core.bank = b) ∧
    (∀ k < 256, ∃ t, exec (.pendSoftSet k) s = .next t ∧ (t.coreAt k).pend = (s.coreAt k).pend ||| 8 ∧
      t.core.bank = b ∧ t.mem = s.mem) ∧
    (∀ g, ∃ t, exec (.tokenWindow g) s = .next t ∧ t.core.grant = min g 512 ∧
      (c.cycle % 256 = 0 → t.core.tokens = min g 512) ∧ (c.cycle % 256 ≠ 0 → t.core.tokens = c.tokens) ∧
      t.core.bank = b) ∧
    (∀ n, s.cur < 256 → n < 8 → (c.thread n).busy = true → (c.thread n).due = none → (c.thread n).waitEv = none →
      (c.thread n).bank = c.curBank →
      let d : State := { s with agent := .drift n }
      (∀ off rd, (c.thread n).eff = .hubLoad off rd → rd < 32 → ∃ t, exec (.driftOpComplete s.cur n) s = .next t ∧
        (t.core.thread n).dreg (BitVec.ofNat 6 rd) = (if rd = 0 then 0 else s.regWord off) ∧
        (t.core.thread n).busy = false ∧ t.core.bank = b) ∧
      (∀ va w sg rd hint pa, (c.thread n).eff = .gload va w sg rd hint none → rd < 32 →
        d.translate s.part va { write := false, user := !d.sup?, read := true } = .ok pa →
        ∃ t, exec (.driftOpComplete s.cur n) s = .next t ∧ t.mem = s.mem ∧ (t.core.thread n).busy = false ∧
          (t.core.thread n).dreg (BitVec.ofNat 6 rd) = if rd = 0 then 0 else loadValue sg w (readNat s.mem pa w)) ∧
      (∀ va bytes hint pa, (c.thread n).eff = .gstore va bytes hint none → Mem.wf s.mem = true →
        d.translate s.part va { write := true, user := !d.sup?, read := false } = .ok pa →
        ∃ t, exec (.driftOpComplete s.cur n) s = .next t ∧ (t.core.thread n).busy = false ∧ t.core.bank = b ∧
          (∀ i < bytes.length, memByte t.mem (pa + i) = bytes.getD i 0) ∧
          ∀ x, x < pa ∨ pa + bytes.length ≤ x → memByte t.mem x = memByte s.mem x)) ∧
    (∀ n i after, n < 8 → (∀ m < 8, c.threadIsReady m = decide (m = n)) → c.switching = none →
      c.slots.scalar = true → c.slots.copy0 = false → c.slots.copy1 = false →
      s.driftNext n = .run 0 (.ok i) after →
      (s.driftRefuse n (some i) = none → ∃ t, exec .driftSlotFill s = .next t ∧ t.agenda = .drift n :: s.agenda ∧
        t.core.tokens = c.tokens - 1 ∧ t.core.lastThread = n ∧ t.core.bank = b) ∧
      (s.driftRefuse n (some i) = some 0x14 → ∃ t, exec .driftSlotFill s = .next t ∧ t.agenda = s.agenda ∧
        t.core.bank = b ∧ t.core.resDue = c.resDue ++ [0x14])) ∧
    (∀ k, [0x11, 0x12, 0x13, 0x14].contains k = true → b.countRes k = { b with
      resslot := b.resslot + (if k = 0x11 then 1 else 0), resbank := b.resbank + (if k = 0x12 then 1 else 0),
      resnet := b.resnet + (if k = 0x13 then 1 else 0), respwr := b.respwr + (if k = 0x14 then 1 else 0) }) ∧
    (c.switching = some 161 → s.drained = true → c.threadsDrained = true → ∃ t, exec .bankSwitch s = .next t ∧
      t.core.bank = { c.other with saved := Planes.none } ∧ t.core.curBank = 1 - c.curBank ∧
      t.core.planes = c.other.saved ∧ t.core.switching = some 160 ∧ t.mem = s.mem ∧ t.core.other.pend = [] ∧
      t.core.other.mreds = []) ∧
    (let wants : Prop := c.other.released = true ∨ s.bankPrio s.cur c.curBank < s.bankPrio s.cur (1 - c.curBank)
     c.switching = none → c.otherReady = true →
      (((∃ ev back, b.run = .event ev back) ∨
        (s.gang = none ∧ b.run = .active ∧ b.handler = false ∧ b.taken ≠ some b.gstep ∧
          ((b.atBoundary = true ∧ 0 < b.loop.iter) ∨ b.curYield = true) ∧ wants)) →
        ∃ t, exec .bankResume s = .next t ∧ t.core.switching = some 161 ∧ t.core.bank = b) ∧
      (s.gang = none → b.run = .active → ¬ wants → exec .bankResume s = .next s)) ∧
    (c.pend &&& c.inten ≠ 0 → b.status.ie = true → b.status.guard = false → c.switching = none → s.gang = none →
      b.run = .active → b.stall = 0 → b.branch = none → b.newBranch = none → b.loop.active = false →
      b.rimeFits = true → b.framePinned = true →
      ∃ t, exec .interrupt s = .next t ∧ t.core.bank.epc = b.pc ∧ t.core.bank.cause.toNat % 256 = 0x11 ∧
        t.core.bank.status = { b.status with sup := true, ie := false } ∧ t.core.bank.pc = b.tvec ∧
        t.core.bank.stall = 48 ∧ t.core.bank.handler = true ∧ t.core.bank.s = b.s ∧ t.core.bank.v = b.v ∧
        readNat t.core.store (128 * b.tfbase) 8 = b.pc.toNat ∧
        readNat t.core.store (128 * b.tfbase + 16) 8 = b.status.word.toNat)

/-- R113, R114, R121, R119, R174: ENGINE_LINE_LAND moves the next whole line of a flat copy, in either direction;
ENGINE_OP_COMPLETE performs a global ATOM and its barrier's count falls; ENGINE_OP_FAULT stops an operation with its
barrier's first record; EVENT_ANSWER places the entry and lets the waiting bank and its operation go on;
SUBS_SLOT_FILL brings the next line of a slot from its tile, elements outside the extents as zero, and once all 512 lines have
landed counts the slot in STAT; the walk is over once its tiles are delivered, and the subscription once its barrier is
complete as well. An operation of a launch that has faulted ends without its write (R206, R266; log entry 99). The operations
are those of the running bank. That EVENT_ANSWER places its entry where the walk met the first absent one is the model's
reading (log entry 39, DEDUCED), as is that its prefetcher runs for pages alone (log entry 85). -/
def Obligations.EngineEvents : Prop :=
  ∀ (s : State) (o : EngineOp), s.op? o.id = some o → o.core = s.cur → o.bank = s.core.curBank → o.drift = none →
    o.saved = none → o.cb < 8 → s.core.bank.status.guard = false → s.core.bank.heldWrites = [] →
    s.core.bank.undo.length ≤ 512 → Mem.wf s.mem = true → Mem.wf s.core.store = true →
    let b := s.core.bank
    let rd : Rights := { write := false, user := o.user, read := true }
    let sound : Prop := ∀ k l, b.task = some k → s.hub.launch? k.launch = some l → l.fault = none
    (∀ loc co bx g len pa, o.stop = none → sound → o.done < len / 128 →
      (o.kind = .cpy 2 loc none co bx g len → s.deliveryHeld s.cur s.core.curBank ((loc + 128 * o.done) / 128) = false →
        s.hubXlat o.part (g + 128 * o.done) rd = .ok pa →
        ∃ t, exec (.engineLineLand o.id) s = .next t ∧ t.mem = s.mem ∧ t.op? o.id = some { o with done := o.done + 1 } ∧
          (∀ i < 128, memByte t.core.store (loc + 128 * o.done + i) = memByte s.mem (pa + i)) ∧
          (∀ x, x < loc + 128 * o.done ∨ loc + 128 * o.done + 128 ≤ x →
            memByte t.core.store x = memByte s.core.store x) ∧
          t.agenda = s.agenda ++ [if len / 128 ≤ o.done + 1 then .event (.engineOpComplete o.id)
            else .event (.engineLineLand o.id)]) ∧
      (o.kind = .cpy 3 loc none co bx g len → s.readHeld s.cur [(loc + 128 * o.done) / 128] = false →
        s.hubXlat o.part (g + 128 * o.done) { write := true, user := o.user, read := false } = .ok pa →
        ∃ t, exec (.engineLineLand o.id) s = .next t ∧ t.core.store = s.core.store ∧
          t.op? o.id = some { o with done := o.done + 1 } ∧
          (∀ i < 128, memByte t.mem (pa + i) =
            memByte ((s.core.afterFence o.seq).seenBefore o.seq) (loc + 128 * o.done + i)) ∧
          (b.pend = [] → b.parked = [] →
            ∀ i < 128, memByte t.mem (pa + i) = memByte s.core.store (loc + 128 * o.done + i)) ∧
          ∀ x, x < pa ∨ pa + 128 ≤ x → memByte t.mem x = memByte s.mem x)) ∧
    (∀ va op x cmp reg pa, o.stop = none → sound → o.kind = .atom va op x cmp reg → op ≤ 9 →
      s.hubXlat o.part va { write := true, user := o.user, read := true } = .ok pa →
      let old : Word := BitVec.ofNat 64 (readNat s.mem pa 8)
      ∃ t, exec (.engineOpComplete o.id) s = .next t ∧ readNat t.mem pa 8 = (atomNew op old x cmp).toNat ∧
        (∀ y, y < pa ∨ pa + 8 ≤ y → memByte t.mem y = memByte s.mem y) ∧
        (t.core.bank.cb o.cb).count = (b.cb o.cb).count - 1 ∧
        (t.core.bank.cb o.cb).results =
          (b.cb o.cb).results.map (fun r => if r.op = o.id then { r with val := some old } else r) ∧
        t.op? o.id = none) ∧
    (∀ kind va, o.stop = none → (b.cb o.cb).record = none → b.parked = [] →
      ∃ t r, exec (.engineOpFault o.id kind va) s = .next t ∧ (t.core.bank.cb o.cb).record = some r ∧ r.kind = kind ∧
        r.va = va ∧ r.op = o.id ∧ t.op? o.id = some { o with stop := some kind, old := va } ∧ t.mem = s.mem ∧
        t.core.store = s.core.store) ∧
    (∀ ev e entry pa kind loc co bx g len, s.hub.events.find? (fun x => x.id == ev) = some e → e.thread = none →
      e.op = some o.id → o.stop = some .translation → o.kind = .cpy kind loc none co bx g len →
      b.run = .event ev (.cpyw o.cb) → s.guestHolds e.va = false → s.absentPte (s.eventPart e) e.va = some pa →
      (∀ x ∈ s.ops, x.core = o.core → x.bank = o.bank → x.cb = o.cb → x.drift = none → x.saved = none → x.id ≠ o.id →
        x.stop = none) →
      (0xC00000 ≤ bitsAt entry.toNat 16 36 ∨ s.prefetch (s.eventPart e) e.va = (65536, s)) →
      ∃ t, exec (.eventAnswer ev entry) s = .next t ∧ readNat t.mem pa 8 = entry.toNat ∧
        (∀ y, y < pa ∨ pa + 8 ≤ y → memByte t.mem y = memByte s.mem y) ∧ (∀ x ∈ t.hub.events, x.id ≠ ev) ∧
        t.core.bank.run = .cpyw o.cb ∧ t.core.bank.released = true ∧ (t.core.bank.cb o.cb).record = none ∧
        t.op? o.id = some { o with stop := none }) ∧
    (∀ k l r, b.task = some k → s.hub.launch? k.launch = some l → l.fault = some r → o.stop = none → o.discards = true →
      ∃ t, exec (.engineOpComplete o.id) s = .next t ∧ t.mem = s.mem ∧ t.core.store = s.core.store ∧ t.op? o.id = none ∧
        (t.core.bank.cb o.cb).count = (b.cb o.cb).count - 1) ∧
    (∀ u, o.stop = none → s.core.switching = none → b.subs = [u] → u.op = o.id → u.size = 0 → 0 < u.nslot →
      u.delivered < u.tiles → u.freed.testBit (u.delivered % u.nslot) = true → u.delivered + 1 < 2 ^ 64 →
      let a := unitAddr s.core.curBank (u.first + u.delivered % u.nslot)
      let again : Turn := .event (.subsSlotFill o.id)
      let line (k : Nat) (bytes : List Byte) (die : Nat) : Prop :=
        s.deliveryHeld s.cur s.core.curBank (a / 128 + k) = false →
        ∃ t, exec (.subsSlotFill o.id) s = .next t ∧ t.mem = s.mem ∧ t.agenda = s.agenda ++ [again] ∧
          t.op? o.id = some { o with done := k + 1, old := die, data := bytes } ∧
          (∀ i < 128, memByte t.core.store (a + 128 * k + i) = bytes.getD (128 * k + i) 0) ∧
          ∀ x, x < a + 128 * k ∨ a + 128 * k + 128 ≤ x → memByte t.core.store x = memByte s.core.store x
      (∀ n e pa, o.done = 0 → u.nextTiles.map u.tensor.tileOf = [some n] → u.tensor.edgeFault (some n) = false →
        s.tileWordOn s.cur s.core.curBank o.part o.user u.tensor u.tid n = .ok e → s.tileGrant e false = .ok pa →
        (u.tensor.readTile s.mem n pa).length = 65536 → line 0 (u.tensor.readTile s.mem n pa) (homeOf pa)) ∧
      (∀ n e, o.done = 0 → u.nextTiles.map u.tensor.tileOf = [some n] → u.tensor.edgeFault (some n) = false →
        s.core.xlat? s.core.curBank u.tid n = none → s.tileWord o.part o.user u.tensor n = .ok e →
        s.tileWordOn s.cur s.core.curBank o.part o.user u.tensor u.tid n = .ok e) ∧
      (0 < o.done → o.done < 512 → o.data.length = 65536 → line o.done o.data o.old) ∧
      (o.done = 512 → s.deliveryHeld s.cur s.core.curBank (u.stat / 128) = false →
        ∃ t, exec (.subsSlotFill o.id) s = .next t ∧ t.mem = s.mem ∧ readNat t.core.store u.stat 8 = u.delivered + 1 ∧
          (∀ x, x < u.stat ∨ u.stat + 8 ≤ x → memByte t.core.store x = memByte s.core.store x) ∧
          let v : Sub := { u with delivered := u.delivered + 1, freed := u.freed - 2 ^ (u.delivered % u.nslot) }
          (u.delivered + 1 < u.tiles → t.core.bank.subs = [v] ∧ t.op? o.id = some { o with done := 0, data := [] } ∧
            t.agenda = s.agenda ++ (if v.freed.testBit (v.delivered % v.nslot) then [again] else [])) ∧
          (u.tiles ≤ u.delivered + 1 → (t.core.bank.cb o.cb).count = (b.cb o.cb).count - 1 ∧ t.op? o.id = none ∧
            t.core.bank.subs = if (t.core.bank.cb u.cb).complete then [] else [v])))

/-- R142, R247, R248, R250, R251, R252: LINK_PAIR pairs the first send with the receive the neighbour has posted, and
the first receive with what has arrived; LINK_TRANSFER_DONE ends a receive whose last line has moved, which is an
acquire, and hands a send over, which ends when the neighbour tells that its last line has landed; FLIT_RECEIVE takes a
sound flit in turn, drops one of an unknown type with its clock deltas, and leaves every other one; LANE_FAIL takes the spare lane, then the
port goes down; STAMPED_WRITE_APPLY applies a write once its predecessors are, and holds it until then. What a flit of type
3 announces, the receives posted that LINK_PAIR pairs a send with and the last line that has landed, and that a dropped
flit counts its sequence number and changes nothing else, are the model's choice (log entry 37, DESIGN CHOICE). -/
def Obligations.FabricEvents : Prop :=
  (∀ (s : State) (port ch id n : Nat) (o : EngineOp), s.op? id = some o →
    let p := s.port port
    (∀ a, o.kind = .lsend port ch a n → onChannel p.sends ch = [id] → onChannel p.credits ch = [n] →
      onChannel p.recvs ch = [] → ∃ t, exec (.linkPair port ch) s = .next t ∧
        t.op? id = some { o with paired := true, data := [] } ∧ onChannel (t.port port).sends ch = [] ∧
        onChannel (t.port port).credits ch = [] ∧ t.agenda = s.agenda ++ [.event (.engineLineLand o.id)]) ∧
    (∀ a data, o.kind = .lrecv port ch a n → data.length = n → onChannel p.sends ch = [] →
      onChannel p.recvs ch = [id] → p.incoming = [(ch, data)] → ∃ t, exec (.linkPair port ch) s = .next t ∧
        t.op? id = some { o with paired := true, data := data } ∧ onChannel (t.port port).recvs ch = [] ∧
        (t.port port).incoming = []) ∧
    (∀ a, o.kind = .lrecv port ch a n → o.core = s.cur → o.bank = s.core.curBank → o.drift = none → o.cb < 8 →
      s.ops.filter (fun x => x.linkDone port ch) = [o] → ∃ t, exec (.linkTransferDone port ch) s = .next t ∧
        t.op? id = none ∧ (t.core.bank.cb o.cb).count = (s.core.bank.cb o.cb).count - 1 ∧
        t.ord = s.ord ++ [.acquire s.cur none 4] ∧ (t.port port).landed = p.landed ++ [ch] ∧
        (t.core.bank.cb o.cb).coll = true) ∧
    (∀ a, o.kind = .lsend port ch a n → o.old = 0 → s.ops.filter (fun x => x.linkDone port ch) = [o] →
      ∃ t, exec (.linkTransferDone port ch) s = .next t ∧ t.op? id = some { o with old := 1 } ∧
        (t.port port).sent = p.sent ++ [(ch, o.data)] ∧ t.core = s.core) ∧
    (∀ a (f : Flit), o.kind = .lsend port ch a n → o.core = s.cur → o.bank = s.core.curBank → o.drift = none → o.cb < 8 →
      o.live = true → s.ops.filter (fun x => x.old == 1) = [o] → port < 24 → p.down = false → f.crcOk = true →
      f.seq = p.expect → f.type = 3 → f.deltas = [] → f.credit = none → f.landed = some ch →
      ∃ t, exec (.flitReceive port f) s = .next t ∧ t.op? id = none ∧
        (t.core.bank.cb o.cb).count = (s.core.bank.cb o.cb).count - 1)) ∧
  (∀ (s : State) (port : Nat) (f : Flit), port < 24 → (s.port port).down = false →
    (f.crcOk = false ∨ f.seq ≠ (s.port port).expect → exec (.flitReceive port f) s = .next s) ∧
    (∀ m, f.crcOk = true → f.seq = (s.port port).expect → f.type = 2 → f.msg = some m → f.deltas = [] →
      ∃ t, exec (.flitReceive port f) s = .next t ∧ (t.port port).expect = ((s.port port).expect + 1) % 65536 ∧
        t.agenda = s.agenda ++ [.event (.taggedMessage { m with dest := BitVec.ofNat 8 (2 + port) })]) ∧
    (f.crcOk = true → f.seq = (s.port port).expect → 5 ≤ f.type.toNat →
      ∃ t, exec (.flitReceive port f) s = .next t ∧ (t.port port).expect = ((s.port port).expect + 1) % 65536 ∧
        t.clocks = s.clocks ∧ t.ops = s.ops)) ∧
  (∀ (s : State) (port lane : Nat), port < 24 → lane < 9 → (s.port port).down = false →
    ((s.port port).spareFor = none → ∃ t, exec (.laneFail port lane) s = .next t ∧
      (t.port port).spareFor = some lane ∧ (t.port port).down = false ∧
      t.svc.record.lanes = s.svc.record.lanes ++ [(port, lane)] ∧ t.hub.regs.svcLanes = true) ∧
    ((s.port port).spareFor ≠ none → ∃ t, exec (.laneFail port lane) s = .next t ∧ (t.port port).down = true ∧
      (t.port port).sends = [] ∧ (t.port port).recvs = [])) ∧
  ∀ (s : State) (die : Nat) (w : StampedWrite), die < 18 → s.clocks.length = 18 → Mem.wf s.mem = true →
    let clock := s.clocks.getD die []
    ((∀ c < 18, c = w.source ∨ w.stamp.getD c 0 ≤ clock.getD c 0) →
      ∃ t, exec (.stampedWriteApply die w) s = .next t ∧
        (∀ i < w.bytes.length, memByte t.mem (w.addr + i) = w.bytes.getD i 0) ∧
        (∀ x, x < w.addr ∨ w.addr + w.bytes.length ≤ x → memByte t.mem x = memByte s.mem x) ∧
        ∀ c < 18, (t.clocks.getD die []).getD c 0 = max (clock.getD c 0) (w.stamp.getD c 0)) ∧
    ((∃ c < 18, c ≠ w.source ∧ clock.getD c 0 < w.stamp.getD c 0) →
      ∃ t, exec (.stampedWriteApply die w) s = .next t ∧ t.mem = s.mem ∧ (die, w) ∈ t.held)

/-- R151, R153 to R156, R206, R245, R246: MESSAGE_PORT_WRITE, LNDROP_READ and MPCNT_READ; TAGGED_MESSAGE makes a
launch of a slot that runs none, queues the fire of one that runs, and counts an unmatched message; ARM_RESULT acts on
the core's oldest request and writes RESULT; LAUNCH_START starts the next launch of the queue; LAUNCH_END and
FAULT_END_LAUNCH write the status block and drop the launch, and the latter frees its banks. -/
def Obligations.LaunchEvents : Prop :=
  (∀ (s : State) (off size : Nat) (m : Message), s.hub.regs.ready = true → off < 4096 →
    (size = 64 → off % 64 = 0 → s.hub.portQueue.length < 256 → ∃ t, exec (.messagePortWrite off size m) s = .next t ∧
      t.hub.portQueue = s.hub.portQueue ++ [{ m with dest := 1 }] ∧ t.ord = s.ord ++ [.hostRelease] ∧
      t.agenda = s.agenda ++ [.event (.taggedMessage { m with dest := 1 })] ∧ t.hub.regs = s.hub.regs) ∧
    (size ≠ 64 ∨ off % 64 ≠ 0 → ∃ t, exec (.messagePortWrite off size m) s = .next t ∧
      t.hub.regs.msgBad = s.hub.regs.msgBad + 1 ∧ t.hub.portQueue = s.hub.portQueue ∧ t.agenda = s.agenda) ∧
    (size = 64 → off % 64 = 0 → 256 ≤ s.hub.portQueue.length → ∃ t, exec (.messagePortWrite off size m) s = .next t ∧
      t.hub.regs.msgFull = s.hub.regs.msgFull + 1 ∧ t.hub.portQueue = s.hub.portQueue ∧ t.agenda = s.agenda)) ∧
  (∀ (s : State), ∃ t u, exec .lndropRead s = .next t ∧ exec .mpcntRead s = .next u ∧
    t.hub.regs = { s.hub.regs with unmatched := 0, overflow := 0 } ∧
    u.hub.regs = { s.hub.regs with msgBad := 0, msgFull := 0, msgRing := 0 } ∧ t.core = s.core ∧ u.core = s.core) ∧
  (∀ (s : State) (m : Message),
    (s.hub.match? m.tag.toNat = none → ∃ t, exec (.taggedMessage m) s = .next t ∧
      t.hub.regs.unmatched = s.hub.regs.unmatched + 1 ∧ t.hub.launches = s.hub.launches ∧ t.agenda = s.agenda ∧
      t.hub.portQueue = if m.dest = 1 then s.hub.portQueue.erase m else s.hub.portQueue) ∧
    ∀ n a, s.hub.match? m.tag.toNat = some (n, a) → s.hub.slot n = a →
      (a.running = none → ∃ t l, exec (.taggedMessage m) s = .next t ∧ t.hub.launches = s.hub.launches ++ [l] ∧
        l.id = s.hub.launchCount + 1 ∧ l.slot = n ∧ l.payload = m.payload ∧ l.queued = true ∧ l.fault = none ∧
        (∀ c < 16, l.word c = 0) ∧ (t.hub.slot n).running = some l.id ∧ l.key ∉ s.hub.keys ∧
        l.fabric = decide (2 ≤ m.dest.toNat) ∧
        t.agenda = s.agenda ++ [.event (.launchStart a.part)]) ∧
      (a.running ≠ none → a.queued.length < 4 → ∃ t, exec (.taggedMessage m) s = .next t ∧
        t.hub.slot n = { a with queued := a.queued ++ [m] } ∧ t.hub.launches = s.hub.launches) ∧
      (a.running ≠ none → 4 ≤ a.queued.length → m.rtag = 0 → ∃ t, exec (.taggedMessage m) s = .next t ∧
        t.hub.regs.overflow = s.hub.regs.overflow + 1 ∧ t.hub.slot n = a ∧ t.hub.launches = s.hub.launches)) ∧
  (∀ (s : State) (n : Nat) (bs : List Byte) (a : Nat) (qs : List HubReq),
    s.core.hubq = .arm n bs a s.core.curBank :: qs → s.core.bank.pins.getLsbD (a / 128) = true →
    Mem.wf s.core.store = true →
    ∃ t, exec (.armResult s.cur) s = .next t ∧ t.core.hubq = qs ∧
      readNat t.core.store a 8 = s.hub.armCode n bs ∧
      t.hub.slot n = if s.hub.armCode n bs = 1 then armSlotOf bs else s.hub.slot n) ∧
  (∀ (s : State) (p : Nat) (l : Launch), (s.hub.part p).halted = false → s.hub.regs.fatal = false →
    (s.hub.runningIn p).length < 8 → s.hub.nextLaunch p = some l → s.hub.launch? l.id = some l →
    ∃ t m, exec (.launchStart p) s = .next t ∧ t.hub.launch? l.id = some m ∧ m.queued = false ∧
      m.payload = l.payload ∧ (∀ bs e, s.readNode l 0 = .ok bs → nodeOk bs = true →
        nodeEvent (field bs 0 1) l.id 0 = some e → t.agenda = s.agenda ++ [.event e, .event (.launchStart p)] ∧
          (m.branches.map fun x => x.block) = [bs])) ∧
  ∀ (s : State) (l : Launch), s.hub.launch? l.id = some l → l.endEv = none → (s.hub.slotOf l).queued = [] →
    (s.hub.slotOf l).rtag = 0 → l.id < 2 ^ 64 → Mem.wf s.mem = true →
    let a := s.hub.slotOf l
    (l.queued = false → l.fault = none → (∀ b ∈ l.branches, b.at_ = .ended) →
      s.hub.allEnded l.id s.hub.nextTask = true → (∀ x ∈ s.hub.audits, x.launch = l.id → x.decided = true) →
      (a.stat = 0 → ∃ t, exec (.launchEnd l.id) s = .next t ∧ t.hub.launch? l.id = none ∧
        (t.hub.slot l.slot).running = none ∧ t.mem = s.mem) ∧
      ∀ pa, a.stat ≠ 0 → s.hubXlat a.part a.stat { write := true, user := false, read := false } = .ok pa →
        ∃ t, exec (.launchEnd l.id) s = .next t ∧ t.hub.launch? l.id = none ∧ readNat t.mem pa 8 = 0 ∧
          readNat t.mem (pa + 8) 8 = l.id ∧
          ∀ x, x < pa ∨ pa + 64 ≤ x → memByte t.mem x = memByte s.mem x) ∧
    ∀ r, l.fault = some r → r.cause < 256 →
      (∀ pa, a.stat ≠ 0 → s.banksOf l.id = [] →
        s.hubXlat a.part a.stat { write := true, user := false, read := false } = .ok pa →
        ∃ t, exec (.faultEndLaunch l.id) s = .next t ∧ t.hub.launch? l.id = none ∧ readNat t.mem pa 8 = r.cause ∧
          readNat t.mem (pa + 8) 8 = l.id) ∧
      (a.stat = 0 → s.banksOf l.id = [(s.cur, s.core.curBank)] → s.ops = [] →
        ∃ t, exec (.faultEndLaunch l.id) s = .next t ∧ t.hub.launch? l.id = none ∧ t.core.bank.run = .empty ∧
          t.core.bank.pins = 0 ∧ t.core.bank.task = none)

/-- R164, R165, R167, R232: the node steps of a branch that stands at a node of the kind. A branch that goes on enters NEXT,
and a second branch starts at ALT unless it is 0xFFFFFFFF; entering a node reads its bytes, and the step of its kind is due.
TASKSET posts W × H tasks and goes on at NEXT and ALT; COND, WHILE and BUCKET wait for the tasks posted before and take their successor by the
condition word; JOIN goes on with the last of COUNT branches and ends the others; MESSAGE sends its block; TEST starts
self-tests on idle cells. A branch that enters 0xFFFFFFFF ends. -/
def Obligations.NodeEvents : Prop :=
  ∀ (s : State) (launch br n : Nat) (l : Launch) (b : Branch),
    let bs := b.block
    let word := l.word (field bs 1 1 % 16)
    let at_ (kind : Nat) : Prop := s.hub.branchAt launch br kind = some (l, b, n)
    let ended : Prop := s.hub.allEnded launch b.mark = true
    (s.hub.launch? launch = some l → l.branches.find? (fun x => x.id == br) = some b →
      ∃ m c, (s.enterNode launch br noNode).hub.launch? launch = some m ∧
        m.branches.find? (fun x => x.id == br) = some c ∧ c.at_ = .ended) ∧
    (∀ k bytes e, k ≠ noNode → s.hub.launch? launch = some l → l.branches.find? (fun x => x.id == br) = some b →
      s.readNode l k = .ok bytes → nodeOk bytes = true → nodeEvent (field bytes 0 1) launch br = some e →
      let v := s.enterNode launch br k
      v.agenda = s.agenda ++ [.event e] ∧ ∃ m c, v.hub.launch? launch = some m ∧
        m.branches.find? (fun x => x.id == br) = some c ∧ c.at_ = .node k ∧ c.block = bytes) ∧
    (∀ bytes,
      let next := s.enterNode launch br (field bytes 4 4)
      let alt := field bytes 8 4
      (alt = 0xFFFFFFFF → s.goOn launch br bytes = next) ∧
      ∀ m, alt ≠ 0xFFFFFFFF → next.hub.launch? launch = some m → ∃ c : Branch, c.id = m.nextBranch ∧ c.at_ = .node alt ∧
        s.goOn launch br bytes = (next.setHub (next.hub.mapLaunch launch fun l =>
          { l with branches := l.branches ++ [c], nextBranch := m.nextBranch + 1 })).enterNode launch m.nextBranch alt) ∧
    (at_ 1 → (∀ t ∈ s.hub.tasks, t.launch = launch → t.node = n → t.auditOf = none → t.retired = true) →
      ∃ (u t : State) (ts : List Task), exec (.nodeTaskset launch br) s = .next t ∧
        t = (u.goOn launch br bs).later [.event (.taskPlace (s.hub.slotOf l).part)] ∧ u.mem = s.mem ∧ u.core = s.core ∧
        u.agenda = s.agenda ∧ (u.hub.launch? launch).map (·.branches) = some l.branches ∧ u.hub.tasks = t.hub.tasks ∧
        t.hub.tasks = s.hub.tasks ++ ts ∧ ts.length = field bs 24 2 * field bs 26 2 ∧ t.hub.nextTask = s.hub.nextTask + ts.length ∧
        ∀ i k, ts[i]? = some k → k.id = s.hub.nextTask + i ∧ k.launch = l.id ∧ k.node = n ∧
          k.x = i % field bs 24 2 ∧ k.y = i / field bs 24 2 ∧ k.run = .posted ∧ k.retired = false ∧
          k.recAddr = field bs 16 8 ∧ k.prio = (s.hub.slotOf l).prio) ∧
    (at_ 2 → ended → exec (.nodeCond launch br) s =
      .next (s.enterNode launch br (if word ≠ 0 then field bs 4 4 else field bs 8 4))) ∧
    (at_ 3 → ended →
      let k := (sget l.passes n).getD 0
      let limit := field bs 12 4
      let put (v : Nat) : State :=
        s.setHub (s.hub.mapLaunch launch fun l => { l with passes := sput l.passes n v })
      (word ≠ 0 → (limit = 0 ∨ k < limit) →
        exec (.nodeWhile launch br) s = .next ((put (k + 1)).enterNode launch br (field bs 4 4))) ∧
      (word = 0 ∨ (limit ≠ 0 ∧ limit ≤ k) →
        exec (.nodeWhile launch br) s = .next ((put 0).enterNode launch br (field bs 8 4)))) ∧
    (at_ 4 → ended → ∃ j, j < 8 ∧ exec (.nodeBucket launch br) s =
        .next (s.enterNode launch br (field bs (4 + 4 * j) 4)) ∧
      (j < 7 → word.toNat ≤ 64 * 2 ^ j) ∧ ∀ i < j, 64 * 2 ^ i < word.toNat) ∧
    (at_ 5 →
      let k := (sget l.joins n).getD 0 + 1
      let put (v : Nat) : State :=
        s.setHub (s.hub.mapLaunch launch fun l => { l with joins := sput l.joins n v })
      (field bs 12 4 ≤ k → exec (.nodeJoin launch br) s = .next ((put 0).goOn launch br bs)) ∧
      (k < field bs 12 4 → exec (.nodeJoin launch br) s = .next ((put k).enterNode launch br noNode))) ∧
    (at_ 6 → ended → b.msg.length = 64 → (messageOf b.msg).dest = 0 → exec (.nodeMessage launch br) s =
      .next (((s.hubRelease 3).later [.event (.taggedMessage (messageOf b.msg))]).goOn launch br bs)) ∧
    (at_ 7 →
      let p := (s.hub.slotOf l).part
      let cells := ((List.range 64).filter fun c => s.cellIdle p c).take (field bs 1 1)
      ∃ t, exec (.nodeTest launch br) s = .next t ∧
        t = (cells.foldl (fun s c => s.startTest c 0 none) s).goOn launch br bs ∧ (∀ c ∈ cells, (t.hub.cell c).testing = some (0, none)) ∧
        ∀ c < 64, c ∉ cells → t.hub.cell c = s.hub.cell c)

/-- R159 to R161, R169, R171, R172, R175, R177, R179, R219: the steps of a solo task in the running bank. TASK_PLACE
gives it its place; MORAINE_DELIVERY brings the next line of a declared input tile into its unit, and the input is resident
with the 512th; TASK_START starts it with the
registers of R160, and with weight planes that no load has filled (log entry 41, DEDUCED); OUTPUT_PULL_DONE writes a marked
output unit, with what the release of its mark covers (R137), to its tile, bytes outside the extents left out;
PRIORITY_AGING raises a task that has waited a further 2^20 cycles, which log entry 82 counts by the furthest core;
PREEMPTION saves the context in the partition's save area and frees the bank; TASK_RESUME restores it. -/
def Obligations.TaskEvents : Prop :=
  (∀ (s : State) (p : Nat) (k : Task) (r : LoopRec), s.hub.regs.fatal = false → s.hub.waiting p = [k] →
    s.hub.task? k.id = some k → k.run = .posted → k.lrec = some r → r.kind = 0 → r.ins = [] → 0 < r.trip →
    s.findPlace p k r = some ([s.cur], s.core.curBank) →
    ∃ t x, exec (.taskPlace p) s = .next t ∧ t.core.bank.run = .placed ∧ t.core.bank.vu = r.vu ∧
      t.core.bank.at_ = r.at_ ∧ (t.core.bank.task.map fun y => y.task) = some k.id ∧
      t.core.bank.pins = unitPins s.core.curBank (r.outUnits 0) ∧ t.hub.task? k.id = some x ∧ x.run = .placed ∧
      x.cores = [s.cur] ∧ x.bank = s.core.curBank ∧
      t.agenda = s.agenda ++ [.event (.taskStart k.id), .event (.taskPlace p)]) ∧
  (∀ (s : State) (k : Task) (r : LoopRec) (l : Launch), s.hub.task? k.id = some k → k.lrec = some r →
    s.hub.launch? k.launch = some l → l.fault = none → k.cores = [s.cur] → k.bank = s.core.curBank →
    k.waitEv = none → k.auditOf = none → Mem.wf s.core.store = true → Mem.wf s.mem = true →
    (∀ i ref d n e pa, r.ins[i]? = some ref → k.run = .placed → i ∉ k.resident → ref.cores.testBit 0 = true →
      sget s.core.bank.tensors ref.tensor = some d → ref.tileOf d k.x k.y = some n → d.edgeFault (some n) = false →
      s.tileWordOn s.cur s.core.curBank (s.hub.partOf l) true d ref.tensor n = .ok e → s.tileGrant e false = .ok pa →
      (d.readTile s.mem n pa).length = 65536 →
      let a := unitAddr s.core.curBank i
      let m := k.landedIn i 0
      m < 512 → s.deliveryHeld s.cur s.core.curBank (a / 128 + m) = false →
      ∃ t x, exec (.moraineDelivery k.id i) s = .next t ∧
        (∀ j < 128, memByte t.core.store (a + 128 * m + j) = (d.readTile s.mem n pa).getD (128 * m + j) 0) ∧
        (∀ y, y < a + 128 * m ∨ a + 128 * m + 128 ≤ y → memByte t.core.store y = memByte s.core.store y) ∧
        t.hub.task? k.id = some x ∧ x.landedIn i 0 = m + 1 ∧ t.mem = s.mem ∧
        (m < 511 → x.resident = k.resident ∧ t.agenda = s.agenda ++ [.event (.moraineDelivery k.id i)]) ∧
        (m = 511 → x.resident = k.resident ++ [i] ∧
          (r.ins.length = 1 → t.agenda = s.agenda ++ [.event (.taskStart k.id)]))) ∧
    (k.run = .placed → (∀ i < r.ins.length, i ∈ k.resident) →
      ∃ t x, exec (.taskStart k.id) s = .next t ∧ t.hub.task? k.id = some x ∧ x.run = .running ∧
        let c := t.core.bank
        c.run = .active ∧ c.pc = BitVec.ofNat 64 (r.code + 4 * r.pro) ∧ c.sreg 1 = l.payload ∧
        c.sreg 2 = BitVec.ofNat 64 k.x ∧ c.sreg 3 = BitVec.ofNat 64 k.y ∧ c.sreg 4 = BitVec.ofNat 64 l.id ∧
        c.sreg 5 = (s.hub.slotOf l).args ∧ (∀ n, 6 ≤ n → n < 64 → c.sregN n = 0) ∧
        (∀ n < 16, c.pred (BitVec.ofNat 4 n) = decide (n = 0 ∨ 9 ≤ n)) ∧
        (∀ n, 1 ≤ n → n < 8 → c.mask (BitVec.ofNat 3 n) = 0) ∧ (∀ n, c.vreg n = { bits := 0, tag := 0 }) ∧
        c.rotSize = r.rot ∧ c.vu = r.vu ∧ c.at_ = r.at_ ∧ c.status.sup = false ∧ c.status.ie = true ∧
        c.stencil = k.stencil ∧ t.core.planes = Planes.none) ∧
    (∀ o ref d n e pa y, r.outs[o]? = some ref → ref.cores.testBit 0 = true → s.core.bank.task = some y →
      y.task = k.id → (8 + o) ∈ y.marked → (8 + o) ∉ y.pulled → sget s.core.bank.tensors ref.tensor = some d →
      ref.tileOf d k.x k.y = some n → d.edgeFault (some n) = false →
      s.tileWordOn s.cur s.core.curBank (s.hub.partOf l) true d ref.tensor n = .ok e → s.tileGrant e true = .ok pa →
      let a := unitAddr s.core.curBank (8 + o)
      (s.core.bank.unitFlight a = true →
        exec (.outputPullDone k.id o) s = .next (s.retryOn s.cur (.event (.outputPullDone k.id o)))) ∧
      (s.core.bank.unitFlight a = false → ∃ t, exec (.outputPullDone k.id o) s = .next t ∧
        (∀ j < 65536, memByte t.mem (pa + j) =
          if d.full n || d.insideAt n j then memByte s.core.seen (a + j) else memByte s.mem (pa + j)) ∧
        (∀ x, x < pa ∨ pa + 65536 ≤ x → memByte t.mem x = memByte s.mem x) ∧
        (t.core.bank.task.map fun z => z.pulled) = some (y.pulled ++ [8 + o]) ∧ t.core.store = s.core.store)) ∧
    (s.hub.waits (s.hub.partOf l) k = true →
      (k.agedAt s.now = true →
        ∃ t x, exec (.priorityAging k.id) s = .next t ∧ t.hub.task? k.id = some x ∧ x.waited = k.waited + 1 ∧
          x.since = k.since.map (· + 2 ^ 20) ∧ t.agenda = s.agenda ++ [.event (.taskPlace (s.hub.partOf l))]) ∧
      (k.agedAt s.now = false → exec (.priorityAging k.id) s = .next s))) ∧
  (∀ (s : State) (k : BankTask), s.core.bank.task = some k → s.core.switching = some 162 → s.ops = [] →
    s.core.threadsQuiet = true → s.guest.queues = [] → s.core.bank.framePinned = true → k.part < 4 →
    ∃ t v, exec .preemption s = .next t ∧ t.core.bank.run = .empty ∧ t.core.bank.task = none ∧
      t.core.switching = none ∧ (t.hub.part k.part).saved = (s.hub.part k.part).saved ++ [v] ∧ v.task = k.task ∧
      v.member = k.member ∧ v.bank.epc = s.core.bank.pc ∧ v.bank.cause.toNat % 256 = 0x12 ∧
      v.bank.s = s.core.bank.s ∧ v.bank.v = s.core.bank.v) ∧
  ∀ (s : State) (p : Nat) (k : Task) (r : LoopRec) (v : Saved), s.hub.waiting p = [k] → s.hub.task? k.id = some k →
    k.run = .saved → k.lrec = some r → k.bank = s.core.curBank → s.findPlace p k r = some ([s.cur], k.bank) →
    (s.hub.part p).saved = [v] → v.task = k.id → v.member = 0 → v.threads = [] → v.bank.run = .active →
    ∃ t x, exec (.taskResume p) s = .next t ∧ t.core.bank.run = .active ∧ t.core.bank.s = v.bank.s ∧
      t.core.bank.v = v.bank.v ∧ t.core.bank.pc = v.bank.pc ∧ t.core.bank.epc = v.bank.epc ∧
      (t.hub.part p).saved = [] ∧ t.hub.task? k.id = some x ∧ x.run = .running ∧ x.cores = [s.cur]

/-- R229, R237, R238, R267, R268, R270 to R272, R274: COLD_RESET and POWER_ON boot the part, or halt with a code;
POWER_FAILURE leaves what flash and others hold; ATTEST_REQUEST writes the report; REGISTER_WRITE; the replica steps;
and CLOCK_THROTTLE, which raises no clock while the part is hot, THERMAL_HOT and THERMAL_TRIP. What firmware sets up as
it comes up is log entry 79's choice; the form of the replica's digest message is log entry 47's (DESIGN CHOICE); that a
hot reading steps the clocks of all four dies is log entry 95's (DESIGN CHOICE). -/
def Obligations.DeviceEvents : Prop :=
  ∀ (s : State),
    let r := s.hub.regs
    let boots (i : Instr) (v : Service) : Prop :=
      (v.bootCode ≠ 0 → ∃ t, exec i s = .next t ∧ t.hub.regs.bootCode = v.bootCode ∧ t.hub.regs.ready = false ∧
        t.hub.launches = [] ∧ t.agenda = (if v.dirty then [.event .serviceRecordWrite] else []) ∧
        (v.earlyCode ≠ 0 → t.mem = s.mem) ∧ (v.earlyCode = 0 → ∀ a < 0xC000000000, memByte t.mem a = 0)) ∧
      (v.bootCode = 0 → ∃ t, exec i s = .next t ∧ t.hub.regs.ready = true ∧ t.hub.regs.bootCode = 0 ∧
        t.hub.regs.fatal = false ∧ t.hub.regs.prevFatal = r.fatal ∧ t.hub.launches = [] ∧ t.hub.tasks = [] ∧
        t.ops = [] ∧ t.svc = { v with fuseVersion := max v.fuseVersion v.setup.version } ∧
        (∀ a < 0xC000000000, memByte t.mem a = 0) ∧
        (∀ a, 0xC000000000 ≤ a → memByte t.mem a = memByte s.mem a) ∧
        ∀ n < 64, (v.harvest.testBit n = true → n ∉ v.record.retired →
            (t.hub.cell n).run = .enabled ∧ (t.hub.cell n).part = some 0) ∧
          (v.harvest.testBit n = false → n ∉ v.record.retired → (t.hub.cell n).run = .spare) ∧
          (n ∈ v.record.retired → (t.hub.cell n).run = .retired) ∧
          (n ∉ v.record.retired → ∀ q < 4, (t.coreAt (4 * n + q)).sup = v.supOf (4 * n + q)))
    boots .powerOn s.svc.load ∧ boots .coldReset s.svc ∧
    (∃ t, exec .powerFailure s = .next t ∧ t.hub = Hub.clear ∧ t.svc = s.svc.load ∧ t.core = Core.clear ∧ t.others = [] ∧
      (∀ a < 0xC000000000, memByte t.mem a = 0) ∧
      ∀ a, 0xC000000000 ≤ a → memByte t.mem a = memByte s.mem a) ∧
    (∀ nonce : BitVec 384, memByte s.hub.attest 0x30 = 1 → Mem.wf s.hub.attest = true →
      ∃ t, exec (.attestRequest nonce) s = .next t ∧ memByte t.hub.attest 0x30 = 0 ∧
        readNat t.hub.attest 0x40 2 = 368 ∧ readNat t.hub.attest 0x50 48 = nonce.toNat ∧ t.hub.regs = r ∧
        t.core = s.core) ∧
    (∀ x : Word,
      (∃ t, exec (.registerWrite 0x0018 x) s = .next t ∧ t.hub.regs = { r with capw := x.toNat / 65536 % 256 }) ∧
      (∃ t, exec (.registerWrite 0x0128 x) s = .next t ∧ t.hub.regs = { r with head := x.toNat % 65536 }) ∧
      (x.getLsbD 0 = true → ∃ t, exec (.registerWrite 0x0008 x) s = .next t ∧
        t.agenda = s.agenda ++ [.event .coldReset] ∧ t.hub = s.hub) ∧
      exec (.registerWrite 0x0000 x) s = .next s ∧ exec (.registerWrite 0x0100 x) s = .next s ∧
      ∀ off, off % 8 ≠ 0 → exec (.registerWrite off x) s = .next s) ∧
    (∀ p < 4, r.replOn = true → r.replHalted = false → ∃ t, exec (.replicaStep p) s = .next t ∧
      (t.hub.part p).halted = true ∧ t.hub.regs = { r with replHalted := true, replPart := p } ∧
      ∀ q < 24, r.replPorts.testBit q = true → ∃ m, (t.port q).outgoing = (s.port q).outgoing ++ [m] ∧
        m.payload = r.replDigest) ∧
    (r.replHalted = true → ∃ t, exec .replctlResume s = .next t ∧ t.hub.regs = { r with replHalted := false } ∧
      t.agenda = s.agenda ++ [.event (.launchStart r.replPart), .event (.taskPlace r.replPart)]) ∧
    (∀ p ds, r.replHalted = true → ds.length + 1 = r.replN →
      let same := 1 + (ds.filter fun d => d == r.replDigest).length
      (r.replN < 2 * same → ∃ t, exec (.replicaCompare p ds) s = .next t ∧ t.hub.regs.replHalted = false ∧
        t.agenda = s.agenda ++ [.event (.launchStart r.replPart), .event (.taskPlace r.replPart)]) ∧
      (2 * same ≤ r.replN → (s.hub.mcBank 25).en = true → (s.hub.mcBank 25).valid = false →
        ∃ t, exec (.replicaCompare p ds) s = .next t ∧ t.hub.regs = r ∧ (t.hub.mcBank 25).valid = true ∧
          (t.hub.mcBank 25).code = 0x0050 ∧ (t.hub.mcBank 25).sev = 2 ∧
          (majority r.replN ds = true → r.replPart < 4 → (t.hub.part r.replPart).quarantined = true) ∧
          (majority r.replN ds = false → t.hub.parts = s.hub.parts))) ∧
    (r.thermHot = true → ∀ die, exec (.clockThrottle die true) s = .next s) ∧
    (∀ die up, (up = true → r.thermHot = false) → ∃ t, exec (.clockThrottle die up) s = .next t ∧ t.dieClock.length = s.dieClock.length ∧
      ∀ i < s.dieClock.length, t.dieClock.getD i 0 =
        if i = die then (if up then min 1800 (s.dieClock.getD i 0 + 100) else max 900 (s.dieClock.getD i 0 - 100))
        else s.dieClock.getD i 0) ∧
    (∀ temp : BitVec 8, temp.toNat < 110 → ∃ t, exec (.thermalHot temp) s = .next t ∧
      t.hub.regs = { r with thermMax := temp.toNat,
                            thermHot := decide (95 ≤ temp.toNat) || (r.thermHot && decide (90 ≤ temp.toNat)) } ∧
      (95 ≤ temp.toNat → t.dieClock = s.dieClock.map fun f => max 900 (f - 100)) ∧
      (temp.toNat < 90 → t.dieClock = s.dieClock)) ∧
    ∀ temp : BitVec 8, 110 ≤ temp.toNat → (s.hub.mcBank 16).en = true → (s.hub.mcBank 16).valid = false →
      ∃ t, exec (.thermalTrip temp) s = .next t ∧ exec (.thermalHot temp) s = .next t ∧ t.hub.regs.fatal = true ∧ (∀ p < 4, (t.hub.part p).halted = true) ∧
        (t.hub.mcBank 16).valid = true ∧ (t.hub.mcBank 16).code = 0x00F1 ∧ (t.hub.mcBank 16).sev = 3

/-- R105, R122, R244, R258, R261 to R263: the guest's steps: GUEST_COMPLETION and GUEST_FAULT write the packet's flag
as a release and end the packet, and a completed PREEMPT stops its launch and writes its FLAG with FVAL, whose bit 0 is
the guest's (log entry 46, DEDUCED: the flag is written so and the acknowledgement is kept as data as well; log entry 6:
what the save area holds stays open); GUEST_REPORT; GUEST_TRANSLATION and GUEST_INVAL_ACK change the translations it
holds; GUEST_FENCE empties its queues, halts the partition and ends its launches; a coherent access of the guest needs a
translation it holds; and CXL_MEM_ACCESS writes HBM or the host's own memory, whose lines leave the ways and the L2, and
elsewhere is an error response that is recorded and writes nothing. -/
def Obligations.GuestEvents : Prop :=
  ∀ (s : State), Mem.wf s.mem = true →
    let g := s.guest
    let r := s.hub.regs
    let rights (write : Bool) : Rights := { write := write, user := true, read := !write }
    let wrote (t : State) (pa : Nat) (bs : List Byte) : Prop :=
      (∀ i < bs.length, memByte t.mem (pa + i) = bs.getD i 0) ∧
      ∀ x, x < pa ∨ pa + bs.length ≤ x → memByte t.mem x = memByte s.mem x
    (∀ q p pa, g.packet? p.id = some (q, p) → g.present = true → r.guestFenced = false → g.mayEnd q p = true →
      field p.bytes 0 1 < 0xF0 → s.hubXlat r.guestPart (field p.bytes 8 8) (rights true) = .ok pa →
      (∃ t, exec (.guestCompletion p.id) s = .next t ∧ wrote t pa (leBytes 8 (field p.bytes 16 8)) ∧
        t.guest.packet? p.id = none ∧ t.ord = s.ord ++ [.guestRelease (field p.bytes 4 1)]) ∧
      ∀ (code : BitVec 16) (sev : BitVec 2), 0x8000 ≤ code.toNat → (sev = 1 ∨ sev = 2) → (s.hub.mcBank 31).en = true →
        (s.hub.mcBank 31).valid = false →
        ∃ t, exec (.guestFault p.id code sev) s = .next t ∧ wrote t pa (leBytes 8 (field p.bytes 16 8 + 2 ^ 63)) ∧
          t.guest.packet? p.id = none ∧ (t.hub.mcBank 31).valid = true ∧ (t.hub.mcBank 31).code = code.toNat ∧
          (t.hub.mcBank 31).sev = sev.toNat) ∧
    (∀ q p l, g.packet? p.id = some (q, p) → g.present = true → r.guestFenced = false → g.mayEnd q p = true →
      p.launch = some l → field p.bytes 0 1 = 0xF0 →
      ∀ pa, s.hubXlat r.guestPart (field p.bytes 8 8) (rights true) = .ok pa →
      ∃ t v, exec (.guestCompletion p.id) s = .next t ∧ wrote t pa (leBytes 8 v.toNat) ∧
        t.guest.packet? p.id = none ∧ t.guest.paused = g.paused ++ [(l, q)] ∧ t.guest.acks = g.acks ++ [(l, q, v)] ∧
        v.toNat / 2 = field p.bytes 16 8 / 2 ∧ t.ord = s.ord ++ [.guestRelease (field p.bytes 4 1)]) ∧
    (∀ watts temp : BitVec 8, g.present = true → ∃ t, exec (.guestReport watts temp) s = .next t ∧
      t.hub.regs = { r with guestWatts := watts.toNat, guestTemp := temp.toNat } ∧
      t.agenda = s.agenda ++ if 250 < watts.toNat then [.event .guestFence] else []) ∧
    (∀ va pa, g.present = true → r.guestFenced = false → g.held.length < 4096 →
      s.hubXlat r.guestPart va (rights false) = .ok pa → ∃ t, exec (.guestTranslation va) s = .next t ∧
        va / 65536 * 65536 ∈ t.guest.held ∧ (∀ x ∈ g.held, x ∈ t.guest.held) ∧ t.hub = s.hub) ∧
    (∀ va, va / 65536 ∈ g.invalidating → ∃ t, exec (.guestInvalAck va) s = .next t ∧
      (∀ x, x ∈ t.guest.held ↔ x ∈ g.held ∧ x / 65536 ≠ va / 65536) ∧ va / 65536 ∉ t.guest.invalidating) ∧
    (g.present = true → r.guestFenced = false → r.guestPart < 4 → (s.hub.mcBank 31).en = true →
      (s.hub.mcBank 31).valid = false → ∃ t, exec .guestFence s = .next t ∧ t.hub.regs.guestFenced = true ∧
        t.hub.regs.fencedPart = r.guestPart ∧
        t.guest.queues = [] ∧ t.guest.held = [] ∧ (t.hub.part r.guestPart).halted = true ∧
        (t.hub.mcBank 31).code = 0x0060 ∧
        ∀ l ∈ s.hub.launches, s.hub.partOf l = r.guestPart →
          ∃ m, t.hub.launch? l.id = some m ∧ m.fault.isSome = true) ∧
    (∀ x bs, g.present = true → r.guestFenced = false →
      ((∀ h ∈ g.held, h / 65536 ≠ x / 65536) → ∃ t, exec (.guestCoherentAccess (.write x bs)) s = .next t ∧
        t.agenda = s.agenda ++ [.event .guestFence] ∧ t.mem = s.mem) ∧
      ∀ pa, (∃ h ∈ g.held, h / 65536 = x / 65536) → x % 65536 + bs.length ≤ 65536 →
        s.hubXlat r.guestPart x (rights true) = .ok pa →
        ∃ t, exec (.guestCoherentAccess (.write x bs)) s = .next t ∧ wrote t pa bs ∧ t.agenda = s.agenda) ∧
    ∀ x bs, r.ready = true →
      (x + bs.length ≤ 0xC000000000 ∨ (0x10000000000 ≤ x ∧ x + bs.length ≤ 0x20000000000) →
        ∃ t, exec (.cxlMemAccess (.write x bs)) s = .next t ∧ wrote t x bs ∧
          t.core = { s.core with ways := t.core.ways } ∧
          (∀ l, l ∈ t.core.ways ↔ l ∈ s.core.ways ∧ l.line ∉ linesOf x bs.length) ∧ t.hub = s.hub ∧
          ∀ e ∈ t.l2, e.2.line ∉ linesOf x bs.length) ∧
      (0xC000000000 < x + bs.length → x + bs.length ≤ 0x10000000000 →
        ∃ t, exec (.cxlMemAccess (.write x bs)) s = .next t ∧ t.mem = s.mem ∧
          ((s.hub.mcBank 16).en = true → (s.hub.mcBank 16).valid = false → (t.hub.mcBank 16).valid = true ∧
            (t.hub.mcBank 16).code = 0x0020 ∧ (t.hub.mcBank 16).addr = BitVec.ofNat 64 x))

/-- R222, R223, R225, R226, R229, R231, R232, R236, R274, R176, R373: ECC_CORRECTED and UNCORRECTABLE_ERROR record their
error, and the latter reaches its consumer and repairs the row, or in the hub is fatal; DATAPATH_ERROR ends the launch of an unguarded bank
and returns a guarded one to its last CKPT, with the weight planes of that CKPT (log entry 25, DEDUCED); AUDIT_RERUN and AUDIT_DECIDE; SELFTEST_DONE, SPARE_SUBSTITUTE,
PARTITION_CELL_MOVE and SERVICE_RECORD_WRITE. -/
def Obligations.ErrorEvents : Prop :=
  ∀ (s : State),
    (∀ e : ErrorSite, e.bank < 26 → (s.hub.mcBank e.bank).en = true → (s.hub.mcBank e.bank).valid = false →
      (∃ t, exec (.eccCorrected e) s = .next t ∧ (t.hub.mcBank e.bank).valid = true ∧
        (t.hub.mcBank e.bank).sev = 1 ∧ (t.hub.mcBank e.bank).code = 1 ∧ (t.hub.mcBank e.bank).addr = e.addr ∧
        (t.hub.mcBank e.bank).count = 1 ∧ t.core.bank = s.core.bank) ∧
      (4 ≤ e.bank → e.bank < 16 → e.addr.toNat < 0xC000000000 → s.cur < 256 → s.core.bank.run = .active →
        ∃ t, exec (.uncorrectableError e (.primary s.cur)) s = .next t ∧ (t.hub.mcBank e.bank).sev = 2 ∧
          (t.hub.mcBank e.bank).code = 2 ∧ t.core.bank.run = .stopped ∧
          t.core.bank.cause.toNat % 256 = 0x20 ∧ readNat t.mem (e.addr.toNat / 8 * 8) 8 = 0 ∧
          (∀ x, x / 8 ≠ e.addr.toNat / 8 → memByte t.mem x = memByte s.mem x) ∧
          t.svc.record.rows = s.svc.record.rows ++ [e.addr.toNat / 8 * 8])) ∧
    (∀ (e : ErrorSite) (c : Consumer), e.bank = 16 → (s.hub.mcBank 16).en = true → (s.hub.mcBank 16).valid = false →
      ∃ t, exec (.uncorrectableError e c) s = .next t ∧ (t.hub.mcBank 16).code = 0x00F0 ∧ (t.hub.mcBank 16).sev = 3 ∧
        t.hub.regs.fatal = true ∧ ∀ p < 4, (t.hub.part p).halted = true) ∧
    (s.cur < 256 → s.core.bank.run = .active →
      let n := cellOf s.cur
      (s.core.bank.status.guard = false → ∃ t, exec (.datapathError s.cur) s = .next t ∧
        t.core.bank.run = .stopped ∧ t.core.bank.cause.toNat % 256 = 0x20 ∧
        (t.hub.cell n).susp = min 255 ((s.hub.cell n).susp + 8)) ∧
      ∀ b, s.core.bank.status.guard = true → s.core.bank.rerun = none → s.gang = none → s.core.shadow = some b →
        s.core.bank.undo = [] → ∃ t, exec (.datapathError s.cur) s = .next t ∧
          t.core.bank = { b with saved := Planes.none, rerun := some Rerun.first } ∧ t.core.planes = b.saved ∧
          t.core.store = s.core.store) ∧
    (∀ a k, s.hub.audits = [a] → s.hub.task? a.task = some k → k.id = a.task → a.decided = false → a.rerun = none →
      (a.digests.length = 1 → ∃ t x, exec (.auditRerun a.task) s = .next t ∧ t.hub.tasks = s.hub.tasks ++ [x] ∧
        x.id = s.hub.nextTask ∧ x.auditOf = some a.task ∧ x.prio = 0 ∧ x.run = .posted ∧ x.banned = a.cells ∧
        t.hub.nextTask = s.hub.nextTask + 1) ∧
      ∀ c0 c1, c0 < 64 → c1 < 64 → c0 ≠ c1 →
        let susp (t : State) (n : Nat) : Nat := (t.hub.cell n).susp
        (∀ x, a.cells = [c0, c1] → a.digests = [x, x] → ∃ t, exec (.auditDecide a.task) s = .next t ∧
          susp t c0 = susp s c0 - 1 ∧ susp t c1 = susp s c1 - 1 ∧ ∀ y ∈ t.hub.audits, y.decided = true) ∧
        (∀ x y, a.cells = [c0, c1] → a.digests = [x, y] → x ≠ y → ∃ t, exec (.auditDecide a.task) s = .next t ∧
          susp t c0 = min 255 (susp s c0 + 8) ∧ susp t c1 = min 255 (susp s c1 + 8)) ∧
        ∀ c2 x y, c2 < 64 → c2 ≠ c0 → c2 ≠ c1 → a.cells = [c0, c1, c2] → x ≠ y →
          (a.digests = [x, y, x] → ∃ t, exec (.auditDecide a.task) s = .next t ∧
            susp t c1 = min 255 (susp s c1 + 32) ∧ susp t c0 = susp s c0 - 4 ∧ susp t c2 = susp s c2 - 4) ∧
          (a.digests = [y, x, x] → ∃ t, exec (.auditDecide a.task) s = .next t ∧
            susp t c0 = min 255 (susp s c0 + 32) ∧ susp t c1 = susp s c1 - 4 ∧ susp t c2 = susp s c2 - 4)) ∧
    (∀ n kind, n < 64 → (s.hub.cell n).testing = some (kind, some s.cur) →
      (∃ t, exec (.selftestDone n true) s = .next t ∧ (t.hub.cell n).testing = none ∧ (t.hub.cell n).susp = 0 ∧
        (t.hub.cell n).run = (if (s.hub.cell n).run = .quarantined then .enabled else (s.hub.cell n).run) ∧
        t.core.pend = s.core.pend ||| 2 ∧ ∀ q < 4, (t.coreAt (4 * n + q)).store = []) ∧
      ∃ t, exec (.selftestDone n false) s = .next t ∧ (t.hub.cell n).run = .retired ∧
        t.svc.record.retired = s.svc.record.retired ++ [n] ∧ t.core.pend.getLsbD 1 = true) ∧
    (∀ p n m, s.hub.idle p = true →
      (List.range 64).find? (fun c => (s.hub.cell c).run == .retired && (s.hub.cell c).part == some p) = some n →
      (List.range 64).find? (fun c => (s.hub.cell c).run == .spare) = some m →
      ∃ t, exec (.spareSubstitute p) s = .next t ∧ (t.hub.cell m).run = .enabled ∧
        (t.hub.cell m).part = some p ∧ (t.hub.cell n).part = none ∧
        ∀ c < 64, c ≠ n → c ≠ m → t.hub.cell c = s.hub.cell c) ∧
    (∀ n p q, n < 64 → p < 4 → q < 4 → (s.hub.cell n).run = .enabled → (s.hub.cell n).testing = none →
      (s.hub.cell n).part = some p → s.hub.idle p = true → s.hub.idle q = true →
      ∃ t, exec (.partitionCellMove n (some q)) s = .next t ∧ (t.hub.cell n).part = some q ∧
        (∀ c < 64, c ≠ n → t.hub.cell c = s.hub.cell c) ∧
        ∃ u, exec (.partitionCellMove n none) s = .next u ∧ (u.hub.cell n).part = none) ∧
    exec .serviceRecordWrite s = .next { s with svc := { s.svc with flash := s.svc.record, dirty := false } }

/-! ### The step, the encoding, reset and the form of memory -/

/-- R289, R304, R31, R292: a step runs the decoded instruction. A step of an agent in the agenda (whose order is log
entry 2) is exec of it; one that may claim a core's ports or injection slot comes after the primary's part of that
core's cycle (R37). A turn of a core whose running bank is free to issue fetches the words at its pc; when they
are one bundle that holds the words of one well-formed instruction i, the step is exec of i on the bank at the start
of the bundle, its due results landed, followed by the end of the cycle; a bundle of several members is exec of each in
word order, then the end of the cycle; a raised cause stops the bundle on the state before it. A TRAP and a CPYW take effect after their bundle. A drift thread's turn is exec of its instruction as the
thread, which then goes on. -/
def Obligations.StepRunsDecoded : Prop :=
  (∀ (s : State) (i : Instr) (ts : List Turn), s.agenda = .event i :: ts → s.hub.regs.fatal = false →
    let s' : State := { s with agenda := ts }
    (s'.waitsFor i = none → step s = exec i s') ∧
    ∀ c, s'.waitsFor i = some c → step s = .next (s'.onCore c fun s =>
      s.setCore { s.core with due := s.core.due ++ [.event i] })) ∧
  (∀ (s : State) (c : Nat) (ts : List Turn), s.agenda = .core c :: ts → s.hub.regs.fatal = false → c < 256 →
    step s = ({ s with agenda := ts }.focus c).catchUp.coreTurn) ∧
  (∀ (s : State) (i : Instr) (w w1 : IWord) (ws : List IWord) (next : Nat), s.agenda = [] → s.hub.regs.fatal = false →
    s.agent = .primary → s.core.switching = none → s.core.bank.run = .active → s.core.bank.stall = 0 → s.gang = none →
    s.resumeDue = false → s.preemptDue = false → s.interruptDue = false → s.core.bank.kernel = none →
    let u := s.land_.boundary
    let b := u.core.bank
    b.waitPc = none → b.rerun = none → u.image.fetch b.pc.toNat b.byBranch = .ok (ws, next) →
    encode i = some [w] ∧ ws = [w ||| 0x80000000] ∨ encode i = some [w, w1] ∧ ws = [w ||| 0x80000000, w1] →
    WellFormed i →
    let xs : Bundle := [((classOf w).toNat, .ok i)]
    let v := u.setBank (b.begin_ (BitVec.ofNat 64 next) xs (u.bundleLeaf xs))
    v.bundleFault xs = none →
    isCpyw i = false → isTrap i = false →
    ∀ t, exec i (v.setBank { v.core.bank with sub := 0, vslot := 0, cslot := 0 }) = .next t →
      step s = .next (match t.core.bank.raised with
        | some r => u.bundleStops r
        | none => t.finish (v.emptySlots xs))) ∧
  (∀ (s : State) (ws : List IWord) (next : Nat) (is : List (Nat × Instr)), s.agenda = [] → s.hub.regs.fatal = false →
    s.agent = .primary → s.core.switching = none → s.core.bank.run = .active → s.core.bank.stall = 0 → s.gang = none →
    s.resumeDue = false → s.preemptDue = false → s.interruptDue = false → s.core.bank.kernel = none →
    let u := s.land_.boundary
    let b := u.core.bank
    b.waitPc = none → b.rerun = none → u.image.fetch b.pc.toNat b.byBranch = .ok (ws, next) →
    let xs : Bundle := is.map fun x => (x.1, .ok x.2)
    decodeBundle 16 ws = xs →
    let v := u.setBank (b.begin_ (BitVec.ofNat 64 next) xs (u.bundleLeaf xs))
    (∀ c, v.bundleFault xs = some c → step s = .next (u.bundleStops (Raised.of c))) ∧
    (v.bundleFault xs = none →
      (∀ x ∈ is, isCpyw x.2 = false ∧ isTrap x.2 = false ∧ isEret x.2 = false) →
      (∀ t, execInOrder is 0 0 0 v t → step s = .next (t.finish (v.emptySlots xs))) ∧
      ∀ ys y zs t w r, is = ys ++ y :: zs → execInOrder ys 0 0 0 v t →
        exec y.2 (t.setBank { t.core.bank with
          sub := ys.length
          vslot := (ys.filter fun x => x.1 == 2).length
          cslot := (ys.filter fun x => x.1 == 4).length }) = .next w →
        w.core.bank.raised = some r → step s = .next (u.bundleStops r))) ∧
  ∀ (s : State) (n k after : Nat) (i : Instr) (ts : List Turn), s.agenda = .drift n :: ts →
    let d : State := { s with agenda := ts, agent := .drift n }
    d.driftNext n = .run k (.ok i) after →
    ∀ t, exec i (d.setThread { d.thread with next := BitVec.ofNat 64 after, byBranch := false }) = .next t →
      step s = .next (t.driftOver n)

/-- R293 to R299, R306, R308, R309, R310, R312, R314: words written out from the layouts decode to the instructions
they stand for. They are the words that the spec assembles in its examples. -/
def Obligations.DecodeWords : Prop :=
  decodeWords 0x804D34EC 0 = .ok (.add { d := 13, a := 13, b := 14, g := 12 }) ∧
  decodeWords 0x880D3500 0 = .ok (.addi { d := 13, a := 13, imm := 256 }) ∧
  decodeWords 0x80000400 0 = .ok .nop ∧
  decodeWords 0xD281E304 0 = .ok (.loop { g := 0, a := 15, imm := 3 * 256 + 4 }) ∧
  decodeWords 0x914C0000 0x12 = .ok (.mfsr { d := 12, a := 0, g := 0, sub := 0, imm := 0x12 }) ∧
  decodeWords 0x20408200 0x00F0901C = .ok (.vfma { vd := 16, w := false, g := 8, km := 0, ha := false, hb := false, hc := false, a := 3, b := 0x309, c := 7, rnd := 0 }) ∧
  decodeWords 0xB0CC0C0B 0x00400000 = .ok (.mmulz { np := 3, acc := 0, plane := 0, mode := 3, g := 0, sn := 11, line := 0x40, useGen := false, gen := 0, t := false, rows := 0, rsv := 0 }) ∧
  decodeWords 0x40C2868C 0x10000000 = .ok (.stv { data := 20, sa := 13, cb := 0, g := 12, fmt := 1, hint := 0, scope := 0, sb := 0, imm := 0 }) ∧
  decodeWords 0x60000000 0 = .error .unassigned

/-- R293 to R299, R303: decoding and encoding agree, for every instruction that has words: the words of a well-formed
instruction decode to it, whatever their bundle-start bit, and they are as many as its class says; and words that
decode to an instruction are the words of that instruction, which is well formed. -/
def Obligations.RoundTrip : Prop :=
  (∀ (i : Instr) (ws : List IWord) (start : Bool), encode i = some ws → WellFormed i →
    classWords (classOf (ws.headD 0)).toNat = some ws.length ∧
    decodeWords (if start then ws.headD 0 ||| 0x80000000 else ws.headD 0) (ws.getD 1 0) = .ok i) ∧
  ∀ (w w1 : IWord) (i : Instr), decodeWords w w1 = .ok i →
    WellFormed i ∧ (encode i = some [w &&& 0x7FFFFFFF] ∨ encode i = some [w &&& 0x7FFFFFFF, w1])

/-- The form of the memories (the model's own, R4 and log entry 5): a step keeps every memory of the device in
canonical form: global memory, the window of every core, the attestation buffer and the lines of saved contexts. -/
def Obligations.MemoryStaysCanonical : Prop :=
  ∀ s t : State, s.memOk = true → step s = .next t → t.memOk = true

/-- R268, R15, R28, R43, R207, R228, R233, R267: the machine at reset: every register that the spec gives a reset
value holds it, the memories are in canonical form and read zero (log entry 5), and the hard-wired registers read as
they must; the first step is the power-on boot, which (with the fuses of log entry 8) enables the cells of the harvest
map as one partition, sets READY and leaves four spares. -/
def Obligations.ResetState : Prop :=
  let s := State.reset
  let b := s.core.bank
  s.memOk = true ∧ b.wired ∧ s.core.other.wired ∧
  (∀ n ∈ [0x04, 0x06, 0x07, 0x08, 0x09, 0x0A, 0x0B, 0x0E, 0x18, 0x19, 0x1A], s.sysRead n 0 = 0) ∧
  s.sysRead 0x1C 0 = 64 ∧
  (∀ c, s.vclk c = 0) ∧
  (∀ off ∈ [0x0008, 0x0010, 0x0018, 0x0020, 0x0100, 0x0108, 0x0110, 0x0120, 0x0128, 0x0130, 0x0138], s.regWord off = 0) ∧
  s.regWord 0x1000 = 0x40000 ∧
  (∀ n < 32, s.regWord (0x0400 + 32 * n) = 0 ∧
    s.regWord (0x0400 + 32 * n + 24) = if 26 ≤ n ∧ n ≤ 30 then 0 else 1) ∧
  (∀ a, memByte s.mem a = 0) ∧
  ∃ t, step s = .next t ∧ t.hub.regs.ready = true ∧ t.hub.regs.bootCode = 0 ∧ t.hub.launchCount = 0 ∧
    t.regWord 0x1000 = 0x40000 ∧
    ∀ n < 64, (s.svc.harvest.testBit n = true → (t.hub.cell n).run = .enabled ∧ (t.hub.cell n).part = some 0) ∧
      (s.svc.harvest.testBit n = false → (t.hub.cell n).run = .spare)
end

