-- ==== Sys2Proof/Laws/Mem.lean ====
section
/-! SUPPORT. Byte memories: every operation keeps the canonical form, and a read after a write. -/

namespace Sys2Proof.Machine

/-! ### The canonical form -/

/-- A memory in form from an address up is in form from any lower one. -/
theorem memWfFrom_mono {m : Mem} {lo lo' : Nat} (h : memWfFrom lo m = true) (hl : lo' ≤ lo) : memWfFrom lo' m = true := by
  cases m with
  | nil => rfl
  | cons e m => simp only [memWfFrom, Bool.and_eq_true, decide_eq_true_eq] at *; exact ⟨⟨by omega, h.1.2⟩, h.2⟩

/-- Below its lower bound a memory lists nothing. -/
theorem memByte_below {m : Mem} {lo a : Nat} (h : memWfFrom lo m = true) (ha : a < lo) : memByte m a = 0 := by
  induction m generalizing lo with
  | nil => rfl
  | cons e m ih =>
    simp only [memWfFrom, Bool.and_eq_true, decide_eq_true_eq] at h
    rw [memByte, if_neg (by omega), ih h.2 (by omega)]

theorem memWfFrom_del {m : Mem} {lo : Nat} (a : Nat) (h : memWfFrom lo m = true) : memWfFrom lo (memDel m a) = true := by
  induction m generalizing lo with
  | nil => rfl
  | cons e m ih =>
    rw [memDel]
    have h' := h
    simp only [memWfFrom, Bool.and_eq_true, decide_eq_true_eq] at h'
    split
    · exact memWfFrom_mono h'.2 (by omega)
    · split
      · simp only [memWfFrom, Bool.and_eq_true, decide_eq_true_eq]; exact ⟨h'.1, ih h'.2⟩
      · exact h

theorem memWfFrom_ins {m : Mem} {lo a : Nat} {b : Byte} (h : memWfFrom lo m = true) (ha : lo ≤ a) (hb : b ≠ 0) :
    memWfFrom lo (memIns m a b) = true := by
  induction m generalizing lo with
  | nil =>
    simp only [memIns, memWfFrom, Bool.and_eq_true, decide_eq_true_eq, bne_iff_ne]
    exact ⟨⟨ha, hb⟩, trivial⟩
  | cons e m ih =>
    have h' := h
    simp only [memWfFrom, Bool.and_eq_true, decide_eq_true_eq] at h'
    rw [memIns]
    split
    · simp only [memWfFrom, Bool.and_eq_true, decide_eq_true_eq]; exact ⟨h'.1, ih h'.2 (by omega)⟩
    · split
      · subst_vars
        simp only [memWfFrom, Bool.and_eq_true, decide_eq_true_eq, bne_iff_ne]
        exact ⟨⟨ha, hb⟩, h'.2⟩
      · simp only [memWfFrom, Bool.and_eq_true, decide_eq_true_eq, bne_iff_ne]
        exact ⟨⟨ha, hb⟩, ⟨by omega, by simpa using h'.1.2⟩, h'.2⟩

@[simp] theorem wf_memPut {m : Mem} (a : Nat) (b : Byte) (h : Mem.wf m = true) : Mem.wf (memPut m a b) = true := by
  unfold memPut; split
  · exact memWfFrom_del a h
  · exact memWfFrom_ins h (Nat.zero_le a) ‹_›

@[simp] theorem wf_writeBytes {m : Mem} (a : Nat) (bs : List Byte) (h : Mem.wf m = true) : Mem.wf (writeBytes m a bs) = true := by
  induction bs generalizing m a with
  | nil => exact h
  | cons b bs ih => exact ih _ (wf_memPut a b h)

theorem memWfFrom_filter {m : Mem} {lo : Nat} (p : Host.Cell → Bool) (h : memWfFrom lo m = true) :
    memWfFrom lo (m.filter p) = true := by
  induction m generalizing lo with
  | nil => rfl
  | cons e m ih =>
    simp only [memWfFrom, Bool.and_eq_true, decide_eq_true_eq] at h
    rw [List.filter_cons]
    split
    · simp only [memWfFrom, Bool.and_eq_true, decide_eq_true_eq]; exact ⟨h.1, ih h.2⟩
    · exact memWfFrom_mono (ih h.2) (by omega)

/-- A memory with entries removed is in form. -/
@[simp] theorem wf_filter {m : Mem} (p : Host.Cell → Bool) (h : Mem.wf m = true) : Mem.wf (m.filter p) = true :=
  memWfFrom_filter p h

@[simp] theorem wf_zeroRange {m : Mem} (a n : Nat) (h : Mem.wf m = true) : Mem.wf (zeroRange m a n) = true := wf_filter _ h

@[simp] theorem wf_zeroNew {m : Mem} (p : BitVec 65536) (a n : Nat) (h : Mem.wf m = true) : Mem.wf (zeroNew m p a n) = true :=
  wf_filter _ h

/-- A fold of operations that keep the form keeps it. -/
@[simp] theorem wf_foldl {α : Type} {f : Mem → α → Mem} (hf : ∀ m x, Mem.wf m = true → Mem.wf (f m x) = true) (xs : List α) {m : Mem}
    (h : Mem.wf m = true) : Mem.wf (xs.foldl f m) = true := by
  induction xs generalizing m with
  | nil => exact h
  | cons x xs ih => exact ih (hf m x h)

/-! ### A read after a write -/

theorem memByte_memDel {m : Mem} {lo : Nat} (h : memWfFrom lo m = true) (a x : Nat) :
    memByte (memDel m a) x = if x = a then 0 else memByte m x := by
  induction m generalizing lo with
  | nil => simp [memDel, memByte]
  | cons e m ih =>
    simp only [memWfFrom, Bool.and_eq_true, decide_eq_true_eq] at h
    rw [memDel]
    split
    · subst_vars
      split
      · subst_vars; exact memByte_below h.2 (by omega)
      · rw [memByte, if_neg (by omega)]
    · split
      · rw [memByte, ih h.2, memByte]; split <;> split <;> first | rfl | omega
      · split
        · subst_vars; rw [memByte, if_neg (by omega)]; exact memByte_below h.2 (by omega)
        · rfl

theorem memByte_memIns {m : Mem} (a x : Nat) (b : Byte) :
    memByte (memIns m a b) x = if x = a then b else memByte m x := by
  induction m with
  | nil => simp [memIns, memByte, eq_comm]
  | cons e m ih =>
    rw [memIns]
    split
    · rw [memByte, ih, memByte]; split <;> split <;> first | rfl | omega
    · split
      · simp only [memByte]; split <;> split <;> first | rfl | omega | (split <;> first | rfl | omega)
      · simp only [memByte]; split <;> split <;> first | rfl | omega | (split <;> first | rfl | omega)

/-- The byte written reads back, and every other address reads as before. -/
theorem memByte_memPut {m : Mem} (h : Mem.wf m = true) (a x : Nat) (b : Byte) :
    memByte (memPut m a b) x = if x = a then b else memByte m x := by
  unfold memPut; split
  · subst_vars; exact memByte_memDel h a x
  · exact memByte_memIns a x b

/-- Bytes written read back in order, and every address outside them reads as before. -/
theorem memByte_writeBytes {m : Mem} (h : Mem.wf m = true) (a x : Nat) (bs : List Byte) :
    memByte (writeBytes m a bs) x = if a ≤ x ∧ x < a + bs.length then bs.getD (x - a) 0 else memByte m x := by
  induction bs generalizing m a with
  | nil => rw [writeBytes, if_neg (by rw [List.length_nil]; omega)]
  | cons b bs ih =>
    rw [writeBytes, ih (wf_memPut a b h), memByte_memPut h]
    by_cases hx : x = a
    · subst hx; simp
    · by_cases hr : a + 1 ≤ x ∧ x < a + 1 + bs.length
      · rw [if_pos hr, if_pos (by rw [List.length_cons]; omega), show x - a = (x - (a + 1)) + 1 by omega, List.getD_cons_succ]
      · rw [if_neg hr, if_neg hx, if_neg (by rw [List.length_cons]; omega)]

/-- A write leaves the addresses below and above it alone. -/
theorem memByte_writeBytes_out {m : Mem} (h : Mem.wf m = true) {a x : Nat} {bs : List Byte} (hx : x < a ∨ a + bs.length ≤ x) :
    memByte (writeBytes m a bs) x = memByte m x := by
  rw [memByte_writeBytes h, if_neg (by omega)]

/-- A removed range reads zero, and every other address as before. -/
theorem memByte_filter {m : Mem} {lo : Nat} (h : memWfFrom lo m = true) (p : Nat → Bool) (x : Nat) :
    memByte (m.filter fun e => p e.1) x = if p x then memByte m x else 0 := by
  induction m generalizing lo with
  | nil => simp [memByte]
  | cons e m ih =>
    simp only [memWfFrom, Bool.and_eq_true, decide_eq_true_eq] at h
    rw [List.filter_cons]
    by_cases hx : e.1 = x
    · subst hx
      by_cases hp : p e.1
      · simp [hp, memByte]
      · simp only [hp, Bool.false_eq_true, if_false]
        rw [ih h.2]; simp [hp]
    · split
      · rw [memByte, if_neg hx, ih h.2, memByte, if_neg hx]
      · rw [ih h.2, memByte, if_neg hx]

/-! ### Little-endian words (R4) -/

@[simp] theorem length_leBytes (n v : Nat) : (leBytes n v).length = n := by
  induction n generalizing v with
  | zero => rfl
  | succ n ih => simp [leBytes, ih]

theorem leNat_leBytes (n v : Nat) : leNat (leBytes n v) = v % 256 ^ n := by
  induction n generalizing v with
  | zero => simp [leBytes, leNat, Nat.mod_one]
  | succ n ih =>
    rw [leBytes, leNat, ih, BitVec.toNat_ofNat, show 256 ^ (n + 1) = 256 * 256 ^ n by rw [Nat.pow_succ, Nat.mul_comm], Nat.mod_mul]

@[simp] theorem length_readBytes (m : Mem) (a n : Nat) : (readBytes m a n).length = n := by simp [readBytes]

/-- Bytes written from an address are read from it. -/
theorem readBytes_writeBytes {m : Mem} (h : Mem.wf m = true) (a : Nat) (bs : List Byte) :
    readBytes (writeBytes m a bs) a bs.length = bs := by
  apply List.ext_getElem
  · simp
  · intro i h1 h2
    simp only [readBytes, List.getElem_map, List.getElem_range]
    rw [memByte_writeBytes h, if_pos (by omega)]
    simp [List.getD, h2]

/-- R4: a word of n bytes written reads back modulo 256^n. -/
theorem readNat_writeBytes {m : Mem} (h : Mem.wf m = true) (a n v : Nat) :
    readNat (writeBytes m a (leBytes n v)) a n = v % 256 ^ n := by
  have := readBytes_writeBytes h a (leBytes n v)
  rw [length_leBytes] at this
  rw [readNat, this, leNat_leBytes]

/-! ### Sparse maps -/

theorem sget_sput {α : Type} (m : SMap α) (k j : Nat) (v : α) : sget (sput m k v) j = if j = k then some v else sget m j := by
  induction m with
  | nil => simp [sput, sget, eq_comm]
  | cons e m ih =>
    rw [sput]
    split
    · rw [sget, ih, sget]; split <;> split <;> first | rfl | omega
    · split
      · simp only [sget]; split <;> split <;> first | rfl | omega | (split <;> first | rfl | omega)
      · simp only [sget]; split <;> split <;> first | rfl | omega | (split <;> first | rfl | omega)

/-- Every value of a map with a key set is the new one or one of the old. -/
theorem sput_all {α : Type} {m : SMap α} {k : Nat} {v : α} {p : Nat × α → Bool} (hm : m.all p = true) (hv : p (k, v) = true) :
    (sput m k v).all p = true := by
  induction m with
  | nil => simp [sput, hv]
  | cons e m ih =>
    simp only [List.all_cons, Bool.and_eq_true] at hm
    rw [sput]; split
    · simp [hm.1, ih hm.2]
    · split <;> simp_all

theorem sget_all {α : Type} {m : SMap α} {k : Nat} {v : α} {p : Nat × α → Bool} (hm : m.all p = true) (h : sget m k = some v) :
    p (k, v) = true := by
  induction m with
  | nil => simp [sget] at h
  | cons e m ih =>
    simp only [List.all_cons, Bool.and_eq_true] at hm
    rw [sget] at h; split at h
    · obtain rfl := Option.some.inj h; subst_vars; exact hm.1
    · exact ih hm.2 h

end Sys2Proof.Machine
end

