-- ==== Sys2Proof/Laws/Regs.lean ====
section
/-! SUPPORT. The register accessors: what a write to a register leaves in it and in the others, and the hard-wired
ones. -/

namespace Sys2Proof.Machine

/-! ### Scalar registers (R15, R301) -/

@[simp] theorem Bank.sreg_zero (b : Bank) : b.sreg 0#6 = 0 := rfl

/-- A write to a scalar register: s0 reads zero, the register named reads the value, every other as before. -/
theorem Bank.setS_sregN (b : Bank) (n : Nat) (v : Word) (m : Nat) (hm : m < 64) (hn : n < 64) :
    (b.setS n v).sregN m = if m = 0 then 0 else if m = n then v else b.sregN m := by
  unfold Bank.sregN Bank.sreg Bank.setS
  have h0 : (BitVec.ofNat 6 m = 0) ↔ m = 0 := by
    constructor
    · intro h; have := congrArg BitVec.toNat h; simp at this; omega
    · rintro rfl; rfl
  have hm2 : m % 64 = m := Nat.mod_eq_of_lt hm
  by_cases hz : m = 0
  · simp [hz]
  · by_cases h1 : n = 0
    · subst h1; simp [hz]
    · simp only [hn, h1, dite_true, if_false, h0, hz]
      simp only [Vector.getElem_set, BitVec.toNat_ofNat, Nat.reducePow, hm2, eq_comm (a := n)]

/-- A write to s0 is discarded. -/
@[simp] theorem Bank.setS_zero (b : Bank) (v : Word) : b.setS 0 v = b := rfl

/-- A write to a scalar register changes nothing but the scalar registers. -/
theorem Bank.setS_frame (b : Bank) (n : Nat) (v : Word) : b.setS n v = { b with s := (b.setS n v).s } := by
  unfold Bank.setS; split
  · split <;> rfl
  · rfl

/-! ### Predicates and masks (R28, R301) -/

@[simp] theorem Bank.pred_zero (b : Bank) : b.pred 0#4 = true := rfl

/-- A write to a predicate: p0 reads true, the one named reads the value, every other as before. -/
theorem Bank.setP_pred (b : Bank) (n : Nat) (v : Bool) (m : BitVec 4) (hn : n < 16) :
    (b.setP n v).pred m = if m = 0 then true else if m.toNat = n then v else b.pred m := by
  unfold Bank.pred Bank.setP
  by_cases hm : m = 0
  · simp [hm]
  · have : m.toNat ≠ 0 := fun h => hm (by apply BitVec.eq_of_toNat_eq; simpa using h)
    by_cases h1 : n = 0
    · subst h1; simp only [if_neg hm, if_neg this]; rfl
    · simp only [hn, h1, hm, dite_true, if_false]
      simp only [Vector.getElem_set, eq_comm (a := n)]

@[simp] theorem Bank.setP_zero (b : Bank) (v : Bool) : b.setP 0 v = b := rfl

/-- A write to a predicate changes nothing but the predicates. -/
theorem Bank.setP_frame (b : Bank) (n : Nat) (v : Bool) : b.setP n v = { b with p := (b.setP n v).p } := by
  unfold Bank.setP; split
  · split <;> rfl
  · rfl

@[simp] theorem Bank.mask_zero (b : Bank) : b.mask 0#3 = BitVec.allOnes 2048 := rfl

/-- A write to a mask: k0 reads all ones, the one named reads the value, every other as before. -/
theorem Bank.setK_mask (b : Bank) (n : Nat) (v : VBits) (m : BitVec 3) (hn : n < 8) :
    (b.setK n v).mask m = if m = 0 then BitVec.allOnes 2048 else if m.toNat = n then v else b.mask m := by
  unfold Bank.mask Bank.setK
  by_cases hm : m = 0
  · simp [hm]
  · have : m.toNat ≠ 0 := fun h => hm (by apply BitVec.eq_of_toNat_eq; simpa using h)
    by_cases h1 : n = 0
    · subst h1; simp only [if_neg hm, if_neg this]; rfl
    · simp only [hn, h1, hm, dite_true, if_false]
      simp only [Vector.getElem_set, eq_comm (a := n)]

@[simp] theorem Bank.setK_zero (b : Bank) (v : VBits) : b.setK 0 v = b := rfl

/-- A write to a mask changes nothing but the masks. -/
theorem Bank.setK_frame (b : Bank) (n : Nat) (v : VBits) : b.setK n v = { b with k := (b.setK n v).k } := by
  unfold Bank.setK; split
  · split <;> rfl
  · rfl

/-! ### Branch targets, vector registers, barriers -/

/-- A write to a branch-target register. -/
theorem Bank.setB_breg (b : Bank) (n : Nat) (v : Word) (m : Nat) (hn : n < 8) (hm : m < 8) :
    (b.setB n v).breg m = if m = n then v else b.breg m := by
  unfold Bank.breg Bank.setB
  simp only [hn, hm, dite_true, Vector.getElem_set, eq_comm (a := n)]

/-- A write to a branch-target register changes nothing else. -/
theorem Bank.setB_frame (b : Bank) (n : Nat) (v : Word) : b.setB n v = { b with b := (b.setB n v).b } := by
  unfold Bank.setB; split <;> rfl

/-- A barrier replaced reads back, and every other barrier as before. -/
theorem Bank.setCb_cb (b : Bank) (n : Nat) (c : Barrier) (m : Nat) (hn : n < 8) (hm : m < 8) :
    (b.setCb n c).cb m = if m = n then c else b.cb m := by
  unfold Bank.cb Bank.setCb
  simp only [hn, hm, dite_true, Vector.getElem_set, eq_comm (a := n)]

/-- A barrier replaced changes nothing else. -/
theorem Bank.setCb_frame (b : Bank) (n : Nat) (c : Barrier) : b.setCb n c = { b with cbs := (b.setCb n c).cbs } := by
  unfold Bank.setCb; split <;> rfl

@[simp] theorem Bank.setFlags_none (b : Bank) : b.setFlags 0 = b := by
  simp [Bank.setFlags]

/-! ### Drift registers (R31, R301) -/

@[simp] theorem Thread.dreg_zero (t : Thread) : t.dreg 0#6 = 0 := rfl

@[simp] theorem Thread.pred_zero (t : Thread) : t.pred 0 = true := rfl

/-- A write to a drift register: d0 reads zero, the one named reads the value, every other as before. -/
theorem Thread.setD_dreg (t : Thread) (n : Nat) (v : Word) (m : BitVec 6) (hm : m.toNat < 32) (hn : n < 32) :
    (t.setD n v).dreg m = if m = 0 then 0 else if m.toNat = n then v else t.dreg m := by
  by_cases hz : m = 0
  · subst hz; rfl
  · have : m.toNat ≠ 0 := fun h => hz (by apply BitVec.eq_of_toNat_eq; simpa using h)
    by_cases h1 : n = 0
    · subst h1; rw [show t.setD 0 v = t from rfl, if_neg hz, if_neg this]
    · unfold Thread.dreg Thread.setD
      simp only [hn, h1, hz, hm, dite_true, if_false]
      simp only [Vector.getElem_set, eq_comm (a := n)]

/-- A write to a drift register changes nothing else. -/
theorem Thread.setD_frame (t : Thread) (n : Nat) (v : Word) : t.setD n v = { t with d := (t.setD n v).d } := by
  unfold Thread.setD; split
  · split <;> rfl
  · rfl

/-- A thread replaced reads back, and every other thread as before. -/
theorem Core.setThread_thread (c : Core) (n : Nat) (t : Thread) (m : Nat) (hn : n < 8) (hm : m < 8) :
    (c.setThread n t).thread m = if m = n then t else c.thread m := by
  unfold Core.thread Core.setThread
  simp only [hn, hm, dite_true, Vector.getElem_set, eq_comm (a := n)]

/-! ### Results in flight (R15) -/

@[simp] theorem Bank.addPend_pend (b : Bank) (lat : Nat) (e : Eff) (u : Nat) (f : BitVec 3) :
    (b.addPend lat e u f).pend = b.pend ++ [{ due := b.tick + lat, seq := b.seq, eff := e, unit := u, flags := f }] := rfl

/-- A result in flight changes nothing but `pend`. -/
theorem Bank.addPend_frame (b : Bank) (lat : Nat) (e : Eff) (u : Nat) (f : BitVec 3) :
    b.addPend lat e u f = { b with pend := (b.addPend lat e u f).pend } := rfl

/-- R377: a merge takes the new bits where the mask stands and keeps the old ones elsewhere. -/
theorem mergedV_bit (old : VReg) (t : Tag) (bits k : VBits) (i : Nat) :
    (mergedV old t bits k).bits.getLsbD i = if k.getLsbD i then bits.getLsbD i else old.bits.getLsbD i := by
  by_cases hi : i < 2048
  · simp only [mergedV, BitVec.getLsbD_or, BitVec.getLsbD_and, BitVec.getLsbD_not, hi, decide_true, Bool.true_and]
    cases k.getLsbD i <;> simp
  · have h1 := BitVec.getLsbD_of_ge bits i (by omega)
    have h2 := BitVec.getLsbD_of_ge old.bits i (by omega)
    have h3 := BitVec.getLsbD_of_ge k i (by omega)
    have h4 := BitVec.getLsbD_of_ge (mergedV old t bits k).bits i (by omega)
    simp [h2, h3, h4]

end Sys2Proof.Machine
end

