-- ==== Sys2Proof/Laws/State.lean ====
section
/-! SUPPORT. One lemma per field for each update of the state, so that no proof unfolds a record update. -/

namespace Sys2Proof.Machine

/-! ### The running bank -/

@[simp] theorem State.setBank_core (s : State) (b : Bank) : (s.setBank b).core = { s.core with bank := b } := rfl
@[simp] theorem State.setBank_cur (s : State) (b : Bank) : (s.setBank b).cur = s.cur := rfl
@[simp] theorem State.setBank_others (s : State) (b : Bank) : (s.setBank b).others = s.others := rfl
@[simp] theorem State.setBank_agent (s : State) (b : Bank) : (s.setBank b).agent = s.agent := rfl
@[simp] theorem State.setBank_agenda (s : State) (b : Bank) : (s.setBank b).agenda = s.agenda := rfl
@[simp] theorem State.setBank_mem (s : State) (b : Bank) : (s.setBank b).mem = s.mem := rfl
@[simp] theorem State.setBank_llc (s : State) (b : Bank) : (s.setBank b).llc = s.llc := rfl
@[simp] theorem State.setBank_ops (s : State) (b : Bank) : (s.setBank b).ops = s.ops := rfl
@[simp] theorem State.setBank_nextOp (s : State) (b : Bank) : (s.setBank b).nextOp = s.nextOp := rfl
@[simp] theorem State.setBank_clocks (s : State) (b : Bank) : (s.setBank b).clocks = s.clocks := rfl
@[simp] theorem State.setBank_held (s : State) (b : Bank) : (s.setBank b).held = s.held := rfl
@[simp] theorem State.setBank_l2 (s : State) (b : Bank) : (s.setBank b).l2 = s.l2 := rfl
@[simp] theorem State.setBank_reserve (s : State) (b : Bank) : (s.setBank b).reserve = s.reserve := rfl
@[simp] theorem State.setBank_ord (s : State) (b : Bank) : (s.setBank b).ord = s.ord := rfl
@[simp] theorem State.setBank_hub (s : State) (b : Bank) : (s.setBank b).hub = s.hub := rfl
@[simp] theorem State.setBank_ports (s : State) (b : Bank) : (s.setBank b).ports = s.ports := rfl
@[simp] theorem State.setBank_guest (s : State) (b : Bank) : (s.setBank b).guest = s.guest := rfl
@[simp] theorem State.setBank_svc (s : State) (b : Bank) : (s.setBank b).svc = s.svc := rfl
@[simp] theorem State.setBank_dieClock (s : State) (b : Bank) : (s.setBank b).dieClock = s.dieClock := rfl
@[simp] theorem State.setBank_free (s : State) (b : Bank) : (s.setBank b).free = s.free := rfl

/-! ### The core -/

@[simp] theorem State.setCore_core (s : State) (c : Core) : (s.setCore c).core = c := rfl
@[simp] theorem State.setCore_cur (s : State) (c : Core) : (s.setCore c).cur = s.cur := rfl
@[simp] theorem State.setCore_others (s : State) (c : Core) : (s.setCore c).others = s.others := rfl
@[simp] theorem State.setCore_agent (s : State) (c : Core) : (s.setCore c).agent = s.agent := rfl
@[simp] theorem State.setCore_agenda (s : State) (c : Core) : (s.setCore c).agenda = s.agenda := rfl
@[simp] theorem State.setCore_mem (s : State) (c : Core) : (s.setCore c).mem = s.mem := rfl
@[simp] theorem State.setCore_llc (s : State) (c : Core) : (s.setCore c).llc = s.llc := rfl
@[simp] theorem State.setCore_ops (s : State) (c : Core) : (s.setCore c).ops = s.ops := rfl
@[simp] theorem State.setCore_nextOp (s : State) (c : Core) : (s.setCore c).nextOp = s.nextOp := rfl
@[simp] theorem State.setCore_clocks (s : State) (c : Core) : (s.setCore c).clocks = s.clocks := rfl
@[simp] theorem State.setCore_held (s : State) (c : Core) : (s.setCore c).held = s.held := rfl
@[simp] theorem State.setCore_l2 (s : State) (c : Core) : (s.setCore c).l2 = s.l2 := rfl
@[simp] theorem State.setCore_reserve (s : State) (c : Core) : (s.setCore c).reserve = s.reserve := rfl
@[simp] theorem State.setCore_ord (s : State) (c : Core) : (s.setCore c).ord = s.ord := rfl
@[simp] theorem State.setCore_hub (s : State) (c : Core) : (s.setCore c).hub = s.hub := rfl
@[simp] theorem State.setCore_ports (s : State) (c : Core) : (s.setCore c).ports = s.ports := rfl
@[simp] theorem State.setCore_guest (s : State) (c : Core) : (s.setCore c).guest = s.guest := rfl
@[simp] theorem State.setCore_svc (s : State) (c : Core) : (s.setCore c).svc = s.svc := rfl
@[simp] theorem State.setCore_dieClock (s : State) (c : Core) : (s.setCore c).dieClock = s.dieClock := rfl
@[simp] theorem State.setCore_free (s : State) (c : Core) : (s.setCore c).free = s.free := rfl

/-! ### The hub -/

@[simp] theorem State.setHub_core (s : State) (h : Hub) : (s.setHub h).core = s.core := rfl
@[simp] theorem State.setHub_cur (s : State) (h : Hub) : (s.setHub h).cur = s.cur := rfl
@[simp] theorem State.setHub_others (s : State) (h : Hub) : (s.setHub h).others = s.others := rfl
@[simp] theorem State.setHub_agent (s : State) (h : Hub) : (s.setHub h).agent = s.agent := rfl
@[simp] theorem State.setHub_agenda (s : State) (h : Hub) : (s.setHub h).agenda = s.agenda := rfl
@[simp] theorem State.setHub_mem (s : State) (h : Hub) : (s.setHub h).mem = s.mem := rfl
@[simp] theorem State.setHub_llc (s : State) (h : Hub) : (s.setHub h).llc = s.llc := rfl
@[simp] theorem State.setHub_ops (s : State) (h : Hub) : (s.setHub h).ops = s.ops := rfl
@[simp] theorem State.setHub_nextOp (s : State) (h : Hub) : (s.setHub h).nextOp = s.nextOp := rfl
@[simp] theorem State.setHub_clocks (s : State) (h : Hub) : (s.setHub h).clocks = s.clocks := rfl
@[simp] theorem State.setHub_held (s : State) (h : Hub) : (s.setHub h).held = s.held := rfl
@[simp] theorem State.setHub_l2 (s : State) (h : Hub) : (s.setHub h).l2 = s.l2 := rfl
@[simp] theorem State.setHub_reserve (s : State) (h : Hub) : (s.setHub h).reserve = s.reserve := rfl
@[simp] theorem State.setHub_ord (s : State) (h : Hub) : (s.setHub h).ord = s.ord := rfl
@[simp] theorem State.setHub_hub (s : State) (h : Hub) : (s.setHub h).hub = h := rfl
@[simp] theorem State.setHub_ports (s : State) (h : Hub) : (s.setHub h).ports = s.ports := rfl
@[simp] theorem State.setHub_guest (s : State) (h : Hub) : (s.setHub h).guest = s.guest := rfl
@[simp] theorem State.setHub_svc (s : State) (h : Hub) : (s.setHub h).svc = s.svc := rfl
@[simp] theorem State.setHub_dieClock (s : State) (h : Hub) : (s.setHub h).dieClock = s.dieClock := rfl
@[simp] theorem State.setHub_free (s : State) (h : Hub) : (s.setHub h).free = s.free := rfl

/-! ### The hub's registers -/

@[simp] theorem State.setRegs_core (s : State) (r : HubRegs) : (s.setRegs r).core = s.core := rfl
@[simp] theorem State.setRegs_cur (s : State) (r : HubRegs) : (s.setRegs r).cur = s.cur := rfl
@[simp] theorem State.setRegs_others (s : State) (r : HubRegs) : (s.setRegs r).others = s.others := rfl
@[simp] theorem State.setRegs_agent (s : State) (r : HubRegs) : (s.setRegs r).agent = s.agent := rfl
@[simp] theorem State.setRegs_agenda (s : State) (r : HubRegs) : (s.setRegs r).agenda = s.agenda := rfl
@[simp] theorem State.setRegs_mem (s : State) (r : HubRegs) : (s.setRegs r).mem = s.mem := rfl
@[simp] theorem State.setRegs_llc (s : State) (r : HubRegs) : (s.setRegs r).llc = s.llc := rfl
@[simp] theorem State.setRegs_ops (s : State) (r : HubRegs) : (s.setRegs r).ops = s.ops := rfl
@[simp] theorem State.setRegs_nextOp (s : State) (r : HubRegs) : (s.setRegs r).nextOp = s.nextOp := rfl
@[simp] theorem State.setRegs_clocks (s : State) (r : HubRegs) : (s.setRegs r).clocks = s.clocks := rfl
@[simp] theorem State.setRegs_held (s : State) (r : HubRegs) : (s.setRegs r).held = s.held := rfl
@[simp] theorem State.setRegs_l2 (s : State) (r : HubRegs) : (s.setRegs r).l2 = s.l2 := rfl
@[simp] theorem State.setRegs_reserve (s : State) (r : HubRegs) : (s.setRegs r).reserve = s.reserve := rfl
@[simp] theorem State.setRegs_ord (s : State) (r : HubRegs) : (s.setRegs r).ord = s.ord := rfl
@[simp] theorem State.setRegs_hub (s : State) (r : HubRegs) : (s.setRegs r).hub = { s.hub with regs := r } := rfl
@[simp] theorem State.setRegs_ports (s : State) (r : HubRegs) : (s.setRegs r).ports = s.ports := rfl
@[simp] theorem State.setRegs_guest (s : State) (r : HubRegs) : (s.setRegs r).guest = s.guest := rfl
@[simp] theorem State.setRegs_svc (s : State) (r : HubRegs) : (s.setRegs r).svc = s.svc := rfl
@[simp] theorem State.setRegs_dieClock (s : State) (r : HubRegs) : (s.setRegs r).dieClock = s.dieClock := rfl
@[simp] theorem State.setRegs_free (s : State) (r : HubRegs) : (s.setRegs r).free = s.free := rfl

/-! ### Turns that follow -/

@[simp] theorem State.later_core (s : State) (ts : List Turn) : (s.later ts).core = s.core := rfl
@[simp] theorem State.later_cur (s : State) (ts : List Turn) : (s.later ts).cur = s.cur := rfl
@[simp] theorem State.later_others (s : State) (ts : List Turn) : (s.later ts).others = s.others := rfl
@[simp] theorem State.later_agent (s : State) (ts : List Turn) : (s.later ts).agent = s.agent := rfl
@[simp] theorem State.later_agenda (s : State) (ts : List Turn) : (s.later ts).agenda = s.agenda ++ ts := rfl
@[simp] theorem State.later_mem (s : State) (ts : List Turn) : (s.later ts).mem = s.mem := rfl
@[simp] theorem State.later_llc (s : State) (ts : List Turn) : (s.later ts).llc = s.llc := rfl
@[simp] theorem State.later_ops (s : State) (ts : List Turn) : (s.later ts).ops = s.ops := rfl
@[simp] theorem State.later_nextOp (s : State) (ts : List Turn) : (s.later ts).nextOp = s.nextOp := rfl
@[simp] theorem State.later_clocks (s : State) (ts : List Turn) : (s.later ts).clocks = s.clocks := rfl
@[simp] theorem State.later_held (s : State) (ts : List Turn) : (s.later ts).held = s.held := rfl
@[simp] theorem State.later_l2 (s : State) (ts : List Turn) : (s.later ts).l2 = s.l2 := rfl
@[simp] theorem State.later_reserve (s : State) (ts : List Turn) : (s.later ts).reserve = s.reserve := rfl
@[simp] theorem State.later_ord (s : State) (ts : List Turn) : (s.later ts).ord = s.ord := rfl
@[simp] theorem State.later_hub (s : State) (ts : List Turn) : (s.later ts).hub = s.hub := rfl
@[simp] theorem State.later_ports (s : State) (ts : List Turn) : (s.later ts).ports = s.ports := rfl
@[simp] theorem State.later_guest (s : State) (ts : List Turn) : (s.later ts).guest = s.guest := rfl
@[simp] theorem State.later_svc (s : State) (ts : List Turn) : (s.later ts).svc = s.svc := rfl
@[simp] theorem State.later_dieClock (s : State) (ts : List Turn) : (s.later ts).dieClock = s.dieClock := rfl
@[simp] theorem State.later_free (s : State) (ts : List Turn) : (s.later ts).free = s.free := rfl

/-! ### A turn at once -/

@[simp] theorem State.again_core (s : State)  : (s.again).core = s.core := rfl
@[simp] theorem State.again_cur (s : State)  : (s.again).cur = s.cur := rfl
@[simp] theorem State.again_others (s : State)  : (s.again).others = s.others := rfl
@[simp] theorem State.again_agent (s : State)  : (s.again).agent = s.agent := rfl
@[simp] theorem State.again_agenda (s : State)  : (s.again).agenda = .core s.cur :: s.agenda.filter (· != .core s.cur) := rfl
@[simp] theorem State.again_mem (s : State)  : (s.again).mem = s.mem := rfl
@[simp] theorem State.again_llc (s : State)  : (s.again).llc = s.llc := rfl
@[simp] theorem State.again_ops (s : State)  : (s.again).ops = s.ops := rfl
@[simp] theorem State.again_nextOp (s : State)  : (s.again).nextOp = s.nextOp := rfl
@[simp] theorem State.again_clocks (s : State)  : (s.again).clocks = s.clocks := rfl
@[simp] theorem State.again_held (s : State)  : (s.again).held = s.held := rfl
@[simp] theorem State.again_l2 (s : State)  : (s.again).l2 = s.l2 := rfl
@[simp] theorem State.again_reserve (s : State)  : (s.again).reserve = s.reserve := rfl
@[simp] theorem State.again_ord (s : State)  : (s.again).ord = s.ord := rfl
@[simp] theorem State.again_hub (s : State)  : (s.again).hub = s.hub := rfl
@[simp] theorem State.again_ports (s : State)  : (s.again).ports = s.ports := rfl
@[simp] theorem State.again_guest (s : State)  : (s.again).guest = s.guest := rfl
@[simp] theorem State.again_svc (s : State)  : (s.again).svc = s.svc := rfl
@[simp] theorem State.again_dieClock (s : State)  : (s.again).dieClock = s.dieClock := rfl
@[simp] theorem State.again_free (s : State)  : (s.again).free = s.free := rfl

/-! ### A result in flight -/

@[simp] theorem State.result_core (s : State) (lat : Nat) (e : Eff) : (s.result lat e).core = { s.core with bank := s.core.bank.addPend lat e 4 0 } := rfl
@[simp] theorem State.result_cur (s : State) (lat : Nat) (e : Eff) : (s.result lat e).cur = s.cur := rfl
@[simp] theorem State.result_others (s : State) (lat : Nat) (e : Eff) : (s.result lat e).others = s.others := rfl
@[simp] theorem State.result_agent (s : State) (lat : Nat) (e : Eff) : (s.result lat e).agent = s.agent := rfl
@[simp] theorem State.result_agenda (s : State) (lat : Nat) (e : Eff) : (s.result lat e).agenda = s.agenda := rfl
@[simp] theorem State.result_mem (s : State) (lat : Nat) (e : Eff) : (s.result lat e).mem = s.mem := rfl
@[simp] theorem State.result_llc (s : State) (lat : Nat) (e : Eff) : (s.result lat e).llc = s.llc := rfl
@[simp] theorem State.result_ops (s : State) (lat : Nat) (e : Eff) : (s.result lat e).ops = s.ops := rfl
@[simp] theorem State.result_nextOp (s : State) (lat : Nat) (e : Eff) : (s.result lat e).nextOp = s.nextOp := rfl
@[simp] theorem State.result_clocks (s : State) (lat : Nat) (e : Eff) : (s.result lat e).clocks = s.clocks := rfl
@[simp] theorem State.result_held (s : State) (lat : Nat) (e : Eff) : (s.result lat e).held = s.held := rfl
@[simp] theorem State.result_l2 (s : State) (lat : Nat) (e : Eff) : (s.result lat e).l2 = s.l2 := rfl
@[simp] theorem State.result_reserve (s : State) (lat : Nat) (e : Eff) : (s.result lat e).reserve = s.reserve := rfl
@[simp] theorem State.result_ord (s : State) (lat : Nat) (e : Eff) : (s.result lat e).ord = s.ord := rfl
@[simp] theorem State.result_hub (s : State) (lat : Nat) (e : Eff) : (s.result lat e).hub = s.hub := rfl
@[simp] theorem State.result_ports (s : State) (lat : Nat) (e : Eff) : (s.result lat e).ports = s.ports := rfl
@[simp] theorem State.result_guest (s : State) (lat : Nat) (e : Eff) : (s.result lat e).guest = s.guest := rfl
@[simp] theorem State.result_svc (s : State) (lat : Nat) (e : Eff) : (s.result lat e).svc = s.svc := rfl
@[simp] theorem State.result_dieClock (s : State) (lat : Nat) (e : Eff) : (s.result lat e).dieClock = s.dieClock := rfl
@[simp] theorem State.result_free (s : State) (lat : Nat) (e : Eff) : (s.result lat e).free = s.free := rfl

/-! ### A turn of a core -/

theorem State.rouse_eq (s : State) (c : Nat) : s.rouse c = { s with agenda := if s.agenda.contains (.core c) then s.agenda else s.agenda ++ [.core c] } := by
  unfold State.rouse; split <;> simp_all [State.later]

@[simp] theorem State.rouse_core (s : State) (c : Nat) : (s.rouse c).core = s.core := by rw [State.rouse_eq]
@[simp] theorem State.rouse_cur (s : State) (c : Nat) : (s.rouse c).cur = s.cur := by rw [State.rouse_eq]
@[simp] theorem State.rouse_others (s : State) (c : Nat) : (s.rouse c).others = s.others := by rw [State.rouse_eq]
@[simp] theorem State.rouse_agent (s : State) (c : Nat) : (s.rouse c).agent = s.agent := by rw [State.rouse_eq]
@[simp] theorem State.rouse_mem (s : State) (c : Nat) : (s.rouse c).mem = s.mem := by rw [State.rouse_eq]
@[simp] theorem State.rouse_llc (s : State) (c : Nat) : (s.rouse c).llc = s.llc := by rw [State.rouse_eq]
@[simp] theorem State.rouse_ops (s : State) (c : Nat) : (s.rouse c).ops = s.ops := by rw [State.rouse_eq]
@[simp] theorem State.rouse_nextOp (s : State) (c : Nat) : (s.rouse c).nextOp = s.nextOp := by rw [State.rouse_eq]
@[simp] theorem State.rouse_clocks (s : State) (c : Nat) : (s.rouse c).clocks = s.clocks := by rw [State.rouse_eq]
@[simp] theorem State.rouse_held (s : State) (c : Nat) : (s.rouse c).held = s.held := by rw [State.rouse_eq]
@[simp] theorem State.rouse_l2 (s : State) (c : Nat) : (s.rouse c).l2 = s.l2 := by rw [State.rouse_eq]
@[simp] theorem State.rouse_reserve (s : State) (c : Nat) : (s.rouse c).reserve = s.reserve := by rw [State.rouse_eq]
@[simp] theorem State.rouse_ord (s : State) (c : Nat) : (s.rouse c).ord = s.ord := by rw [State.rouse_eq]
@[simp] theorem State.rouse_hub (s : State) (c : Nat) : (s.rouse c).hub = s.hub := by rw [State.rouse_eq]
@[simp] theorem State.rouse_ports (s : State) (c : Nat) : (s.rouse c).ports = s.ports := by rw [State.rouse_eq]
@[simp] theorem State.rouse_guest (s : State) (c : Nat) : (s.rouse c).guest = s.guest := by rw [State.rouse_eq]
@[simp] theorem State.rouse_svc (s : State) (c : Nat) : (s.rouse c).svc = s.svc := by rw [State.rouse_eq]
@[simp] theorem State.rouse_dieClock (s : State) (c : Nat) : (s.rouse c).dieClock = s.dieClock := by rw [State.rouse_eq]
@[simp] theorem State.rouse_free (s : State) (c : Nat) : (s.rouse c).free = s.free := by rw [State.rouse_eq]

/-! ### The thread whose turn it is -/

@[simp] theorem State.setThread_cur (s : State) (t : Thread) : (s.setThread t).cur = s.cur := by
  unfold State.setThread; split <;> rfl
@[simp] theorem State.setThread_others (s : State) (t : Thread) : (s.setThread t).others = s.others := by
  unfold State.setThread; split <;> rfl
@[simp] theorem State.setThread_agent (s : State) (t : Thread) : (s.setThread t).agent = s.agent := by
  unfold State.setThread; split <;> rfl
@[simp] theorem State.setThread_agenda (s : State) (t : Thread) : (s.setThread t).agenda = s.agenda := by
  unfold State.setThread; split <;> rfl
@[simp] theorem State.setThread_mem (s : State) (t : Thread) : (s.setThread t).mem = s.mem := by
  unfold State.setThread; split <;> rfl
@[simp] theorem State.setThread_llc (s : State) (t : Thread) : (s.setThread t).llc = s.llc := by
  unfold State.setThread; split <;> rfl
@[simp] theorem State.setThread_ops (s : State) (t : Thread) : (s.setThread t).ops = s.ops := by
  unfold State.setThread; split <;> rfl
@[simp] theorem State.setThread_nextOp (s : State) (t : Thread) : (s.setThread t).nextOp = s.nextOp := by
  unfold State.setThread; split <;> rfl
@[simp] theorem State.setThread_clocks (s : State) (t : Thread) : (s.setThread t).clocks = s.clocks := by
  unfold State.setThread; split <;> rfl
@[simp] theorem State.setThread_held (s : State) (t : Thread) : (s.setThread t).held = s.held := by
  unfold State.setThread; split <;> rfl
@[simp] theorem State.setThread_l2 (s : State) (t : Thread) : (s.setThread t).l2 = s.l2 := by
  unfold State.setThread; split <;> rfl
@[simp] theorem State.setThread_reserve (s : State) (t : Thread) : (s.setThread t).reserve = s.reserve := by
  unfold State.setThread; split <;> rfl
@[simp] theorem State.setThread_ord (s : State) (t : Thread) : (s.setThread t).ord = s.ord := by
  unfold State.setThread; split <;> rfl
@[simp] theorem State.setThread_hub (s : State) (t : Thread) : (s.setThread t).hub = s.hub := by
  unfold State.setThread; split <;> rfl
@[simp] theorem State.setThread_ports (s : State) (t : Thread) : (s.setThread t).ports = s.ports := by
  unfold State.setThread; split <;> rfl
@[simp] theorem State.setThread_guest (s : State) (t : Thread) : (s.setThread t).guest = s.guest := by
  unfold State.setThread; split <;> rfl
@[simp] theorem State.setThread_svc (s : State) (t : Thread) : (s.setThread t).svc = s.svc := by
  unfold State.setThread; split <;> rfl
@[simp] theorem State.setThread_dieClock (s : State) (t : Thread) : (s.setThread t).dieClock = s.dieClock := by
  unfold State.setThread; split <;> rfl
@[simp] theorem State.setThread_free (s : State) (t : Thread) : (s.setThread t).free = s.free := by
  unfold State.setThread; split <;> rfl

@[simp] theorem State.setThread_bank (s : State) (t : Thread) : (s.setThread t).core.bank = s.core.bank := by
  unfold State.setThread; split <;> simp [Core.setThread]; split <;> rfl
@[simp] theorem State.setThread_store (s : State) (t : Thread) : (s.setThread t).core.store = s.core.store := by
  unfold State.setThread; split <;> simp [Core.setThread]; split <;> rfl

/-! ### The order of updates -/

@[simp] theorem State.setBank_setBank (s : State) (a b : Bank) : (s.setBank a).setBank b = s.setBank b := rfl
@[simp] theorem State.setCore_setCore (s : State) (a b : Core) : (s.setCore a).setCore b = s.setCore b := rfl
@[simp] theorem State.setHub_setHub (s : State) (a b : Hub) : (s.setHub a).setHub b = s.setHub b := rfl
@[simp] theorem State.setBank_self (s : State) : s.setBank s.core.bank = s := rfl

end Sys2Proof.Machine
end

