-- ==== Sys2Proof/Laws/Ops.lean ====
section
/-! SUPPORT. The shared operations of the meanings: when each lets an instruction run, and what each changes. -/

namespace Sys2Proof.Machine

/-! ### Guards (R300) -/

/-- An instruction whose guard is true runs. -/
theorem State.guarded_runs {s : State} {g : BitVec 4} {k : State → Out} (h : s.runs g) : s.guarded g k = k s := by
  unfold State.runs at h; unfold State.guarded
  split at h <;> simp_all

/-- A primary-only instruction whose guard is true runs. -/
theorem State.primaryOnly_runs {s : State} {g : BitVec 4} {k : State → Out} (h : s.primaryRuns g) :
    s.primaryOnly g k = k s := by
  unfold State.primaryOnly; rw [h.1]; simp [h.2]

/-- In the primary a false guard leaves the state as it is. -/
theorem State.guarded_false {s : State} {g : BitVec 4} {k : State → Out} (ha : s.agent = .primary)
    (hg : s.core.bank.guard g = false) : s.guarded g k = .next s ∧ s.primaryOnly g k = .next s := by
  simp [State.guarded, State.primaryOnly, ha, hg]

/-- R31: in drift code a primary-only instruction raises cause 0x01. -/
theorem State.primaryOnly_drift {s : State} {g : BitVec 4} {k : State → Out} {n : Nat} (ha : s.agent = .drift n) :
    s.primaryOnly g k = s.raise 0x01 := by
  simp [State.primaryOnly, ha]

/-- The guard p0 is true in the primary, but in an MBR bundle's leaves. -/
theorem Bank.guard_zero (b : Bank) : b.guard 0 = true := by simp [Bank.guard]

/-- Outside MBR bundles a guard is the predicate it names. -/
theorem Bank.guard_eq {b : Bank} (h : b.isMbr = false) (g : BitVec 4) : b.guard g = b.pred g := by simp [Bank.guard, h]

/-! ### Scalar results -/

/-- A scalar operation whose register fields and destination are allowed completes with its result in flight. -/
theorem State.scalarOp_next {s : State} {lat dlat : Nat} {d : BitVec 6} {srcs : List (BitVec 6)} {v : State → Word}
    (h1 : s.dregsOk (d :: srcs) = true) (h2 : s.destOk d = true) :
    s.scalarOp lat dlat d srcs v = .next (s.scalarResult lat dlat d (v s)) := by
  simp [State.scalarOp, h1, h2]

/-- What a scalar operation can do: complete, or raise cause 0x01 (drift code) or 0x0C (a user-mode destination). -/
theorem State.scalarOp_cases (s : State) (lat dlat : Nat) (d : BitVec 6) (srcs : List (BitVec 6)) (v : State → Word) :
    s.scalarOp lat dlat d srcs v = .next (s.scalarResult lat dlat d (v s)) ∨
    s.scalarOp lat dlat d srcs v = s.raise 0x01 ∨ s.scalarOp lat dlat d srcs v = s.raise 0x0C := by
  unfold State.scalarOp
  split
  · exact .inr (.inl rfl)
  · split
    · exact .inr (.inr rfl)
    · exact .inl rfl

/-- In the primary every register field is in range. -/
theorem State.dregsOk_primary {s : State} (ha : s.agent = .primary) (fs : List (BitVec 6)) : s.dregsOk fs = true := by
  simp [State.dregsOk, ha]

/-- In supervisor mode every destination is allowed. -/
theorem State.destOk_sup {s : State} (hs : s.sup? = true) (d : BitVec 6) : s.destOk d = true := by
  unfold State.destOk; split <;> simp [hs]

/-- A scalar result of the primary changes nothing but the results in flight of its bank. -/
theorem State.scalarResult_primary {s : State} (ha : s.agent = .primary) (lat dlat : Nat) (d : BitVec 6) (v : Word) :
    s.scalarResult lat dlat d v = s.setBank (s.core.bank.addPend lat (.s d.toNat v) 4 0) := by
  simp [State.scalarResult, ha, State.result]

/-- A shift count is the low six bits of a register. -/
theorem shiftCount_eq (y : Word) : shiftCount y = (y.extractLsb' 0 6).toNat := by
  simp [shiftCount, BitVec.extractLsb'_toNat]

/-! ### Faults (R204 to R206) -/

/-- R206: a fault stops the bank, names the address and the cause in EPC and CAUSE, and changes nothing else of its
core. -/
theorem State.takeFault_core (s : State) (r : Raised) :
    (s.takeFault r).core = { s.core with bank := { s.core.bank with
      epc := faultPc s.core.bank r,
      cause := causeBits r.cause r.thread (s.core.bank.handler || r.nested) r.cb 0,
      run := .stopped } } := by
  unfold State.takeFault; dsimp only; split <;> rfl

/-- A fault moves no byte and touches no other core, operation, port, or clock. -/
theorem State.takeFault_frame (s : State) (r : Raised) :
    (s.takeFault r).mem = s.mem ∧ (s.takeFault r).others = s.others ∧ (s.takeFault r).cur = s.cur ∧
    (s.takeFault r).ops = s.ops ∧ (s.takeFault r).clocks = s.clocks ∧ (s.takeFault r).ports = s.ports ∧
    (s.takeFault r).guest = s.guest ∧ (s.takeFault r).svc = s.svc ∧ (s.takeFault r).agent = s.agent ∧
    (s.takeFault r).hub.parts = s.hub.parts ∧ (s.takeFault r).hub.attest = s.hub.attest ∧
    (s.takeFault r).hub.regs = s.hub.regs := by
  unfold State.takeFault; dsimp only; split <;> exact ⟨rfl, rfl, rfl, rfl, rfl, rfl, rfl, rfl, rfl, rfl, rfl, rfl⟩

/-- R206: the first fault of a launch is kept, and the end of the launch is due. -/
theorem State.takeFault_agenda (s : State) (r : Raised) :
    (s.takeFault r).agenda = s.agenda ++ (s.core.bank.task.toList.map fun t => .event (.faultEndLaunch t.launch)) := by
  unfold State.takeFault; dsimp only
  split
  · simp [*]
  · simp [*]

/-- R206: a launch keeps the first fault that ends it. -/
@[simp] theorem Launch.fail_some (l : Launch) (r x : Raised) (p) (h : l.fault = some x) : l.fail r p = l := by
  simp [Launch.fail, h]
@[simp] theorem Launch.fail_none (l : Launch) (r : Raised) (p) (h : l.fault = none) :
    l.fail r p = { l with fault := some r, faultAt := p } := by
  simp [Launch.fail, h]

/-- R205: an instruction that raises a cause takes the fault, and keeps what was raised for its bundle. -/
theorem State.raiseWith_eq (s : State) (c cb a x : Nat) :
    s.raiseWith c cb a x = .next ((s.takeFault ⟨c, s.agentThread, cb, a, x, false, false⟩).setBank
      { (s.takeFault ⟨c, s.agentThread, cb, a, x, false, false⟩).core.bank with
        raised := some ⟨c, s.agentThread, cb, a, x, false, false⟩ }) := rfl

/-- What a raised cause can do, nested or not: answer a next state with the bank stopped, CAUSE and EPC naming it, and every
byte as it was. -/
theorem State.raiseAs_next (s : State) (r : Raised) : ∃ t, s.raiseAs r = .next t ∧ t.core.bank.run = .stopped ∧
    t.core.bank.cause = causeBits r.cause r.thread (s.core.bank.handler || r.nested) r.cb 0 ∧
    t.core.bank.epc = faultPc s.core.bank r ∧ t.mem = s.mem ∧ t.core.store = s.core.store := by
  refine ⟨_, rfl, ?_, ?_, ?_, ?_, ?_⟩
  · simp [State.takeFault_core]
  · simp [State.takeFault_core]
  · simp [State.takeFault_core]
  · exact (State.takeFault_frame _ _).1
  · simp [State.takeFault_core]

/-- A raised cause always answers a next state, with the bank stopped and CAUSE naming it. -/
theorem State.raise_next (s : State) (c : Nat) : ∃ t, s.raise c = .next t ∧ t.core.bank.run = .stopped ∧
    t.core.bank.cause = causeBits c s.agentThread s.core.bank.handler 0 0 ∧
    t.core.bank.epc = (if s.agentThread.isSome && s.core.bank.mid then s.core.bank.nextPc else s.core.bank.pc) ∧
    t.mem = s.mem ∧ t.core.store = s.core.store := by
  obtain ⟨t, h, hr, hc, he, hm⟩ := State.raiseAs_next s ⟨c, s.agentThread, 0, 0, 0, false, false⟩
  exact ⟨t, h, hr, by simpa using hc, by simpa [faultPc] using he, hm⟩

/-! ### Drift threads (R35) -/

/-- In the primary an instruction without effect leaves the state as it is. -/
theorem State.skip_primary {s : State} (ha : s.agent = .primary) : s.skip = s := by simp [State.skip, ha]

/-- A drift operation of known latency changes nothing but its thread. -/
theorem State.driftIssue_eq {s : State} {n : Nat} (ha : s.agent = .drift n) (lat : Nat) (e : DriftEff) :
    s.driftIssue lat e = s.setCore (s.core.setThread n
      { s.core.thread n with busy := true, due := some (s.core.cycle + lat), eff := e }) := by
  simp [State.driftIssue, State.setThread, State.thread, ha]

/-! ### Acting elsewhere -/

@[simp] theorem State.focus_cur (s : State) : s.focus s.cur = s := by simp [State.focus]

/-- Acting on the core that stands in `core` is acting at once, where the action keeps that core. -/
theorem State.onCore_cur {s : State} {f : State → State} (h : (f s).cur = s.cur) : s.onCore s.cur f = f s := by
  have : s.onCore s.cur f = (f s).focus s.cur := by simp [State.onCore]
  rw [this, ← h, State.focus_cur]

@[simp] theorem State.focus_mem (s : State) (c : Nat) : (s.focus c).mem = s.mem := by unfold State.focus; split <;> rfl
@[simp] theorem State.focus_hub (s : State) (c : Nat) : (s.focus c).hub = s.hub := by unfold State.focus; split <;> rfl
@[simp] theorem State.focus_agent (s : State) (c : Nat) : (s.focus c).agent = s.agent := by unfold State.focus; split <;> rfl
@[simp] theorem State.focus_agenda (s : State) (c : Nat) : (s.focus c).agenda = s.agenda := by
  unfold State.focus; split <;> rfl

/-- The core asked for stands in `core`. -/
theorem State.focus_isCur (s : State) (c : Nat) : (s.focus c).cur = c := by unfold State.focus; split <;> simp_all

/-! ### Releases and acquires (R126, R142) -/

/-- A release changes nothing but the record and the clocks; in guarded mode, beyond CORE scope, it waits. -/
theorem State.release_cases (s : State) (sc : Nat) : s.release sc = s.releaseNow sc ∨
    (s.core.bank.status.guard = true ∧ 1 ≤ sc ∧
      s.release sc = s.setBank { s.core.bank with heldWrites := s.core.bank.heldWrites ++ [.release sc] }) := by
  unfold State.release
  by_cases h : (s.core.bank.status.guard && decide (1 ≤ sc)) = true
  · rw [if_pos h]; simp only [Bool.and_eq_true, decide_eq_true_eq] at h; exact .inr ⟨h.1, h.2, rfl⟩
  · rw [if_neg h]; exact .inl rfl

/-- R124, R126: making writes visible changes no byte of the window. -/
@[simp] theorem Core.publish_store (c : Core) (n : Nat) : (c.publish n).store = c.store := rfl
@[simp] theorem Core.afterFence_store (c : Core) (n : Nat) : (c.afterFence n).store = c.store := by
  unfold Core.afterFence; split <;> rfl

/-- R136: a release by the agent that acts, and the primary's writes it makes visible. -/
theorem State.releaseHere_primary {s : State} (ha : s.agent = .primary) (sc : Nat) :
    s.releaseHere sc = (s.release sc).setCore ((s.release sc).core.publish (s.release sc).core.bank.seq) := by
  have h : (s.release sc).agent = .primary := by
    rcases State.release_cases s sc with h | ⟨-, -, h⟩ <;> rw [h] <;> exact ha
  simp [State.releaseHere, h]

@[simp] theorem State.releaseNow_mem (s : State) (sc : Nat) : (s.releaseNow sc).mem = s.mem := rfl
@[simp] theorem State.releaseNow_core (s : State) (sc : Nat) : (s.releaseNow sc).core = s.core := rfl
@[simp] theorem State.acquire_core (s : State) (sc : Nat) : (s.acquire sc).core = s.core := rfl
@[simp] theorem State.acquire_mem (s : State) (sc : Nat) : (s.acquire sc).mem = s.mem := rfl

/-! ### V instructions (R376) -/

/-- Holding sources changes no mask. -/
theorem Bank.holdAll_mask (b : Bank) (u : Nat) (fs : List (BitVec 10 × Bool)) (xs : List VReg) (km : BitVec 3) :
    (b.holdAll u fs xs).mask km = b.mask km := by
  unfold Bank.holdAll
  generalize ((fs.zip xs).mapIdx fun i x => (i, x)) = ys
  induction ys generalizing b with
  | nil => rfl
  | cons y ys ih =>
    rw [List.foldl_cons, ih]
    unfold Bank.hold
    split
    · rfl
    · dsimp only; split <;> rfl

theorem State.vHeld_mask (s : State) (o : VOp) (n : Nat) (km : BitVec 3) :
    (s.vHeld o n).core.bank.mask km = s.core.bank.mask km := Bank.holdAll_mask _ _ _ _ _

/-- A V instruction that is ready, and whose mask and tags its entry accepts, finishes. -/
theorem State.vrun_next {s : State} {o : VOp} {n more : Nat} {vdest : Bool} {km tags : VIn → Bool}
    {fin : VIn → State → State} (h : s.vReady o n more) (h1 : km (s.vIn o n) = true) (h2 : tags (s.vIn o n) = true) :
    s.vrun o n more vdest km tags fin = .next (fin (s.vIn o n) (s.vHeld o n)) := by
  obtain ⟨⟨⟨ha, hg⟩, hs, hl, hm⟩, hd⟩ := h
  unfold State.vrun State.primaryOnly
  simp only [ha, hg, if_true]
  have hd' : (vdest && !o.w && !((List.range (more + 1)).all fun i => s.core.bank.vregIn (o.vd.toNat + i))) = false := by
    cases hw : o.w
    · simp; intro _ x hx; exact hd hw x (by omega)
    · simp
  simp only [State.vIn] at h1 h2 hl hm
  have hm' : (o.km != 0 && (Bank.vread s.core.bank s.core.bank.vslot (vfields o n)).anyMask) = false := by
    rcases hm with h | h <;> simp [h]
  rw [hs, hd']
  simp only [h1, h2, hm']
  have : ((Bank.vread s.core.bank s.core.bank.vslot (vfields o n)).lost && s.core.bank.status.debug) = false := by
    rcases hl with h | h <;> simp [h]
  simp [this, State.vIn, State.vHeld]

end Sys2Proof.Machine
end

