-- ==== Sys2Proof/Laws/FormCore.lean ====
section
/-! SUPPORT. The canonical form of every memory, kept by the shared operations: one lemma an operation, `<name>_form`, for the simplifier to chain. The lemmas of the other Form files follow the same way. -/

set_option linter.all false

namespace Sys2Proof.Machine

/-- The saved contexts of the partitions are in canonical form. -/
def savedOk (ps : Vector Partition 4) : Bool := ps.toList.all fun p => p.saved.all fun v => Mem.wf v.lines
/-- Every other core is in canonical form. -/
def othersOk (m : SMap Core) : Bool := m.all fun x => x.2.memOk
/-- Every memory of the state is in canonical form. -/
structure State.Form (s : State) : Prop where
  mem : Mem.wf s.mem = true
  attest : Mem.wf s.hub.attest = true
  store : Mem.wf s.core.store = true
  others : othersOk s.others = true
  saved : savedOk s.hub.parts = true
theorem State.form_iff (s : State) : s.Form ↔ s.memOk = true := by
  constructor
  · rintro ⟨a, b, c, d, e⟩
    simp only [State.memOk, Core.memOk, Bool.and_eq_true]; exact ⟨⟨⟨⟨a, b⟩, c⟩, d⟩, e⟩
  · intro h
    simp only [State.memOk, Core.memOk, Bool.and_eq_true] at h; exact ⟨h.1.1.1.1, h.1.1.1.2, h.1.1.2, h.1.2, h.2⟩
/-- An outcome whose next state, if any, is in form. -/
def OutForm (o : Out) : Prop := ∀ t, o = .next t → t.Form
section
variable {s : State}
@[simp] theorem form_mk (a b c d e f g h i j k l m n o p q r t u) :
  (State.mk a b c d e f g h i j k l m n o p q r t u).Form ↔
   Mem.wf f = true ∧ Mem.wf o.attest = true ∧ Mem.wf a.store = true ∧ othersOk c = true ∧ savedOk o.parts = true :=
  ⟨fun h => ⟨h.1, h.2, h.3, h.4, h.5⟩, fun ⟨a, b, c, d, e⟩ => ⟨a, b, c, d, e⟩⟩
@[simp] theorem form_mem (h : s.Form) : Mem.wf s.mem = true := h.1
@[simp] theorem form_attest (h : s.Form) : Mem.wf s.hub.attest = true := h.2
@[simp] theorem form_store (h : s.Form) : Mem.wf s.core.store = true := h.3
@[simp] theorem form_others (h : s.Form) : othersOk s.others = true := h.4
@[simp] theorem form_saved (h : s.Form) : savedOk s.hub.parts = true := h.5
@[simp] theorem setBank_form (b : Bank) :
    (s.setBank b).Form ↔ s.Form := ⟨fun h => ⟨h.1, h.2, h.3, h.4, h.5⟩, fun h => ⟨h.1, h.2, h.3, h.4, h.5⟩⟩
@[simp] theorem setRegs_form (r : HubRegs) :
    (s.setRegs r).Form ↔ s.Form := ⟨fun h => ⟨h.1, h.2, h.3, h.4, h.5⟩, fun h => ⟨h.1, h.2, h.3, h.4, h.5⟩⟩
@[simp] theorem later_form (ts : List Turn) :
    (s.later ts).Form ↔ s.Form := ⟨fun h => ⟨h.1, h.2, h.3, h.4, h.5⟩, fun h => ⟨h.1, h.2, h.3, h.4, h.5⟩⟩
@[simp] theorem rouse_form (c : Nat) : (s.rouse c).Form ↔ s.Form := by unfold State.rouse; split <;> simp
@[simp] theorem again_form : s.again.Form ↔ s.Form := ⟨fun h => ⟨h.1, h.2, h.3, h.4, h.5⟩, fun h => ⟨h.1, h.2, h.3, h.4, h.5⟩⟩
@[simp] theorem setCore_form {c : Core} (h : s.Form) (hc : Mem.wf c.store = true) :
    (s.setCore c).Form := ⟨h.1, h.2, hc, h.4, h.5⟩
@[simp] theorem setHub_form {c : Hub} (h : s.Form) (hc : Mem.wf c.attest = true) (hp : savedOk c.parts = true) :
    (s.setHub c).Form := ⟨h.1, hc, h.3, h.4, hp⟩
@[simp] theorem outForm_next (t : State) :
    OutForm (.next t) ↔ t.Form := ⟨fun h => h t rfl, fun h u e => by cases e; exact h⟩
@[simp] theorem outForm_fault (f : Fault) : OutForm (.fault f) := fun _ h => nomatch h
@[simp] theorem outForm_refused (f : Refusal) : OutForm (.refused f) := fun _ h => nomatch h
@[simp] theorem form_ite {c : Prop} [Decidable c] {a b : State} (ha : a.Form) (hb : b.Form) :
    (if c then a else b).Form := by
  split <;> assumption
@[simp] theorem outForm_ite {c : Prop} [Decidable c] {a b : Out} (ha : OutForm a) (hb : OutForm b) :
    OutForm (if c then a else b) := by
  split <;> assumption
end

/-! ### Registers and results that land -/

@[simp] theorem mapPart_attest (h : Hub) (i : Nat) (f) :
    (h.mapPart i f).attest = h.attest := by unfold Hub.mapPart; split <;> rfl
theorem savedOk_iff (v : Vector Partition 4) : savedOk v = true ↔ ∀ (i : Nat) (h : i < 4), (v[i]).saved.all (fun v => Mem.wf v.lines) = true := by
  unfold savedOk
  rw [List.all_eq_true]
  constructor
  · intro h i hi; exact h _ (by simp)
  · intro h x hx
    obtain ⟨i, hi, rfl⟩ := Vector.getElem_of_mem (Vector.mem_toList_iff.1 hx)
    exact h i hi
@[simp] theorem mapPart_saved {h : Hub} {i : Nat} {f : Partition → Partition} (hs : savedOk h.parts = true)
    (hf : ∀ p, p.saved.all (fun v => Mem.wf v.lines) = true → (f p).saved.all (fun v => Mem.wf v.lines) = true) :
    savedOk (h.mapPart i f).parts = true := by
  unfold Hub.mapPart; split
  · rw [savedOk_iff] at *
    intro j hj
    simp only [Vector.getElem_set]
    split
    · exact hf _ (hs _ _)
    · exact hs j hj
  · exact hs
@[simp] theorem Core.setThread_store (c : Core) (n : Nat) (t : Thread) :
    (c.setThread n t).store = c.store := by unfold Core.setThread; split <;> rfl
@[simp] theorem Core.memOk_eq (c : Core) : c.memOk = Mem.wf c.store := rfl
@[simp] theorem wf_nil : Mem.wf [] = true := by unfold Mem.wf memWfFrom; trivial
@[simp] theorem savedOk_map {ps : Vector Partition 4} {f : Partition → Partition} (hs : savedOk ps = true)
    (hf : ∀ p, p.saved.all (fun v => Mem.wf v.lines) = true → (f p).saved.all (fun v => Mem.wf v.lines) = true) :
    savedOk (ps.map f) = true := by
  rw [savedOk_iff] at *
  intro j hj
  rw [Vector.getElem_map]
  exact hf _ (hs j hj)
theorem all_filter_of {α : Type} {p q : α → Bool} {xs : List α} (h : xs.all p = true) :
    (xs.filter q).all p = true := by
  rw [List.all_eq_true] at *
  intro x hx; exact h x (List.mem_filter.1 hx).1
@[simp] theorem othersOk_sput {m : SMap Core} {k : Nat} {c : Core} (h : othersOk m = true) (hc : Mem.wf c.store = true) :
    othersOk (sput m k c) = true := sput_all h hc
@[simp] theorem getD_wf {m : SMap Core} {k : Nat} (h : othersOk m = true) :
    Mem.wf ((sget m k).getD Core.clear).store = true := by
  cases e : sget m k with
  | none => rfl
  | some c => exact sget_all h e
@[simp] theorem othersOk_sdel {m : SMap Core} (k : Nat) (h : othersOk m = true) : othersOk (sdel m k) = true := by
  unfold othersOk sdel at *
  rw [List.all_eq_true] at *
  intro x hx; exact h x (List.mem_filter.1 hx).1
@[simp] theorem State.setThread_form (s : State) (t : Thread) (h_s : s.Form) : (State.setThread s t).Form := by
  unfold State.setThread; (repeat' split) <;> simp (maxDischargeDepth := 20) (contextual := true) [*]
@[simp] theorem State.result_form (s : State) (lat : Nat) (e : Eff) (h_s : s.Form) : (State.result s lat e).Form := by
  unfold State.result; simp (maxDischargeDepth := 20) (contextual := true) [*]
@[simp] theorem State.releaseNow_form (s : State) (scope : Nat) (h_s : s.Form) : (State.releaseNow s scope).Form := by
  unfold State.releaseNow; simp (maxDischargeDepth := 20) (contextual := true) [*]
@[simp] theorem State.release_form (s : State) (scope : Nat) (h_s : s.Form) : (State.release s scope).Form := by
  unfold State.release; simp (maxDischargeDepth := 20) (contextual := true) [*]
@[simp] theorem State.acquire_form (s : State) (scope : Nat) (h_s : s.Form) : (State.acquire s scope).Form := by
  unfold State.acquire; simp (maxDischargeDepth := 20) (contextual := true) [*]
@[simp] theorem State.hubRelease_form (s : State) (scope : Nat) (h_s : s.Form) : (State.hubRelease s scope).Form := by
  unfold State.hubRelease; simp (maxDischargeDepth := 20) (contextual := true) [*]
@[simp] theorem State.putSys_form (s : State) (num : Nat) (v : Word) (h_s : s.Form) :
    (State.putSys s num v).Form := by
  unfold State.putSys; (repeat' split) <;> simp (maxDischargeDepth := 20) (contextual := true) [*]
@[simp] theorem foldl_form {α : Type} {f : State → α → State} (hf : ∀ t x, t.Form → (f t x).Form) (xs : List α)
    (s : State) (h : s.Form) :
    (xs.foldl f s).Form := by
  induction xs generalizing s with
  | nil => exact h
  | cons x xs ih => exact ih _ (hf _ _ h)
@[simp] theorem passOn_form (s : State) (next : State → CacheLine → State) (old new : List CacheLine) (miss : Bool)
    (l : CacheLine) (h_s : s.Form) (h_n : ∀ t x, t.Form → (next t x).Form) : (passOn s next old new miss l).Form := by
  unfold passOn; exact foldl_form h_n _ _ (form_ite (h_n _ _ h_s) h_s)
@[simp] theorem State.touchLlc_form (s : State) (l : CacheLine) (h_s : s.Form) : (s.touchLlc l).Form := by
  unfold State.touchLlc; simp (maxDischargeDepth := 20) (contextual := true) [*]
@[simp] theorem State.fillL2_form (s : State) (die : Nat) (l : CacheLine) (h_s : s.Form) : (s.fillL2 die l).Form := by
  unfold State.fillL2; dsimp only
  exact passOn_form _ _ _ _ _ _ (by simp [h_s]) fun t x ht => State.touchLlc_form t x ht
@[simp] theorem State.touchL2_form (s : State) (die pa hint : Nat) (d : BitVec 2) (h_s : s.Form) :
    (s.touchL2 die pa hint d).Form := State.fillL2_form _ _ _ h_s
@[simp] theorem State.fillWays_form (s : State) (l : CacheLine) (h_s : s.Form) : (s.fillWays l).Form := by
  unfold State.fillWays; dsimp only
  exact passOn_form _ _ _ _ _ _ (by simp [h_s]) fun t x ht => State.fillL2_form t _ x ht
@[simp] theorem State.touchDrift_form (s : State) (pa hint : Nat) (d : Bool) (h_s : s.Form) :
    (s.touchDrift pa hint d).Form := by
  unfold State.touchDrift; dsimp only
  exact passOn_form _ _ _ _ _ _ (by simp [h_s]) fun t x ht => State.fillWays_form t x ht
@[simp] theorem othersOk_map {m : SMap Core} {f : Nat × Core → Nat × Core} (h : othersOk m = true)
    (hf : ∀ x, (f x).2.store = x.2.store) : othersOk (m.map f) = true := by
  unfold othersOk at *
  rw [List.all_eq_true] at *
  intro x hx
  obtain ⟨y, hy, rfl⟩ := List.mem_map.1 hx
  have := h y hy
  simpa [Core.memOk, hf] using this
@[simp] theorem State.touchWays_form (s : State) (pa hint : Nat) (h_s : s.Form) : (s.touchWays pa hint).Form := by
  unfold State.touchWays; dsimp only
  refine State.fillWays_form _ _ ?_
  simp [h_s, othersOk_map]
@[simp] theorem State.evictWays_form (s : State) (h_s : s.Form) : s.evictWays.Form := by
  unfold State.evictWays; dsimp only
  exact passOn_form _ _ _ _ _ _ (by simp [h_s]) fun t x ht => State.fillL2_form t _ x ht
@[simp] theorem State.logSys_form (s : State) (num : Nat) (h_s : s.Form) : (s.logSys num).Form := by
  unfold State.logSys; (repeat' split) <;> simp (maxDischargeDepth := 20) (contextual := true) [*]
@[simp] theorem State.undoSys_form (s : State) (x : Nat × Word) (h_s : s.Form) : (s.undoSys x).Form := by
  unfold State.undoSys; (repeat' split) <;> simp (maxDischargeDepth := 20) (contextual := true) [*]
@[simp] theorem State.releaseHere_form (s : State) (scope : Nat) (h_s : s.Form) : (State.releaseHere s scope).Form := by
  unfold State.releaseHere; dsimp only; split <;> simp (maxDischargeDepth := 20) (contextual := true) [*]
@[simp] theorem State.landOne_form (s : State) (e : Pend) (h_s : s.Form) : (State.landOne s e).Form := by
  unfold State.landOne; (repeat' split) <;> simp (maxDischargeDepth := 20) (contextual := true) [*]
@[simp] theorem State.landDue_form (s : State) (h_s : s.Form) : s.landDue.Form := by
  unfold State.landDue; dsimp only
  simp (maxDischargeDepth := 20) (contextual := true) [h_s]

/-! ### Addresses, machine checks and global memory -/

@[simp] theorem State.logUndo_form (s : State) (lines : List Nat) (h_s : s.Form) : (State.logUndo s lines).Form := by
  unfold State.logUndo; simp (maxDischargeDepth := 20) (contextual := true) [*]
@[simp] theorem State.storeAt_form (s : State) (lat a : Nat) (bytes : List Byte) (rel : Option Nat) (h_s : s.Form) :
    (State.storeAt s lat a bytes rel).Form := by
  unfold State.storeAt; simp (maxDischargeDepth := 20) (contextual := true) [*]
@[simp] theorem Hub.mcLog_attest (h : Hub) (n sev src unit code : Nat) (addr : Word) (synd : Nat) :
    (Hub.mcLog h n sev src unit code addr synd).attest = h.attest := by
  first | rfl | (unfold Hub.mcLog; (try dsimp only); repeat' first | rfl | split) | simp [Hub.mcLog]
@[simp] theorem Hub.mcLog_parts (h : Hub) (n sev src unit code : Nat) (addr : Word) (synd : Nat) :
    (Hub.mcLog h n sev src unit code addr synd).parts = h.parts := by
  first | rfl | (unfold Hub.mcLog; (try dsimp only); repeat' first | rfl | split) | simp [Hub.mcLog]
@[simp] theorem State.setPend_form (s : State) (c bit : Nat) (h_s : s.Form) : (State.setPend s c bit).Form := by
  unfold State.setPend; simp (maxDischargeDepth := 20) (contextual := true) [*]
@[simp] theorem State.logMc_form (s : State) (n sev src unit code : Nat) (addr : Word) (synd : Nat)
    (part : Option Nat) (h_s : s.Form) :
    (State.logMc s n sev src unit code addr synd part).Form := by
  unfold State.logMc; simp (maxDischargeDepth := 20) (contextual := true) [*]
@[simp] theorem State.logErrorFor_form (s : State) (part addr : Nat) (h_s : s.Form) :
    (State.logErrorFor s part addr).Form := by
  unfold State.logErrorFor; simp (maxDischargeDepth := 20) (contextual := true) [*]
@[simp] theorem State.logErrorResponse_form (s : State) (addr : Nat) (h_s : s.Form) :
    (State.logErrorResponse s addr).Form := by
  unfold State.logErrorResponse; simp (maxDischargeDepth := 20) (contextual := true) [*]
@[simp] theorem State.putMem_form (s : State) (pa : Nat) (bytes : List Byte) (h_s : s.Form) :
    (State.putMem s pa bytes).Form := by
  unfold State.putMem; simp (maxDischargeDepth := 20) (contextual := true) [*]
@[simp] theorem State.carry_form (s : State) (src dst : Nat) (h_s : s.Form) : (s.carry src dst).Form := by
  unfold State.carry; simp (maxDischargeDepth := 20) (contextual := true) [*]
@[simp] theorem State.disown_form (s : State) (lines : List Nat) (own : Bool) (h_s : s.Form) : (s.disown lines own).Form := by
  unfold State.disown; dsimp only
  simp only [form_mk]
  refine ⟨h_s.1, h_s.2, ?_, othersOk_map h_s.4 fun _ => rfl, h_s.5⟩
  split <;> exact h_s.3
@[simp] theorem State.touchHome_form (s : State) (pa len hint : Nat) (w : Bool) (h_s : s.Form) :
    (s.touchHome pa len hint w).Form := by
  unfold State.touchHome; exact foldl_form (fun t x ht => by simp [ht]) _ _ h_s
@[simp] theorem State.putFrom_form (s : State) (src pa : Nat) (bytes : List Byte) (h_s : s.Form) :
    (s.putFrom src pa bytes).Form := by
  unfold State.putFrom; simp (maxDischargeDepth := 20) (contextual := true) [*]
@[simp] theorem Core.putSeen_store (c : Core) (a : Nat) (bs : List Byte) (seq : Nat) :
    (c.putSeen a bs seq).store = writeBytes c.store a bs := rfl

/-! ### The matrix engine's rows -/

@[simp] theorem State.coreAt_wf {s : State} (n : Nat) (h : s.Form) : Mem.wf (s.coreAt n).store = true := by
  unfold State.coreAt; split <;> simp [h]
@[simp] theorem State.matrixTickWith_form (s : State) (red : Bool) (h_s : s.Form) :
    (State.matrixTickWith s red).Form := by
  unfold State.matrixTickWith; simp (maxDischargeDepth := 20) (contextual := true) [*]
@[simp] theorem State.matrixTick_form (s : State) (h_s : s.Form) : (State.matrixTick s).Form := by
  unfold State.matrixTick; simp (maxDischargeDepth := 20) (contextual := true) [*]
@[simp] theorem State.freezeMatrix_form (s : State) (h_s : s.Form) : (State.freezeMatrix s).Form := by
  unfold State.freezeMatrix; simp (maxDischargeDepth := 20) (contextual := true) [*]

/-! ### Control, exceptions, barriers -/

@[simp] theorem wf_putN {m : Mem} (a n v : Nat) (h : Mem.wf m = true) :
    Mem.wf (putN m a n v) = true := wf_writeBytes _ _ h
@[simp] theorem wf_putRimes {m : Mem} (base i slot : Nat) (rs : List Rime) (h : Mem.wf m = true) :
    Mem.wf (putRimes m base i slot rs) = true := by
  induction rs generalizing m i slot with
  | nil => exact h
  | cons r rs ih => unfold putRimes; dsimp only; split <;> exact ih _ _ (by simp [h])
@[simp] theorem wf_putVecs {m : Mem} (a : Nat) (vs : List VBits) (h : Mem.wf m = true) :
    Mem.wf (putVecs m a vs) = true := by
  induction vs generalizing m a with
  | nil => exact h
  | cons v vs ih => exact ih _ (wf_putN _ _ _ h)
@[simp] theorem Core.putDrift_wf (c : Core) {m : Mem} (base : Nat) (h : Mem.wf m = true) :
    Mem.wf (c.putDrift m base) = true := by
  unfold Core.putDrift
  refine wf_foldl (fun m x hm => ?_) _ h
  dsimp only; split
  · exact wf_foldl (fun m x hm => by simp [hm]) _ (by simp [hm])
  · exact hm
@[simp] theorem Core.putFrame_wf (c : Core) (b base e x r d) (h : Mem.wf c.store = true) :
    Mem.wf (c.putFrame b base e x r d) = true := by
  unfold Core.putFrame; dsimp only
  refine wf_putRimes _ _ _ _ ?_
  have : ∀ m, Mem.wf m = true → Mem.wf (if d = true then c.putDrift m base else m) = true := by intro m hm; split <;> simp [hm]
  refine this _ ?_
  simp (maxDischargeDepth := 50) (contextual := true) [h]
@[simp] theorem Hub.mapLaunch_attest (h : Hub) (id : Nat) (f : Launch → Launch) :
    (Hub.mapLaunch h id f).attest = h.attest := by
  first | rfl | (unfold Hub.mapLaunch; (try dsimp only); repeat' first | rfl | split) | simp [Hub.mapLaunch]
@[simp] theorem Hub.mapLaunch_parts (h : Hub) (id : Nat) (f : Launch → Launch) :
    (Hub.mapLaunch h id f).parts = h.parts := by
  first | rfl | (unfold Hub.mapLaunch; (try dsimp only); repeat' first | rfl | split) | simp [Hub.mapLaunch]
@[simp] theorem State.takeFault_form (s : State) (r : Raised) (h_s : s.Form) : (State.takeFault s r).Form := by
  unfold State.takeFault; dsimp only; (repeat' split) <;> simp (maxDischargeDepth := 20) (contextual := true) [*]
@[simp] theorem State.raiseAs_form (s : State) (r : Raised) (h_s : s.Form) : OutForm (State.raiseAs s r) := by
  unfold State.raiseAs; simp (maxDischargeDepth := 20) (contextual := true) [*]
@[simp] theorem State.raiseNested_form (s : State) (cause : Nat) (h_s : s.Form) : OutForm (State.raiseNested s cause) := by
  unfold State.raiseNested; simp (maxDischargeDepth := 20) (contextual := true) [*]
@[simp] theorem State.raiseWith_form (s : State) (cause cb addr aux : Nat) (h_s : s.Form) :
    OutForm (State.raiseWith s cause cb addr aux) := by
  unfold State.raiseWith; simp (maxDischargeDepth := 20) (contextual := true) [*]
@[simp] theorem State.raise_form (s : State) (cause : Nat) (h_s : s.Form) : OutForm (State.raise s cause) := by
  unfold State.raise; simp (maxDischargeDepth := 20) (contextual := true) [*]
@[simp] theorem State.driftIssue_form (s : State) (lat : Nat) (e : DriftEff) (h_s : s.Form) :
    (State.driftIssue s lat e).Form := by
  unfold State.driftIssue; simp (maxDischargeDepth := 20) (contextual := true) [*]
@[simp] theorem State.driftWait_form (s : State) (e : DriftEff) (h_s : s.Form) : (State.driftWait s e).Form := by
  unfold State.driftWait; dsimp only; (repeat' split) <;> simp (maxDischargeDepth := 20) (contextual := true) [*]
@[simp] theorem State.skip_form (s : State) (h_s : s.Form) : (State.skip s).Form := by
  unfold State.skip; (repeat' split) <;> simp (maxDischargeDepth := 20) (contextual := true) [*]
@[simp] theorem State.guarded_form (s : State) (g : BitVec 4) (k : State → Out) (h_s : s.Form)
    (h_k : ∀ (x0 : State), x0.Form → OutForm (k x0)) :
    OutForm (State.guarded s g k) := by
  unfold State.guarded; (repeat' split) <;> simp (maxDischargeDepth := 20) (contextual := true) [*]
@[simp] theorem State.primaryOnly_form (s : State) (g : BitVec 4) (k : State → Out) (h_s : s.Form)
    (h_k : ∀ (x0 : State), x0.Form → OutForm (k x0)) :
    OutForm (State.primaryOnly s g k) := by
  unfold State.primaryOnly; (repeat' split) <;> simp (maxDischargeDepth := 20) (contextual := true) [*]
@[simp] theorem State.capture_form (s : State) (f : Nat) (epc cause : Word) (drift : Bool) (h_s : s.Form) :
    (State.capture s f epc cause drift).Form := by
  unfold State.capture; simp (maxDischargeDepth := 20) (contextual := true) [*]
@[simp] theorem State.trapEntry_form (s : State) (code tcode f : Nat) (epc : Word) (h_s : s.Form) :
    (State.trapEntry s code tcode f epc).Form := by
  unfold State.trapEntry; simp (maxDischargeDepth := 20) (contextual := true) [*]
@[simp] theorem State.restore_form (s : State) (f' : Nat) (pc : Word) (rs : List Rime) (h_s : s.Form) :
    (State.restore s f' pc rs).Form := by
  unfold State.restore; simp (maxDischargeDepth := 20) (contextual := true) [*]
@[simp] theorem State.drain_form (s : State) (h_s : s.Form) : (State.drain s).Form := by
  unfold State.drain; simp (maxDischargeDepth := 20) (contextual := true) [*]
@[simp] theorem State.saveRelease_form (s : State) (h_s : s.Form) : (State.saveRelease s).Form := by
  unfold State.saveRelease; simp (maxDischargeDepth := 20) (contextual := true) [*]
@[simp] theorem State.startSwitch_form (s : State) (h_s : s.Form) : (State.startSwitch s).Form := by
  unfold State.startSwitch; simp (maxDischargeDepth := 20) (contextual := true) [*]
@[simp] theorem Hub.queueEvent_attest (h : Hub) (launch : Option Nat) (core bank : Nat) (op thread : Option Nat)
    (va : Nat) (tile : Option (Nat × Nat)) (guest : Bool) (desc : Option Tensor) (part : Option Nat) :
    (Hub.queueEvent h launch core bank op thread va tile guest desc part).attest = h.attest := by
  first | rfl | (unfold Hub.queueEvent; (try dsimp only); repeat' first | rfl | split) | simp [Hub.queueEvent]
@[simp] theorem Hub.queueEvent_parts (h : Hub) (launch : Option Nat) (core bank : Nat) (op thread : Option Nat)
    (va : Nat) (tile : Option (Nat × Nat)) (guest : Bool) (desc : Option Tensor) (part : Option Nat) :
    (Hub.queueEvent h launch core bank op thread va tile guest desc part).parts = h.parts := by
  first | rfl | (unfold Hub.queueEvent; (try dsimp only); repeat' first | rfl | split) | simp [Hub.queueEvent]
@[simp] theorem State.takeEvent_form (s : State) (pc : Word) (cb va : Nat) (op : Option Nat) (back : Resume)
    (aux : Nat) (h_s : s.Form) :
    (State.takeEvent s pc cb va op back aux).Form := by
  unfold State.takeEvent; dsimp only; (repeat' split) <;> simp (maxDischargeDepth := 20) (contextual := true) [*]
@[simp] theorem State.landResult_form (s : State) (n : Nat) (r : BarRes) (h_s : s.Form) : (s.landResult n r).Form := by
  unfold State.landResult; (repeat' split) <;> simp (maxDischargeDepth := 20) (contextual := true) [*]
@[simp] theorem State.landBarrier_form (s : State) (n : Nat) (h_s : s.Form) : (State.landBarrier s n).Form := by
  unfold State.landBarrier; dsimp only
  have h1 : ((List.foldl (fun s r => s.landResult n r) s (s.core.bank.landing n))).Form :=
    foldl_form (fun t x ht => by simp [ht]) _ _ h_s
  have h2 := foldl_form (f := fun (s : State) sc => s.acquire sc) (fun t x ht => by simp [ht]) (s.core.bank.cb n).acq _ h1
  rw [setBank_form]
  split <;> simp [h2]
@[simp] theorem State.raiseRecord_form (s : State) (pc : Word) (n : Nat) (r : FaultRec) (back : Resume)
    (h_s : s.Form) :
    (State.raiseRecord s pc n r back).Form := by
  unfold State.raiseRecord; (repeat' split) <;> simp (maxDischargeDepth := 20) (contextual := true) [*]
@[simp] theorem State.waitOn_form (s : State) (n : Nat) (cbs : List Nat) (h_s : s.Form) :
    (State.waitOn s n cbs).Form := by
  unfold State.waitOn; simp (maxDischargeDepth := 20) (contextual := true) [*]
@[simp] theorem State.cpywOne_form (s : State) (n : Nat) (cbs : List Nat) (h_s : s.Form) :
    (State.cpywOne s n cbs).1.Form := by
  unfold State.cpywOne; dsimp only
  repeat' first | (simp (maxDischargeDepth := 20) (contextual := true) [*]; done) | split
@[simp] theorem State.cpywTry_form (s : State) (n : Nat) (ms : List Nat) (h_s : s.Form) :
    (State.cpywTry s n ms).Form := by
  induction ms generalizing s n with
  | nil => unfold State.cpywTry; dsimp only; split <;> simp [h_s]
  | cons m ms ih => unfold State.cpywTry; dsimp only; split <;> simp [h_s, ih]
@[simp] theorem State.startOp_form (s : State) (n hint : Nat) (kind : OpKind) (dest : Option BarDest)
    (acq : Option Nat) (turns : Nat → List Turn) (h_s : s.Form) :
    (State.startOp s n hint kind dest acq turns).Form := by
  unfold State.startOp; (repeat' split) <;> simp (maxDischargeDepth := 20) (contextual := true) [*]
@[simp] theorem Core.swap_store (c : Core) : (Core.swap c).store = c.store := by
  first | rfl | (unfold Core.swap; (try dsimp only); repeat' first | rfl | split) | simp [Core.swap]

/-! ### Predicates -/

@[simp] theorem State.predState_form (s : State) (n : Nat) (v : Bool) (h_s : s.Form) :
    (State.predState s n v).Form := by
  unfold State.predState; (repeat' split) <;> simp (maxDischargeDepth := 20) (contextual := true) [*]
@[simp] theorem State.predResult_form (s : State) (n : Nat) (v : Bool) (h_s : s.Form) :
    OutForm (State.predResult s n v) := by
  unfold State.predResult; simp (maxDischargeDepth := 20) (contextual := true) [*]

/-! ### V operands -/

@[simp] theorem State.vput_form (s : State) (lat : Nat) (o : VOp) (tag : Tag) (bits k : VBits) (flags : BitVec 3)
    (h_s : s.Form) :
    (State.vput s lat o tag bits k flags).Form := by
  unfold State.vput; simp (maxDischargeDepth := 20) (contextual := true) [*]
@[simp] theorem State.vputMore_form (s : State) (lat n : Nat) (tag : Tag) (bits : VBits) (h_s : s.Form) :
    (State.vputMore s lat n tag bits).Form := by
  unfold State.vputMore; simp (maxDischargeDepth := 20) (contextual := true) [*]
@[simp] theorem State.vrun_form (s : State) (o : VOp) (n more : Nat) (vdest : Bool) (km tags : VIn → Bool)
    (fin : VIn → State → State) (h_s : s.Form) (h_fin : ∀ (x0 : VIn) (x1 : State), x1.Form → (fin x0 x1).Form) :
    OutForm (State.vrun s o n more vdest km tags fin) := by
  unfold State.vrun; simp (maxDischargeDepth := 20) (contextual := true) [*]
@[simp] theorem State.vlanes_form (s : State) (o : VOp) (n lat : Nat) (accept : Tag → Bool) (out : Tag → Tag)
    (f : VIn → VBits → VBits × Bool) (h_s : s.Form) :
    OutForm (State.vlanes s o n lat accept out f) := by
  unfold State.vlanes; simp (maxDischargeDepth := 20) (contextual := true) [*]
@[simp] theorem State.claimNow_form (s : State) (a len : Nat) (h_s : s.Form) : (State.claimNow s a len).Form := by
  unfold State.claimNow; simp (maxDischargeDepth := 20) (contextual := true) [*]
@[simp] theorem State.claimBlock_form (s : State) (a len : Nat) (h_s : s.Form) : (State.claimBlock s a len).Form := by
  unfold State.claimBlock; split <;> simp [h_s]
@[simp] theorem State.captured_form (s : State) (a len al : Nat) (k : List Byte → State → Out) (h_s : s.Form)
    (h_k : ∀ (x0 : List Byte) (x1 : State), x1.Form → OutForm (k x0 x1)) : OutForm (State.captured s a len al k) := by
  unfold State.captured; split <;> simp (maxDischargeDepth := 20) (contextual := true) [*]

end Sys2Proof.Machine
end

