-- ==== Sys2Proof/Laws/FormPrimary.lean ====
section
/-! SUPPORT. The S, X, L, V and M meanings keep every memory in canonical form. -/

set_option linter.all false

namespace Sys2Proof.Machine

/-! ### S and X scalar operations -/

@[simp] theorem State.scalarResult_form (s : State) (lat dlat : Nat) (d : BitVec 6) (v : Word) (h_s : s.Form) :
    (State.scalarResult s lat dlat d v).Form := by
  unfold State.scalarResult; (repeat' split) <;> simp (maxDischargeDepth := 20) (contextual := true) [*]
@[simp] theorem State.scalarOp_form (s : State) (lat dlat : Nat) (d : BitVec 6) (srcs : List (BitVec 6))
    (v : State → Word) (h_s : s.Form) :
    OutForm (State.scalarOp s lat dlat d srcs v) := by
  unfold State.scalarOp; simp (maxDischargeDepth := 20) (contextual := true) [*]
@[simp] theorem State.regOp_form (s : State) (o : SOp) (lat dlat : Nat) (f : Word → Word → Word) (h_s : s.Form) :
    OutForm (State.regOp s o lat dlat f) := by
  unfold State.regOp; simp (maxDischargeDepth := 20) (contextual := true) [*]
@[simp] theorem State.immOp_form (s : State) (o : SImm) (f : Word → Word → Word) (h_s : s.Form) :
    OutForm (State.immOp s o f) := by
  unfold State.immOp; simp (maxDischargeDepth := 20) (contextual := true) [*]
@[simp] theorem State.unaryOp_form (s : State) (o : SOp) (f : Word → Word) (h_s : s.Form) :
    OutForm (State.unaryOp s o f) := by
  unfold State.unaryOp; simp (maxDischargeDepth := 20) (contextual := true) [*]
@[simp] theorem execAdd_form (o : SOp) (s : State) (h_s : s.Form) : OutForm (execAdd o s) := by
  unfold execAdd; simp (maxDischargeDepth := 20) (contextual := true) [*]
@[simp] theorem execSub_form (o : SOp) (s : State) (h_s : s.Form) : OutForm (execSub o s) := by
  unfold execSub; simp (maxDischargeDepth := 20) (contextual := true) [*]
@[simp] theorem execMul_form (o : SOp) (s : State) (h_s : s.Form) : OutForm (execMul o s) := by
  unfold execMul; simp (maxDischargeDepth := 20) (contextual := true) [*]
@[simp] theorem execMulh_form (o : SOp) (s : State) (h_s : s.Form) : OutForm (execMulh o s) := by
  unfold execMulh; simp (maxDischargeDepth := 20) (contextual := true) [*]
@[simp] theorem execMulhn_form (o : SOp) (s : State) (h_s : s.Form) : OutForm (execMulhn o s) := by
  unfold execMulhn; simp (maxDischargeDepth := 20) (contextual := true) [*]
@[simp] theorem execDiv_form (o : SOp) (s : State) (h_s : s.Form) : OutForm (execDiv o s) := by
  unfold execDiv; simp (maxDischargeDepth := 20) (contextual := true) [*]
@[simp] theorem execDivn_form (o : SOp) (s : State) (h_s : s.Form) : OutForm (execDivn o s) := by
  unfold execDivn; simp (maxDischargeDepth := 20) (contextual := true) [*]
@[simp] theorem execMin_form (o : SOp) (s : State) (h_s : s.Form) : OutForm (execMin o s) := by
  unfold execMin; simp (maxDischargeDepth := 20) (contextual := true) [*]
@[simp] theorem execMax_form (o : SOp) (s : State) (h_s : s.Form) : OutForm (execMax o s) := by
  unfold execMax; simp (maxDischargeDepth := 20) (contextual := true) [*]
@[simp] theorem execMinn_form (o : SOp) (s : State) (h_s : s.Form) : OutForm (execMinn o s) := by
  unfold execMinn; simp (maxDischargeDepth := 20) (contextual := true) [*]
@[simp] theorem execMaxn_form (o : SOp) (s : State) (h_s : s.Form) : OutForm (execMaxn o s) := by
  unfold execMaxn; simp (maxDischargeDepth := 20) (contextual := true) [*]
@[simp] theorem execAnd_form (o : SOp) (s : State) (h_s : s.Form) : OutForm (execAnd o s) := by
  unfold execAnd; simp (maxDischargeDepth := 20) (contextual := true) [*]
@[simp] theorem execOr_form (o : SOp) (s : State) (h_s : s.Form) : OutForm (execOr o s) := by
  unfold execOr; simp (maxDischargeDepth := 20) (contextual := true) [*]
@[simp] theorem execXor_form (o : SOp) (s : State) (h_s : s.Form) : OutForm (execXor o s) := by
  unfold execXor; simp (maxDischargeDepth := 20) (contextual := true) [*]
@[simp] theorem execShl_form (o : SOp) (s : State) (h_s : s.Form) : OutForm (execShl o s) := by
  unfold execShl; simp (maxDischargeDepth := 20) (contextual := true) [*]
@[simp] theorem execShr_form (o : SOp) (s : State) (h_s : s.Form) : OutForm (execShr o s) := by
  unfold execShr; simp (maxDischargeDepth := 20) (contextual := true) [*]
@[simp] theorem execSar_form (o : SOp) (s : State) (h_s : s.Form) : OutForm (execSar o s) := by
  unfold execSar; simp (maxDischargeDepth := 20) (contextual := true) [*]
@[simp] theorem execClz_form (o : SOp) (s : State) (h_s : s.Form) : OutForm (execClz o s) := by
  unfold execClz; simp (maxDischargeDepth := 20) (contextual := true) [*]
@[simp] theorem execPopc_form (o : SOp) (s : State) (h_s : s.Form) : OutForm (execPopc o s) := by
  unfold execPopc; simp (maxDischargeDepth := 20) (contextual := true) [*]
@[simp] theorem execMov_form (o : SOp) (s : State) (h_s : s.Form) : OutForm (execMov o s) := by
  unfold execMov; simp (maxDischargeDepth := 20) (contextual := true) [*]
@[simp] theorem execSel_form (o : SOp) (s : State) (h_s : s.Form) : OutForm (execSel o s) := by
  unfold execSel; simp (maxDischargeDepth := 20) (contextual := true) [*]
@[simp] theorem execAddi_form (o : SImm) (s : State) (h_s : s.Form) : OutForm (execAddi o s) := by
  unfold execAddi; simp (maxDischargeDepth := 20) (contextual := true) [*]
@[simp] theorem execAndi_form (o : SImm) (s : State) (h_s : s.Form) : OutForm (execAndi o s) := by
  unfold execAndi; simp (maxDischargeDepth := 20) (contextual := true) [*]
@[simp] theorem execOri_form (o : SImm) (s : State) (h_s : s.Form) : OutForm (execOri o s) := by
  unfold execOri; simp (maxDischargeDepth := 20) (contextual := true) [*]
@[simp] theorem execXori_form (o : SImm) (s : State) (h_s : s.Form) : OutForm (execXori o s) := by
  unfold execXori; simp (maxDischargeDepth := 20) (contextual := true) [*]
@[simp] theorem execShli_form (o : SImm) (s : State) (h_s : s.Form) : OutForm (execShli o s) := by
  unfold execShli; simp (maxDischargeDepth := 20) (contextual := true) [*]
@[simp] theorem execShri_form (o : SImm) (s : State) (h_s : s.Form) : OutForm (execShri o s) := by
  unfold execShri; simp (maxDischargeDepth := 20) (contextual := true) [*]
@[simp] theorem execSari_form (o : SImm) (s : State) (h_s : s.Form) : OutForm (execSari o s) := by
  unfold execSari; simp (maxDischargeDepth := 20) (contextual := true) [*]
@[simp] theorem execMovi_form (o : SImm) (s : State) (h_s : s.Form) : OutForm (execMovi o s) := by
  unfold execMovi; simp (maxDischargeDepth := 20) (contextual := true) [*]
@[simp] theorem execMovl_form (o : XOp) (s : State) (h_s : s.Form) : OutForm (execMovl o s) := by
  unfold execMovl; simp (maxDischargeDepth := 20) (contextual := true) [*]
@[simp] theorem execMovh_form (o : XOp) (s : State) (h_s : s.Form) : OutForm (execMovh o s) := by
  unfold execMovh; simp (maxDischargeDepth := 20) (contextual := true) [*]
@[simp] theorem execAddl_form (o : XOp) (s : State) (h_s : s.Form) : OutForm (execAddl o s) := by
  unfold execAddl; simp (maxDischargeDepth := 20) (contextual := true) [*]
@[simp] theorem execNop_form (s : State) (h_s : s.Form) : OutForm (execNop s) := by
  unfold execNop; simp (maxDischargeDepth := 20) (contextual := true) [*]
@[simp] theorem execNopW_form (s : State) (h_s : s.Form) : OutForm (execNopW s) := by
  unfold execNopW; simp (maxDischargeDepth := 20) (contextual := true) [*]
@[simp] theorem State.compare_form (s : State) (p : BitVec 6) (srcs : List (BitVec 6)) (v : State → Bool)
    (h_s : s.Form) :
    OutForm (State.compare s p srcs v) := by
  unfold State.compare; simp (maxDischargeDepth := 20) (contextual := true) [*]
@[simp] theorem execCmp_form (o : SOp) (s : State) (h_s : s.Form) : OutForm (execCmp o s) := by
  unfold execCmp; simp (maxDischargeDepth := 20) (contextual := true) [*]
@[simp] theorem execCmpeqi_form (o : SImm) (s : State) (h_s : s.Form) : OutForm (execCmpeqi o s) := by
  unfold execCmpeqi; simp (maxDischargeDepth := 20) (contextual := true) [*]
@[simp] theorem execCmplti_form (o : SImm) (s : State) (h_s : s.Form) : OutForm (execCmplti o s) := by
  unfold execCmplti; simp (maxDischargeDepth := 20) (contextual := true) [*]
@[simp] theorem execCmplei_form (o : SImm) (s : State) (h_s : s.Form) : OutForm (execCmplei o s) := by
  unfold execCmplei; simp (maxDischargeDepth := 20) (contextual := true) [*]
@[simp] theorem execCmpltni_form (o : SImm) (s : State) (h_s : s.Form) : OutForm (execCmpltni o s) := by
  unfold execCmpltni; simp (maxDischargeDepth := 20) (contextual := true) [*]
@[simp] theorem State.predOp_form (s : State) (o : SOp) (srcs : List (BitVec 6)) (f : State → Bool) (h_s : s.Form) :
    OutForm (State.predOp s o srcs f) := by
  unfold State.predOp; simp (maxDischargeDepth := 20) (contextual := true) [*]
@[simp] theorem execPand_form (o : SOp) (s : State) (h_s : s.Form) : OutForm (execPand o s) := by
  unfold execPand; simp (maxDischargeDepth := 20) (contextual := true) [*]
@[simp] theorem execPor_form (o : SOp) (s : State) (h_s : s.Form) : OutForm (execPor o s) := by
  unfold execPor; simp (maxDischargeDepth := 20) (contextual := true) [*]
@[simp] theorem execPxor_form (o : SOp) (s : State) (h_s : s.Form) : OutForm (execPxor o s) := by
  unfold execPxor; simp (maxDischargeDepth := 20) (contextual := true) [*]
@[simp] theorem execPandn_form (o : SOp) (s : State) (h_s : s.Form) : OutForm (execPandn o s) := by
  unfold execPandn; simp (maxDischargeDepth := 20) (contextual := true) [*]
@[simp] theorem execMovp_form (o : SOp) (s : State) (h_s : s.Form) : OutForm (execMovp o s) := by
  unfold execMovp; simp (maxDischargeDepth := 20) (contextual := true) [*]
@[simp] theorem execSetp_form (o : SOp) (s : State) (h_s : s.Form) : OutForm (execSetp o s) := by
  unfold execSetp; simp (maxDischargeDepth := 20) (contextual := true) [*]

/-! ### Control transfers and loops -/

@[simp] theorem Hub.mapGang_attest (h : Hub) (id : Nat) (f : Gang → Gang) :
    (Hub.mapGang h id f).attest = h.attest := by
  first | rfl | (unfold Hub.mapGang; (try dsimp only); repeat' first | rfl | split) | simp [Hub.mapGang]
@[simp] theorem Hub.mapGang_parts (h : Hub) (id : Nat) (f : Gang → Gang) : (Hub.mapGang h id f).parts = h.parts := by
  first | rfl | (unfold Hub.mapGang; (try dsimp only); repeat' first | rfl | split) | simp [Hub.mapGang]
@[simp] theorem State.leadStep_form (s : State) (own : GangStep) (h_s : s.Form) : (State.leadStep s own).2.Form := by
  unfold State.leadStep; (repeat' split) <;> simp (maxDischargeDepth := 20) (contextual := true) [*]
@[simp] theorem State.leadRows_form (s : State) (own : Nat) (h_s : s.Form) : (State.leadRows s own).2.Form := by
  unfold State.leadRows; (repeat' split) <;> simp (maxDischargeDepth := 20) (contextual := true) [*]
@[simp] theorem State.control_form (s : State) (g : BitVec 4) (target : Word) (count : Nat) (leaf : Option Nat)
    (k : GangStep → State → Out) (h_s : s.Form) (h_k : ∀ (x0 : GangStep) (x1 : State), x1.Form → OutForm (k x0 x1)) :
    OutForm (State.control s g target count leaf k) := by
  unfold State.control; simp (maxDischargeDepth := 20) (contextual := true) [*]
@[simp] theorem State.branch_form (s : State) (g : BitVec 4) (target : Word) (fin : State → State) (h_s : s.Form)
    (h_fin : ∀ (x0 : State), x0.Form → (fin x0).Form) :
    OutForm (State.branch s g target fin) := by
  unfold State.branch; simp (maxDischargeDepth := 20) (contextual := true) [*]
@[simp] theorem State.driftBranch_form (s : State) (g : BitVec 4) (srcs : List (BitVec 6)) (target : State → Word)
    (eff : DriftEff) (h_s : s.Form) :
    OutForm (State.driftBranch s g srcs target eff) := by
  unfold State.driftBranch; simp (maxDischargeDepth := 20) (contextual := true) [*]
@[simp] theorem execBr_form (o : LImm) (s : State) (h_s : s.Form) : OutForm (execBr o s) := by
  unfold execBr; (repeat' split) <;> simp (maxDischargeDepth := 20) (contextual := true) [*]
@[simp] theorem execBri_form (o : LReg) (s : State) (h_s : s.Form) : OutForm (execBri o s) := by
  unfold execBri; (repeat' split) <;> simp (maxDischargeDepth := 20) (contextual := true) [*]
@[simp] theorem execBrb_form (o : LReg) (s : State) (h_s : s.Form) : OutForm (execBrb o s) := by
  unfold execBrb; (repeat' split) <;> simp (maxDischargeDepth := 20) (contextual := true) [*]
@[simp] theorem execCall_form (o : LImm) (s : State) (h_s : s.Form) : OutForm (execCall o s) := by
  unfold execCall; (repeat' split) <;> simp (maxDischargeDepth := 20) (contextual := true) [*]
@[simp] theorem execRet_form (o : LReg) (s : State) (h_s : s.Form) : OutForm (execRet o s) := by
  unfold execRet; (repeat' split) <;> simp (maxDischargeDepth := 20) (contextual := true) [*]
@[simp] theorem execMbr_form (o : XOp) (s : State) (h_s : s.Form) : OutForm (execMbr o s) := by
  unfold execMbr; (repeat' split) <;> simp (maxDischargeDepth := 20) (contextual := true) [*]
@[simp] theorem execLoop_form (o : LReg) (s : State) (h_s : s.Form) : OutForm (execLoop o s) := by
  unfold execLoop; (repeat' split) <;> simp (maxDischargeDepth := 20) (contextual := true) [*]
@[simp] theorem execLmark_form (o : LImm) (s : State) (h_s : s.Form) : OutForm (execLmark o s) := by
  unfold execLmark; (repeat' split) <;> simp (maxDischargeDepth := 20) (contextual := true) [*]
@[simp] theorem execLoopIteration_form (s : State) (h_s : s.Form) : OutForm (execLoopIteration s) := by
  unfold execLoopIteration; simp (maxDischargeDepth := 20) (contextual := true) [*]
@[simp] theorem execTaskend_form (o : LImm) (s : State) (h_s : s.Form) : OutForm (execTaskend o s) := by
  unfold execTaskend; (repeat' split) <;> simp (maxDischargeDepth := 20) (contextual := true) [*]
@[simp] theorem execYield_form (o : LImm) (s : State) (h_s : s.Form) : OutForm (execYield o s) := by
  unfold execYield; (repeat' split) <;> simp (maxDischargeDepth := 20) (contextual := true) [*]

/-! ### Tasks and messages -/

@[simp] theorem State.hostRing_form (s : State) (m : Message) (h_s : s.Form) : (State.hostRing s m).Form := by
  unfold State.hostRing; simp (maxDischargeDepth := 20) (contextual := true) [*]
@[simp] theorem State.mapPort_form (s : State) (p : Nat) (f : Port → Port) (h_s : s.Form) :
    (State.mapPort s p f).Form := by
  unfold State.mapPort; simp (maxDischargeDepth := 20) (contextual := true) [*]
@[simp] theorem State.sendMessage_form (s : State) (m : Message) (h_s : s.Form) : (State.sendMessage s m).Form := by
  unfold State.sendMessage; simp (maxDischargeDepth := 20) (contextual := true) [*]
@[simp] theorem State.errorReply_form (s : State) (m : Message) (h_s : s.Form) : (State.errorReply s m).Form := by
  unfold State.errorReply; simp (maxDischargeDepth := 20) (contextual := true) [*]
@[simp] theorem Hub.setSlot_attest (h : Hub) (n : Nat) (a : ArmSlot) : (Hub.setSlot h n a).attest = h.attest := by
  first | rfl | (unfold Hub.setSlot; (try dsimp only); repeat' first | rfl | split) | simp [Hub.setSlot]
@[simp] theorem Hub.setSlot_parts (h : Hub) (n : Nat) (a : ArmSlot) : (Hub.setSlot h n a).parts = h.parts := by
  first | rfl | (unfold Hub.setSlot; (try dsimp only); repeat' first | rfl | split) | simp [Hub.setSlot]
@[simp] theorem Hub.mapTask_attest (h : Hub) (id : Nat) (f : Task → Task) :
    (Hub.mapTask h id f).attest = h.attest := by
  first | rfl | (unfold Hub.mapTask; (try dsimp only); repeat' first | rfl | split) | simp [Hub.mapTask]
@[simp] theorem Hub.mapTask_parts (h : Hub) (id : Nat) (f : Task → Task) : (Hub.mapTask h id f).parts = h.parts := by
  first | rfl | (unfold Hub.mapTask; (try dsimp only); repeat' first | rfl | split) | simp [Hub.mapTask]
@[simp] theorem State.fire_form (s : State) (n : Nat) (m : Message) (h_s : s.Form) : (State.fire s n m).Form := by
  unfold State.fire; simp (maxDischargeDepth := 20) (contextual := true) [*]
@[simp] theorem State.graphFault_form (s : State) (launch cause addr : Nat) (h_s : s.Form) :
    (State.graphFault s launch cause addr).Form := by
  unfold State.graphFault; simp (maxDischargeDepth := 20) (contextual := true) [*]
@[simp] theorem State.branchEvent_form (s : State) (launch br va : Nat) (h_s : s.Form) :
    (State.branchEvent s launch br va).Form := by
  unfold State.branchEvent; simp (maxDischargeDepth := 20) (contextual := true) [*]
@[simp] theorem State.enterNode_form (s : State) (launch br n : Nat) (h_s : s.Form) :
    (State.enterNode s launch br n).Form := by
  unfold State.enterNode; dsimp only; (repeat' split) <;> simp (maxDischargeDepth := 20) (contextual := true) [*]
@[simp] theorem State.fork_form (s : State) (launch n : Nat) (h_s : s.Form) : (State.fork s launch n).Form := by
  unfold State.fork; (repeat' split) <;> simp (maxDischargeDepth := 20) (contextual := true) [*]
@[simp] theorem State.retryBranch_form (s : State) (l : Launch) (b : Branch) (h_s : s.Form) :
    (State.retryBranch s l b).Form := by
  unfold State.retryBranch; (repeat' split) <;> simp (maxDischargeDepth := 20) (contextual := true) [*]
@[simp] theorem State.wake_form (s : State) (launch : Nat) (h_s : s.Form) : (State.wake s launch).Form := by
  unfold State.wake; (repeat' split) <;> simp (maxDischargeDepth := 20) (contextual := true) [*]
@[simp] theorem State.checkRetire_form (s : State) (id : Nat) (h_s : s.Form) : (State.checkRetire s id).Form := by
  unfold State.checkRetire; (repeat' split) <;> simp (maxDischargeDepth := 20) (contextual := true) [*]
@[simp] theorem State.markOutput_form (s : State) (u : Nat) (h_s : s.Form) : (State.markOutput s u).Form := by
  unfold State.markOutput; (repeat' split) <;> simp (maxDischargeDepth := 20) (contextual := true) [*]
@[simp] theorem State.tret_form (s : State) (h_s : s.Form) : (State.tret s).Form := by
  unfold State.tret; dsimp only; (repeat' split) <;> simp (maxDischargeDepth := 20) (contextual := true) [*]

@[simp] theorem State.xrouteArrive_form (s : State) (src pa rbuf tag : Nat) (h_s : s.Form) :
    (State.xrouteArrive s src pa rbuf tag).Form := by
  unfold State.xrouteArrive; exact form_ite (State.sendMessage_form _ _ (State.putFrom_form _ _ _ _ h_s)) (State.putFrom_form _ _ _ _ h_s)
@[simp] theorem State.routeOut_form (s : State) (port : Nat) (op : Option Nat) (back : Nat × Nat) (r : Route) (h_s : s.Form) :
    (State.routeOut s port op back r).Form := by
  unfold State.routeOut State.mapPort; exact ⟨h_s.1, h_s.2, h_s.3, h_s.4, h_s.5⟩
@[simp] theorem State.sendAdd_form (s : State) (id hint : Nat) (pa : Option Nat) (h_s : s.Form) :
    (State.sendAdd s id hint pa).Form := by
  unfold State.sendAdd; dsimp only; split <;> simp (maxDischargeDepth := 20) (contextual := true) [*]
@[simp] theorem State.sendLine_form (s : State) (c a launch : Nat) (bytes : List Byte) (h_s : s.Form) :
    (State.sendLine s c a launch bytes).Form := by
  unfold State.sendLine; simp (maxDischargeDepth := 20) (contextual := true) [*]
@[simp] theorem State.sendWrite_form (s : State) (w : HeldWrite) (h_s : s.Form) : (State.sendWrite s w).Form := by
  unfold State.sendWrite; (repeat' split) <;> simp (maxDischargeDepth := 20) (contextual := true) [*]
@[simp] theorem State.globalOut_form (s : State) (pa : Nat) (w : HeldWrite) (h_s : s.Form) :
    (State.globalOut s pa w).Form := by
  unfold State.globalOut; dsimp only; (repeat' split) <;> simp (maxDischargeDepth := 20) (contextual := true) [*]
@[simp] theorem State.globalPut_form (s : State) (pa : Nat) (bytes : List Byte) (h_s : s.Form) :
    (State.globalPut s pa bytes).Form := State.globalOut_form _ _ _ h_s

/-! ### System registers, traps, tasks and threads -/

@[simp] theorem State.trapAfter_form (s : State) (code : Nat) (h_s : s.Form) : (State.trapAfter s code).Form := by
  unfold State.trapAfter; simp (maxDischargeDepth := 20) (contextual := true) [*]

@[simp] theorem State.supOnly_form (s : State) (g : BitVec 4) (k : State → Out) (h_s : s.Form)
    (h_k : ∀ (x0 : State), x0.Form → OutForm (k x0)) :
    OutForm (State.supOnly s g k) := by
  unfold State.supOnly; simp (maxDischargeDepth := 20) (contextual := true) [*]
@[simp] theorem State.xResult_form (s : State) (d : BitVec 6) (v : Word) (h_s : s.Form) :
    (State.xResult s d v).Form := by
  unfold State.xResult; simp (maxDischargeDepth := 20) (contextual := true) [*]
@[simp] theorem execLdt_form (o : XOp) (s : State) (h_s : s.Form) : OutForm (execLdt o s) := by
  unfold execLdt; try dsimp only
  repeat' first
    | with_reducible intro _ | with_reducible apply outForm_ite | with_reducible apply form_ite
    | with_reducible refine (rouse_form _).2 ?_ | with_reducible refine (later_form _).2 ?_
    | with_reducible refine (setBank_form _).2 ?_ | with_reducible apply State.guarded_form
    | with_reducible apply State.primaryOnly_form | with_reducible apply State.supOnly_form
    | with_reducible apply foldl_form | with_reducible apply State.onCore_form
    | with_reducible apply State.onBank_form | with_reducible apply State.onCoreBank_form
    | with_reducible apply State.asAgent_form | with_reducible apply State.threadGlobal_form
    | with_reducible apply State.driftAccess_form | with_reducible apply State.granular_form
    | with_reducible apply State.opGlobal_form | with_reducible apply State.opParts_form
    | with_reducible apply State.opTiles_form | with_reducible apply State.asOp_form
    | with_reducible apply State.barrWord_form | with_reducible apply State.blockOp_form
    | with_reducible apply State.captured_form
    | (simp (maxDischargeDepth := 20) (contextual := true) [*]; done) | split
@[simp] theorem execMfsr_form (o : XOp) (s : State) (h_s : s.Form) : OutForm (execMfsr o s) := by
  unfold execMfsr; simp (maxDischargeDepth := 20) (contextual := true) [*]
@[simp] theorem execMtsr_form (o : XOp) (s : State) (h_s : s.Form) : OutForm (execMtsr o s) := by
  unfold execMtsr
  refine State.primaryOnly_form _ _ _ h_s fun t ht => ?_
  dsimp only; repeat' first | (simp (maxDischargeDepth := 20) (contextual := true) [*]; done) | split
@[simp] theorem execTrap_form (o : XOp) (s : State) (h_s : s.Form) : OutForm (execTrap o s) := by
  unfold execTrap; (repeat' split) <;> simp (maxDischargeDepth := 20) (contextual := true) [*]
@[simp] theorem execEret_form (o : XOp) (s : State) (h_s : s.Form) : OutForm (execEret o s) := by
  unfold execEret
  refine State.primaryOnly_form _ _ _ h_s fun t ht => ?_
  dsimp only; repeat' first | (simp (maxDischargeDepth := 20) (contextual := true) [*]; done) | split
@[simp] theorem State.sendHeld_form (s : State) (h_s : s.Form) : (State.sendHeld s).Form := by
  unfold State.sendHeld; dsimp only; repeat' first
    | with_reducible intro _ | with_reducible apply foldl_form | with_reducible apply State.onCoreBank_form
    | with_reducible refine (rouse_form _).2 ?_
    | (simp (maxDischargeDepth := 20) (contextual := true) [*]; done) | split
@[simp] theorem State.armWaits_form (s : State) (h_s : s.Form) : (State.armWaits s).Form := by
  unfold State.armWaits; simp (maxDischargeDepth := 20) (contextual := true) [*]
@[simp] theorem State.checkpoint_form (s : State) (h_s : s.Form) : (State.checkpoint s).Form := by
  unfold State.checkpoint; simp (maxDischargeDepth := 20) (contextual := true) [*]
@[simp] theorem execCkpt_form (o : XOp) (s : State) (h_s : s.Form) : OutForm (execCkpt o s) := by
  unfold execCkpt; simp (maxDischargeDepth := 20) (contextual := true) [*]
@[simp] theorem execDigest_form (o : XOp) (s : State) (h_s : s.Form) : OutForm (execDigest o s) := by
  unfold execDigest
  refine State.primaryOnly_form _ _ _ h_s fun t ht => ?_
  dsimp only; repeat' first | (simp (maxDischargeDepth := 20) (contextual := true) [*]; done) | split
@[simp] theorem execGrow_form (o : XOp) (s : State) (h_s : s.Form) : OutForm (execGrow o s) := by
  unfold execGrow; simp (maxDischargeDepth := 20) (contextual := true) [*]
@[simp] theorem execShrink_form (o : XOp) (s : State) (h_s : s.Form) : OutForm (execShrink o s) := by
  unfold execShrink; simp (maxDischargeDepth := 20) (contextual := true) [*]
@[simp] theorem execArm_form (o : XOp) (s : State) (h_s : s.Form) : OutForm (execArm o s) := by
  unfold execArm
  refine State.primaryOnly_form _ _ _ h_s fun t ht => ?_
  dsimp only; repeat' first | (simp (maxDischargeDepth := 20) (contextual := true) [*]; done) | split
@[simp] theorem State.disarmSlot_form (s : State) (n : Nat) (h_s : s.Form) : (State.disarmSlot s n).Form := by
  unfold State.disarmSlot; simp (maxDischargeDepth := 20) (contextual := true) [*]
@[simp] theorem execDisarm_form (o : XOp) (s : State) (h_s : s.Form) : OutForm (execDisarm o s) := by
  unfold execDisarm; simp (maxDischargeDepth := 20) (contextual := true) [*]
@[simp] theorem execCondw_form (o : XOp) (s : State) (h_s : s.Form) : OutForm (execCondw o s) := by
  unfold execCondw
  refine State.primaryOnly_form _ _ _ h_s fun t ht => ?_
  dsimp only; repeat' first | (simp (maxDischargeDepth := 20) (contextual := true) [*]; done) | split
@[simp] theorem execTret_form (o : XOp) (s : State) (h_s : s.Form) : OutForm (execTret o s) := by
  unfold execTret; try dsimp only
  repeat' first
    | with_reducible intro _ | with_reducible apply outForm_ite | with_reducible apply form_ite
    | with_reducible refine (rouse_form _).2 ?_ | with_reducible refine (later_form _).2 ?_
    | with_reducible refine (setBank_form _).2 ?_ | with_reducible apply State.guarded_form
    | with_reducible apply State.primaryOnly_form | with_reducible apply State.supOnly_form
    | with_reducible apply foldl_form | with_reducible apply State.onCore_form
    | with_reducible apply State.onBank_form | with_reducible apply State.onCoreBank_form
    | with_reducible apply State.asAgent_form | with_reducible apply State.threadGlobal_form
    | with_reducible apply State.driftAccess_form | with_reducible apply State.granular_form
    | with_reducible apply State.opGlobal_form | with_reducible apply State.opParts_form
    | with_reducible apply State.opTiles_form | with_reducible apply State.asOp_form
    | with_reducible apply State.barrWord_form | with_reducible apply State.blockOp_form
    | with_reducible apply State.captured_form
    | (simp (maxDischargeDepth := 20) (contextual := true) [*]; done) | split
@[simp] theorem execDstart_form (o : XOp) (s : State) (h_s : s.Form) : OutForm (execDstart o s) := by
  unfold execDstart; simp (maxDischargeDepth := 20) (contextual := true) [*]
@[simp] theorem execDstop_form (o : XOp) (s : State) (h_s : s.Form) : OutForm (execDstop o s) := by
  unfold execDstop; (repeat' split) <;> simp (maxDischargeDepth := 20) (contextual := true) [*]
@[simp] theorem execGenset_form (o : XOp) (s : State) (h_s : s.Form) : OutForm (execGenset o s) := by
  unfold execGenset; simp (maxDischargeDepth := 20) (contextual := true) [*]
@[simp] theorem Hub.mapCell_attest (h : Hub) (n : Nat) (f : Cell → Cell) : (Hub.mapCell h n f).attest = h.attest := by
  first | rfl | (unfold Hub.mapCell; (try dsimp only); repeat' first | rfl | split) | simp [Hub.mapCell]
@[simp] theorem Hub.mapCell_parts (h : Hub) (n : Nat) (f : Cell → Cell) : (Hub.mapCell h n f).parts = h.parts := by
  first | rfl | (unfold Hub.mapCell; (try dsimp only); repeat' first | rfl | split) | simp [Hub.mapCell]
@[simp] theorem State.startTest_form (s : State) (n kind : Nat) (core : Option Nat) (h_s : s.Form) :
    (State.startTest s n kind core).Form := by
  unfold State.startTest; simp (maxDischargeDepth := 20) (contextual := true) [*]
@[simp] theorem execSelftest_form (o : XOp) (s : State) (h_s : s.Form) : OutForm (execSelftest o s) := by
  unfold execSelftest; simp (maxDischargeDepth := 20) (contextual := true) [*]

/-! ### V instructions -/

@[simp] theorem State.v1_form (s : State) (o : VOp) (lat : Nat) (accept : Tag → Bool) (f : Tag → Nat → Nat)
    (h_s : s.Form) :
    OutForm (State.v1 s o lat accept f) := by
  unfold State.v1; simp (maxDischargeDepth := 20) (contextual := true) [*]
@[simp] theorem State.v1F_form (s : State) (o : VOp) (f : Nat → Nat) (h_s : s.Form) : OutForm (State.v1F s o f) := by
  unfold State.v1F; simp (maxDischargeDepth := 20) (contextual := true) [*]
@[simp] theorem State.v2_form (s : State) (o : VOp) (lat : Nat) (accept : Tag → Bool) (f : Tag → Nat → Nat → Nat)
    (h_s : s.Form) :
    OutForm (State.v2 s o lat accept f) := by
  unfold State.v2; simp (maxDischargeDepth := 20) (contextual := true) [*]
@[simp] theorem State.v3_form (s : State) (o : VOp) (lat : Nat) (accept : Tag → Bool)
    (f : Tag → Nat → Nat → Nat → Nat) (h_s : s.Form) :
    OutForm (State.v3 s o lat accept f) := by
  unfold State.v3; simp (maxDischargeDepth := 20) (contextual := true) [*]
@[simp] theorem execVadd_form (o : VOp) (s : State) (h_s : s.Form) : OutForm (execVadd o s) := by
  unfold execVadd; simp (maxDischargeDepth := 20) (contextual := true) [*]
@[simp] theorem execVsub_form (o : VOp) (s : State) (h_s : s.Form) : OutForm (execVsub o s) := by
  unfold execVsub; simp (maxDischargeDepth := 20) (contextual := true) [*]
@[simp] theorem execVmul_form (o : VOp) (s : State) (h_s : s.Form) : OutForm (execVmul o s) := by
  unfold execVmul; simp (maxDischargeDepth := 20) (contextual := true) [*]
@[simp] theorem execVfma_form (o : VOp) (s : State) (h_s : s.Form) : OutForm (execVfma o s) := by
  unfold execVfma; simp (maxDischargeDepth := 20) (contextual := true) [*]
@[simp] theorem execVfms_form (o : VOp) (s : State) (h_s : s.Form) : OutForm (execVfms o s) := by
  unfold execVfms; simp (maxDischargeDepth := 20) (contextual := true) [*]
@[simp] theorem execVfnma_form (o : VOp) (s : State) (h_s : s.Form) : OutForm (execVfnma o s) := by
  unfold execVfnma; simp (maxDischargeDepth := 20) (contextual := true) [*]
@[simp] theorem execVmin_form (o : VOp) (s : State) (h_s : s.Form) : OutForm (execVmin o s) := by
  unfold execVmin; simp (maxDischargeDepth := 20) (contextual := true) [*]
@[simp] theorem execVmax_form (o : VOp) (s : State) (h_s : s.Form) : OutForm (execVmax o s) := by
  unfold execVmax; simp (maxDischargeDepth := 20) (contextual := true) [*]
@[simp] theorem execVabs_form (o : VOp) (s : State) (h_s : s.Form) : OutForm (execVabs o s) := by
  unfold execVabs; simp (maxDischargeDepth := 20) (contextual := true) [*]
@[simp] theorem execVneg_form (o : VOp) (s : State) (h_s : s.Form) : OutForm (execVneg o s) := by
  unfold execVneg; simp (maxDischargeDepth := 20) (contextual := true) [*]
@[simp] theorem State.vlogic_form (s : State) (o : VOp) (f : VBits → VBits → VBits) (h_s : s.Form) :
    OutForm (State.vlogic s o f) := by
  unfold State.vlogic; simp (maxDischargeDepth := 20) (contextual := true) [*]
@[simp] theorem execVand_form (o : VOp) (s : State) (h_s : s.Form) : OutForm (execVand o s) := by
  unfold execVand; simp (maxDischargeDepth := 20) (contextual := true) [*]
@[simp] theorem execVor_form (o : VOp) (s : State) (h_s : s.Form) : OutForm (execVor o s) := by
  unfold execVor; simp (maxDischargeDepth := 20) (contextual := true) [*]
@[simp] theorem execVxor_form (o : VOp) (s : State) (h_s : s.Form) : OutForm (execVxor o s) := by
  unfold execVxor; simp (maxDischargeDepth := 20) (contextual := true) [*]
@[simp] theorem execVshl_form (o : VOp) (s : State) (h_s : s.Form) : OutForm (execVshl o s) := by
  unfold execVshl; simp (maxDischargeDepth := 20) (contextual := true) [*]
@[simp] theorem execVshr_form (o : VOp) (s : State) (h_s : s.Form) : OutForm (execVshr o s) := by
  unfold execVshr; simp (maxDischargeDepth := 20) (contextual := true) [*]
@[simp] theorem execVsar_form (o : VOp) (s : State) (h_s : s.Form) : OutForm (execVsar o s) := by
  unfold execVsar; simp (maxDischargeDepth := 20) (contextual := true) [*]
@[simp] theorem execVcmp_form (o : VOp) (s : State) (h_s : s.Form) : OutForm (execVcmp o s) := by
  unfold execVcmp; simp (maxDischargeDepth := 20) (contextual := true) [*]
@[simp] theorem execVsel_form (o : VOp) (s : State) (h_s : s.Form) : OutForm (execVsel o s) := by
  unfold execVsel; simp (maxDischargeDepth := 20) (contextual := true) [*]
@[simp] theorem execVmov_form (o : VOp) (s : State) (h_s : s.Form) : OutForm (execVmov o s) := by
  unfold execVmov; simp (maxDischargeDepth := 20) (contextual := true) [*]
@[simp] theorem execVbcast_form (o : VOp) (s : State) (h_s : s.Form) : OutForm (execVbcast o s) := by
  unfold execVbcast; simp (maxDischargeDepth := 20) (contextual := true) [*]
@[simp] theorem execViota_form (o : VOp) (s : State) (h_s : s.Form) : OutForm (execViota o s) := by
  unfold execViota; simp (maxDischargeDepth := 20) (contextual := true) [*]
@[simp] theorem execVperm_form (o : VOp) (s : State) (h_s : s.Form) : OutForm (execVperm o s) := by
  unfold execVperm; simp (maxDischargeDepth := 20) (contextual := true) [*]
@[simp] theorem execVslide_form (o : VOp) (s : State) (h_s : s.Form) : OutForm (execVslide o s) := by
  unfold execVslide; simp (maxDischargeDepth := 20) (contextual := true) [*]
@[simp] theorem execVmovs_form (o : VOp) (s : State) (h_s : s.Form) : OutForm (execVmovs o s) := by
  unfold execVmovs; simp (maxDischargeDepth := 20) (contextual := true) [*]
@[simp] theorem execVcvt_form (o : VOp) (s : State) (h_s : s.Form) : OutForm (execVcvt o s) := by
  unfold execVcvt; simp (maxDischargeDepth := 20) (contextual := true) [*]
@[simp] theorem execVtag_form (o : VOp) (s : State) (h_s : s.Form) : OutForm (execVtag o s) := by
  unfold execVtag; simp (maxDischargeDepth := 20) (contextual := true) [*]
@[simp] theorem execVqnt_form (o : VOp) (s : State) (h_s : s.Form) : OutForm (execVqnt o s) := by
  unfold execVqnt; simp (maxDischargeDepth := 20) (contextual := true) [*]
@[simp] theorem execVdqnt_form (o : VOp) (s : State) (h_s : s.Form) : OutForm (execVdqnt o s) := by
  unfold execVdqnt; simp (maxDischargeDepth := 20) (contextual := true) [*]
@[simp] theorem execVscl_form (o : VOp) (s : State) (h_s : s.Form) : OutForm (execVscl o s) := by
  unfold execVscl; simp (maxDischargeDepth := 20) (contextual := true) [*]
@[simp] theorem execVrcp_form (o : VOp) (s : State) (h_s : s.Form) : OutForm (execVrcp o s) := by
  unfold execVrcp; simp (maxDischargeDepth := 20) (contextual := true) [*]
@[simp] theorem execVrsq_form (o : VOp) (s : State) (h_s : s.Form) : OutForm (execVrsq o s) := by
  unfold execVrsq; simp (maxDischargeDepth := 20) (contextual := true) [*]
@[simp] theorem execVexp2_form (o : VOp) (s : State) (h_s : s.Form) : OutForm (execVexp2 o s) := by
  unfold execVexp2; simp (maxDischargeDepth := 20) (contextual := true) [*]
@[simp] theorem execVlog2_form (o : VOp) (s : State) (h_s : s.Form) : OutForm (execVlog2 o s) := by
  unfold execVlog2; simp (maxDischargeDepth := 20) (contextual := true) [*]
@[simp] theorem State.vreduce_form (s : State) (o : VOp) (ident : Tag → Nat) (f : Tag → Nat → Nat → Nat)
    (h_s : s.Form) :
    OutForm (State.vreduce s o ident f) := by
  unfold State.vreduce; simp (maxDischargeDepth := 20) (contextual := true) [*]
@[simp] theorem execVrsum_form (o : VOp) (s : State) (h_s : s.Form) : OutForm (execVrsum o s) := by
  unfold execVrsum; simp (maxDischargeDepth := 20) (contextual := true) [*]
@[simp] theorem execVrmax_form (o : VOp) (s : State) (h_s : s.Form) : OutForm (execVrmax o s) := by
  unfold execVrmax; simp (maxDischargeDepth := 20) (contextual := true) [*]
@[simp] theorem execVrmin_form (o : VOp) (s : State) (h_s : s.Form) : OutForm (execVrmin o s) := by
  unfold execVrmin; simp (maxDischargeDepth := 20) (contextual := true) [*]
@[simp] theorem execVscan_form (o : VOp) (s : State) (h_s : s.Form) : OutForm (execVscan o s) := by
  unfold execVscan; simp (maxDischargeDepth := 20) (contextual := true) [*]
@[simp] theorem execVpopc_form (o : VOp) (s : State) (h_s : s.Form) : OutForm (execVpopc o s) := by
  unfold execVpopc; simp (maxDischargeDepth := 20) (contextual := true) [*]
@[simp] theorem execVhash_form (o : VOp) (s : State) (h_s : s.Form) : OutForm (execVhash o s) := by
  unfold execVhash; simp (maxDischargeDepth := 20) (contextual := true) [*]
@[simp] theorem execVclass_form (o : VOp) (s : State) (h_s : s.Form) : OutForm (execVclass o s) := by
  unfold execVclass; simp (maxDischargeDepth := 20) (contextual := true) [*]
@[simp] theorem execVrnd_form (o : VOp) (s : State) (h_s : s.Form) : OutForm (execVrnd o s) := by
  unfold execVrnd; simp (maxDischargeDepth := 20) (contextual := true) [*]
@[simp] theorem execVgen_form (o : VOp) (s : State) (h_s : s.Form) : OutForm (execVgen o s) := by
  unfold execVgen; simp (maxDischargeDepth := 20) (contextual := true) [*]

/-! ### Selection -/

@[simp] theorem State.putList_form (s : State) (lat : Nat) (o : VOp) (t : Tag) (xs : List (Nat × Nat)) (lost : Bool)
    (h_s : s.Form) :
    (State.putList s lat o t xs lost).Form := by
  unfold State.putList; simp (maxDischargeDepth := 20) (contextual := true) [*]
@[simp] theorem State.vselect_form (s : State) (o : VOp) (more : Nat) (fin : VIn → State → State) (h_s : s.Form)
    (h_fin : ∀ (x0 : VIn) (x1 : State), x1.Form → (fin x0 x1).Form) :
    OutForm (State.vselect s o more fin) := by
  unfold State.vselect; simp (maxDischargeDepth := 20) (contextual := true) [*]
@[simp] theorem execVsort_form (o : VOp) (s : State) (h_s : s.Form) : OutForm (execVsort o s) := by
  unfold execVsort; simp (maxDischargeDepth := 20) (contextual := true) [*]
@[simp] theorem execVtopk_form (o : VOp) (s : State) (h_s : s.Form) : OutForm (execVtopk o s) := by
  unfold execVtopk; simp (maxDischargeDepth := 20) (contextual := true) [*]
@[simp] theorem execVmergek_form (o : VOp) (s : State) (h_s : s.Form) : OutForm (execVmergek o s) := by
  unfold execVmergek; simp (maxDischargeDepth := 20) (contextual := true) [*]
@[simp] theorem execVcomp_form (o : VOp) (s : State) (h_s : s.Form) : OutForm (execVcomp o s) := by
  unfold execVcomp; simp (maxDischargeDepth := 20) (contextual := true) [*]

/-! ### M instructions -/

@[simp] theorem execMldw_form (o : MOp) (s : State) (h_s : s.Form) : OutForm (execMldw o s) := by
  unfold execMldw
  refine State.primaryOnly_form _ _ _ h_s fun t ht => ?_
  dsimp only; repeat' first | (simp (maxDischargeDepth := 20) (contextual := true) [*]; done) | split
@[simp] theorem execMflip_form (o : MOp) (s : State) (h_s : s.Form) : OutForm (execMflip o s) := by
  unfold execMflip; simp (maxDischargeDepth := 20) (contextual := true) [*]
@[simp] theorem State.stream_form (s : State) (o : MOp) (zero : Bool) (h_s : s.Form) :
    OutForm (State.stream s o zero) := by
  unfold State.stream
  refine State.primaryOnly_form _ _ _ h_s fun t ht => ?_
  dsimp only; repeat' first
    | with_reducible apply outForm_ite | (simp (maxDischargeDepth := 20) (contextual := true) [*]; done) | split
@[simp] theorem execMmul_form (o : MOp) (s : State) (h_s : s.Form) : OutForm (execMmul o s) := by
  unfold execMmul; simp (maxDischargeDepth := 20) (contextual := true) [*]
@[simp] theorem execMmulz_form (o : MOp) (s : State) (h_s : s.Form) : OutForm (execMmulz o s) := by
  unfold execMmulz; simp (maxDischargeDepth := 20) (contextual := true) [*]
@[simp] theorem execMbnd_form (o : MOp) (s : State) (h_s : s.Form) : OutForm (execMbnd o s) := by
  unfold execMbnd; simp (maxDischargeDepth := 20) (contextual := true) [*]
@[simp] theorem execMepi_form (o : MOp) (s : State) (h_s : s.Form) : OutForm (execMepi o s) := by
  unfold execMepi
  refine State.primaryOnly_form _ _ _ h_s fun t ht => ?_
  dsimp only; repeat' first
    | with_reducible apply outForm_ite | (simp (maxDischargeDepth := 20) (contextual := true) [*]; done) | split
@[simp] theorem execMrda_form (o : MOp) (s : State) (h_s : s.Form) : OutForm (execMrda o s) := by
  unfold execMrda; simp (maxDischargeDepth := 20) (contextual := true) [*]
@[simp] theorem execMwra_form (o : MOp) (s : State) (h_s : s.Form) : OutForm (execMwra o s) := by
  unfold execMwra; simp (maxDischargeDepth := 20) (contextual := true) [*]
@[simp] theorem execMzero_form (o : MOp) (s : State) (h_s : s.Form) : OutForm (execMzero o s) := by
  unfold execMzero; simp (maxDischargeDepth := 20) (contextual := true) [*]
@[simp] theorem execMred_form (o : MOp) (s : State) (h_s : s.Form) : OutForm (execMred o s) := by
  unfold execMred
  refine State.primaryOnly_form _ _ _ h_s fun t ht => ?_
  dsimp only; repeat' first | (simp (maxDischargeDepth := 20) (contextual := true) [*]; done) | split

end Sys2Proof.Machine
end

