-- ==== Sys2Proof/Laws/FormMemory.lean ====
section
/-! SUPPORT. The C meanings, drift threads and engine steps keep every memory in canonical form. -/

set_option linter.all false

namespace Sys2Proof.Machine

/-! ### Acting on another core or bank -/

@[simp] theorem State.focus_form (s : State) (c : Nat) (h_s : s.Form) : (State.focus s c).Form := by
  unfold State.focus; simp (maxDischargeDepth := 20) (contextual := true) [*]
@[simp] theorem State.onCore_form (s : State) (c : Nat) (f : State → State) (h_s : s.Form)
    (h_f : ∀ (x0 : State), x0.Form → (f x0).Form) :
    (State.onCore s c f).Form := by
  unfold State.onCore; simp (maxDischargeDepth := 20) (contextual := true) [*]
@[simp] theorem State.onBank_form (s : State) (n : Nat) (f : State → State) (h_s : s.Form)
    (h_f : ∀ (x0 : State), x0.Form → (f x0).Form) :
    (State.onBank s n f).Form := by
  unfold State.onBank; simp (maxDischargeDepth := 20) (contextual := true) [*]
@[simp] theorem State.onCoreBank_form (s : State) (c n : Nat) (f : State → State) (h_s : s.Form)
    (h_f : ∀ (x0 : State), x0.Form → (f x0).Form) :
    (State.onCoreBank s c n f).Form := by
  unfold State.onCoreBank; simp (maxDischargeDepth := 20) (contextual := true) [*]
@[simp] theorem State.asAgent_form (s : State) (a : Agent) (f : State → State) (h_s : s.Form)
    (h_f : ∀ (x0 : State), x0.Form → (f x0).Form) :
    (State.asAgent s a f).Form := by
  unfold State.asAgent; simp (maxDischargeDepth := 20) (contextual := true) [*]

/-! ### The register window -/

@[simp] theorem State.regRead_form (s : State) (off : Nat) (h_s : s.Form) : (State.regRead s off).2.Form := by
  unfold State.regRead; simp (maxDischargeDepth := 20) (contextual := true) [*]
@[simp] theorem Hub.letRun_attest (h : Hub) (p : Nat) :
    (Hub.letRun h p).attest = h.attest := by unfold Hub.letRun; simp
@[simp] theorem Hub.letRun_saved {h : Hub} (p : Nat) (hs : savedOk h.parts = true) : savedOk (Hub.letRun h p).parts = true := by
  unfold Hub.letRun; simp (contextual := true) [hs]
@[simp] theorem State.putGuestctl_form (s : State) (v : Word) (h_s : s.Form) : (State.putGuestctl s v).Form := by
  unfold State.putGuestctl; dsimp only; (repeat' split) <;> simp (maxDischargeDepth := 20) (contextual := true) [*]
@[simp] theorem State.putAttest_form (s : State) (off : Nat) (v : Word) (h_s : s.Form) :
    (State.putAttest s off v).Form := by
  unfold State.putAttest; simp (maxDischargeDepth := 20) (contextual := true) [*]
@[simp] theorem State.regWrite_form (s : State) (off : Nat) (v : Word) (h_s : s.Form) :
    (State.regWrite s off v).Form := by
  have key : ∀ k : Nat, (s.setHub (if h : k < 32 then (if mcReserved k then s.hub else
      { s.hub with mc := s.hub.mc.set k ((s.hub.mc[k]).put (off % 32 / 8) v) }) else s.hub)).Form := by
    intro k; (repeat' split) <;> simp (maxDischargeDepth := 20) [h_s]
  unfold State.regWrite; dsimp only; split
  all_goals repeat' first
    | with_reducible apply form_ite | with_reducible exact key _
    | (simp (maxDischargeDepth := 20) (contextual := true) [h_s]; done)

/-! ### Drift threads -/

@[simp] theorem State.threadFault_form (s : State) (cause addr : Nat) (h_s : s.Form) :
    (State.threadFault s cause addr).Form := by
  unfold State.threadFault; simp (maxDischargeDepth := 20) (contextual := true) [*]
@[simp] theorem State.threadEvent_form (s : State) (va : Nat) (h_s : s.Form) : (State.threadEvent s va).Form := by
  unfold State.threadEvent; simp (maxDischargeDepth := 20) (contextual := true) [*]
@[simp] theorem State.threadReady_form (s : State) (h_s : s.Form) : (State.threadReady s).Form := by
  unfold State.threadReady; simp (maxDischargeDepth := 20) (contextual := true) [*]
@[simp] theorem State.threadGlobal_form (s : State) (va : Nat) (read write : Bool) (k : Nat → State → State)
    (h_s : s.Form) (h_k : ∀ (x0 : Nat) (x1 : State), x1.Form → (k x0 x1).Form) :
    (State.threadGlobal s va read write k).Form := by
  unfold State.threadGlobal; (repeat' split) <;> simp (maxDischargeDepth := 20) (contextual := true) [*]
@[simp] theorem State.putD_form (s : State) (n : Nat) (v : Word) (h_s : s.Form) : (State.putD s n v).Form := by
  unfold State.putD; simp (maxDischargeDepth := 20) (contextual := true) [*]
@[simp] theorem State.driftApply_form (s : State) (h_s : s.Form) : (State.driftApply s).Form := by
  unfold State.driftApply; (repeat' split) <;> simp (maxDischargeDepth := 20) (contextual := true) [*]
@[simp] theorem State.driftDone_form (s : State) (n : Nat) (h_s : s.Form) : (State.driftDone s n).Form := by
  unfold State.driftDone; simp (maxDischargeDepth := 20) (contextual := true) [*]
@[simp] theorem execDriftOpComplete_form (core n : Nat) (s : State) (h_s : s.Form) :
    OutForm (execDriftOpComplete core n s) := by
  unfold execDriftOpComplete; simp (maxDischargeDepth := 20) (contextual := true) [*]
@[simp] theorem State.driftDue_form (s : State) (h_s : s.Form) : (State.driftDue s).Form := by
  unfold State.driftDue; simp (maxDischargeDepth := 20) (contextual := true) [*]
@[simp] theorem State.countLater_form (s : State) (reg : Nat) (h_s : s.Form) : (State.countLater s reg).Form := by
  unfold State.countLater; simp (maxDischargeDepth := 20) (contextual := true) [*]
@[simp] theorem State.fillSlot_form (s : State) (f : Fill) (copy : Bool) (h_s : s.Form) :
    (State.fillSlot s f copy).1.Form := by
  unfold State.fillSlot; dsimp only; (repeat' split) <;> simp (maxDischargeDepth := 20) (contextual := true) [*]
@[simp] theorem execDriftSlotFill_form (s : State) (h_s : s.Form) : OutForm (execDriftSlotFill s) := by
  unfold execDriftSlotFill; dsimp only; (repeat' split) <;> simp (maxDischargeDepth := 20) (contextual := true) [*]
@[simp] theorem execTokenWindow_form (grant : Nat) (s : State) (h_s : s.Form) :
    OutForm (execTokenWindow grant s) := by
  unfold execTokenWindow; simp (maxDischargeDepth := 20) (contextual := true) [*]

/-! ### Loads, stores and pins -/

@[simp] theorem State.driftGlobal_form (s : State) (a : Nat) (read write : Bool) (e : DriftEff) (h_s : s.Form) :
    (State.driftGlobal s a read write e).Form := by
  unfold State.driftGlobal; simp (maxDischargeDepth := 20) (contextual := true) [*]
@[simp] theorem State.driftAccess_form (s : State) (a w : Nat) (read write : Bool) (loc : State → State × DriftEff)
    (glob : DriftEff) (hub : Option DriftEff) (h_s : s.Form) (h_loc : ∀ (x0 : State), x0.Form → (loc x0).1.Form) :
    OutForm (State.driftAccess s a w read write loc glob hub) := by
  unfold State.driftAccess; (repeat' split) <;> simp (maxDischargeDepth := 20) (contextual := true) [*]
@[simp] theorem execLd_form (o : COp) (s : State) (h_s : s.Form) : OutForm (execLd o s) := by
  unfold execLd
  refine State.guarded_form _ _ _ h_s fun t ht => ?_
  dsimp only; repeat' first | (simp (maxDischargeDepth := 20) (contextual := true) [*]; done) | split
@[simp] theorem execSt_form (o : COp) (s : State) (h_s : s.Form) : OutForm (execSt o s) := by
  unfold execSt
  refine State.guarded_form _ _ _ h_s fun t ht => ?_
  dsimp only; repeat' first | (simp (maxDischargeDepth := 20) (contextual := true) [*]; done) | split
@[simp] theorem execLdv_form (o : COp) (s : State) (h_s : s.Form) : OutForm (execLdv o s) := by
  unfold execLdv
  refine State.primaryOnly_form _ _ _ h_s fun t ht => ?_
  dsimp only; repeat' first | (simp (maxDischargeDepth := 20) (contextual := true) [*]; done) | split
@[simp] theorem execStv_form (o : COp) (s : State) (h_s : s.Form) : OutForm (execStv o s) := by
  unfold execStv
  refine State.primaryOnly_form _ _ _ h_s fun t ht => ?_
  dsimp only; repeat' first | (simp (maxDischargeDepth := 20) (contextual := true) [*]; done) | split
@[simp] theorem State.granular_form (s : State) (o : COp) (tags : Bank → Bool) (k : List (Nat × Nat) → State → Out)
    (h_s : s.Form) (h_k : ∀ (x0 : List (Nat × Nat)) (x1 : State), x1.Form → OutForm (k x0 x1)) :
    OutForm (State.granular s o tags k) := by
  unfold State.granular
  refine State.primaryOnly_form _ _ _ h_s fun t ht => ?_
  dsimp only; repeat' first | (simp (maxDischargeDepth := 20) (contextual := true) [*]; done) | split
@[simp] theorem execGath_form (o : COp) (s : State) (h_s : s.Form) : OutForm (execGath o s) := by
  unfold execGath; simp (maxDischargeDepth := 20) (contextual := true) [*]
@[simp] theorem execScat_form (o : COp) (s : State) (h_s : s.Form) : OutForm (execScat o s) := by
  unfold execScat; simp (maxDischargeDepth := 20) (contextual := true) [*]
@[simp] theorem execPin_form (o : COp) (s : State) (h_s : s.Form) : OutForm (execPin o s) := by
  unfold execPin
  refine State.primaryOnly_form _ _ _ h_s fun t ht => ?_
  dsimp only; repeat' first | (simp (maxDischargeDepth := 20) (contextual := true) [*]; done) | split
@[simp] theorem execUnpin_form (o : COp) (s : State) (h_s : s.Form) : OutForm (execUnpin o s) := by
  unfold execUnpin
  refine State.primaryOnly_form _ _ _ h_s fun t ht => ?_
  dsimp only; repeat' first | (simp (maxDischargeDepth := 20) (contextual := true) [*]; done) | split

/-! ### Engine operations -/

@[simp] theorem State.mapOp_form (s : State) (id : Nat) (f : EngineOp → EngineOp) (h_s : s.Form) :
    (State.mapOp s id f).Form := by
  unfold State.mapOp; simp (maxDischargeDepth := 20) (contextual := true) [*]
@[simp] theorem State.retryOn_form (s : State) (core : Nat) (t : Turn) (h_s : s.Form) :
    (State.retryOn s core t).Form := by
  unfold State.retryOn; simp (maxDischargeDepth := 20) (contextual := true) [*]
@[simp] theorem State.dropOp_form (s : State) (id : Nat) (h_s : s.Form) : (State.dropOp s id).Form := by
  unfold State.dropOp; simp (maxDischargeDepth := 20) (contextual := true) [*]
@[simp] theorem State.asOp_form (s : State) (o : EngineOp) (f : State → State) (h_s : s.Form)
    (h_f : ∀ (x0 : State), x0.Form → (f x0).Form) :
    (State.asOp s o f).Form := by
  unfold State.asOp; simp (maxDischargeDepth := 20) (contextual := true) [*]
@[simp] theorem State.opVisible_form (s : State) (o : EngineOp) (rel : Bool) (h_s : s.Form) :
    (State.opVisible s o rel).Form := by
  unfold State.opVisible; split
  · exact h_s
  · refine State.asOp_form _ _ _ h_s fun t ht => ?_
    split <;> simp [ht]
@[simp] theorem State.onBarrier_form (s : State) (o : EngineOp) (f : Bank → Bank) (h_s : s.Form) :
    (State.onBarrier s o f).Form := by
  unfold State.onBarrier; exact State.asOp_form _ _ _ h_s fun t ht => setCore_form ht ht.3
@[simp] theorem State.dieAcquire_form (s : State) (src die scope : Nat) (h_s : s.Form) :
    (State.dieAcquire s src die scope).Form := by
  unfold State.dieAcquire; simp (maxDischargeDepth := 20) (contextual := true) [*]
@[simp] theorem State.takeNet_form (s : State) (core : Nat) (h_s : s.Form) :
    (State.takeNet s core).Form := by
  unfold State.takeNet; simp (maxDischargeDepth := 20) (contextual := true) [*]
@[simp] theorem State.retryOp_form (s : State) (o : EngineOp) (t : Turn) (h_s : s.Form) :
    (State.retryOp s o t).Form := by
  unfold State.retryOp; simp (maxDischargeDepth := 20) (contextual := true) [*]
@[simp] theorem State.finishOp_form (s : State) (o : EngineOp) (v : Option Word) (h_s : s.Form) :
    (State.finishOp s o v).Form := by
  unfold State.finishOp; (repeat' split) <;> simp (maxDischargeDepth := 20) (contextual := true) [*]
@[simp] theorem State.markFrame_form (s : State) (op : Nat) (v : Bool) (h_s : s.Form) :
    (State.markFrame s op v).Form := by
  unfold State.markFrame; (repeat' split) <;> simp (maxDischargeDepth := 20) (contextual := true) [*]
@[simp] theorem State.stopOp_form (s : State) (o : EngineOp) (kind : RecKind) (va line : Nat) (h_s : s.Form) :
    (State.stopOp s o kind va line).Form := by
  unfold State.stopOp; (repeat' split) <;> simp (maxDischargeDepth := 20) (contextual := true) [*]
@[simp] theorem State.opGlobal_form (s : State) (o : EngineOp) (va line : Nat) (read write : Bool)
    (k : Nat → State → State) (h_s : s.Form) (h_k : ∀ (x0 : Nat) (x1 : State), x1.Form → (k x0 x1).Form) :
    (State.opGlobal s o va line read write k).Form := by
  unfold State.opGlobal; (repeat' split) <;> simp (maxDischargeDepth := 20) (contextual := true) [*]
@[simp] theorem State.dieRelease_form (s : State) (die scope : Nat) (h_s : s.Form) :
    (State.dieRelease s die scope).Form := by
  unfold State.dieRelease; simp (maxDischargeDepth := 20) (contextual := true) [*]
@[simp] theorem State.opParts_form (s : State) (o : EngineOp) (line : Nat) (read write : Bool) (ps : List (Nat × Nat)) (k : List (Nat × Nat) → State → State)
    (h_s : s.Form) (h_k : ∀ (x : List (Nat × Nat)) (t : State), t.Form → (k x t).Form) : (State.opParts s o line read write ps k).Form := by
  induction ps generalizing s k with
  | nil => exact h_k _ _ h_s
  | cons p ps ih =>
    unfold State.opParts
    refine State.opGlobal_form _ _ _ _ _ _ _ h_s (fun pa t ht => ih _ _ ht (fun x u hu => h_k _ _ hu))
@[simp] theorem State.putParts_form (s : State) (ps : List (Nat × Nat)) (bs : List Byte) (h_s : s.Form) :
    (State.putParts s ps bs).Form := by
  induction ps generalizing s bs with
  | nil => exact h_s
  | cons p ps ih => exact ih _ _ (State.globalPut_form _ _ _ h_s)
@[simp] theorem State.claimPorts_form (s : State) (a len : Nat) (h_s : s.Form) : (State.claimPorts s a len).Form := by
  unfold State.claimPorts; simp (maxDischargeDepth := 20) (contextual := true) [*]
@[simp] theorem State.deliver_form (s : State) (a : Nat) (bytes : List Byte) (seq : Nat) (h_s : s.Form) :
    (State.deliver s a bytes seq).Form := by
  unfold State.deliver; dsimp only
  repeat' first
    | with_reducible intro _ | with_reducible apply outForm_ite | with_reducible apply form_ite
    | with_reducible refine (rouse_form _).2 ?_ | with_reducible refine (later_form _).2 ?_
    | with_reducible refine (setBank_form _).2 ?_ | with_reducible apply State.guarded_form
    | with_reducible apply State.primaryOnly_form | with_reducible apply State.supOnly_form
    | with_reducible apply foldl_form | with_reducible apply State.onCore_form
    | with_reducible apply State.onBank_form | with_reducible apply State.onCoreBank_form
    | with_reducible apply State.asAgent_form | with_reducible apply State.threadGlobal_form
    | with_reducible apply State.driftAccess_form | with_reducible apply State.granular_form
    | with_reducible apply State.opGlobal_form | with_reducible apply State.opParts_form
    | with_reducible apply State.opTiles_form | with_reducible apply State.asOp_form
    | with_reducible apply State.barrWord_form | with_reducible apply State.blockOp_form
    | with_reducible apply State.captured_form
    | (simp (maxDischargeDepth := 20) (contextual := true) [*]; done) | split
@[simp] theorem State.withTile_form (s : State) (core bank part : Nat) (user : Bool) (t : Tensor) (tid n : Nat) (write : Bool)
    (bad : TileAt → State → State) (k : Nat → State → State) (h_s : s.Form)
    (h_b : ∀ (x : TileAt) (t : State), t.Form → (bad x t).Form) (h_k : ∀ (x : Nat) (t : State), t.Form → (k x t).Form) :
    (State.withTile s core bank part user t tid n write bad k).Form := by
  unfold State.withTile
  split
  · split
    · exact h_k _ _ (State.onCore_form _ _ _ h_s fun t ht => setCore_form ht ht.3)
    · exact h_b _ _ h_s
  · exact h_b _ _ h_s
@[simp] theorem State.opTiles_form (s : State) (o : EngineOp) (t : Tensor) (tid line : Nat) (write : Bool) (ns : List Nat) (k : List (Nat × Nat) → State → State)
    (h_s : s.Form) (h_k : ∀ (x : List (Nat × Nat)) (t : State), t.Form → (k x t).Form) : (State.opTiles s o t tid line write ns k).Form := by
  induction ns generalizing s k with
  | nil => exact h_k _ _ h_s
  | cons p ps ih =>
    unfold State.opTiles
    refine State.withTile_form _ _ _ _ _ _ _ _ _ _ _ h_s (fun x t ht => ?_) fun pa t ht => ih _ _ ht fun x u hu => h_k _ _ hu
    split <;> simp [ht]
@[simp] theorem State.advanceOp_form (s : State) (o : EngineOp) (n : Nat) (h_s : s.Form) :
    (State.advanceOp s o n).Form := by
  unfold State.advanceOp; simp (maxDischargeDepth := 20) (contextual := true) [*]

/-! ### Copies and atomics -/

@[simp] theorem State.startChecked_form (s : State) (o : COp) (kind : OpKind) (dest : Option BarDest)
    (acq : Option Nat) (turns : Nat → List Turn) (h_s : s.Form) :
    OutForm (State.startChecked s o kind dest acq turns) := by
  unfold State.startChecked; simp (maxDischargeDepth := 20) (contextual := true) [*]
@[simp] theorem execCpy_form (o : COp) (s : State) (h_s : s.Form) : OutForm (execCpy o s) := by
  unfold execCpy
  refine State.primaryOnly_form _ _ _ h_s fun t ht => ?_
  dsimp only; repeat' first
    | (simp (maxDischargeDepth := 20) (contextual := true) [*]; done)
    | with_reducible refine State.captured_form _ _ _ _ _ (by assumption) fun _ _ _ => ?_
    | split
@[simp] theorem State.touchTiles_form (s : State) (o : EngineOp) (fs ps : List (Nat × Nat)) (dirty : BitVec 2) (h_s : s.Form) :
    (State.touchTiles s o fs ps dirty).Form := by
  unfold State.touchTiles; simp (maxDischargeDepth := 20) (contextual := true) [*]
@[simp] theorem State.cpyFromTensor_form (s : State) (o : EngineOp) (t : Tensor) (coord box : List Nat)
    (loc tid len : Nat) (h_s : s.Form) :
    (State.cpyFromTensor s o t coord box loc tid len).Form := by
  unfold State.cpyFromTensor; try dsimp only
  repeat' first
    | with_reducible intro _ | with_reducible apply outForm_ite | with_reducible apply form_ite
    | with_reducible refine (rouse_form _).2 ?_ | with_reducible refine (later_form _).2 ?_
    | with_reducible refine (setBank_form _).2 ?_ | with_reducible apply State.guarded_form
    | with_reducible apply State.primaryOnly_form | with_reducible apply State.supOnly_form
    | with_reducible apply foldl_form | with_reducible apply State.onCore_form
    | with_reducible apply State.onBank_form | with_reducible apply State.onCoreBank_form
    | with_reducible apply State.asAgent_form | with_reducible apply State.threadGlobal_form
    | with_reducible apply State.driftAccess_form | with_reducible apply State.granular_form
    | with_reducible apply State.opGlobal_form | with_reducible apply State.opParts_form
    | with_reducible apply State.opTiles_form | with_reducible apply State.asOp_form
    | with_reducible apply State.barrWord_form | with_reducible apply State.blockOp_form
    | with_reducible apply State.captured_form
    | (simp (maxDischargeDepth := 20) (contextual := true) [*]; done) | split
@[simp] theorem State.cpyToTensor_form (s : State) (o : EngineOp) (t : Tensor) (coord box : List Nat)
    (loc tid len : Nat) (h_s : s.Form) :
    (State.cpyToTensor s o t coord box loc tid len).Form := by
  unfold State.cpyToTensor; dsimp only; (repeat' split) <;> simp (maxDischargeDepth := 20) (contextual := true) [*]
@[simp] theorem State.cpyLine_form (s : State) (o : EngineOp) (kind loc : Nat) (t : Option Tensor)
    (coord box : List Nat) (gaddr len : Nat) (h_s : s.Form) :
    (State.cpyLine s o kind loc t coord box gaddr len).Form := by
  unfold State.cpyLine; try dsimp only
  repeat' first
    | with_reducible intro _ | with_reducible apply outForm_ite | with_reducible apply form_ite
    | with_reducible refine (rouse_form _).2 ?_ | with_reducible refine (later_form _).2 ?_
    | with_reducible refine (setBank_form _).2 ?_ | with_reducible apply State.guarded_form
    | with_reducible apply State.primaryOnly_form | with_reducible apply State.supOnly_form
    | with_reducible apply foldl_form | with_reducible apply State.onCore_form
    | with_reducible apply State.onBank_form | with_reducible apply State.onCoreBank_form
    | with_reducible apply State.asAgent_form | with_reducible apply State.threadGlobal_form
    | with_reducible apply State.driftAccess_form | with_reducible apply State.granular_form
    | with_reducible apply State.opGlobal_form | with_reducible apply State.opParts_form
    | with_reducible apply State.opTiles_form | with_reducible apply State.asOp_form
    | with_reducible apply State.barrWord_form | with_reducible apply State.blockOp_form
    | with_reducible apply State.captured_form
    | (simp (maxDischargeDepth := 20) (contextual := true) [*]; done) | split
@[simp] theorem execCpyw_form (o : COp) (s : State) (h_s : s.Form) : OutForm (execCpyw o s) := by
  unfold execCpyw
  refine State.primaryOnly_form _ _ _ h_s fun t ht => ?_
  dsimp only; repeat' first | (simp (maxDischargeDepth := 20) (contextual := true) [*]; done) | split
@[simp] theorem execMcast_form (o : COp) (s : State) (h_s : s.Form) : OutForm (execMcast o s) := by
  unfold execMcast
  refine State.primaryOnly_form _ _ _ h_s fun t ht => ?_
  dsimp only; repeat' first | (simp (maxDischargeDepth := 20) (contextual := true) [*]; done) | split
@[simp] theorem State.mcastRead_form (s : State) (o : EngineOp) (src dst mask n launch : Nat) (h_s : s.Form) :
    (State.mcastRead s o src dst mask n launch).Form := by
  unfold State.mcastRead; dsimp only
  repeat' first
    | with_reducible intro _ | with_reducible apply outForm_ite | with_reducible apply form_ite
    | with_reducible refine (rouse_form _).2 ?_ | with_reducible refine (later_form _).2 ?_
    | with_reducible refine (setBank_form _).2 ?_ | with_reducible apply State.guarded_form
    | with_reducible apply State.primaryOnly_form | with_reducible apply State.supOnly_form
    | with_reducible apply foldl_form | with_reducible apply State.onCore_form
    | with_reducible apply State.onBank_form | with_reducible apply State.onCoreBank_form
    | with_reducible apply State.asAgent_form | with_reducible apply State.threadGlobal_form
    | with_reducible apply State.driftAccess_form | with_reducible apply State.granular_form
    | with_reducible apply State.opGlobal_form | with_reducible apply State.opParts_form
    | with_reducible apply State.opTiles_form | with_reducible apply State.asOp_form
    | with_reducible apply State.barrWord_form | with_reducible apply State.blockOp_form
    | with_reducible apply State.captured_form
    | (simp (maxDischargeDepth := 20) (contextual := true) [*]; done) | split
@[simp] theorem State.mcastTo_form (s : State) (o : EngineOp) (c : Nat) (rest : List Byte) (src dst n launch : Nat) (h_s : s.Form) :
    (State.mcastTo s o c rest src dst n launch).Form := by
  unfold State.mcastTo; dsimp only
  repeat' first
    | with_reducible intro _ | with_reducible apply outForm_ite | with_reducible apply form_ite
    | with_reducible refine (rouse_form _).2 ?_ | with_reducible refine (later_form _).2 ?_
    | with_reducible refine (setBank_form _).2 ?_ | with_reducible apply State.guarded_form
    | with_reducible apply State.primaryOnly_form | with_reducible apply State.supOnly_form
    | with_reducible apply foldl_form | with_reducible apply State.onCore_form
    | with_reducible apply State.onBank_form | with_reducible apply State.onCoreBank_form
    | with_reducible apply State.asAgent_form | with_reducible apply State.threadGlobal_form
    | with_reducible apply State.driftAccess_form | with_reducible apply State.granular_form
    | with_reducible apply State.opGlobal_form | with_reducible apply State.opParts_form
    | with_reducible apply State.opTiles_form | with_reducible apply State.asOp_form
    | with_reducible apply State.barrWord_form | with_reducible apply State.blockOp_form
    | with_reducible apply State.captured_form
    | (simp (maxDischargeDepth := 20) (contextual := true) [*]; done) | split
@[simp] theorem State.mcastLine_form (s : State) (o : EngineOp) (src dst mask n launch : Nat) (h_s : s.Form) :
    (State.mcastLine s o src dst mask n launch).Form := by
  unfold State.mcastLine; try dsimp only
  repeat' first
    | with_reducible intro _ | with_reducible apply outForm_ite | with_reducible apply form_ite
    | with_reducible refine (rouse_form _).2 ?_ | with_reducible refine (later_form _).2 ?_
    | with_reducible refine (setBank_form _).2 ?_ | with_reducible apply State.guarded_form
    | with_reducible apply State.primaryOnly_form | with_reducible apply State.supOnly_form
    | with_reducible apply foldl_form | with_reducible apply State.onCore_form
    | with_reducible apply State.onBank_form | with_reducible apply State.onCoreBank_form
    | with_reducible apply State.asAgent_form | with_reducible apply State.threadGlobal_form
    | with_reducible apply State.driftAccess_form | with_reducible apply State.granular_form
    | with_reducible apply State.opGlobal_form | with_reducible apply State.opParts_form
    | with_reducible apply State.opTiles_form | with_reducible apply State.asOp_form
    | with_reducible apply State.barrWord_form | with_reducible apply State.blockOp_form
    | with_reducible apply State.captured_form
    | (simp (maxDischargeDepth := 20) (contextual := true) [*]; done) | split
@[simp] theorem State.atomLocal_form (s : State) (o : COp) (a : Nat) (h_s : s.Form) :
    OutForm (State.atomLocal s o a) := by
  unfold State.atomLocal; dsimp only; (repeat' split) <;> simp (maxDischargeDepth := 20) (contextual := true) [*]
@[simp] theorem execAtom_form (o : COp) (s : State) (h_s : s.Form) : OutForm (execAtom o s) := by
  unfold execAtom
  refine State.guarded_form _ _ _ h_s fun t ht => ?_
  dsimp only; repeat' first | (simp (maxDischargeDepth := 20) (contextual := true) [*]; done) | split
@[simp] theorem State.atomDone_form (s : State) (o : EngineOp) (va op : Nat) (x cmp : Word) (h_s : s.Form) :
    (State.atomDone s o va op x cmp).Form := by
  unfold State.atomDone; simp (maxDischargeDepth := 20) (contextual := true) [*]

/-! ### Flags, barriers and caches -/

@[simp] theorem execFlagw_form (o : COp) (s : State) (h_s : s.Form) : OutForm (execFlagw o s) := by
  unfold execFlagw
  refine State.guarded_form _ _ _ h_s fun t ht => ?_
  dsimp only; repeat' first | (simp (maxDischargeDepth := 20) (contextual := true) [*]; done) | split
@[simp] theorem execFlagr_form (o : COp) (s : State) (h_s : s.Form) : OutForm (execFlagr o s) := by
  unfold execFlagr
  refine State.guarded_form _ _ _ h_s fun t ht => ?_
  dsimp only; repeat' first | (simp (maxDischargeDepth := 20) (contextual := true) [*]; done) | split
@[simp] theorem State.flagwDone_form (s : State) (o : EngineOp) (va : Nat) (v : Word) (rel : Option Nat)
    (h_s : s.Form) :
    (State.flagwDone s o va v rel).Form := by
  unfold State.flagwDone; (repeat' split) <;> simp (maxDischargeDepth := 20) (contextual := true) [*]
@[simp] theorem State.flagrDone_form (s : State) (o : EngineOp) (va : Nat) (h_s : s.Form) :
    (State.flagrDone s o va).Form := by
  unfold State.flagrDone; simp (maxDischargeDepth := 20) (contextual := true) [*]
@[simp] theorem State.fenced_form (s : State) (h_s : s.Form) :
    (State.fenced s).Form := by
  unfold State.fenced; split <;> simp (maxDischargeDepth := 20) (contextual := true) [*]
@[simp] theorem execFence_form (o : COp) (s : State) (h_s : s.Form) : OutForm (execFence o s) := by
  unfold execFence; simp (maxDischargeDepth := 20) (contextual := true) [*]
@[simp] theorem execBarr_form (o : COp) (s : State) (h_s : s.Form) : OutForm (execBarr o s) := by
  unfold execBarr
  refine State.primaryOnly_form _ _ _ h_s fun t ht => ?_
  dsimp only; repeat' first | (simp (maxDischargeDepth := 20) (contextual := true) [*]; done) | split
@[simp] theorem State.barrWord_form (s : State) (o : EngineOp) (va : Nat) (add : Bool) (k : Word → State → State)
    (h_s : s.Form) (h_k : ∀ (x0 : Word) (x1 : State), x1.Form → (k x0 x1).Form) :
    (State.barrWord s o va add k).Form := by
  unfold State.barrWord; try dsimp only
  repeat' first
    | with_reducible intro _ | with_reducible apply outForm_ite | with_reducible apply form_ite
    | with_reducible refine (rouse_form _).2 ?_ | with_reducible refine (later_form _).2 ?_
    | with_reducible refine (setBank_form _).2 ?_ | with_reducible apply State.guarded_form
    | with_reducible apply State.primaryOnly_form | with_reducible apply State.supOnly_form
    | with_reducible apply foldl_form | with_reducible apply State.onCore_form
    | with_reducible apply State.onBank_form | with_reducible apply State.onCoreBank_form
    | with_reducible apply State.asAgent_form | with_reducible apply State.threadGlobal_form
    | with_reducible apply State.driftAccess_form | with_reducible apply State.granular_form
    | with_reducible apply State.opGlobal_form | with_reducible apply State.opParts_form
    | with_reducible apply State.opTiles_form | with_reducible apply State.asOp_form
    | with_reducible apply State.barrWord_form | with_reducible apply State.blockOp_form
    | with_reducible apply State.captured_form
    | (simp (maxDischargeDepth := 20) (contextual := true) [*]; done) | split
@[simp] theorem State.barrDone_form (s : State) (o : EngineOp) (va : Nat) (cnt : Word) (reg sc : Nat)
    (old : Option Word) (held : Bool) (h_s : s.Form) :
    (State.barrDone s o va cnt reg sc old held).Form := by
  unfold State.barrDone; (repeat' split) <;> simp (maxDischargeDepth := 20) (contextual := true) [*]
@[simp] theorem execMsend_form (o : COp) (s : State) (h_s : s.Form) : OutForm (execMsend o s) := by
  unfold execMsend
  refine State.guarded_form _ _ _ h_s fun t ht => ?_
  dsimp only; repeat' first
    | (simp (maxDischargeDepth := 20) (contextual := true) [*]; done)
    | with_reducible refine State.captured_form _ _ _ _ _ (by assumption) fun _ _ _ => ?_
    | split
@[simp] theorem State.msendDone_form (s : State) (o : EngineOp) (m : Message) (h_s : s.Form) :
    (State.msendDone s o m).Form := by
  unfold State.msendDone; simp (maxDischargeDepth := 20) (contextual := true) [*]
@[simp] theorem execPref_form (o : COp) (s : State) (h_s : s.Form) : OutForm (execPref o s) := by
  unfold execPref
  refine State.guarded_form _ _ _ h_s fun t ht => ?_
  dsimp only; repeat' first | (simp (maxDischargeDepth := 20) (contextual := true) [*]; done) | split
@[simp] theorem State.cacheOp_form (s : State) (o : COp) (inval : Bool) (h_s : s.Form) :
    OutForm (State.cacheOp s o inval) := by
  unfold State.cacheOp
  refine State.primaryOnly_form _ _ _ h_s fun t ht => ?_
  dsimp only; repeat' first | (simp (maxDischargeDepth := 20) (contextual := true) [*]; done) | split
@[simp] theorem execWbl_form (o : COp) (s : State) (h_s : s.Form) : OutForm (execWbl o s) := by
  unfold execWbl; simp (maxDischargeDepth := 20) (contextual := true) [*]
@[simp] theorem execInvl_form (o : COp) (s : State) (h_s : s.Form) : OutForm (execInvl o s) := by
  unfold execInvl; simp (maxDischargeDepth := 20) (contextual := true) [*]
@[simp] theorem State.cacheDone_form (s : State) (o : EngineOp) (first n : Nat) (inval : Bool) (h_s : s.Form) :
    (State.cacheDone s o first n inval).Form := by
  unfold State.cacheDone; simp (maxDischargeDepth := 20) (contextual := true) [*]

/-! ### Base-die units and the guest -/

@[simp] theorem State.blockOp_form (s : State) (o : COp) (len al : Nat) (ok : List Byte → Bool)
    (ranges : List Byte → List (Nat × Nat)) (k : List Byte → State → Out) (h_s : s.Form) (h_k : ∀ (x0 : List Byte) (x1 : State), x1.Form → OutForm (k x0 x1)) :
    OutForm (State.blockOp s o len al ok ranges k) := by
  unfold State.blockOp
  refine State.primaryOnly_form _ _ _ h_s fun t ht => ?_
  dsimp only; repeat' first
    | (simp (maxDischargeDepth := 20) (contextual := true) [*]; done)
    | with_reducible refine State.captured_form _ _ _ _ _ (by assumption) fun _ _ _ => ?_
    | split
@[simp] theorem State.enginePut_form (s : State) (die pa : Nat) (bytes : List Byte) (h_s : s.Form) :
    (State.enginePut s die pa bytes).Form := by
  unfold State.enginePut; split <;> simp (maxDischargeDepth := 20) (contextual := true) [*]
@[simp] theorem State.engineTurn_form (s : State) (o : EngineOp) (va die scope : Nat) (rs ws : List (Nat × Nat))
    (h_s : s.Form) : (State.engineTurn s o va die scope rs ws).Form := by
  unfold State.engineTurn; simp (maxDischargeDepth := 20) (contextual := true) [*]
@[simp] theorem State.engineParts_form (s : State) (die : Nat) (ps : List (Nat × Nat)) (bs : List Byte) (h_s : s.Form) :
    (State.engineParts s die ps bs).Form := by
  induction ps generalizing s bs with
  | nil => exact h_s
  | cons p ps ih => exact ih _ _ (State.enginePut_form _ _ _ _ h_s)
@[simp] theorem execBdred_form (o : COp) (s : State) (h_s : s.Form) : OutForm (execBdred o s) := by
  unfold execBdred; simp (maxDischargeDepth := 20) (contextual := true) [*]
@[simp] theorem State.bdredStep_form (s : State) (o : EngineOp) (dst len fmt sc : Nat) (srcs : List Nat) (h_s : s.Form) :
    (State.bdredStep s o dst len fmt sc srcs).Form := by
  unfold State.bdredStep; try dsimp only
  repeat' first
    | with_reducible intro _ | with_reducible apply outForm_ite | with_reducible apply form_ite
    | with_reducible refine (rouse_form _).2 ?_ | with_reducible refine (later_form _).2 ?_
    | with_reducible refine (setBank_form _).2 ?_ | with_reducible apply State.guarded_form
    | with_reducible apply State.primaryOnly_form | with_reducible apply State.supOnly_form
    | with_reducible apply foldl_form | with_reducible apply State.onCore_form
    | with_reducible apply State.onBank_form | with_reducible apply State.onCoreBank_form
    | with_reducible apply State.asAgent_form | with_reducible apply State.threadGlobal_form
    | with_reducible apply State.driftAccess_form | with_reducible apply State.granular_form
    | with_reducible apply State.opGlobal_form | with_reducible apply State.opParts_form
    | with_reducible apply State.opTiles_form | with_reducible apply State.asOp_form
    | with_reducible apply State.barrWord_form | with_reducible apply State.blockOp_form
    | with_reducible apply State.captured_form
    | (simp (maxDischargeDepth := 20) (contextual := true) [*]; done) | split
@[simp] theorem State.bdredDone_form (s : State) (o : EngineOp) (dst flag fval sc : Nat) (h_s : s.Form) :
    (State.bdredDone s o dst flag fval sc).Form := by
  unfold State.bdredDone; simp (maxDischargeDepth := 20) (contextual := true) [*]
@[simp] theorem execBdtopk_form (o : COp) (s : State) (h_s : s.Form) : OutForm (execBdtopk o s) := by
  unfold execBdtopk; simp (maxDischargeDepth := 20) (contextual := true) [*]
@[simp] theorem State.bdtopkStep_form (s : State) (o : EngineOp) (src dst rows n stride k fmt ibase : Nat)
    (h_s : s.Form) :
    (State.bdtopkStep s o src dst rows n stride k fmt ibase).Form := by
  unfold State.bdtopkStep; try dsimp only
  repeat' first
    | with_reducible intro _ | with_reducible apply outForm_ite | with_reducible apply form_ite
    | with_reducible refine (rouse_form _).2 ?_ | with_reducible refine (later_form _).2 ?_
    | with_reducible refine (setBank_form _).2 ?_ | with_reducible apply State.guarded_form
    | with_reducible apply State.primaryOnly_form | with_reducible apply State.supOnly_form
    | with_reducible apply foldl_form | with_reducible apply State.onCore_form
    | with_reducible apply State.onBank_form | with_reducible apply State.onCoreBank_form
    | with_reducible apply State.asAgent_form | with_reducible apply State.threadGlobal_form
    | with_reducible apply State.driftAccess_form | with_reducible apply State.granular_form
    | with_reducible apply State.opGlobal_form | with_reducible apply State.opParts_form
    | with_reducible apply State.opTiles_form | with_reducible apply State.asOp_form
    | with_reducible apply State.barrWord_form | with_reducible apply State.blockOp_form
    | with_reducible apply State.captured_form
    | (simp (maxDischargeDepth := 20) (contextual := true) [*]; done) | split
@[simp] theorem execXroute_form (o : COp) (s : State) (h_s : s.Form) : OutForm (execXroute o s) := by
  unfold execXroute
  refine State.primaryOnly_form _ _ _ h_s fun t ht => ?_
  dsimp only; repeat' first
    | (simp (maxDischargeDepth := 20) (contextual := true) [*]; done)
    | with_reducible refine State.captured_form _ _ _ _ _ (by assumption) fun _ _ _ => ?_
    | split
@[simp] theorem State.expertEntry_form (s : State) (e : Nat) (h_s : s.Form) : (State.expertEntry s e).2.Form := by
  unfold State.expertEntry; dsimp only
  split
  · split <;> simp [h_s]
  · simp [h_s]
@[simp] theorem State.xrouteAway_form (s : State) (o : EngineOp) (port expert loc n rb : Nat) (h_s : s.Form) :
    (State.xrouteAway s o port expert loc n rb).Form := by
  unfold State.xrouteAway; try dsimp only
  repeat' first
    | with_reducible intro _ | with_reducible apply outForm_ite | with_reducible apply form_ite
    | with_reducible refine (rouse_form _).2 ?_ | with_reducible refine (later_form _).2 ?_
    | with_reducible refine (setBank_form _).2 ?_ | with_reducible apply State.guarded_form
    | with_reducible apply State.primaryOnly_form | with_reducible apply State.supOnly_form
    | with_reducible apply foldl_form | with_reducible apply State.onCore_form
    | with_reducible apply State.onBank_form | with_reducible apply State.onCoreBank_form
    | with_reducible apply State.asAgent_form | with_reducible apply State.threadGlobal_form
    | with_reducible apply State.driftAccess_form | with_reducible apply State.granular_form
    | with_reducible apply State.opGlobal_form | with_reducible apply State.opParts_form
    | with_reducible apply State.opTiles_form | with_reducible apply State.asOp_form
    | with_reducible apply State.barrWord_form | with_reducible apply State.blockOp_form
    | with_reducible apply State.captured_form
    | (simp (maxDischargeDepth := 20) (contextual := true) [*]; done) | split
@[simp] theorem State.xrouteClaim_form (s : State) (pa n take : Nat) (put : Nat → HeldWrite → State → State)
    (h_s : s.Form) (h_put : ∀ (a : Nat) (w : HeldWrite) (t : State), t.Form → (put a w t).Form) :
    (State.xrouteClaim s pa n take put).Form := h_put _ _ _ (h_put _ _ _ h_s)
@[simp] theorem State.hubPut_form (s : State) (ps : List (Nat × Nat)) (bs : List Byte) (h_s : s.Form) :
    (State.hubPut s ps bs).Form := by
  induction ps generalizing s bs with
  | nil => exact h_s
  | cons p ps ih => exact ih _ _ (State.putFrom_form _ _ _ _ h_s)
@[simp] theorem State.routeBack_form (s : State) (port id : Nat) (v : Option Word) (h_s : s.Form) :
    (State.routeBack s port id v).Form := by
  unfold State.routeBack; simp (maxDischargeDepth := 20) (contextual := true) [*]
@[simp] theorem State.routeHome_form (s : State) (r : Route) (e : List Byte) (h_s : s.Form) :
    (State.routeHome s r e).2.Form := by
  unfold State.routeHome; dsimp only
  split
  · split
    · split
      · exact h_s
      · dsimp only
        with_reducible refine State.xrouteArrive_form _ _ _ _ _ (State.hubRelease_form _ _ (State.hubPut_form _ _ _
          (State.xrouteClaim_form _ _ _ _ _ h_s fun a w t ht => ?_)))
        split <;> simp [ht]
    · exact h_s
    · exact State.logErrorFor_form _ _ _ h_s
  · exact h_s
  · exact h_s
  · exact State.logErrorFor_form _ _ _ h_s
@[simp] theorem State.stallRoute_form (s : State) (port part va : Nat) (r : Route) (h_s : s.Form) :
    (State.stallRoute s port part va r).Form := by
  unfold State.stallRoute; simp (maxDischargeDepth := 20) (contextual := true) [*]
@[simp] theorem State.takeRoute_form (s : State) (port : Nat) (r : Route) (h_s : s.Form) :
    (State.takeRoute s port r).Form := by
  unfold State.takeRoute; dsimp only
  have he := State.expertEntry_form s r.expert h_s
  split
  · simp [he]
  · split
    · have hr := State.routeHome_form _ r (s.expertEntry r.expert).1 he
      split
      · next v t e => rw [e] at hr; simp [hr]
      · next p v t e => rw [e] at hr; simp [hr]
    · split <;> simp [he]
@[simp] theorem State.takeAnswer_form (s : State) (port id : Nat) (v : Option Word) (h_s : s.Form) :
    (State.takeAnswer s port id v).Form := by
  unfold State.takeAnswer; dsimp only
  repeat' first
    | with_reducible intro _ | with_reducible apply outForm_ite | with_reducible apply form_ite
    | with_reducible refine (rouse_form _).2 ?_ | with_reducible refine (later_form _).2 ?_
    | with_reducible refine (setBank_form _).2 ?_ | with_reducible apply State.guarded_form
    | with_reducible apply State.primaryOnly_form | with_reducible apply State.supOnly_form
    | with_reducible apply foldl_form | with_reducible apply State.onCore_form
    | with_reducible apply State.onBank_form | with_reducible apply State.onCoreBank_form
    | with_reducible apply State.asAgent_form | with_reducible apply State.threadGlobal_form
    | with_reducible apply State.driftAccess_form | with_reducible apply State.granular_form
    | with_reducible apply State.opGlobal_form | with_reducible apply State.opParts_form
    | with_reducible apply State.opTiles_form | with_reducible apply State.asOp_form
    | with_reducible apply State.barrWord_form | with_reducible apply State.blockOp_form
    | with_reducible apply State.captured_form
    | (simp (maxDischargeDepth := 20) (contextual := true) [*]; done) | split
@[simp] theorem State.xrouteStart_form (s : State) (o : EngineOp) (expert loc n rb : Nat) (h_s : s.Form) :
    (State.xrouteStart s o expert loc n rb).Form := by
  unfold State.xrouteStart; try dsimp only
  repeat' first
    | with_reducible intro _ | with_reducible apply outForm_ite | with_reducible apply form_ite
    | with_reducible refine (rouse_form _).2 ?_ | with_reducible refine (later_form _).2 ?_
    | with_reducible refine (setBank_form _).2 ?_ | with_reducible apply State.guarded_form
    | with_reducible apply State.primaryOnly_form | with_reducible apply State.supOnly_form
    | with_reducible apply foldl_form | with_reducible apply State.onCore_form
    | with_reducible apply State.onBank_form | with_reducible apply State.onCoreBank_form
    | with_reducible apply State.asAgent_form | with_reducible apply State.threadGlobal_form
    | with_reducible apply State.driftAccess_form | with_reducible apply State.granular_form
    | with_reducible apply State.opGlobal_form | with_reducible apply State.opParts_form
    | with_reducible apply State.opTiles_form | with_reducible apply State.asOp_form
    | with_reducible apply State.barrWord_form | with_reducible apply State.blockOp_form
    | with_reducible apply State.captured_form
    | (simp (maxDischargeDepth := 20) (contextual := true) [*]; done) | split
@[simp] theorem State.xrouteStep_form (s : State) (o : EngineOp) (expert loc n rb : Nat) (h_s : s.Form) :
    (State.xrouteStep s o expert loc n rb).Form := by
  unfold State.xrouteStep; simp (maxDischargeDepth := 20) (contextual := true) [*]
@[simp] theorem execGpost_form (o : COp) (s : State) (h_s : s.Form) : OutForm (execGpost o s) := by
  unfold execGpost; simp (maxDischargeDepth := 20) (contextual := true) [*]
@[simp] theorem State.gpostDone_form (s : State) (o : EngineOp) (bs : List Byte) (h_s : s.Form) :
    (State.gpostDone s o bs).Form := by
  unfold State.gpostDone; simp (maxDischargeDepth := 20) (contextual := true) [*]

/-! ### Links -/

@[simp] theorem State.linkOp_form (s : State) (o : COp) (send : Bool) (span : Nat → Nat) (kind : Nat → Nat → OpKind)
    (h_s : s.Form) :
    OutForm (State.linkOp s o send span kind) := by
  unfold State.linkOp; dsimp only; (repeat' split) <;> simp (maxDischargeDepth := 20) (contextual := true) [*]
@[simp] theorem execLsend_form (o : COp) (s : State) (h_s : s.Form) : OutForm (execLsend o s) := by
  unfold execLsend; simp (maxDischargeDepth := 20) (contextual := true) [*]
@[simp] theorem execLrecv_form (o : COp) (s : State) (h_s : s.Form) : OutForm (execLrecv o s) := by
  unfold execLrecv; simp (maxDischargeDepth := 20) (contextual := true) [*]
@[simp] theorem execLradd_form (o : COp) (s : State) (h_s : s.Form) : OutForm (execLradd o s) := by
  unfold execLradd; simp (maxDischargeDepth := 20) (contextual := true) [*]
@[simp] theorem State.pairOp_form (s : State) (id len : Nat) (data : List Byte) (h_s : s.Form) :
    (State.pairOp s id len data).Form := by
  unfold State.pairOp; (repeat' split) <;> simp (maxDischargeDepth := 20) (contextual := true) [*]
@[simp] theorem execLinkPair_form (port ch : Nat) (s : State) (h_s : s.Form) : OutForm (execLinkPair port ch s) := by
  unfold execLinkPair; dsimp only; (repeat' split) <;> simp (maxDischargeDepth := 20) (contextual := true) [*]
@[simp] theorem State.advanceLink_form (s : State) (o : EngineOp) (port ch n : Nat) (h_s : s.Form) :
    (State.advanceLink s o port ch n).Form := by
  unfold State.advanceLink; simp (maxDischargeDepth := 20) (contextual := true) [*]
@[simp] theorem State.linkLine_form (s : State) (o : EngineOp) (h_s : s.Form) : (State.linkLine s o).Form := by
  unfold State.linkLine; try dsimp only
  repeat' first
    | with_reducible intro _ | with_reducible apply outForm_ite | with_reducible apply form_ite
    | with_reducible refine (rouse_form _).2 ?_ | with_reducible refine (later_form _).2 ?_
    | with_reducible refine (setBank_form _).2 ?_ | with_reducible apply State.guarded_form
    | with_reducible apply State.primaryOnly_form | with_reducible apply State.supOnly_form
    | with_reducible apply foldl_form | with_reducible apply State.onCore_form
    | with_reducible apply State.onBank_form | with_reducible apply State.onCoreBank_form
    | with_reducible apply State.asAgent_form | with_reducible apply State.threadGlobal_form
    | with_reducible apply State.driftAccess_form | with_reducible apply State.granular_form
    | with_reducible apply State.opGlobal_form | with_reducible apply State.opParts_form
    | with_reducible apply State.opTiles_form | with_reducible apply State.asOp_form
    | with_reducible apply State.barrWord_form | with_reducible apply State.blockOp_form
    | with_reducible apply State.captured_form
    | (simp (maxDischargeDepth := 20) (contextual := true) [*]; done) | split
@[simp] theorem State.linkEnd_form (s : State) (o : EngineOp) (h_s : s.Form) : (State.linkEnd s o).Form := by
  unfold State.linkEnd; (repeat' split) <;> simp (maxDischargeDepth := 20) (contextual := true) [*]
@[simp] theorem execLinkTransferDone_form (port ch : Nat) (s : State) (h_s : s.Form) :
    OutForm (execLinkTransferDone port ch s) := by
  unfold execLinkTransferDone; simp (maxDischargeDepth := 20) (contextual := true) [*]
@[simp] theorem State.sendLanded_form (s : State) (port ch : Nat) (h_s : s.Form) :
    (State.sendLanded s port ch).Form := by
  unfold State.sendLanded; dsimp only
  repeat' first
    | with_reducible intro _ | with_reducible apply outForm_ite | with_reducible apply form_ite
    | with_reducible refine (rouse_form _).2 ?_ | with_reducible refine (later_form _).2 ?_
    | with_reducible refine (setBank_form _).2 ?_ | with_reducible apply State.guarded_form
    | with_reducible apply State.primaryOnly_form | with_reducible apply State.supOnly_form
    | with_reducible apply foldl_form | with_reducible apply State.onCore_form
    | with_reducible apply State.onBank_form | with_reducible apply State.onCoreBank_form
    | with_reducible apply State.asAgent_form | with_reducible apply State.threadGlobal_form
    | with_reducible apply State.driftAccess_form | with_reducible apply State.granular_form
    | with_reducible apply State.opGlobal_form | with_reducible apply State.opParts_form
    | with_reducible apply State.opTiles_form | with_reducible apply State.asOp_form
    | with_reducible apply State.barrWord_form | with_reducible apply State.blockOp_form
    | with_reducible apply State.captured_form
    | (simp (maxDischargeDepth := 20) (contextual := true) [*]; done) | split
@[simp] theorem State.takeData_form (s : State) (port : Nat) (f : Flit) (h_s : s.Form) :
    (State.takeData s port f).Form := by
  unfold State.takeData; dsimp only
  repeat' first
    | with_reducible intro _ | with_reducible apply outForm_ite | with_reducible apply form_ite
    | with_reducible refine (rouse_form _).2 ?_ | with_reducible refine (later_form _).2 ?_
    | with_reducible refine (setBank_form _).2 ?_ | with_reducible apply State.guarded_form
    | with_reducible apply State.primaryOnly_form | with_reducible apply State.supOnly_form
    | with_reducible apply foldl_form | with_reducible apply State.onCore_form
    | with_reducible apply State.onBank_form | with_reducible apply State.onCoreBank_form
    | with_reducible apply State.asAgent_form | with_reducible apply State.threadGlobal_form
    | with_reducible apply State.driftAccess_form | with_reducible apply State.granular_form
    | with_reducible apply State.opGlobal_form | with_reducible apply State.opParts_form
    | with_reducible apply State.opTiles_form | with_reducible apply State.asOp_form
    | with_reducible apply State.barrWord_form | with_reducible apply State.blockOp_form
    | with_reducible apply State.captured_form
    | (simp (maxDischargeDepth := 20) (contextual := true) [*]; done) | split
@[simp] theorem State.takeCredit_form (s : State) (port : Nat) (f : Flit) (h_s : s.Form) :
    (State.takeCredit s port f).Form := by
  unfold State.takeCredit; dsimp only
  repeat' first
    | with_reducible intro _ | with_reducible apply outForm_ite | with_reducible apply form_ite
    | with_reducible refine (rouse_form _).2 ?_ | with_reducible refine (later_form _).2 ?_
    | with_reducible refine (setBank_form _).2 ?_ | with_reducible apply State.guarded_form
    | with_reducible apply State.primaryOnly_form | with_reducible apply State.supOnly_form
    | with_reducible apply foldl_form | with_reducible apply State.onCore_form
    | with_reducible apply State.onBank_form | with_reducible apply State.onCoreBank_form
    | with_reducible apply State.asAgent_form | with_reducible apply State.threadGlobal_form
    | with_reducible apply State.driftAccess_form | with_reducible apply State.granular_form
    | with_reducible apply State.opGlobal_form | with_reducible apply State.opParts_form
    | with_reducible apply State.opTiles_form | with_reducible apply State.asOp_form
    | with_reducible apply State.barrWord_form | with_reducible apply State.blockOp_form
    | with_reducible apply State.captured_form
    | (simp (maxDischargeDepth := 20) (contextual := true) [*]; done) | split
@[simp] theorem State.takeStamp_form (s : State) (port : Nat) (ds : List (Nat × Nat)) (h_s : s.Form) :
    (State.takeStamp s port ds).Form := by
  unfold State.takeStamp State.mapPort; exact ⟨h_s.1, h_s.2, h_s.3, h_s.4, h_s.5⟩
@[simp] theorem State.takeFlit_form (s : State) (port : Nat) (f : Flit) (h_s : s.Form) :
    (State.takeFlit s port f).Form := by
  unfold State.takeFlit; try dsimp only
  repeat' first
    | with_reducible intro _ | with_reducible apply outForm_ite | with_reducible apply form_ite
    | with_reducible refine (rouse_form _).2 ?_ | with_reducible refine (later_form _).2 ?_
    | with_reducible refine (setBank_form _).2 ?_ | with_reducible apply State.guarded_form
    | with_reducible apply State.primaryOnly_form | with_reducible apply State.supOnly_form
    | with_reducible apply foldl_form | with_reducible apply State.onCore_form
    | with_reducible apply State.onBank_form | with_reducible apply State.onCoreBank_form
    | with_reducible apply State.asAgent_form | with_reducible apply State.threadGlobal_form
    | with_reducible apply State.driftAccess_form | with_reducible apply State.granular_form
    | with_reducible apply State.opGlobal_form | with_reducible apply State.opParts_form
    | with_reducible apply State.opTiles_form | with_reducible apply State.asOp_form
    | with_reducible apply State.barrWord_form | with_reducible apply State.blockOp_form
    | with_reducible apply State.captured_form
    | (simp (maxDischargeDepth := 20) (contextual := true) [*]; done) | split
@[simp] theorem execFlitReceive_form (port : Nat) (f : Flit) (s : State) (h_s : s.Form) :
    OutForm (execFlitReceive port f s) := by
  unfold execFlitReceive; simp (maxDischargeDepth := 20) (contextual := true) [*]
@[simp] theorem State.portDown_form (s : State) (port : Nat) (h_s : s.Form) : (State.portDown s port).Form := by
  unfold State.portDown; try dsimp only
  repeat' first
    | with_reducible intro _ | with_reducible apply outForm_ite | with_reducible apply form_ite
    | with_reducible refine (rouse_form _).2 ?_ | with_reducible refine (later_form _).2 ?_
    | with_reducible refine (setBank_form _).2 ?_ | with_reducible apply State.guarded_form
    | with_reducible apply State.primaryOnly_form | with_reducible apply State.supOnly_form
    | with_reducible apply foldl_form | with_reducible apply State.onCore_form
    | with_reducible apply State.onBank_form | with_reducible apply State.onCoreBank_form
    | with_reducible apply State.asAgent_form | with_reducible apply State.threadGlobal_form
    | with_reducible apply State.driftAccess_form | with_reducible apply State.granular_form
    | with_reducible apply State.opGlobal_form | with_reducible apply State.opParts_form
    | with_reducible apply State.opTiles_form | with_reducible apply State.asOp_form
    | with_reducible apply State.barrWord_form | with_reducible apply State.blockOp_form
    | with_reducible apply State.captured_form
    | (simp (maxDischargeDepth := 20) (contextual := true) [*]; done) | split
@[simp] theorem State.touchService_form (s : State) (h_s : s.Form) : (State.touchService s).Form := by
  unfold State.touchService; simp (maxDischargeDepth := 20) (contextual := true) [*]
@[simp] theorem execLaneFail_form (port lane : Nat) (s : State) (h_s : s.Form) :
    OutForm (execLaneFail port lane s) := by
  unfold execLaneFail; simp (maxDischargeDepth := 20) (contextual := true) [*]
@[simp] theorem execStampedWriteApply_form (die : Nat) (w : StampedWrite) (s : State) (h_s : s.Form) :
    OutForm (execStampedWriteApply die w s) := by
  unfold execStampedWriteApply; simp (maxDischargeDepth := 20) (contextual := true) [*]
@[simp] theorem execMessagePortWrite_form (offset size : Nat) (m : Message) (s : State) (h_s : s.Form) :
    OutForm (execMessagePortWrite offset size m s) := by
  unfold execMessagePortWrite; simp (maxDischargeDepth := 20) (contextual := true) [*]
@[simp] theorem execLndropRead_form (s : State) (h_s : s.Form) : OutForm (execLndropRead s) := by
  unfold execLndropRead; simp (maxDischargeDepth := 20) (contextual := true) [*]
@[simp] theorem execMpcntRead_form (s : State) (h_s : s.Form) : OutForm (execMpcntRead s) := by
  unfold execMpcntRead; simp (maxDischargeDepth := 20) (contextual := true) [*]

/-! ### Engine steps, events and subscriptions -/

@[simp] theorem State.lineStep_form (s : State) (o : EngineOp) (h_s : s.Form) : (State.lineStep s o).Form := by
  unfold State.lineStep; (repeat' split) <;> simp (maxDischargeDepth := 20) (contextual := true) [*]
@[simp] theorem execEngineLineLand_form (id : Nat) (s : State) (h_s : s.Form) :
    OutForm (execEngineLineLand id s) := by
  unfold execEngineLineLand; (repeat' split) <;> simp (maxDischargeDepth := 20) (contextual := true) [*]
@[simp] theorem State.endOp_form (s : State) (o : EngineOp) (h_s : s.Form) : (State.endOp s o).Form := by
  unfold State.endOp; (repeat' split) <;> simp (maxDischargeDepth := 20) (contextual := true) [*]
@[simp] theorem execEngineOpComplete_form (id : Nat) (s : State) (h_s : s.Form) :
    OutForm (execEngineOpComplete id s) := by
  unfold execEngineOpComplete; (repeat' split) <;> simp (maxDischargeDepth := 20) (contextual := true) [*]
@[simp] theorem execEngineOpFault_form (id : Nat) (kind : RecKind) (va : Nat) (s : State) (h_s : s.Form) :
    OutForm (execEngineOpFault id kind va s) := by
  unfold execEngineOpFault; (repeat' split) <;> simp (maxDischargeDepth := 20) (contextual := true) [*]
@[simp] theorem State.prefetch_form (s : State) (part va : Nat) (h_s : s.Form) :
    (State.prefetch s part va).2.Form := by
  unfold State.prefetch; dsimp only; (repeat' split) <;> simp (maxDischargeDepth := 20) (contextual := true) [*]
@[simp] theorem State.migrate_form (s : State) (part va entry page : Nat) (held : Bool) (h_s : s.Form) :
    (State.migrate s part va entry page held).Form := by
  unfold State.migrate; dsimp only; (repeat' split) <;> simp (maxDischargeDepth := 20) (contextual := true) [*]
@[simp] theorem State.guestInvalidate_form (s : State) (va : Nat) (h_s : s.Form) :
    (State.guestInvalidate s va).Form := by
  unfold State.guestInvalidate; simp (maxDischargeDepth := 20) (contextual := true) [*]
@[simp] theorem State.resumeOp_form (s : State) (o : EngineOp) (h_s : s.Form) :
    (State.resumeOp s o).Form := by
  unfold State.resumeOp; dsimp only
  repeat' first
    | with_reducible intro _ | with_reducible apply outForm_ite | with_reducible apply form_ite
    | with_reducible refine (rouse_form _).2 ?_ | with_reducible refine (later_form _).2 ?_
    | with_reducible refine (setBank_form _).2 ?_ | with_reducible apply State.guarded_form
    | with_reducible apply State.primaryOnly_form | with_reducible apply State.supOnly_form
    | with_reducible apply foldl_form | with_reducible apply State.onCore_form
    | with_reducible apply State.onBank_form | with_reducible apply State.onCoreBank_form
    | with_reducible apply State.asAgent_form | with_reducible apply State.threadGlobal_form
    | with_reducible apply State.driftAccess_form | with_reducible apply State.granular_form
    | with_reducible apply State.opGlobal_form | with_reducible apply State.opParts_form
    | with_reducible apply State.opTiles_form | with_reducible apply State.asOp_form
    | with_reducible apply State.barrWord_form | with_reducible apply State.blockOp_form
    | with_reducible apply State.captured_form
    | (simp (maxDischargeDepth := 20) (contextual := true) [*]; done) | split
@[simp] theorem State.wakeBank_form (s : State) (ev core bank : Nat) (h_s : s.Form) :
    (State.wakeBank s ev core bank).Form := by
  unfold State.wakeBank; dsimp only; repeat' first
    | with_reducible intro _ | with_reducible apply foldl_form | with_reducible apply State.onCoreBank_form
    | with_reducible refine (rouse_form _).2 ?_
    | (simp (maxDischargeDepth := 20) (contextual := true) [*]; done) | split
@[simp] theorem State.wakeHub_form (s : State) (ev : Nat) (h_s : s.Form) : (State.wakeHub s ev).Form := by
  unfold State.wakeHub; simp (maxDischargeDepth := 20) (contextual := true) [*]
@[simp] theorem State.wakeRoutes_form (s : State) (ev : Nat) (h_s : s.Form) : (State.wakeRoutes s ev).Form := by
  unfold State.wakeRoutes; dsimp only
  refine foldl_form (fun t x ht => ?_) _ _ h_s
  refine foldl_form (fun u y hu => State.takeRoute_form _ _ _ hu) _ _ ?_
  split <;> simp [ht]
@[simp] theorem State.fenceFlag_form (s : State) (p : Packet) (h_s : s.Form) : (State.fenceFlag s p).Form := by
  unfold State.fenceFlag; dsimp only
  split
  · exact h_s
  · split <;> simp (maxDischargeDepth := 20) (contextual := true) [*]
@[simp] theorem State.fenceAgain_form (s : State) (ev : Nat) (h_s : s.Form) : (State.fenceAgain s ev).Form := by
  unfold State.fenceAgain; dsimp only
  exact foldl_form (fun t x ht => by simp [ht]) _ _ (by simp [h_s])
@[simp] theorem State.wakeEvent_form (s : State) (e : Event) (h_s : s.Form) : (State.wakeEvent s e).Form := by
  unfold State.wakeEvent; try dsimp only
  repeat' first
    | with_reducible intro _ | with_reducible apply outForm_ite | with_reducible apply form_ite
    | with_reducible refine (rouse_form _).2 ?_ | with_reducible refine (later_form _).2 ?_
    | with_reducible refine (setBank_form _).2 ?_ | with_reducible apply State.guarded_form
    | with_reducible apply State.primaryOnly_form | with_reducible apply State.supOnly_form
    | with_reducible apply foldl_form | with_reducible apply State.onCore_form
    | with_reducible apply State.onBank_form | with_reducible apply State.onCoreBank_form
    | with_reducible apply State.asAgent_form | with_reducible apply State.threadGlobal_form
    | with_reducible apply State.driftAccess_form | with_reducible apply State.granular_form
    | with_reducible apply State.opGlobal_form | with_reducible apply State.opParts_form
    | with_reducible apply State.opTiles_form | with_reducible apply State.asOp_form
    | with_reducible apply State.barrWord_form | with_reducible apply State.blockOp_form
    | with_reducible apply State.captured_form
    | (simp (maxDischargeDepth := 20) (contextual := true) [*]; done) | split
@[simp] theorem execEventAnswer_form (ev : Nat) (entry : BitVec 64) (s : State) (h_s : s.Form) :
    OutForm (execEventAnswer ev entry s) := by
  unfold execEventAnswer; try dsimp only
  repeat' first
    | with_reducible intro _ | with_reducible apply outForm_ite | with_reducible apply form_ite
    | with_reducible refine (rouse_form _).2 ?_ | with_reducible refine (later_form _).2 ?_
    | with_reducible refine (setBank_form _).2 ?_ | with_reducible apply State.guarded_form
    | with_reducible apply State.primaryOnly_form | with_reducible apply State.supOnly_form
    | with_reducible apply foldl_form | with_reducible apply State.onCore_form
    | with_reducible apply State.onBank_form | with_reducible apply State.onCoreBank_form
    | with_reducible apply State.asAgent_form | with_reducible apply State.threadGlobal_form
    | with_reducible apply State.driftAccess_form | with_reducible apply State.granular_form
    | with_reducible apply State.opGlobal_form | with_reducible apply State.opParts_form
    | with_reducible apply State.opTiles_form | with_reducible apply State.asOp_form
    | with_reducible apply State.barrWord_form | with_reducible apply State.blockOp_form
    | with_reducible apply State.captured_form
    | (simp (maxDischargeDepth := 20) (contextual := true) [*]; done) | split
@[simp] theorem execSubs_form (o : COp) (s : State) (h_s : s.Form) : OutForm (execSubs o s) := by
  unfold execSubs
  refine State.primaryOnly_form _ _ _ h_s fun t ht => ?_
  dsimp only; repeat' first
    | (simp (maxDischargeDepth := 20) (contextual := true) [*]; done)
    | with_reducible refine State.captured_form _ _ _ _ _ (by assumption) fun _ _ _ => ?_
    | split
@[simp] theorem State.slotLanded_form (s : State) (o : EngineOp) (u : Sub) (h_s : s.Form) :
    (State.slotLanded s o u).Form := by
  unfold State.slotLanded; simp (maxDischargeDepth := 20) (contextual := true) [*]
@[simp] theorem State.slotLine_form (s : State) (o : EngineOp) (base die : Nat) (bytes : List Byte) (h_s : s.Form) :
    (State.slotLine s o base die bytes).Form := by
  unfold State.slotLine; simp (maxDischargeDepth := 20) (contextual := true) [*]
@[simp] theorem State.touchWhole_form (s : State) (o : EngineOp) (fs : List (Nat × Nat)) (h_s : s.Form) :
    (State.touchWhole s o fs).Form := by
  unfold State.touchWhole; repeat' first
    | with_reducible intro _ | with_reducible apply outForm_ite | with_reducible apply form_ite
    | with_reducible refine (rouse_form _).2 ?_ | with_reducible refine (later_form _).2 ?_
    | with_reducible refine (setBank_form _).2 ?_ | with_reducible apply State.guarded_form
    | with_reducible apply State.primaryOnly_form | with_reducible apply State.supOnly_form
    | with_reducible apply foldl_form | with_reducible apply State.onCore_form
    | with_reducible apply State.onBank_form | with_reducible apply State.onCoreBank_form
    | with_reducible apply State.asAgent_form | with_reducible apply State.threadGlobal_form
    | with_reducible apply State.driftAccess_form | with_reducible apply State.granular_form
    | with_reducible apply State.opGlobal_form | with_reducible apply State.opParts_form
    | with_reducible apply State.opTiles_form | with_reducible apply State.asOp_form
    | with_reducible apply State.barrWord_form | with_reducible apply State.blockOp_form
    | with_reducible apply State.captured_form
    | (simp (maxDischargeDepth := 20) (contextual := true) [*]; done) | split
@[simp] theorem State.fillSub_form (s : State) (o : EngineOp) (u : Sub) (h_s : s.Form) :
    (State.fillSub s o u).Form := by
  unfold State.fillSub; try dsimp only
  repeat' first
    | with_reducible intro _ | with_reducible apply outForm_ite | with_reducible apply form_ite
    | with_reducible refine (rouse_form _).2 ?_ | with_reducible refine (later_form _).2 ?_
    | with_reducible refine (setBank_form _).2 ?_ | with_reducible apply State.guarded_form
    | with_reducible apply State.primaryOnly_form | with_reducible apply State.supOnly_form
    | with_reducible apply foldl_form | with_reducible apply State.onCore_form
    | with_reducible apply State.onBank_form | with_reducible apply State.onCoreBank_form
    | with_reducible apply State.asAgent_form | with_reducible apply State.threadGlobal_form
    | with_reducible apply State.driftAccess_form | with_reducible apply State.granular_form
    | with_reducible apply State.opGlobal_form | with_reducible apply State.opParts_form
    | with_reducible apply State.opTiles_form | with_reducible apply State.asOp_form
    | with_reducible apply State.barrWord_form | with_reducible apply State.blockOp_form
    | with_reducible apply State.captured_form
    | (simp (maxDischargeDepth := 20) (contextual := true) [*]; done) | split
@[simp] theorem execSubsSlotFill_form (id : Nat) (s : State) (h_s : s.Form) : OutForm (execSubsSlotFill id s) := by
  unfold execSubsSlotFill; dsimp only; (repeat' split) <;> simp (maxDischargeDepth := 20) (contextual := true) [*]
@[simp] theorem execSlotdn_form (o : COp) (s : State) (h_s : s.Form) : OutForm (execSlotdn o s) := by
  unfold execSlotdn
  refine State.primaryOnly_form _ _ _ h_s fun t ht => ?_
  dsimp only; repeat' first | (simp (maxDischargeDepth := 20) (contextual := true) [*]; done) | split

end Sys2Proof.Machine
end

