-- ==== Sys2Proof/Laws/FormHub.lean ====
section
/-! SUPPORT. The hub's steps, the device's events and the parts of a cycle keep every memory in canonical form. -/

set_option linter.all false

namespace Sys2Proof.Machine

/-! ### Launches and graphs -/

@[simp] theorem execTaggedMessage_form (m : Message) (s : State) (h_s : s.Form) :
    OutForm (execTaggedMessage m s) := by
  unfold execTaggedMessage; dsimp only; (repeat' split) <;> simp (maxDischargeDepth := 20) (contextual := true) [*]
@[simp] theorem State.putResult_form (s : State) (bank a code : Nat) (h_s : s.Form) :
    (State.putResult s bank a code).Form := by
  unfold State.putResult; simp (maxDischargeDepth := 20) (contextual := true) [*]
@[simp] theorem execArmResult_form (core : Nat) (s : State) (h_s : s.Form) : OutForm (execArmResult core s) := by
  unfold execArmResult; (repeat' split) <;> simp (maxDischargeDepth := 20) (contextual := true) [*]
@[simp] theorem execLaunchStart_form (part : Nat) (s : State) (h_s : s.Form) : OutForm (execLaunchStart part s) := by
  unfold execLaunchStart; dsimp only; (repeat' split) <;> simp (maxDischargeDepth := 20) (contextual := true) [*]
@[simp] theorem State.dropLaunch_form (s : State) (l : Launch) (h_s : s.Form) : (State.dropLaunch s l).Form := by
  unfold State.dropLaunch; dsimp only; (repeat' split) <;> simp (maxDischargeDepth := 20) (contextual := true) [*]
@[simp] theorem State.completion_form (s : State) (l : Launch) (h_s : s.Form) : (State.completion s l).Form := by
  unfold State.completion; simp (maxDischargeDepth := 20) (contextual := true) [*]
@[simp] theorem State.finishLaunch_form (s : State) (l : Launch) (h_s : s.Form) : (State.finishLaunch s l).Form := by
  unfold State.finishLaunch; dsimp only; (repeat' split) <;> simp (maxDischargeDepth := 20) (contextual := true) [*]
@[simp] theorem execLaunchEnd_form (launch : Nat) (s : State) (h_s : s.Form) : OutForm (execLaunchEnd launch s) := by
  unfold execLaunchEnd; (repeat' split) <;> simp (maxDischargeDepth := 20) (contextual := true) [*]
@[simp] theorem State.stopBank_form (s : State) (h_s : s.Form) : (State.stopBank s).Form := by
  unfold State.stopBank; simp (maxDischargeDepth := 20) (contextual := true) [*]
@[simp] theorem State.dropIdle_form (s : State) (banks : List (Nat × Nat)) (h_s : s.Form) :
    (State.dropIdle s banks).Form := by
  unfold State.dropIdle; simp (maxDischargeDepth := 20) (contextual := true) [*]
@[simp] theorem State.testQuarantined_form (s : State) (n : Nat) (h_s : s.Form) :
    (State.testQuarantined s n).Form := by
  unfold State.testQuarantined; simp (maxDischargeDepth := 20) (contextual := true) [*]
@[simp] theorem State.freeBank_form (s : State) (x : Nat × Nat) (h_s : s.Form) : (State.freeBank s x).Form := by
  unfold State.freeBank; simp (maxDischargeDepth := 20) (contextual := true) [*]
@[simp] theorem execFaultEndLaunch_form (launch : Nat) (s : State) (h_s : s.Form) :
    OutForm (execFaultEndLaunch launch s) := by
  unfold execFaultEndLaunch; dsimp only; (repeat' split) <;> simp (maxDischargeDepth := 20) (contextual := true) [*]
@[simp] theorem State.goOn_form (s : State) (launch br : Nat) (bs : List Byte) (h_s : s.Form) :
    (State.goOn s launch br bs).Form := by
  unfold State.goOn; simp (maxDischargeDepth := 20) (contextual := true) [*]
@[simp] theorem execNodeTaskset_form (launch br : Nat) (s : State) (h_s : s.Form) :
    OutForm (execNodeTaskset launch br s) := by
  unfold execNodeTaskset; (repeat' split) <;> simp (maxDischargeDepth := 20) (contextual := true) [*]
@[simp] theorem State.waitNode_form (s : State) (launch br kind : Nat) (k : Launch → Branch → Nat → State → State)
    (h_s : s.Form) (h_k : ∀ (x0 : Launch) (x1 : Branch) (x2 : Nat) (x3 : State), x3.Form → (k x0 x1 x2 x3).Form) :
    OutForm (State.waitNode s launch br kind k) := by
  unfold State.waitNode; (repeat' split) <;> simp (maxDischargeDepth := 20) (contextual := true) [*]
@[simp] theorem execNodeCond_form (launch br : Nat) (s : State) (h_s : s.Form) :
    OutForm (execNodeCond launch br s) := by
  unfold execNodeCond; simp (maxDischargeDepth := 20) (contextual := true) [*]
@[simp] theorem execNodeWhile_form (launch br : Nat) (s : State) (h_s : s.Form) :
    OutForm (execNodeWhile launch br s) := by
  unfold execNodeWhile; simp (maxDischargeDepth := 20) (contextual := true) [*]
@[simp] theorem execNodeBucket_form (launch br : Nat) (s : State) (h_s : s.Form) :
    OutForm (execNodeBucket launch br s) := by
  unfold execNodeBucket; simp (maxDischargeDepth := 20) (contextual := true) [*]
@[simp] theorem execNodeJoin_form (launch br : Nat) (s : State) (h_s : s.Form) :
    OutForm (execNodeJoin launch br s) := by
  unfold execNodeJoin; (repeat' split) <;> simp (maxDischargeDepth := 20) (contextual := true) [*]
@[simp] theorem State.nodeSend_form (s : State) (launch br : Nat) (b : Branch) (h_s : s.Form) :
    (State.nodeSend s launch br b).Form := by
  unfold State.nodeSend; simp (maxDischargeDepth := 20) (contextual := true) [*]
@[simp] theorem execNodeMessage_form (launch br : Nat) (s : State) (h_s : s.Form) :
    OutForm (execNodeMessage launch br s) := by
  unfold execNodeMessage; dsimp only; (repeat' split) <;> simp (maxDischargeDepth := 20) (contextual := true) [*]
@[simp] theorem execNodeTest_form (launch br : Nat) (s : State) (h_s : s.Form) :
    OutForm (execNodeTest launch br s) := by
  unfold execNodeTest; (repeat' split) <;> simp (maxDischargeDepth := 20) (contextual := true) [*]

/-! ### Placement, deliveries and the ends of tasks -/

@[simp] theorem State.holdBank_form (s : State) (part : Nat) (t : Task) (r : LoopRec) (img : Image) (b n : Nat)
    (x : Nat × Nat) (h_s : s.Form) :
    (State.holdBank s part t r img b n x).Form := by
  unfold State.holdBank; simp (maxDischargeDepth := 20) (contextual := true) [*]
@[simp] theorem State.retireEmpty_form (s : State) (t : Task) (h_s : s.Form) : (State.retireEmpty s t).Form := by
  unfold State.retireEmpty; (repeat' split) <;> simp (maxDischargeDepth := 20) (contextual := true) [*]
@[simp] theorem State.putTask_form (s : State) (part : Nat) (t : Task) (r : LoopRec) (cores : List Nat) (b : Nat)
    (h_s : s.Form) :
    (State.putTask s part t r cores b).Form := by
  unfold State.putTask; simp (maxDischargeDepth := 20) (contextual := true) [*]
@[simp] theorem State.moraineFault_form (s : State) (t : Task) (cause addr : Nat) (h_s : s.Form) :
    (State.moraineFault s t cause addr).Form := by
  unfold State.moraineFault; simp (maxDischargeDepth := 20) (contextual := true) [*]
theorem State.taskRecord_form {s u : State} {part : Nat} {t : Task} (h_s : s.Form) (h : s.taskRecord part t = .error u) : u.Form := by
  unfold State.taskRecord at h
  split at h
  · cases h
  · split at h
    · cases h; simp (maxDischargeDepth := 20) [h_s]
    · cases h; simp (maxDischargeDepth := 20) [h_s]
    · split at h
      · cases h
      · cases h; simp (maxDischargeDepth := 20) [h_s]
@[simp] theorem State.tryPlace_form (s : State) (part : Nat) (t : Task) (h_s : s.Form) :
    (State.tryPlace s part t).1.Form := by
  unfold State.tryPlace
  split
  · rename_i h; exact State.taskRecord_form h_s h
  · repeat' first | (simp (maxDischargeDepth := 20) (contextual := true) [*]; done) | split
@[simp] theorem State.placeFirst_form (s : State) (part : Nat) (ts : List Task) (h_s : s.Form) :
    (State.placeFirst s part ts).Form := by
  induction ts generalizing s with
  | nil => exact h_s
  | cons t ts ih => unfold State.placeFirst; repeat' first
    | (simp (maxDischargeDepth := 20) (contextual := true) [*]; done) | split
@[simp] theorem Hub.startWaits_attest (h : Hub) (part now : Nat) : (h.startWaits part now).attest = h.attest := rfl
@[simp] theorem Hub.startWaits_parts (h : Hub) (part now : Nat) : (h.startWaits part now).parts = h.parts := rfl
@[simp] theorem execTaskPlace_form (part : Nat) (s : State) (h_s : s.Form) : OutForm (execTaskPlace part s) := by
  unfold execTaskPlace; simp (maxDischargeDepth := 20) (contextual := true) [*]
@[simp] theorem execPriorityAging_form (task : Nat) (s : State) (h_s : s.Form) :
    OutForm (execPriorityAging task s) := by
  unfold execPriorityAging; (repeat' split) <;> simp (maxDischargeDepth := 20) (contextual := true) [*]
@[simp] theorem State.moraineEvent_form (s : State) (t : Task) (core tid n : Nat) (d : Tensor) (h_s : s.Form) :
    (State.moraineEvent s t core tid n d).Form := by
  unfold State.moraineEvent; simp (maxDischargeDepth := 20) (contextual := true) [*]
@[simp] theorem State.inputLanded_form (s : State) (t : Task) (r : LoopRec) (i : Nat) (ref : TileRef) (h_s : s.Form) :
    (State.inputLanded s t r i ref).Form := by
  unfold State.inputLanded; dsimp only
  refine form_ite ((later_form _).2 ?_) ?_ <;> exact setHub_form h_s (by simp [h_s.2]) (by simp [h_s.5])
@[simp] theorem State.landLine_form (s : State) (t : Task) (r : LoopRec) (i : Nat) (ref : TileRef) (p : Nat)
    (bytes : List Byte) (h_s : s.Form) :
    (State.landLine s t r i ref p bytes).Form := by
  unfold State.landLine; dsimp only
  have h : ∀ (u : State) (f : Task → Task), u.Form → (u.setHub (u.hub.mapTask t.id f)).Form := fun u f hu => by simp [hu]
  have hc : (s.onCoreBank (t.cores.getD p 0) t.bank fun s =>
      (s.setCore { s.core with store := writeBytes s.core.store (t.landAddr i p) bytes }).claimPorts (t.landAddr i p)
        bytes.length).Form :=
    State.onCoreBank_form _ _ _ _ h_s fun u hu => State.claimPorts_form _ _ _ (setCore_form hu (wf_writeBytes _ _ hu.3))
  refine form_ite (State.inputLanded_form _ _ _ _ _ (h _ _ hc)) ((later_form _).2 (h _ _ hc))
@[simp] theorem State.freeBytes_form (s : State) (n : Nat) (h_s : s.Form) : (State.freeBytes s n).2.Form := by
  unfold State.freeBytes; simp (maxDischargeDepth := 20) (contextual := true) [*]
@[simp] theorem State.tileStop_form (s : State) (part : Nat) (t : Task) (core tid n : Nat) (d : Tensor) (x : TileAt)
    (h_s : s.Form) : (State.tileStop s part t core tid n d x).Form := by
  unfold State.tileStop; split <;> simp [h_s]
@[simp] theorem State.deliverInput_form (s : State) (part : Nat) (t : Task) (r : LoopRec) (i : Nat) (ref : TileRef)
    (p : Nat) (h_s : s.Form) :
    (State.deliverInput s part t r i ref p).Form := by
  unfold State.deliverInput; dsimp only
  split
  · simp [h_s]
  · refine form_ite (by simp [h_s]) ?_
    split
    · simp [h_s]
    · refine State.withTile_form _ _ _ _ _ _ _ _ _ _ _ h_s (fun x t ht => by simp [ht]) fun pa t ht => ?_
      simp (maxDischargeDepth := 20) [ht]
@[simp] theorem execMoraineDelivery_form (task input : Nat) (s : State) (h_s : s.Form) :
    OutForm (execMoraineDelivery task input s) := by
  unfold execMoraineDelivery
  repeat' first | (simp (maxDischargeDepth := 20) (contextual := true) [*]; done) | split
@[simp] theorem State.startMember_form (s : State) (a : ArmSlot) (l : Launch) (t : Task) (r : LoopRec)
    (x : Nat × Nat) (h_s : s.Form) :
    (State.startMember s a l t r x).Form := by
  unfold State.startMember; simp (maxDischargeDepth := 20) (contextual := true) [*]
@[simp] theorem execTaskStart_form (task : Nat) (s : State) (h_s : s.Form) : OutForm (execTaskStart task s) := by
  unfold execTaskStart; (repeat' split) <;> simp (maxDischargeDepth := 20) (contextual := true) [*]
@[simp] theorem State.pulled_form (s : State) (t : Task) (c o tid n : Nat) (bytes : List Byte) (h_s : s.Form) :
    (State.pulled s t c o tid n bytes).Form := by
  have key : ∀ u : State, u.Form → (((u.setHub (u.hub.mapTask t.id fun t =>
    { t with pulls := t.pulls ++ [o], outData := t.outData ++ [(o, tid, n, bytes)] })).checkRetire t.id).rouse c).Form := by
    intro u hu; simp (maxDischargeDepth := 20) [hu]
  exact key _ (State.onCoreBank_form _ _ _ _ h_s (fun v hv => by dsimp only; split <;> simp [hv]))
@[simp] theorem State.pullInto_form (s : State) (die pa : Nat) (bytes : List Byte) (h_s : s.Form) :
    (State.pullInto s die pa bytes).Form := by
  unfold State.pullInto; simp (maxDischargeDepth := 20) (contextual := true) [*]
@[simp] theorem State.pullOutput_form (s : State) (part : Nat) (t : Task) (c o : Nat) (ref : TileRef) (h_s : s.Form) :
    (State.pullOutput s part t c o ref).Form := by
  unfold State.pullOutput; dsimp only
  repeat' first
    | with_reducible apply form_ite
    | with_reducible refine State.withTile_form _ _ _ _ _ _ _ _ _ _ _ (by assumption) (fun _ _ _ => ?_) fun _ _ _ => ?_
    | (simp (maxDischargeDepth := 20) (contextual := true) [*]; done) | split
@[simp] theorem execOutputPullDone_form (task output : Nat) (s : State) (h_s : s.Form) :
    OutForm (execOutputPullDone task output s) := by
  unfold execOutputPullDone; (repeat' split) <;> simp (maxDischargeDepth := 20) (contextual := true) [*]
@[simp] theorem State.taskEnded_form (s : State) (t : Task) (h_s : s.Form) : (State.taskEnded s t).Form := by
  unfold State.taskEnded; simp (maxDischargeDepth := 20) (contextual := true) [*]
@[simp] theorem Hub.noteSaved_attest (h : Hub) (part task : Nat) : (h.noteSaved part task).attest = h.attest := rfl
@[simp] theorem Hub.noteSaved_parts (h : Hub) (part task : Nat) : (h.noteSaved part task).parts = h.parts := rfl
@[simp] theorem State.endBank_form (s : State) (h_s : s.Form) : (State.endBank s).Form := by
  unfold State.endBank; dsimp only; (repeat' split) <;> simp (maxDischargeDepth := 20) (contextual := true) [*]

/-! ### Audit and cells -/

@[simp] theorem State.quarantine_form (s : State) (n qth : Nat) (h_s : s.Form) : (State.quarantine s n qth).Form := by
  unfold State.quarantine; simp (maxDischargeDepth := 20) (contextual := true) [*]
@[simp] theorem State.suspect_form (s : State) (n by_ qth : Nat) (h_s : s.Form) : (State.suspect s n by_ qth).Form := by
  unfold State.suspect; simp (maxDischargeDepth := 20) (contextual := true) [*]
@[simp] theorem State.unsuspect_form (s : State) (n by_ : Nat) (h_s : s.Form) : (State.unsuspect s n by_).Form := by
  unfold State.unsuspect; simp (maxDischargeDepth := 20) (contextual := true) [*]
@[simp] theorem Hub.mapAudit_attest (h : Hub) (task : Nat) (f : Audit → Audit) :
    (Hub.mapAudit h task f).attest = h.attest := by
  first | rfl | (unfold Hub.mapAudit; (try dsimp only); repeat' first | rfl | split) | simp [Hub.mapAudit]
@[simp] theorem Hub.mapAudit_parts (h : Hub) (task : Nat) (f : Audit → Audit) :
    (Hub.mapAudit h task f).parts = h.parts := by
  first | rfl | (unfold Hub.mapAudit; (try dsimp only); repeat' first | rfl | split) | simp [Hub.mapAudit]
@[simp] theorem State.postRerun_form (s : State) (a : Audit) (t : Task) (h_s : s.Form) :
    (State.postRerun s a t).Form := by
  unfold State.postRerun; simp (maxDischargeDepth := 20) (contextual := true) [*]
@[simp] theorem execAuditRerun_form (task : Nat) (s : State) (h_s : s.Form) : OutForm (execAuditRerun task s) := by
  unfold execAuditRerun; (repeat' split) <;> simp (maxDischargeDepth := 20) (contextual := true) [*]
@[simp] theorem State.auditDecided_form (s : State) (a : Audit) (t : Task) (mismatch : Bool) (h_s : s.Form) :
    (State.auditDecided s a t mismatch).Form := by
  unfold State.auditDecided; simp (maxDischargeDepth := 20) (contextual := true) [*]
@[simp] theorem State.judgeThird_form (s : State) (cells : List Nat) (d : List Word) (qth : Nat) (h_s : s.Form) :
    (State.judgeThird s cells d qth).Form := by
  unfold State.judgeThird; simp (maxDischargeDepth := 20) (contextual := true) [*]
@[simp] theorem execAuditDecide_form (task : Nat) (s : State) (h_s : s.Form) : OutForm (execAuditDecide task s) := by
  unfold execAuditDecide; (repeat' split) <;> simp (maxDischargeDepth := 20) (contextual := true) [*]
@[simp] theorem State.retireCell_form (s : State) (n : Nat) (h_s : s.Form) : (State.retireCell s n).Form := by
  unfold State.retireCell; dsimp only; (repeat' split) <;> simp (maxDischargeDepth := 20) (contextual := true) [*]
@[simp] theorem State.zeroCell_form (s : State) (n : Nat) (h_s : s.Form) : (State.zeroCell s n).Form := by
  unfold State.zeroCell; simp (maxDischargeDepth := 20) (contextual := true) [*]
@[simp] theorem execSelftestDone_form (cell : Nat) (pass : Bool) (s : State) (h_s : s.Form) :
    OutForm (execSelftestDone cell pass s) := by
  unfold execSelftestDone; dsimp only; (repeat' split) <;> simp (maxDischargeDepth := 20) (contextual := true) [*]
@[simp] theorem execSpareSubstitute_form (part : Nat) (s : State) (h_s : s.Form) :
    OutForm (execSpareSubstitute part s) := by
  unfold execSpareSubstitute; dsimp only; (repeat' split) <;> simp (maxDischargeDepth := 20) (contextual := true) [*]
@[simp] theorem execPartitionCellMove_form (cell : Nat) (dst : Option Nat) (s : State) (h_s : s.Form) :
    OutForm (execPartitionCellMove cell dst s) := by
  unfold execPartitionCellMove; (repeat' split) <;> simp (maxDischargeDepth := 20) (contextual := true) [*]
@[simp] theorem execServiceRecordWrite_form (s : State) (h_s : s.Form) : OutForm (execServiceRecordWrite s) := by
  unfold execServiceRecordWrite; simp (maxDischargeDepth := 20) (contextual := true) [*]

/-! ### Bank switch and pre-emption -/

@[simp] theorem execBankSwitch_form (s : State) (h_s : s.Form) : OutForm (execBankSwitch s) := by
  unfold execBankSwitch; simp (maxDischargeDepth := 20) (contextual := true) [*]
@[simp] theorem execBankResume_form (s : State) (h_s : s.Form) : OutForm (execBankResume s) := by
  unfold execBankResume; simp (maxDischargeDepth := 20) (contextual := true) [*]
@[simp] theorem execResultWriteback_form (s : State) (h_s : s.Form) : OutForm (execResultWriteback s) := by
  unfold execResultWriteback; simp (maxDischargeDepth := 20) (contextual := true) [*]
@[simp] theorem execTimerExpiry_form (s : State) (h_s : s.Form) : OutForm (execTimerExpiry s) := by
  unfold execTimerExpiry; simp (maxDischargeDepth := 20) (contextual := true) [*]
@[simp] theorem execPendSoftSet_form (core : Nat) (s : State) (h_s : s.Form) : OutForm (execPendSoftSet core s) := by
  unfold execPendSoftSet; simp (maxDischargeDepth := 20) (contextual := true) [*]
@[simp] theorem State.takeInterrupt_form (s : State) (h_s : s.Form) : (State.takeInterrupt s).Form := by
  unfold State.takeInterrupt; simp (maxDischargeDepth := 20) (contextual := true) [*]
@[simp] theorem execInterrupt_form (s : State) (h_s : s.Form) : OutForm (execInterrupt s) := by
  unfold execInterrupt; simp (maxDischargeDepth := 20) (contextual := true) [*]
@[simp] theorem pinnedBytes_wf {m : Mem} (p : BitVec 65536) (h : Mem.wf m = true) :
    Mem.wf (pinnedBytes m p) = true := wf_filter _ h
@[simp] theorem putBack_wf {m : Mem} (p : BitVec 65536) (bs : Mem) (h : Mem.wf m = true) : Mem.wf (putBack m p bs) = true :=
  wf_foldl (fun _ _ h => wf_memPut _ _ h) _ (wf_filter _ h)
@[simp] theorem foldl_setThread_store {α : Type} (f : α → Nat) (g : α → Thread) (xs : List α) (c : Core) :
    (xs.foldl (fun (c : Core) x => c.setThread (f x) (g x)) c).store = c.store := by
  induction xs generalizing c with
  | nil => rfl
  | cons x xs ih => rw [List.foldl_cons, ih, Core.setThread_store]
@[simp] theorem State.saveContext_form (s : State) (t : BankTask) (h_s : s.Form) : (State.saveContext s t).Form := by
  unfold State.saveContext; dsimp only
  rw [later_form]
  refine State.testQuarantined_form _ _ (setHub_form ?_ ?_ ?_)
  · refine setCore_form ?_ h_s.store
    exact ⟨h_s.1, h_s.2, h_s.3, h_s.4, h_s.5⟩
  · simp [h_s]
  · rw [Hub.noteSaved_parts]
    refine mapPart_saved h_s.saved (fun p hp => ?_)
    dsimp only
    rw [List.all_append, hp]
    simp [h_s]
@[simp] theorem State.savePreempt_form (s : State) (t : BankTask) (h_s : s.Form) : (State.savePreempt s t).Form := by
  unfold State.savePreempt; simp (maxDischargeDepth := 20) (contextual := true) [*]
@[simp] theorem execPreemption_form (s : State) (h_s : s.Form) : OutForm (execPreemption s) := by
  unfold execPreemption; (repeat' split) <;> simp (maxDischargeDepth := 20) (contextual := true) [*]
@[simp] theorem State.rejoin_form (s : State) (v : Saved) (h_s : s.Form) : (State.rejoin s v).Form := by
  have key : ∀ (u : State) (b : Bank) (x : Option Bank), u.Form → (u.setCore { u.core with bank := b, shadow := x }).Form :=
    fun u b x h => setCore_form h h.store
  unfold State.rejoin; exact key _ _ _ (State.acquire_form _ _ (State.restore_form _ _ _ _ h_s))
@[simp] theorem State.restoreMember_form (s : State) (t : Task) (v : Saved) (core : Nat) (h_s : s.Form) :
    (State.restoreMember s t v core).Form := by
  unfold State.restoreMember; dsimp only
  rw [rouse_form, later_form]
  have key : ∀ (u : State) (ops : List EngineOp), u.Form → ({ u with ops := ops } : State).Form := fun u ops h => ⟨h.1, h.2, h.3, h.4, h.5⟩
  refine key _ _ (State.onCore_form _ _ _ h_s (fun u hu => ?_))
  refine State.onBank_form _ _ _ (setCore_form hu (by simp [hu])) (fun w hw => ?_)
  exact State.rejoin_form _ _ (State.evictWays_form _ (setCore_form hw (putBack_wf _ _ hw.store)))
@[simp] theorem State.resumeTask_form (s : State) (part : Nat) (t : Task) (cores : List Nat) (h_s : s.Form) :
    (State.resumeTask s part t cores).Form := by
  unfold State.resumeTask; simp (maxDischargeDepth := 20) (contextual := true) [*]
@[simp] theorem execTaskResume_form (part : Nat) (s : State) (h_s : s.Form) : OutForm (execTaskResume part s) := by
  unfold execTaskResume; dsimp only; (repeat' split) <;> simp (maxDischargeDepth := 20) (contextual := true) [*]

/-! ### Boot, errors, guest, clock and rollback -/

@[simp] theorem Hub.boot_attest (h : Hub) : h.boot.attest = [] := rfl
@[simp] theorem savedOk_replicate : savedOk (Vector.replicate 4 Partition.clear) = true := by decide
@[simp] theorem Hub.boot_saved (h : Hub) : savedOk h.boot.parts = true := savedOk_replicate
@[simp] theorem Core.clear_wf : Mem.wf Core.clear.store = true := by decide
@[simp] theorem othersOk_nil : othersOk [] = true := by decide
@[simp] theorem State.applyMaps_form (s : State) (h_s : s.Form) : (State.applyMaps s).Form := by
  unfold State.applyMaps; rw [setRegs_form]; exact ⟨h_s.1, h_s.2, h_s.3, h_s.4, h_s.5⟩
@[simp] theorem State.applyCells_form (s : State) (h_s : s.Form) : (State.applyCells s).Form := by
  unfold State.applyCells; rw [form_mk]; exact ⟨wf_filter _ h_s.mem, h_s.2, h_s.3, h_s.4, h_s.5⟩
@[simp] theorem State.applySetup_form (s : State) (h_s : s.Form) : (State.applySetup s).Form :=
  ⟨h_s.1, h_s.2, h_s.3, h_s.4, h_s.5⟩
@[simp] theorem State.loadCore_form (s : State) (c : Nat) (h_s : s.Form) :
    (State.loadCore s c).Form := by
  unfold State.loadCore; dsimp only
  repeat' first
    | with_reducible intro _ | with_reducible apply outForm_ite | with_reducible apply form_ite
    | with_reducible refine (rouse_form _).2 ?_ | with_reducible refine (later_form _).2 ?_
    | with_reducible refine (setBank_form _).2 ?_ | with_reducible apply State.guarded_form
    | with_reducible apply State.primaryOnly_form | with_reducible apply State.supOnly_form
    | with_reducible apply foldl_form | with_reducible apply State.onCore_form
    | with_reducible apply State.onBank_form | with_reducible apply State.onCoreBank_form
    | with_reducible apply State.asAgent_form | with_reducible apply State.threadGlobal_form
    | with_reducible apply State.driftAccess_form | with_reducible apply State.granular_form
    | with_reducible apply State.opGlobal_form | with_reducible apply State.opParts_form
    | with_reducible apply State.opTiles_form | with_reducible apply State.asOp_form
    | with_reducible apply State.barrWord_form | with_reducible apply State.blockOp_form
    | with_reducible apply State.captured_form
    | (simp (maxDischargeDepth := 20) (contextual := true) [*]; done) | split
@[simp] theorem State.boot_form (s : State) (h_s : s.Form) : (State.boot s).Form := by
  have bare : ∀ (a : List Turn) (g : Guest), State.Form
      { State.reset with agenda := a, mem := s.mem, hub := s.hub.boot, svc := s.svc, free := s.free, guest := g } :=
    fun a g => ⟨h_s.mem, wf_nil, Core.clear_wf, othersOk_nil, savedOk_replicate⟩
  unfold State.boot; dsimp only
  refine form_ite ((setRegs_form _).2 (bare _ _)) (form_ite ((setRegs_form _).2 ?_) ?_)
  · exact State.applyCells_form _ (State.applyMaps_form _ (bare _ _))
  · exact foldl_form (fun t x ht => State.loadCore_form _ _ ht) _ _ ((later_form _).2 ((setRegs_form _).2
      (State.applySetup_form _ (State.applyCells_form _ (State.applyMaps_form _ (bare _ _))))))
@[simp] theorem execPowerOn_form (s : State) (h_s : s.Form) : OutForm (execPowerOn s) := by
  unfold execPowerOn; simp (maxDischargeDepth := 20) (contextual := true) [*]
@[simp] theorem execColdReset_form (s : State) (h_s : s.Form) : OutForm (execColdReset s) := by
  unfold execColdReset; simp (maxDischargeDepth := 20) (contextual := true) [*]
@[simp] theorem execPowerFailure_form (s : State) (h_s : s.Form) : OutForm (execPowerFailure s) :=
  (outForm_next _).2 ⟨wf_filter _ h_s.mem, wf_nil, Core.clear_wf, othersOk_nil, savedOk_replicate⟩
@[simp] theorem execAttestRequest_form (nonce : BitVec 384) (s : State) (h_s : s.Form) :
    OutForm (execAttestRequest nonce s) := by
  unfold execAttestRequest; simp (maxDischargeDepth := 20) (contextual := true) [*]
@[simp] theorem execRegisterWrite_form (offset : Nat) (value : Word) (s : State) (h_s : s.Form) :
    OutForm (execRegisterWrite offset value s) := by
  unfold execRegisterWrite; simp (maxDischargeDepth := 20) (contextual := true) [*]
@[simp] theorem State.sendDigest_form (s : State) (h_s : s.Form) : (State.sendDigest s).Form := by
  unfold State.sendDigest; simp (maxDischargeDepth := 20) (contextual := true) [*]
@[simp] theorem execReplicaStep_form (part : Nat) (s : State) (h_s : s.Form) : OutForm (execReplicaStep part s) := by
  unfold execReplicaStep; simp (maxDischargeDepth := 20) (contextual := true) [*]
@[simp] theorem State.replResume_form (s : State) (h_s : s.Form) : (State.replResume s).Form := by
  unfold State.replResume; simp (maxDischargeDepth := 20) (contextual := true) [*]
@[simp] theorem execReplctlResume_form (s : State) (h_s : s.Form) : OutForm (execReplctlResume s) := by
  unfold execReplctlResume; simp (maxDischargeDepth := 20) (contextual := true) [*]
@[simp] theorem execReplicaCompare_form (part : Nat) (digests : List (BitVec 64)) (s : State) (h_s : s.Form) :
    OutForm (execReplicaCompare part digests s) := by
  unfold execReplicaCompare; simp (maxDischargeDepth := 20) (contextual := true) [*]
@[simp] theorem State.guestRelease_form (s : State) (scope : Nat) (h_s : s.Form) :
    (State.guestRelease s scope).Form := by
  unfold State.guestRelease; simp (maxDischargeDepth := 20) (contextual := true) [*]
@[simp] theorem State.guestFlag_form (s : State) (p : Packet) (v : Nat) (h_s : s.Form) :
    (State.guestFlag s p v).Form := by
  unfold State.guestFlag; dsimp only; (repeat' split) <;> simp (maxDischargeDepth := 20) (contextual := true) [*]
@[simp] theorem State.guestAck_form (s : State) (q : Nat) (p : Packet) (h_s : s.Form) : (State.guestAck s q p).Form := by
  have h : (({ s with free := s.free + 1 } : State).guestFlag p (p.ackVal ((Config.freeByte s.free).getLsbD 0))).Form :=
    State.guestFlag_form _ _ _ ⟨h_s.1, h_s.2, h_s.3, h_s.4, h_s.5⟩
  unfold State.guestAck; dsimp only
  split
  · exact h
  · exact ⟨h.1, h.2, h.3, h.4, h.5⟩
@[simp] theorem execGuestCompletion_form (packet : Nat) (s : State) (h_s : s.Form) :
    OutForm (execGuestCompletion packet s) := by
  unfold execGuestCompletion; (repeat' split) <;> simp (maxDischargeDepth := 20) (contextual := true) [*]
@[simp] theorem execGuestFault_form (packet : Nat) (code : BitVec 16) (severity : BitVec 2) (s : State)
    (h_s : s.Form) :
    OutForm (execGuestFault packet code severity s) := by
  unfold execGuestFault; (repeat' split) <;> simp (maxDischargeDepth := 20) (contextual := true) [*]
@[simp] theorem execGuestReport_form (watts temp : BitVec 8) (s : State) (h_s : s.Form) :
    OutForm (execGuestReport watts temp s) := by
  unfold execGuestReport; simp (maxDischargeDepth := 20) (contextual := true) [*]
@[simp] theorem execGuestTranslation_form (va : Nat) (s : State) (h_s : s.Form) :
    OutForm (execGuestTranslation va s) := by
  unfold execGuestTranslation; dsimp only; (repeat' split) <;> simp (maxDischargeDepth := 20) (contextual := true) [*]
@[simp] theorem execGuestInvalAck_form (va : Nat) (s : State) (h_s : s.Form) : OutForm (execGuestInvalAck va s) := by
  unfold execGuestInvalAck; simp (maxDischargeDepth := 20) (contextual := true) [*]
@[simp] theorem State.endLaunches_form (s : State) (part cause : Nat) (h_s : s.Form) :
    (State.endLaunches s part cause).Form := by
  unfold State.endLaunches; simp (maxDischargeDepth := 20) (contextual := true) [*]
@[simp] theorem execGuestFence_form (s : State) (h_s : s.Form) : OutForm (execGuestFence s) := by
  unfold execGuestFence; simp (maxDischargeDepth := 20) (contextual := true) [*]
@[simp] theorem execClockThrottle_form (die : Nat) (up : Bool) (s : State) (h_s : s.Form) :
    OutForm (execClockThrottle die up s) := by
  unfold execClockThrottle; simp (maxDischargeDepth := 20) (contextual := true) [*]
@[simp] theorem State.heat_form (s : State) (temp : Nat) (h_s : s.Form) : (State.heat s temp).Form := by
  unfold State.heat; simp (maxDischargeDepth := 20) (contextual := true) [*]
@[simp] theorem State.stopAll_form (s : State) (h_s : s.Form) : (State.stopAll s).Form := by
  unfold State.stopAll; simp (maxDischargeDepth := 20) (contextual := true) [*]
@[simp] theorem State.sensor_form (s : State) (temp : Nat) (h_s : s.Form) :
    (State.sensor s temp).Form := by
  unfold State.sensor; simp (maxDischargeDepth := 20) (contextual := true) [*]
@[simp] theorem execThermalHot_form (temp : BitVec 8) (s : State) (h_s : s.Form) :
    OutForm (execThermalHot temp s) := by
  unfold execThermalHot; simp (maxDischargeDepth := 20) (contextual := true) [*]
@[simp] theorem execThermalTrip_form (temp : BitVec 8) (s : State) (h_s : s.Form) :
    OutForm (execThermalTrip temp s) := by
  unfold execThermalTrip; simp (maxDischargeDepth := 20) (contextual := true) [*]
@[simp] theorem State.logSite_form (s : State) (e : ErrorSite) (sev code : Nat) (part : Option Nat) (h_s : s.Form) :
    (State.logSite s e sev code part).Form := by
  unfold State.logSite; simp (maxDischargeDepth := 20) (contextual := true) [*]
@[simp] theorem execEccCorrected_form (e : ErrorSite) (s : State) (h_s : s.Form) :
    OutForm (execEccCorrected e s) := by
  unfold execEccCorrected; simp (maxDischargeDepth := 20) (contextual := true) [*]
@[simp] theorem State.wordFault_form (s : State) (thread : Option Nat) (addr : Word) (h_s : s.Form) :
    (State.wordFault s thread addr).Form := by
  unfold State.wordFault; (repeat' split) <;> simp (maxDischargeDepth := 20) (contextual := true) [*]
@[simp] theorem State.consume_form (s : State) (e : ErrorSite) (c : Consumer) (h_s : s.Form) :
    (State.consume s e c).Form := by
  unfold State.consume; (try dsimp only)
  repeat' first | (simp (maxDischargeDepth := 20) (contextual := true) [*]; done) | split
@[simp] theorem State.repair_form (s : State) (e : ErrorSite) (h_s : s.Form) : (State.repair s e).Form := by
  unfold State.repair; simp (maxDischargeDepth := 20) (contextual := true) [*]
@[simp] theorem execUncorrectableError_form (e : ErrorSite) (consumer : Consumer) (s : State) (h_s : s.Form) :
    OutForm (execUncorrectableError e consumer s) := by
  unfold execUncorrectableError; simp (maxDischargeDepth := 20) (contextual := true) [*]
@[simp] theorem State.logCell_form (s : State) (core sev code : Nat) (h_s : s.Form) :
    (State.logCell s core sev code).Form := by
  unfold State.logCell; simp (maxDischargeDepth := 20) (contextual := true) [*]
@[simp] theorem State.dropOps_form (s : State) (keep : Nat) (h_s : s.Form) : (State.dropOps s keep).Form := by
  unfold State.dropOps; simp (maxDischargeDepth := 20) (contextual := true) [*]
@[simp] theorem State.rollback_form (s : State) (r : Rerun) (h_s : s.Form) : (State.rollback s r).Form := by
  unfold State.rollback; dsimp only; split
  · exact h_s
  · have h := foldl_form (f := State.undoSys) (fun t x ht => by simp [ht]) s.core.bank.sysUndo s h_s
    exact (rouse_form _).2 (setCore_form (State.dropOps_form _ _ h) (wf_foldl (fun m x hm => by simp [hm]) _ h.3))
@[simp] theorem State.restartTask_form (s : State) (id : Nat) (h_s : s.Form) : (State.restartTask s id).Form := by
  unfold State.restartTask; split
  · exact h_s
  · next t e =>
    dsimp only
    have h1 := foldl_form (f := fun (s : State) (x : Nat × Nat) => (s.onCoreBank x.1 x.2 fun s =>
      (s.dropOps 0).setCore { (s.dropOps 0).core with bank := (s.dropOps 0).core.bank.vacate, shadow := none }).rouse x.1)
      (fun u x hu => (rouse_form _).2 (State.onCoreBank_form _ _ _ _ hu fun v hv =>
        setCore_form (State.dropOps_form _ _ hv) (State.dropOps_form _ 0 hv).3)) t.places s h_s
    have h2 := foldl_form (f := fun (s : State) (x : Nat × Nat) => s.testQuarantined (cellOf x.1))
      (fun u x hu => State.testQuarantined_form _ _ hu) t.places _ h1
    exact (later_form _).2 (setHub_form h2 (by simpa using h2.2) (by simpa using h2.5))
@[simp] theorem State.rollbackAll_form (s : State) (g : Gang) (f : Bank → Rerun) (h_s : s.Form) :
    (State.rollbackAll s g f).Form := by
  unfold State.rollbackAll; dsimp only
  have h := foldl_form (f := fun (s : State) c => s.onCoreBank c g.bank fun s => s.rollback (f s.core.bank))
    (fun u x hu => State.onCoreBank_form _ _ _ _ hu fun v hv => State.rollback_form _ _ hv) g.cores s h_s
  exact setHub_form h h.2 h.5
@[simp] theorem State.failRerun_form (s : State) (cores : List Nat) (task : Option Nat) (h_s : s.Form) :
    (State.failRerun s cores task).Form := by
  unfold State.failRerun; dsimp only
  have h := foldl_form (f := fun (s : State) n => (s.retireCell n).logCell (4 * n) 2 0x0011)
    (fun u x hu => by simp [hu]) (cores.map cellOf).eraseDups s h_s
  split
  · exact State.restartTask_form _ _ h
  · exact setCore_form h h.3
@[simp] theorem State.gangPoint_form (s : State) (g : Gang) (run : Nat) (h_s : s.Form) : (State.gangPoint s g run).Form := by
  unfold State.gangPoint; dsimp only
  refine form_ite (State.rollbackAll_form _ _ _ h_s) (form_ite ?_ (State.failRerun_form _ _ _ h_s))
  exact State.logCell_form _ _ _ _ (foldl_form (fun u x hu => State.onCoreBank_form _ _ _ _ hu fun v hv =>
    (setBank_form _).2 hv) _ _ h_s)
@[simp] theorem State.rerunPoint_form (s : State) (r : Rerun) (h_s : s.Form) : (State.rerunPoint s r).Form := by
  unfold State.rerunPoint; dsimp only
  split
  · exact form_ite (State.gangPoint_form _ _ _ ((setBank_form _).2 h_s)) ((setBank_form _).2 h_s)
  · exact form_ite (State.rollback_form _ _ h_s) (form_ite (by simp [h_s]) (State.failRerun_form _ _ _ h_s))
@[simp] theorem State.checkFires_form (s : State) (h_s : s.Form) : (State.checkFires s).Form := by
  unfold State.checkFires; try dsimp only
  (repeat' split) <;> simp (maxDischargeDepth := 20) (contextual := true) [*]
@[simp] theorem execDatapathError_form (core : Nat) (s : State) (h_s : s.Form) :
    OutForm (execDatapathError core s) := by
  unfold execDatapathError; simp (maxDischargeDepth := 20) (contextual := true) [*]
@[simp] theorem State.snoop_form (s : State) (a : Nat) (h_s : s.Form) : (State.snoop s a).Form := by
  unfold State.snoop; simp (maxDischargeDepth := 20) (contextual := true) [*]
@[simp] theorem State.hostError_form (s : State) (x : Nat) (h_s : s.Form) : (State.hostError s x).Form := by
  unfold State.hostError; simp [h_s]
@[simp] theorem execCxlMemAccess_form (a : Coherent) (s : State) (h_s : s.Form) : OutForm (execCxlMemAccess a s) := by
  unfold execCxlMemAccess; (repeat' split) <;> simp (maxDischargeDepth := 20) (contextual := true) [*]
@[simp] theorem execGuestCoherentAccess_form (a : Coherent) (s : State) (h_s : s.Form) :
    OutForm (execGuestCoherentAccess a s) := by
  unfold execGuestCoherentAccess; dsimp only; (repeat' split) <;> simp (maxDischargeDepth := 20) (contextual := true) [*]

/-! ### Parts of a cycle -/

@[simp] theorem State.countBundle_form (s : State) (h_s : s.Form) : (State.countBundle s).Form := by
  unfold State.countBundle; simp (maxDischargeDepth := 20) (contextual := true) [*]
@[simp] theorem State.bankAfter_form (s : State) (p : Phase) (h_s : s.Form) : (State.bankAfter s p).Form := by
  unfold State.bankAfter; (repeat' split) <;> simp (maxDischargeDepth := 20) (contextual := true) [*]
@[simp] theorem State.coreAfter_form (s : State) (h_s : s.Form) : (State.coreAfter s).Form := by
  unfold State.coreAfter; simp (maxDischargeDepth := 20) (contextual := true) [*]
@[simp] theorem State.passIdle_form (s : State) (k : Nat) (h_s : s.Form) : (State.passIdle s k).Form := by
  unfold State.passIdle; simp (maxDischargeDepth := 20) (contextual := true) [*]
@[simp] theorem State.catchUp_form (s : State) (h_s : s.Form) : (State.catchUp s).Form := by
  unfold State.catchUp; simp (maxDischargeDepth := 20) (contextual := true) [*]
@[simp] theorem State.ageTasks_form (s : State) (h_s : s.Form) :
    (State.ageTasks s).Form := by
  unfold State.ageTasks; simp (maxDischargeDepth := 20) (contextual := true) [*]
@[simp] theorem State.endCycle_form (s : State) (p : Phase) (h_s : s.Form) : (State.endCycle s p).Form := by
  unfold State.endCycle; simp (maxDischargeDepth := 20) (contextual := true) [*]
@[simp] theorem State.close_form (s : State) (p : Phase) (sl : Slots) (h_s : s.Form) : (State.close s p sl).Form := by
  unfold State.close; simp (maxDischargeDepth := 20) (contextual := true) [*]
@[simp] theorem State.frozen_form (s : State) (h_s : s.Form) : (State.frozen s).Form := by
  unfold State.frozen; simp (maxDischargeDepth := 20) (contextual := true) [*]
@[simp] theorem State.idle_form (s : State) (h_s : s.Form) : (State.idle s).Form := by
  unfold State.idle; simp (maxDischargeDepth := 20) (contextual := true) [*]
@[simp] theorem State.land__form (s : State) (h_s : s.Form) : (State.land_ s).Form := by
  unfold State.land_; dsimp only; (repeat' split) <;> simp (maxDischargeDepth := 20) (contextual := true) [*]
@[simp] theorem State.atomsOn_form (s : State) (h_s : s.Form) : (State.atomsOn s).Form := by
  unfold State.atomsOn; simp (maxDischargeDepth := 20) (contextual := true) [*]
@[simp] theorem State.openStep_form (s : State) (h_s : s.Form) : (State.openStep s).Form := by
  unfold State.openStep; (repeat' split) <;> simp (maxDischargeDepth := 20) (contextual := true) [*]
@[simp] theorem State.noteStep_form (s : State) (f : GangStep → GangStep) (h_s : s.Form) :
    (State.noteStep s f).Form := by
  unfold State.noteStep; (repeat' split) <;> simp (maxDischargeDepth := 20) (contextual := true) [*]
@[simp] theorem State.takeTrap_form (s : State) (code : Nat) (h_s : s.Form) : (State.takeTrap s code).Form := by
  unfold State.takeTrap; simp (maxDischargeDepth := 20) (contextual := true) [*]
@[simp] theorem State.finish_form (s : State) (sl : Slots) (h_s : s.Form) : (State.finish s sl).Form := by
  unfold State.finish; dsimp only; (repeat' split) <;> simp (maxDischargeDepth := 20) (contextual := true) [*]
@[simp] theorem State.bundleStops_form (s : State) (r : Raised) (h_s : s.Form) : (State.bundleStops s r).Form := by
  unfold State.bundleStops; simp (maxDischargeDepth := 20) (contextual := true) [*]
@[simp] theorem State.boundary_form (s : State) (h_s : s.Form) : (State.boundary s).Form := by
  unfold State.boundary; simp (maxDischargeDepth := 20) (contextual := true) [*]
@[simp] theorem State.interrupted_form (s : State) (h_s : s.Form) : (State.interrupted s).Form := by
  unfold State.interrupted; dsimp only; (repeat' split) <;> simp (maxDischargeDepth := 20) (contextual := true) [*]
@[simp] theorem State.stalled_form (s : State) (h_s : s.Form) : (State.stalled s).Form := by
  unfold State.stalled; simp (maxDischargeDepth := 20) (contextual := true) [*]
@[simp] theorem State.startPreempt_form (s : State) (h_s : s.Form) : (State.startPreempt s).Form := by
  unfold State.startPreempt; simp (maxDischargeDepth := 20) (contextual := true) [*]
@[simp] theorem State.endTask_form (s : State) (h_s : s.Form) : (State.endTask s).Form := by
  unfold State.endTask; dsimp only; (repeat' split) <;> simp (maxDischargeDepth := 20) (contextual := true) [*]
@[simp] theorem State.switchTick_form (s : State) (n : Nat) (h_s : s.Form) : (State.switchTick s n).Form := by
  unfold State.switchTick; simp (maxDischargeDepth := 20) (contextual := true) [*]
@[simp] theorem State.switchOver_form (s : State) (h_s : s.Form) : (State.switchOver s).Form := by
  have h : (({ s with core := { s.core with switching := none } }) : State).Form := ⟨h_s.1, h_s.2, h_s.3, h_s.4, h_s.5⟩
  unfold State.switchOver; dsimp only
  exact form_ite h (State.acquire_form _ _ ((setBank_form _).2 h))
@[simp] theorem State.noteSwitch_form (s : State) (h_s : s.Form) : (State.noteSwitch s).Form := by
  unfold State.noteSwitch; simp [h_s]
@[simp] theorem passing_form (code : Nat) (o : Out) (h : OutForm o) : OutForm (passing code o) := by
  unfold passing; split
  · rw [outForm_next] at *; split <;> simp [h]
  · exact h
@[simp] theorem State.driftOver_form (s : State) (n : Nat) (h_s : s.Form) : (State.driftOver s n).Form := by
  unfold State.driftOver; simp (maxDischargeDepth := 20) (contextual := true) [*]

end Sys2Proof.Machine
end

