-- ==== Sys2Proof/Laws/Lanes.lean ====
section
/-! SUPPORT. Lanes of vector registers: what a lane of a register built from lanes holds, and what the lane-wise V
operations give. -/

namespace Sys2Proof.Machine

/-- A lane lies within its width. -/
theorem laneAt_lt (w : Nat) (v : VBits) (l : Nat) : laneAt w v l < 2 ^ w := Nat.mod_lt _ (by positivity)

/-- R53: lane l of a register built from lanes is the l-th of them, at the lanes' width; lanes left out are 0. -/
theorem laneAt_ofLanes (w : Nat) (hw : 0 < w) (hd : w ∣ 2048) (xs : List Nat) (l : Nat) (hl : l < 2048 / w) :
    laneAt w (ofLanes w xs) l = xs.getD l 0 % 2 ^ w := by
  have key : ∀ (xs : List Nat) (l : Nat), packLanes w xs / 2 ^ (w * l) % 2 ^ w = xs.getD l 0 % 2 ^ w := by
    intro xs
    induction xs with
    | nil => intro l; simp [packLanes]
    | cons x xs ih =>
      intro l
      cases l with
      | zero => simp [packLanes, Nat.add_mul_mod_self_left]
      | succ l =>
        have : packLanes w (x :: xs) / 2 ^ (w * (l + 1)) = packLanes w xs / 2 ^ (w * l) := by
          rw [Nat.mul_succ, Nat.pow_add, Nat.mul_comm (2 ^ (w * l)), ← Nat.div_div_eq_div_mul]
          congr 1
          rw [packLanes, Nat.add_mul_div_left _ _ (by positivity), Nat.div_eq_of_lt (Nat.mod_lt _ (by positivity))]; simp
        rw [this, ih]; simp
  unfold laneAt ofLanes
  rw [BitVec.toNat_ofNat, ← key xs l]
  have h1 : w * l + w ≤ 2048 := by
    have := Nat.div_mul_cancel hd; nlinarith
  obtain ⟨c, hc⟩ := Nat.exists_eq_add_of_le h1
  rw [hc, Nat.add_assoc, Nat.pow_add, Nat.mod_mul_right_div_self, Nat.pow_add, Nat.mod_mul_right_mod]

/-- Every tag but NONE and the unassigned codes has a width that divides a register. -/
theorem tagWidth_dvd (t : Tag) (h : 0 < tagWidth t) : tagWidth t ∣ 2048 := by revert t; decide

/-- An integer tag has a width, is no mask and no float. -/
theorem tagInt_width {t : Tag} (h : tagInt t = true) :
    0 < tagWidth t ∧ tagWidth t ∣ 2048 ∧ t ≠ 13 ∧ tagFloat t = false ∧ tagFmt t = none := by
  revert t; decide

/-- A tag with arithmetic has a width and is no mask. -/
theorem tagArith_width {t : Tag} (h : tagArith t = true) : 0 < tagWidth t ∧ tagWidth t ∣ 2048 ∧ t ≠ 13 := by
  revert t; decide

theorem tagLanes_eq {t : Tag} (h : 0 < tagWidth t) : tagLanes t = 2048 / tagWidth t := by
  rw [tagLanes, if_neg (by omega)]

/-- A lane of a lane-wise result of one source. -/
theorem map1_lane {t : Tag} (h : 0 < tagWidth t) (f : Nat → Nat) (a : VBits) (l : Nat) (hl : l < tagLanes t) :
    laneAt (tagWidth t) (map1 t f a) l = f (laneAt (tagWidth t) a l) % 2 ^ tagWidth t := by
  rw [tagLanes_eq h] at hl
  rw [map1, laneAt_ofLanes _ h (tagWidth_dvd t h) _ _ hl]
  congr 1
  simp [lanesOf, List.getD, hl]

/-- A lane of a lane-wise result of two sources. -/
theorem map2_lane {t : Tag} (h : 0 < tagWidth t) (f : Nat → Nat → Nat) (a b : VBits) (l : Nat) (hl : l < tagLanes t) :
    laneAt (tagWidth t) (map2 t f a b) l = f (laneAt (tagWidth t) a l) (laneAt (tagWidth t) b l) % 2 ^ tagWidth t := by
  rw [tagLanes_eq h] at hl
  rw [map2, laneAt_ofLanes _ h (tagWidth_dvd t h) _ _ hl]
  congr 1
  simp [lanesOf, List.getD, List.getElem?_zipWith, hl]

/-- A lane of a lane-wise result of three sources. -/
theorem map3_lane {t : Tag} (h : 0 < tagWidth t) (f : Nat → Nat → Nat → Nat) (a b c : VBits) (l : Nat)
    (hl : l < tagLanes t) :
    laneAt (tagWidth t) (map3 t f a b c) l =
      f (laneAt (tagWidth t) a l) (laneAt (tagWidth t) b l) (laneAt (tagWidth t) c l) % 2 ^ tagWidth t := by
  rw [tagLanes_eq h] at hl
  rw [map3, laneAt_ofLanes _ h (tagWidth_dvd t h) _ _ hl]
  congr 1
  simp [lanesOf, List.getD, List.getElem?_zipWith, hl]

/-- R377: a lane-wise V instruction that is ready, with a mask and tags its entry accepts, completes. -/
theorem State.vlanes_next {s : State} {o : VOp} {n lat : Nat} {accept : Tag → Bool} {out : Tag → Tag}
    {f : VIn → VBits → VBits × Bool} (h : s.vReady o n 0)
    (hk : kmOk o.km (s.vIn o n).tag (out (s.vIn o n).tag) = true) (ht : (s.vIn o n).ok accept = true) :
    s.vlanes o n lat accept out f = .next ((s.vHeld o n).vput lat o (out (s.vIn o n).tag)
      (f (s.vIn o n) (s.core.bank.mask o.km)).1 (s.core.bank.mask o.km)
      (flagBits (f (s.vIn o n) (s.core.bank.mask o.km)).2 false (s.vIn o n).lost)) := by
  unfold State.vlanes
  rw [State.vrun_next h hk ht]
  simp only [State.vHeld_mask]

/-- Two sources: every lane of the result is the function of the sources' lanes. -/
theorem State.v2_gives {s : State} {o : VOp} {lat : Nat} {accept : Tag → Bool} {f : Tag → Nat → Nat → Nat} {i : Instr}
    (hi : exec i s = s.v2 o lat accept f) (h : s.vReady o 2 0) (hw : 0 < tagWidth (s.vIn o 2).tag)
    (ht : (s.vIn o 2).ok accept = true) (hk : kmOk o.km (s.vIn o 2).tag (s.vIn o 2).tag = true) :
    s.vGives i o 2 lat (s.vIn o 2).tag (s.core.bank.mask o.km)
      fun l => f (s.vIn o 2).tag ((s.vIn o 2).lane 0 l) ((s.vIn o 2).lane 1 l) := by
  refine ⟨map2 (s.vIn o 2).tag (f (s.vIn o 2).tag) ((s.vIn o 2).x 0) ((s.vIn o 2).x 1), ?_, ?_⟩
  · rw [hi, State.v2, State.vlanes_next h hk ht]; rfl
  · intro l hl; exact map2_lane hw _ _ _ _ hl

/-- One source: every lane of the result is the function of the source's lane. -/
theorem State.v1_gives {s : State} {o : VOp} {lat : Nat} {accept : Tag → Bool} {f : Tag → Nat → Nat} {i : Instr}
    (hi : exec i s = s.v1 o lat accept f) (h : s.vReady o 1 0) (hw : 0 < tagWidth (s.vIn o 1).tag)
    (ht : (s.vIn o 1).ok accept = true) (hk : kmOk o.km (s.vIn o 1).tag (s.vIn o 1).tag = true) :
    s.vGives i o 1 lat (s.vIn o 1).tag (s.core.bank.mask o.km) fun l => f (s.vIn o 1).tag ((s.vIn o 1).lane 0 l) := by
  refine ⟨map1 (s.vIn o 1).tag (f (s.vIn o 1).tag) ((s.vIn o 1).x 0), ?_, ?_⟩
  · rw [hi, State.v1, State.vlanes_next h hk ht]; rfl
  · intro l hl; exact map1_lane hw _ _ _ hl

/-- Three sources: every lane of the result is the function of the sources' lanes. -/
theorem State.v3_gives {s : State} {o : VOp} {lat : Nat} {accept : Tag → Bool} {f : Tag → Nat → Nat → Nat → Nat}
    {i : Instr} (hi : exec i s = s.v3 o lat accept f) (h : s.vReady o 3 0) (hw : 0 < tagWidth (s.vIn o 3).tag)
    (ht : (s.vIn o 3).ok accept = true) (hk : kmOk o.km (s.vIn o 3).tag (s.vIn o 3).tag = true) :
    s.vGives i o 3 lat (s.vIn o 3).tag (s.core.bank.mask o.km)
      fun l => f (s.vIn o 3).tag ((s.vIn o 3).lane 0 l) ((s.vIn o 3).lane 1 l) ((s.vIn o 3).lane 2 l) := by
  refine ⟨map3 (s.vIn o 3).tag (f (s.vIn o 3).tag) ((s.vIn o 3).x 0) ((s.vIn o 3).x 1) ((s.vIn o 3).x 2), ?_, ?_⟩
  · rw [hi, State.v3, State.vlanes_next h hk ht]; rfl
  · intro l hl; exact map3_lane hw _ _ _ _ _ hl

/-! ### Counts (R327, R392) -/

/-- CLZ's count: bits above it are 0, and the bit at it is 1. -/
theorem clzBits_spec (x : Word) (n : Nat) (hn : n ≤ 64) (hi : ∀ i, n ≤ i → x.toNat.testBit i = false) :
    clzBits x.toNat n ≤ n ∧ (∀ i, n - clzBits x.toNat n ≤ i → x.toNat.testBit i = false) ∧
      (clzBits x.toNat n < n → x.toNat.testBit (n - 1 - clzBits x.toNat n) = true) := by
  induction n with
  | zero => simp [clzBits]; intro i; exact hi i (by omega)
  | succ n ih =>
    simp only [clzBits]
    split
    · rename_i h; simp [h]; exact hi
    · rename_i h
      simp only [Bool.not_eq_true] at h
      obtain ⟨a, b, c⟩ := ih (by omega) (by intro i h2; rcases Nat.eq_or_lt_of_le h2 with rfl | h3; exact h; exact hi i h3)
      refine ⟨by omega, fun i h4 => b i (by omega), fun h4 => ?_⟩
      have := c (by omega)
      rwa [show n + 1 - 1 - (clzBits x.toNat n + 1) = n - 1 - clzBits x.toNat n by omega]

/-- POPC's count is the number of ones. -/
theorem popCount_spec (x : Word) (n : Nat) : popCount x.toNat n = ((List.range n).filter fun i => x.getLsbD i).length := by
  induction n with
  | zero => simp [popCount]
  | succ n ih =>
    rw [popCount, List.range_succ, List.filter_append, List.length_append, ih]
    by_cases h : x.getLsbD n
    · simp [h, BitVec.getLsbD] at *; simp [h]
    · simp [h, BitVec.getLsbD] at *; simp [h]

end Sys2Proof.Machine
end

