-- ==== Sys2Proof/Machine/AsmText.lean ====
section
/-! DEFINITION. The source text of fjas: tokens, lines, bundles, expressions and floating literals
(01 R7, 17 R275, R276). -/

namespace Sys2Proof.Asm

/-- Why fjas rejects a source. -/
inductive AsmError where
  /-- R275: a character that begins no token. -/
  | badCharacter
  /-- R276: a number that is written in no form of R276. -/
  | badNumber
  /-- R276: tokens that form no expression. -/
  | badExpression
  /-- R276: a division by zero. -/
  | divisionByZero
  /-- R276: a symbol that the whole source does not define. -/
  | undefinedSymbol (name : String)
  /-- R275: a symbol that is defined twice. -/
  | duplicateSymbol (name : String)
  /-- R275: a register name, mnemonic, scope, suffix word or directive name defined as a symbol. -/
  | reservedName (name : String)
  /-- R7, R275: a line that is neither a bundle nor a directive, or continues no bundle. -/
  | badLine
  /-- R27, R280: a guard that may not stand where it is written. -/
  | badGuard
  /-- R278: no mnemonic. -/
  | unknownMnemonic (name : String)
  /-- R278, R279, R281: operands or suffixes that the instruction's form does not have. -/
  | badOperands
  /-- R281, R282, R287: a value or a register number beyond its field. -/
  | doesNotFit
  /-- R8: more instructions in a bundle than slots. -/
  | tooManyInSlot
  /-- R287: R18's rule on a control transfer following a control transfer. -/
  | followsControl
  /-- R287: the bundles of a LOOP or an LMARK end before they are all emitted. -/
  | rangeCut
  /-- R283: a directive that does not exist, may not stand in its section, or has other arguments. -/
  | badDirective (name : String)
  /-- R277: a base below the counter, or not a multiple of 64. -/
  | badBase
  /-- R284: a literal that its format does not hold. -/
  | badLiteral
  /-- R285, R286: a block that breaks its rules. -/
  | badBlock
  /-- R287: more than 56 KiB of code. -/
  | imageTooLong
  deriving DecidableEq, Repr

/-- A result of fjas. -/
abbrev P (α : Type) := Except AsmError α

/-- The tokens of a line. A floating literal is mant * 10^exp. -/
inductive Tok where
  | num (n : Nat)
  | flt (mant : Nat) (exp : Int)
  | id (s : String)
  | latch (s : String)
  | sym (c : Char)
  deriving DecidableEq, Repr

/-! ### Tokens -/

/-- Two characters are the same, by their codes. -/
def eqc (a b : Char) : Bool := Nat.beq a.toNat b.toNat

/-- A decimal digit. -/
def isDigit (c : Char) : Bool := Nat.ble 48 c.toNat && Nat.ble c.toNat 57

/-- A letter of A to Z or a to z. -/
def isLetter (c : Char) : Bool :=
  (Nat.ble 97 c.toNat && Nat.ble c.toNat 122) || (Nat.ble 65 c.toNat && Nat.ble c.toNat 90)

/-- R275: a character that may begin a symbol. -/
def isIdStart (c : Char) : Bool := isLetter c || eqc c '_' || eqc c '.'

/-- R275: a character that may stand in a symbol. -/
def isIdChar (c : Char) : Bool := isIdStart c || isDigit c

/-- The value of a digit in a base. -/
def digitVal (base : Nat) (c : Char) : Option Nat :=
  let n := c.toNat
  let v := if isDigit c then n - 48
    else if Nat.ble 97 n && Nat.ble n 102 then n - 87
    else if Nat.ble 65 n && Nat.ble n 70 then n - 55 else 99
  if v < base then some v else none

/-- R276: digits with `_` between digits; `prev` says that a digit stands before. -/
def digitsVal (base : Nat) : (prev : Bool) → (acc : Nat) → List Char → Option Nat
  | prev, acc, [] => if prev then some acc else none
  | prev, acc, c :: cs =>
    if eqc c '_' then (if prev then digitsVal base false acc cs else none)
    else
      match digitVal base c with
      | some v => digitsVal base true (acc * base + v) cs
      | none => none

/-- A row of decimal digits without `_`, not empty. -/
def plainDigits (cs : List Char) : Option Nat := if cs.all isDigit then digitsVal 10 false 0 cs else none

/-- R276: the exponent of a floating literal. -/
def exponentOf : List Char → Option Int
  | [] => some 0
  | 'e' :: '-' :: cs => (plainDigits cs).map fun n => -(n : Int)
  | 'e' :: '+' :: cs => (plainDigits cs).map fun n => (n : Int)
  | 'e' :: cs => (plainDigits cs).map fun n => (n : Int)
  | _ => none

/-- R276: the number that a run of characters writes. -/
def numberOf (cs : List Char) : Option Tok :=
  match cs with
  | '0' :: 'x' :: r => (digitsVal 16 false 0 r).map .num
  | '0' :: 'b' :: r => (digitsVal 2 false 0 r).map .num
  | _ =>
    let (i, r) := cs.span fun c => !eqc c '.' && !eqc c 'e'
    match r with
    | [] => (digitsVal 10 false 0 i).map .num
    | '.' :: f =>
      let (d, e) := f.span fun c => !eqc c 'e'
      match plainDigits i, plainDigits d, exponentOf e with
      | some a, some b, some x => some (.flt (a * 10 ^ d.length + b) (x - d.length))
      | _, _, _ => none
    | _ =>
      match plainDigits i, exponentOf r with
      | some a, some x => some (.flt a x)
      | _, _ => none

/-- The characters of a number: those of a symbol, and the sign of a decimal exponent. -/
def numRun (based : Bool) : (prev : Char) → List Char → List Char × List Char
  | _, [] => ([], [])
  | prev, c :: cs =>
    if isIdChar c || (!based && eqc prev 'e' && (eqc c '-' || eqc c '+')) then
      let r := numRun based c cs
      (c :: r.1, r.2)
    else ([], c :: cs)

/-- The characters that stand alone. -/
def isMark (c : Char) : Bool := [',', '[', ']', '(', ')', '|', ':', '+', '-', '~', '*', '/', '%', '&', '^', '!', '='].any fun m => eqc m c

/-- R275: blank space. -/
def isBlank (c : Char) : Bool := eqc c ' ' || eqc c '\t' || eqc c '\r'

/-- R275, R276: the tokens of a line; `<<` and `>>` are one token each. -/
def lex : (fuel : Nat) → List Char → P (List Tok)
  | 0, _ => .ok []
  | _ + 1, [] => .ok []
  | n + 1, c :: cs =>
    if isBlank c then lex n cs
    else if isDigit c then
      let r := numRun (eqc c '0' && (cs.take 1).any fun d => eqc d 'x' || eqc d 'b') c cs
      match numberOf (c :: r.1) with
      | some t => (lex n r.2).map (t :: ·)
      | none => .error .badNumber
    else if isIdStart c then
      let r := cs.span isIdChar
      (lex n r.2).map (.id (String.ofList (c :: r.1)) :: ·)
    else if eqc c '$' then
      let r := cs.span isIdChar
      (lex n r.2).map (.latch (String.ofList r.1) :: ·)
    else if eqc c '<' || eqc c '>' then
      match cs with
      | d :: cs => if eqc d c then (lex n cs).map (.sym c :: ·) else .error .badCharacter
      | [] => .error .badCharacter
    else if isMark c then (lex n cs).map (.sym c :: ·)
    else .error .badCharacter

/-- R7: a line without its comment. -/
def stripComment : List Char → List Char
  | [] => []
  | c :: cs =>
    if eqc c ';' || (eqc c '/' && (cs.take 1).any fun d => eqc d '/') then [] else c :: stripComment cs

/-- The tokens of a source line. -/
def lexLine (cs : List Char) : P (List Tok) :=
  let cs := stripComment cs
  lex (cs.length + 1) cs

/-! ### Lines -/

/-- The depth of parentheses and brackets after a token. -/
def depthAfter (t : Tok) (d : Nat) : Nat :=
  match t with
  | .sym c => if eqc c '(' || eqc c '[' then d + 1 else if eqc c ')' || eqc c ']' then d - 1 else d
  | _ => d

/-- R7: tokens split at a mark that stands outside parentheses and square brackets. -/
def splitTop (mark : Char) : (depth : Nat) → List Tok → List (List Tok)
  | _, [] => [[]]
  | d, t :: ts =>
    if d == 0 && t == .sym mark then [] :: splitTop mark d ts
    else
      match splitTop mark (depthAfter t d) ts with
      | [] => [[t]]
      | r :: rs => (t :: r) :: rs

/-- What a line holds beside its label: a bundle's instructions, or a directive and its arguments. -/
inductive Body where
  | empty
  | bundle (insts : List (List Tok))
  | directive (name : String) (args : List (List Tok))
  deriving DecidableEq, Repr

/-- R275: a source line. -/
structure Line where
  label : Option String
  body : Body
  deriving DecidableEq, Repr

/-- R283: the names of the directives. -/
def directiveNames : List String :=
  [".text", ".data", ".local", ".align", ".packet", ".equ", ".word", ".dword", ".i8", ".f32", ".bf16", ".f8e4", ".f8e5",
   ".dp8", ".fill", ".space", ".tensor", ".record", ".arm", ".gen", ".graph", ".node", ".edge", ".stencil", ".end"]

/-- Arguments split at commas; none where there is no token. -/
def argsOf (ts : List Tok) : List (List Tok) := if ts.isEmpty then [] else splitTop ',' 0 ts

/-- R7, R276: a bundle or a directive. -/
def bodyOf (ts : List Tok) : P Body :=
  match ts with
  | [] => .ok .empty
  | .id s :: rest =>
    if directiveNames.contains s then
      if (splitTop '|' 0 rest).length != 1 then .error (.badDirective s) else .ok (.directive s (argsOf rest))
    else .ok (.bundle (splitTop '|' 0 ts))
  | _ => .ok (.bundle (splitTop '|' 0 ts))

/-- R275: a line from its tokens. -/
def lineOf (ts : List Tok) : P Line :=
  match ts with
  | .id s :: .sym ':' :: rest => (bodyOf rest).map fun b => { label := some s, body := b }
  | _ => (bodyOf ts).map fun b => { label := none, body := b }

/-- R7: a line that begins with `|` adds its instructions to the bundle on the line above (the last of `rev`). -/
def continueBundle (rev : List Line) (ts : List Tok) : P (List Line) :=
  match rev with
  | { label := l, body := .bundle is } :: rest => .ok ({ label := l, body := .bundle (is ++ splitTop '|' 0 ts) } :: rest)
  | _ => .error .badLine

/-- R7, R275: the lines of a source up to `.end`, the last first; lines without tokens are left out, so that a line
beginning with | goes on with the bundle before them.
Log entry 77, DESIGN CHOICE. -/
def parseLines : List (List Char) → (rev : List Line) → P (List Line)
  | [], rev => .ok rev
  | cs :: rest, rev =>
    match lexLine cs with
    | .error e => .error e
    | .ok [] => parseLines rest rev
    | .ok (.sym '|' :: ts) =>
      match continueBundle rev ts with
      | .ok rev => parseLines rest rev
      | .error e => .error e
    | .ok ts =>
      match lineOf ts with
      | .error e => .error e
      | .ok l => if l.body = .directive ".end" [] then .ok (l :: rev) else parseLines rest (l :: rev)

/-- Characters split at a mark. -/
def splitChars (mark : Char) : List Char → List (List Char)
  | [] => [[]]
  | c :: cs =>
    if eqc c mark then [] :: splitChars mark cs
    else
      match splitChars mark cs with
      | [] => [[c]]
      | r :: rs => (c :: r) :: rs

/-- The lines of a source. -/
def parse (src : List Char) : P (List Line) := (parseLines (splitChars '\n' src) []).map List.reverse

/-! ### Expressions -/

/-- R276: the operators of two operands. -/
inductive BinOp where
  | mul | div | rem | add | sub | shl | shr | and | xor | or
  deriving DecidableEq, Repr

/-- R276: an expression. -/
inductive Expr where
  | lit (v : Word)
  | name (s : String)
  | neg (e : Expr)
  | not (e : Expr)
  | bin (o : BinOp) (a b : Expr)
  deriving DecidableEq, Repr

/-- R276: an operator and its precedence, 0 for `|` up to 5 for `*`, `/` and `%`. -/
def binOf (c : Char) : Option (BinOp × Nat) :=
  [('*', BinOp.mul, 5), ('/', .div, 5), ('%', .rem, 5), ('+', .add, 4), ('-', .sub, 4), ('<', .shl, 3), ('>', .shr, 3),
   ('&', .and, 2), ('^', .xor, 1), ('|', .or, 0)].lookup c

/-- The rest of an expression after its left operand: operators of at least a precedence, grouped from the left.
`sub` reads an operand of a precedence. -/
def parseTail (sub : Nat → List Tok → Option (Expr × List Tok)) (prec : Nat) :
    (fuel : Nat) → Expr → List Tok → Option (Expr × List Tok)
  | 0, e, ts => some (e, ts)
  | n + 1, e, ts =>
    match ts with
    | .sym c :: rest =>
      match binOf c with
      | some (o, p) =>
        if p < prec then some (e, ts)
        else
          match sub (p + 1) rest with
          | some (r, rest) => parseTail sub prec n (.bin o e r) rest
          | none => none
      | none => some (e, ts)
    | _ => some (e, ts)

/-- R276: an expression whose operators have at least a precedence; 6 is a unary expression. -/
def parseExpr : (fuel : Nat) → (prec : Nat) → List Tok → Option (Expr × List Tok)
  | 0, _, _ => none
  | n + 1, prec, ts =>
    let left : Option (Expr × List Tok) :=
      match ts with
      | .num v :: rest => some (.lit (BitVec.ofNat 64 v), rest)
      | .id s :: rest => some (.name s, rest)
      | .sym c :: rest =>
        if eqc c '-' then (parseExpr n 6 rest).map fun x => (.neg x.1, x.2)
        else if eqc c '~' then (parseExpr n 6 rest).map fun x => (.not x.1, x.2)
        else if eqc c '(' then
          match parseExpr n 0 rest with
          | some (e, .sym ')' :: rest) => some (e, rest)
          | _ => none
        else none
      | _ => none
    match left with
    | some (e, rest) => parseTail (parseExpr n) prec rest.length e rest
    | none => none

/-- R276: an operator's value in 64-bit two's complement.
`/` and `%` truncate toward zero, and `>>` is logical. -/
def BinOp.value (o : BinOp) (a b : Word) : P Word :=
  match o with
  | .mul => .ok (a * b)
  | .div => if b == 0 then .error .divisionByZero else .ok (a.sdiv b)
  | .rem => if b == 0 then .error .divisionByZero else .ok (a.srem b)
  | .add => .ok (a + b)
  | .sub => .ok (a - b)
  | .shl => .ok (if b.toNat < 64 then a <<< b.toNat else 0)
  | .shr => .ok (if b.toNat < 64 then a >>> b.toNat else 0)
  | .and => .ok (a &&& b)
  | .xor => .ok (a ^^^ b)
  | .or => .ok (a ||| b)

/-- R276: the value of an expression under the symbols' values. -/
def Expr.value (syms : List (String × Word)) : Expr → P Word
  | .lit v => .ok v
  | .name s =>
    match syms.lookup s with
    | some v => .ok v
    | none => .error (.undefinedSymbol s)
  | .neg e => (e.value syms).map fun v => -v
  | .not e => (e.value syms).map fun v => ~~~v
  | .bin o a b =>
    match a.value syms, b.value syms with
    | .ok x, .ok y => o.value x y
    | .error e, _ => .error e
    | _, .error e => .error e

/-- The value of tokens that are one expression. -/
def exprValue (syms : List (String × Word)) (ts : List Tok) : P Word :=
  match parseExpr (ts.length + 1) 0 ts with
  | some (e, []) => e.value syms
  | _ => .error .badExpression

end Sys2Proof.Asm
end

