-- ==== Sys2Proof/Machine/AsmOperands.lean ====
section
/-! DEFINITION. The operands, suffixes and guards of fjas and the fields they are written to (03 R52, R57; 04 R73;
17 R278-R282). -/

namespace Sys2Proof.Asm

/-! ### Names -/

/-- A decimal number without leading zeros. -/
def decimalOf (cs : List Char) : Option Nat :=
  match cs with
  | ['0'] => some 0
  | '0' :: _ => none
  | _ => plainDigits cs

/-- The number of a register name with a given head, as 12 of `v12`. -/
def regNo (head : List Char) (s : String) : Option Nat :=
  let cs := s.toList
  if cs.take head.length == head then decimalOf (cs.drop head.length) else none

/-- R278: the kinds of register, with their heads and how many there are. -/
def regKinds : List (String × Nat) :=
  [("s", 64), ("d", 32), ("v", 384), ("p", 16), ("dp", 4), ("k", 8), ("b", 8), ("cb", 8), ("gen", 8), ("acc", 8)]

/-- R302: the system registers. -/
def sysNames : List (String × Nat) :=
  [("status", 0x00), ("pos", 0x01), ("cellid", 0x02), ("dieid", 0x03), ("bank", 0x04), ("allot", 0x05), ("rotsz", 0x06),
   ("lc", 0x07), ("epc", 0x08), ("cause", 0x09), ("tvec", 0x0A), ("tfbase", 0x0B), ("inten", 0x0C), ("pend", 0x0D),
   ("cycle", 0x0E), ("timer", 0x0F), ("stencil", 0x10), ("resslot", 0x11), ("resbank", 0x12), ("resnet", 0x13),
   ("respwr", 0x14), ("audrate", 0x18), ("audseed", 0x19), ("audact", 0x1A), ("susp", 0x1B), ("qth", 0x1C),
   ("vclk", 0x20), ("mcsel", 0x21), ("svcreq", 0x22)]

/-- R278: the scopes. -/
def scopeNames : List (String × Nat) := [("core", 0), ("cell", 1), ("die", 2), ("device", 3), ("fabric", 4)]

/-- R52: the tags. -/
def tagNames : List (String × Nat) :=
  [("f32", 1), ("bf16", 2), ("f8e4", 3), ("f8e5", 4), ("dp8", 5), ("i8", 6), ("i16", 7), ("i32", 8), ("n8", 9),
   ("n16", 10), ("n32", 11), ("i64", 12), ("mask", 13)]

/-- R73: the matrix format codes. -/
def codeNames : List (String × Nat) :=
  [("f8e4", 0), ("f8e5", 1), ("i8", 2), ("bf16", 3), ("f32", 4), ("f8e4s", 5), ("f8e5s", 6), ("dp8", 7)]

/-- R101, R281: the hints. -/
def hintNames : List (String × Nat) := [("str", 1), ("stk", 2), ("byp", 3)]

/-- R57: the rounding words. -/
def roundNames : List (String × Nat) := [("rtz", 1), ("rdn", 2), ("rup", 3)]

/-- R307: the conditions of CMP. -/
def condNames : List (String × Nat) := [("eq", 0), ("ne", 1), ("lt", 2), ("le", 3), ("ltn", 4), ("len", 5)]

/-- R311: the conditions of VCMP. -/
def vcondNames : List (String × Nat) :=
  [("eq", 0), ("ne", 1), ("lt", 2), ("le", 3), ("gt", 4), ("ge", 5), ("un", 6), ("ord", 7)]

/-- R315: the operations of ATOM. -/
def atomNames : List (String × Nat) :=
  [("add", 0), ("min", 1), ("max", 2), ("minn", 3), ("maxn", 4), ("and", 5), ("or", 6), ("xor", 7), ("xchg", 8),
   ("cas", 9), ("fadd", 10)]

/-- R112: the kinds of CPY. -/
def copyNames : List (String × Nat) := [("t2s", 0), ("s2t", 1), ("g2s", 2), ("s2g", 3)]

/-- R313: the activation functions. -/
def actNames : List (String × Nat) := [("none", 0), ("relu", 1), ("gelu", 2), ("silu", 3)]

/-- R93: the fields of a generator. -/
def genFields : List (String × Nat) :=
  [("kind", 0), ("seed", 1), ("scope", 2), ("row0", 3), ("col0", 4), ("band", 5), ("scale", 6), ("fmt", 7), ("mix", 8)]

/-- R75: the weight planes. -/
def planeNames : List (String × Nat) := [("wa", 0), ("wb", 1), ("straddle", 2), ("both", 2)]

/-- R315: the orders of FENCE. -/
def fenceNames : List (String × Nat) := [("rel", 1), ("acq", 2), ("ar", 3)]

/-- R166: the updates of CONDW. -/
def condwNames : List (String × Nat) := [("add", 1), ("or", 2), ("max", 3)]

/-- R281: every suffix word. -/
def suffixWords : List String :=
  ((tagNames ++ codeNames ++ hintNames ++ condNames ++ vcondNames ++ atomNames ++ copyNames ++ fenceNames).map (·.1)) ++
    ["w", "v", "a", "chain", "bal"]

/-- R275: a register name. -/
def isRegName (s : String) : Bool :=
  regKinds.any (fun k => match regNo k.1.toList s with
    | some n => decide (n < k.2)
    | none => false) || (sysNames.lookup s).isSome

/-! ### Values -/

/-- What an instruction's operands are read with: the symbols, the address of the bundle's first word (R282), and
whether the bundle holds an MBR (R27) or is a kernel bundle (R280). -/
structure Ctx where
  syms : List (String × Word)
  addr : Nat
  mbr : Bool
  kernel : Bool
  deriving DecidableEq, Repr

/-- R281: a value that fits an unsigned field. -/
def fitU (w : Nat) (v : Word) : P (BitVec w) := if v.toNat < 2 ^ w then .ok (BitVec.ofNat w v.toNat) else .error .doesNotFit

/-- R281: a value that fits a signed field. -/
def fitS (w : Nat) (v : Int) : P (BitVec w) :=
  if -(2 ^ (w - 1) : Int) ≤ v && v < 2 ^ (w - 1) then .ok (BitVec.ofInt w v) else .error .doesNotFit

/-- R281: a value of imm32, from −2^31 to 2^32 − 1. -/
def fit32 (v : Int) : P (BitVec 32) :=
  if -(2 ^ 31 : Int) ≤ v && v < 2 ^ 32 then .ok (BitVec.ofInt 32 v) else .error .doesNotFit

/-- An unsigned operand. -/
def Ctx.uns (c : Ctx) (w : Nat) (t : List Tok) : P (BitVec w) := (exprValue c.syms t).bind (fitU w)

/-- A signed operand. -/
def Ctx.sgn (c : Ctx) (w : Nat) (t : List Tok) : P (BitVec w) := (exprValue c.syms t).bind fun v => fitS w v.toInt

/-- An imm32 operand. -/
def Ctx.imm32 (c : Ctx) (t : List Tok) : P (BitVec 32) := (exprValue c.syms t).bind fun v => fit32 v.toInt

/-- R282: the word offset from the branch bundle to a target. -/
def Ctx.offset (c : Ctx) (w : Nat) (t : List Tok) : P (BitVec w) :=
  (exprValue c.syms t).bind fun v =>
    let d := (v - BitVec.ofNat 64 c.addr).toInt
    if d % 4 = 0 then fitS w (d / 4) else .error .doesNotFit

/-! ### Operands -/

/-- The error of an operand that has not its form. -/
def bad {α : Type} : P α := .error .badOperands

/-- A register below a bound; a number above it does not fit (R287). -/
def inKind (head : String) (bound : Nat) (s : String) : Option (P Nat) :=
  (regNo head.toList s).map fun n => if n < bound then .ok n else .error .doesNotFit

/-- One word from a table. -/
def wordIn (table : List (String × Nat)) (t : List Tok) : P Nat :=
  match t with
  | [.id s] =>
    match table.lookup s with
    | some n => .ok n
    | none => bad
  | _ => bad

/-- A register of one kind. -/
def regIn (head : String) (bound : Nat) (t : List Tok) : P Nat :=
  match t with
  | [.id s] => (inKind head bound s).getD bad
  | _ => bad

/-- R278: a scalar register, or a drift register in drift code. -/
def sReg (t : List Tok) : P (BitVec 6) :=
  match t with
  | [.id s] =>
    match inKind "s" 64 s, inKind "d" 32 s with
    | some r, _ => r.map (BitVec.ofNat 6)
    | none, some r => r.map (BitVec.ofNat 6)
    | none, none => bad
  | _ => bad

/-- R278: a predicate, or a drift predicate in drift code. -/
def pReg (t : List Tok) : P (BitVec 4) :=
  match t with
  | [.id s] =>
    match inKind "p" 16 s, inKind "dp" 4 s with
    | some r, _ => r.map (BitVec.ofNat 4)
    | none, some r => r.map (BitVec.ofNat 4)
    | none, none => bad
  | _ => bad

/-- A predicate in a 6-bit field. -/
def pReg6 (t : List Tok) : P (BitVec 6) := (pReg t).map (BitVec.setWidth 6)

/-- R278: a vector register. -/
def vReg (t : List Tok) : P (BitVec 9) := (regIn "v" 384 t).map (BitVec.ofNat 9)

/-- R278: a barrier. -/
def cbReg (t : List Tok) : P (BitVec 3) := (regIn "cb" 8 t).map (BitVec.ofNat 3)

/-- R278: a tile. -/
def accReg (t : List Tok) : P (BitVec 3) := (regIn "acc" 8 t).map (BitVec.ofNat 3)

/-- R278: a scope. -/
def scopeOp (t : List Tok) : P (BitVec 3) := (wordIn scopeNames t).map (BitVec.ofNat 3)

/-- R61: a numerics profile `npX`, X from 1 to 6. -/
def npOp (t : List Tok) : P (BitVec 4) :=
  (regIn "np" 7 t).bind fun n => if n = 0 then .error .doesNotFit else .ok (BitVec.ofNat 4 n)

/-- R75, R93: a generator with the word after its dot, if there is one. -/
def genOp (t : List Tok) : P (BitVec 3 × Option String) :=
  match t with
  | [.id s] =>
    match (splitChars '.' s.toList).map String.ofList with
    | [r] => (regIn "gen" 8 [.id r]).map fun n => (BitVec.ofNat 3 n, none)
    | [r, f] => (regIn "gen" 8 [.id r]).map fun n => (BitVec.ofNat 3 n, some f)
    | _ => bad
  | _ => bad

/-- R281: a memory operand: its base register and its offset; `[sA-e]` takes away the whole of e. -/
def Ctx.mem (c : Ctx) (t : List Tok) : P (BitVec 6 × BitVec 17) :=
  match t with
  | .sym '[' :: .id s :: rest =>
    match sReg [.id s], rest.reverse with
    | .ok r, .sym ']' :: rev =>
      match rev.reverse with
      | [] => .ok (r, 0)
      | .sym '+' :: e => (c.sgn 17 e).map fun i => (r, i)
      | .sym '-' :: e => (exprValue c.syms e).bind fun v => (fitS 17 (-v.toInt)).map fun i => (r, i)
      | _ => bad
    | .error e, _ => .error e
    | _, _ => bad
  | _ => bad

/-- R279: the unit of a latch name. -/
def latchUnits : List (String × Nat) := [("v0", 0), ("v1", 1), ("s", 2), ("m", 3)]

/-- R279: the field of a latch `$unit.age`. -/
def latchField (s : String) : P (BitVec 10) :=
  match (splitChars '.' s.toList).map String.ofList with
  | [u, a] =>
    match latchUnits.lookup u, decimalOf a.toList with
    | some n, some k => if k < 4 then .ok (BitVec.ofNat 10 (0x200 + 4 * n + k)) else .error .doesNotFit
    | _, _ => bad
  | _ => bad

/-- R279: a V source without its `!`. -/
def vSource (t : List Tok) : P (BitVec 10) :=
  match t with
  | [.latch s] => latchField s
  | [.sym '='] => .ok 0x3FF
  | [.id s] =>
    match inKind "v" 384 s, inKind "s" 64 s with
    | some r, _ => r.map (BitVec.ofNat 10)
    | none, some r => r.map fun n => BitVec.ofNat 10 (0x300 + n)
    | none, none => bad
  | _ => bad

/-- R279: a V source and its hold bit. -/
def vSrc (t : List Tok) : P (BitVec 10 × Bool) :=
  match t.reverse with
  | .sym '!' :: rev => (vSource rev.reverse).map fun f => (f, true)
  | _ => (vSource t).map fun f => (f, false)

/-- A V source that the form writes as a scalar register. -/
def vScalar (t : List Tok) : P (BitVec 10 × Bool) :=
  (vSrc t).bind fun f => if Machine.bcastOk f.1 then .ok f else bad

/-- A V source that the form writes as a register. -/
def vRegSrc (t : List Tok) : P (BitVec 10 × Bool) :=
  (vSrc t).bind fun f => if Machine.regOk f.1 then .ok f else bad

/-- R279: a V destination and W: `-` sets W and writes vd = 0. -/
def vDest (t : List Tok) : P (BitVec 9 × Bool) :=
  if t == [.sym '-'] then .ok (0, true) else (vReg t).map fun d => (d, false)

/-- R350: a test of MBR, a predicate that may be written with `!`: its number and whether it is. -/
def pTest (t : List Tok) : P (BitVec 4 × Bool) :=
  match t with
  | .sym '!' :: rest => (regIn "p" 16 rest).map fun p => (BitVec.ofNat 4 p, true)
  | _ => (regIn "p" 16 t).map fun p => (BitVec.ofNat 4 p, false)

/-- R280, R372: the code of a selector: `!pN`, N from 1 to 7, is code N + 8. -/
def selCode (t : List Tok) : P (BitVec 4) :=
  match t with
  | [.sym '!', .id s] =>
    (regIn "p" 16 [.id s]).bind fun n => if 1 ≤ n && n ≤ 7 then .ok (BitVec.ofNat 4 (n + 8)) else .error .badGuard
  | _ => pReg t

/-! ### Guards and suffixes -/

/-- R27, R280: the guard code of a guard's tokens. `mbrSelf` says that the guarded instruction is the MBR. -/
def Ctx.guard (c : Ctx) (mbrSelf : Bool) (t : List Tok) : P (BitVec 4) :=
  match t with
  | [.sym '!', .id s] =>
    match regNo "p".toList s with
    | some n => if 1 ≤ n && n ≤ 7 && !c.mbr && !c.kernel then .ok (BitVec.ofNat 4 (n + 8)) else .error .badGuard
    | none => .error .badGuard
  | [.id s] =>
    match regNo "p".toList s, regNo "dp".toList s, regNo "leaf".toList s with
    | some n, _, _ => if n < (if c.mbr then 11 else 16) then .ok (BitVec.ofNat 4 n) else .error .badGuard
    | none, some n, _ => if n < 4 then .ok (BitVec.ofNat 4 n) else .error .badGuard
    | none, none, some n => if n < 5 && c.mbr && !mbrSelf then .ok (BitVec.ofNat 4 (11 + n)) else .error .badGuard
    | none, none, none => .error .badGuard
  | _ => .error .badGuard

/-- An instruction's text: the tokens of its guard, its mnemonic, its suffixes and its operands. -/
structure InstText where
  guard : Option (List Tok)
  base : String
  sfx : List String
  ops : List (List Tok)
  deriving DecidableEq, Repr

/-- The mnemonic and the suffixes of a word. -/
def wordsOfId (s : String) : String × List String :=
  match (splitChars '.' s.toList).map String.ofList with
  | b :: r => (b, r)
  | [] => (s, [])

/-- R7, R280: an instruction's text. -/
def instText (ts : List Tok) : P InstText :=
  let rest (g : Option (List Tok)) (ts : List Tok) : P InstText :=
    match ts with
    | .id s :: ts =>
      let w := wordsOfId s
      .ok { guard := g, base := w.1, sfx := w.2, ops := argsOf ts }
    | _ => .error .badLine
  match ts with
  | [.sym '(', .id _] => .error .badGuard
  | .sym '(' :: .id s :: .sym ')' :: ts => rest (some [.id s]) ts
  | .sym '(' :: .sym '!' :: .id s :: .sym ')' :: ts => rest (some [.sym '!', .id s]) ts
  | _ => rest none ts

/-- R281: suffixes without their hint, and the hint's code. -/
def takeHint (sfx : List String) : List String × BitVec 2 :=
  match sfx.reverse with
  | h :: rev =>
    match hintNames.lookup h with
    | some n => (rev.reverse, BitVec.ofNat 2 n)
    | none => (sfx, 0)
  | [] => (sfx, 0)

/-- A suffix from a table. -/
def sfxIn (table : List (String × Nat)) (sfx : List String) : P Nat :=
  match sfx with
  | [s] =>
    match table.lookup s with
    | some n => .ok n
    | none => bad
  | _ => bad

end Sys2Proof.Asm
end

