-- ==== Sys2Proof/Machine/AsmInstr.lean ====
section
/-! DEFINITION. The instruction that a text of fjas writes, by class (19 R306-R316 and the forms of the reference
entries). -/

namespace Sys2Proof.Asm

/-- The slots of a bundle (R291). -/
inductive Slot where
  | scalar | vector | matrix | copy
  deriving DecidableEq, Repr

/-! ### S class (R306) -/

/-- Register forms `op sD, sA, sB`. -/
def sThree : List (String × (SOp → Instr)) :=
  [("add", .add), ("sub", .sub), ("mul", .mul), ("mulh", .mulh), ("mulhn", .mulhn), ("div", .div), ("divn", .divn),
   ("min", .min_), ("max", .max_), ("minn", .minn), ("maxn", .maxn), ("and", .and_), ("or", .or_), ("xor", .xor_),
   ("shl", .shl), ("shr", .shr), ("sar", .sar)]

/-- Register forms `op sD, sA`. -/
def sTwo : List (String × (SOp → Instr)) := [("clz", .clz), ("popc", .popc), ("mov", .mov)]

/-- Predicate forms `op pD, pA, pB`. -/
def sPred : List (String × (SOp → Instr)) := [("pand", .pand), ("por", .por), ("pxor", .pxor), ("pandn", .pandn)]

/-- Immediate forms `op sD, sA, imm`. -/
def sImms : List (String × (SImm → Instr)) :=
  [("addi", .addi), ("andi", .andi), ("ori", .ori), ("xori", .xori), ("shli", .shli), ("shri", .shri), ("sari", .sari)]

/-- Immediate compares `op pD, sA, imm`. -/
def sCmps : List (String × (SImm → Instr)) :=
  [("cmpeqi", .cmpeqi), ("cmplti", .cmplti), ("cmplei", .cmplei), ("cmpltni", .cmpltni)]

/-- The S mnemonics that have a guard. -/
def sGuarded : List String := sThree.map (·.1) ++ sTwo.map (·.1) ++ sPred.map (·.1) ++ ["movp", "setp"]

/-- The S mnemonics that have none (R293). -/
def sPlain : List String := sImms.map (·.1) ++ sCmps.map (·.1) ++ ["nop", "sel", "cmp", "movi"]

/-- An S instruction. -/
def buildS (c : Ctx) (g : BitVec 4) (base : String) (sfx : List String) (ops : List (List Tok)) : P Instr :=
  match sThree.lookup base, sTwo.lookup base, sPred.lookup base, sImms.lookup base, sCmps.lookup base, sfx, ops with
  | some f, _, _, _, _, [], [d, a, b] => do return f { d := ← sReg d, a := ← sReg a, b := ← sReg b, g := g }
  | _, some f, _, _, _, [], [d, a] => do return f { d := ← sReg d, a := ← sReg a, b := 0, g := g }
  | _, _, some f, _, _, [], [d, a, b] => do return f { d := ← pReg6 d, a := ← pReg6 a, b := ← pReg6 b, g := g }
  | _, _, _, some f, _, [], [d, a, i] => do return f { d := ← sReg d, a := ← sReg a, imm := ← c.sgn 10 i }
  | _, _, _, _, some f, [], [d, a, i] => do return f { d := ← pReg6 d, a := ← sReg a, imm := ← c.sgn 10 i }
  | _, _, _, _, _, sfx, ops =>
    match base, sfx, ops with
    | "nop", [], [] => .ok .nop
    | "nop", ["w"], [] => .ok .nopW
    | "movp", [], [d, a] => do return .movp { d := ← pReg6 d, a := ← pReg6 a, b := 0, g := g }
    | "setp", [], [d, a] => do return .setp { d := ← pReg6 d, a := ← sReg a, b := 0, g := g }
    | "movi", [], [d, i] => do return .movi { d := ← sReg d, a := 0, imm := ← c.sgn 10 i }
    | "sel", [], [d, p, a, b] => do return .sel { d := ← sReg d, a := ← sReg a, b := ← sReg b, g := ← selCode p }
    | "cmp", [k], [d, a, b] => do
      return .cmp { d := ← pReg6 d, a := ← sReg a, b := ← sReg b, g := BitVec.ofNat 4 (← sfxIn condNames [k]) }
    | _, _, _ => bad

/-! ### X class (R308) -/

/-- The X mnemonics. -/
def xNames : List String :=
  ["movl", "movh", "addl", "ldt", "mbr", "mfsr", "mtsr", "trap", "eret", "ckpt", "digest", "grow", "shrink", "arm",
   "disarm", "condw", "tret", "dstart", "dstop", "genset", "selftest"]

/-- R26, R316: the imm32 of MBR. -/
def mbrImm (bb : Nat) (ts : List (BitVec 4 × Bool)) : BitVec 32 :=
  let tests := (ts.zipIdx.map fun x => x.1.1.toNat * 2 ^ (4 * x.2)).sum
  let pols := (ts.zipIdx.map fun x => if x.1.2 then 2 ^ (16 + x.2) else 0).sum
  BitVec.ofNat 32 (tests + pols + bb * 2 ^ 20)

/-- An X instruction. -/
def buildX (c : Ctx) (g : BitVec 4) (base : String) (sfx : List String) (ops : List (List Tok)) : P Instr :=
  let o : XOp := { d := 0, a := 0, g := g, sub := 0, imm := 0 }
  match base, sfx, ops with
  | "movl", [], [d, i] => do return .movl { o with d := ← sReg d, imm := ← c.imm32 i }
  | "movh", [], [d, i] => do return .movh { o with d := ← sReg d, imm := ← c.imm32 i }
  | "addl", [], [d, a, i] => do return .addl { o with d := ← sReg d, a := ← sReg a, imm := ← c.imm32 i }
  | "ldt", [], [d, a, i] => do
    return .ldt { o with d := ← sReg d, a := ← sReg a, imm := ← c.imm32 i }
  | "mbr", [k], [b, t0, t1, t2, t3] => do
    let sub ← sfxIn [("chain", 0), ("bal", 1)] [k]
    let bb ← regIn "b" 4 b
    return .mbr { o with sub := BitVec.ofNat 6 sub, imm := mbrImm bb [← pTest t0, ← pTest t1, ← pTest t2, ← pTest t3] }
  | "mfsr", [], [d, n] => do return .mfsr { o with d := ← sReg d, imm := BitVec.ofNat 32 (← wordIn sysNames n) }
  | "mfsr", [], [d, n, a] => do
    return .mfsr { o with d := ← sReg d, a := ← sReg a, imm := BitVec.ofNat 32 (← wordIn sysNames n) }
  | "mtsr", [], [n, a] => do return .mtsr { o with a := ← sReg a, imm := BitVec.ofNat 32 (← wordIn sysNames n) }
  | "trap", [], [i] => do return .trap { o with imm := BitVec.setWidth 32 (← c.uns 16 i) }
  | "eret", [], [] => .ok (.eret o)
  | "ckpt", [], [] => .ok (.ckpt o)
  | "tret", [], [] => .ok (.tret o)
  | "dstop", [], [] => .ok (.dstop o)
  | "digest", [], [a] => do return .digest { o with a := ← sReg a }
  | "grow", [k], [d, n] => do
    return .grow { o with d := ← sReg d, sub := BitVec.ofNat 6 (← sfxIn [("v", 0), ("a", 1)] [k]), imm := ← c.imm32 n }
  | "shrink", [k], [d, n] => do
    return .shrink { o with d := ← sReg d, sub := BitVec.ofNat 6 (← sfxIn [("v", 0), ("a", 1)] [k]), imm := ← c.imm32 n }
  | "arm", [], [d, a, i] => do
    return .arm { o with d := ← sReg d, a := ← sReg a, imm := ← c.imm32 i }
  | "disarm", [], [d, i] => do return .disarm { o with d := ← sReg d, imm := ← c.imm32 i }
  | "condw", k, [i, a] => do
    let sub ← if k.isEmpty then .ok 0 else sfxIn condwNames k
    return .condw { o with a := ← sReg a, sub := BitVec.ofNat 6 sub, imm := ← c.imm32 i }
  | "dstart", [], [n, l] => do
    return .dstart { o with d := BitVec.setWidth 6 (← c.uns 3 n), imm := ← c.offset 32 l }
  | "genset", [], n :: a :: i => do
    let r ← genOp n
    let sub ← wordIn genFields [.id (r.2.getD "")]
    let imm ← match i with
      | [] => .ok 0
      | [i] => c.imm32 i
      | _ => bad
    return .genset { o with d := BitVec.setWidth 6 r.1, a := ← sReg a, sub := BitVec.ofNat 6 sub, imm := imm }
  | "selftest", [], [d, a, i] => do
    return .selftest { o with d := ← sReg d, a := ← sReg a, imm := ← c.imm32 i }
  | _, _, _ => bad

/-! ### L class (R309) -/

/-- The L mnemonics. -/
def lNames : List String := ["br", "bri", "brb", "call", "ret", "loop", "lmark", "taskend", "yield"]

/-- An L instruction. -/
def buildL (c : Ctx) (g : BitVec 4) (base : String) (sfx : List String) (ops : List (List Tok)) : P Instr :=
  match base, sfx, ops with
  | "br", [], [l] => do return .br { g := g, imm := ← c.offset 19 l }
  | "call", [], [l] => do return .call { g := g, imm := ← c.offset 19 l }
  | "bri", [], [a, i] => do return .bri { g := g, a := ← sReg a, imm := ← c.sgn 13 i }
  | "brb", [], [b] => do return .brb { g := g, a := 0, imm := BitVec.ofNat 13 (← regIn "b" 8 b) }
  | "ret", [], [] => .ok (.ret { g := g, a := 0, imm := 0 })
  | "loop", [], [a, s, l] => do
    return .loop { g := g, a := ← sReg a, imm := (← c.uns 5 s) ++ (← c.uns 8 l) }
  | "lmark", [], [n] => do return .lmark { g := g, imm := ← c.sgn 19 n }
  | "taskend", [], [] => .ok (.taskend { g := g, imm := 0 })
  | "yield", [], [] => .ok (.yield { g := g, imm := 0 })
  | _, _, _ => bad

/-! ### V class (R310) -/

/-- The operands of a V form between its destination and its rounding word. -/
inductive VForm where
  /-- Any sources, none to three. -/
  | sources (n : Nat)
  /-- Source A any, source B a scalar register. -/
  | srcScalar
  /-- Source A any, sources B and C scalar registers. -/
  | srcScalars
  /-- Two registers and a scalar register. -/
  | lists
  deriving DecidableEq, Repr

/-- The V forms without a suffix: operands, whether a rounding word may follow, whether a mask may, as the forms of the
reference entries have it. -/
def vForms : List (String × (VOp → Instr) × VForm × Bool × Bool) :=
  [("vadd", .vadd, .sources 2, true, true), ("vsub", .vsub, .sources 2, true, true),
   ("vmul", .vmul, .sources 2, true, true), ("vfma", .vfma, .sources 3, true, true),
   ("vfms", .vfms, .sources 3, true, true), ("vfnma", .vfnma, .sources 3, true, true),
   ("vmin", .vmin, .sources 2, true, true), ("vmax", .vmax, .sources 2, true, true),
   ("vabs", .vabs, .sources 1, false, true), ("vneg", .vneg, .sources 1, false, true),
   ("vand", .vand, .sources 2, false, true), ("vor", .vor, .sources 2, false, true),
   ("vxor", .vxor, .sources 2, false, true), ("vshl", .vshl, .sources 2, false, true),
   ("vshr", .vshr, .sources 2, false, true), ("vsar", .vsar, .sources 2, false, true),
   ("vmov", .vmov, .sources 1, false, true), ("vbcast", .vbcast, .sources 1, false, true),
   ("viota", .viota, .sources 0, false, true), ("vperm", .vperm, .sources 2, false, true),
   ("vslide", .vslide, .srcScalar, false, true), ("vqnt", .vqnt, .sources 1, true, false),
   ("vdqnt", .vdqnt, .sources 2, false, false), ("vscl", .vscl, .sources 2, true, true),
   ("vrcp", .vrcp, .sources 1, false, true), ("vrsq", .vrsq, .sources 1, false, true),
   ("vexp2", .vexp2, .sources 1, false, true), ("vlog2", .vlog2, .sources 1, false, true),
   ("vrsum", .vrsum, .sources 1, true, true), ("vrmax", .vrmax, .sources 1, true, true),
   ("vrmin", .vrmin, .sources 1, true, true), ("vscan", .vscan, .sources 1, true, true),
   ("vsort", .vsort, .srcScalar, false, true), ("vtopk", .vtopk, .srcScalars, false, true),
   ("vmergek", .vmergek, .lists, false, false), ("vcomp", .vcomp, .srcScalars, false, true),
   ("vpopc", .vpopc, .sources 1, false, true), ("vmovs", .vmovs, .srcScalar, false, true),
   ("vhash", .vhash, .sources 2, false, true), ("vclass", .vclass, .sources 1, false, true),
   ("vrnd", .vrnd, .sources 1, true, true)]

/-- The V mnemonics with forms of their own. -/
def vOwn : List String := ["vcmp", "vsel", "vcvt", "vtag", "vgen"]

/-- The sources of a form, and the operands after them. -/
def vSources (f : VForm) (ops : List (List Tok)) : P (List (BitVec 10 × Bool) × List (List Tok)) :=
  match f, ops with
  | .sources 0, r => .ok ([], r)
  | .sources 1, a :: r => do return ([← vSrc a], r)
  | .sources 2, a :: b :: r => do return ([← vSrc a, ← vSrc b], r)
  | .sources 3, a :: b :: d :: r => do return ([← vSrc a, ← vSrc b, ← vSrc d], r)
  | .srcScalar, a :: b :: r => do return ([← vSrc a, ← vScalar b], r)
  | .srcScalars, a :: b :: d :: r => do return ([← vSrc a, ← vScalar b, ← vScalar d], r)
  | .lists, a :: b :: d :: r => do return ([← vRegSrc a, ← vRegSrc b, ← vScalar d], r)
  | _, _ => bad

/-- R57, R310: the rounding field and the mask of the operands after the sources. -/
def vTail (rnd mask : Bool) (ops : List (List Tok)) : P (BitVec 2 × BitVec 3) :=
  let k (ops : List (List Tok)) : P (BitVec 3) :=
    match ops with
    | [] => .ok 0
    | [m] => if mask then (regIn "k" 8 m).map (BitVec.ofNat 3) else bad
    | _ => bad
  match ops with
  | [.id s] :: r =>
    match roundNames.lookup s with
    | some n => if rnd then (k r).map fun m => (BitVec.ofNat 2 n, m) else bad
    | none => (k ops).map fun m => (0, m)
  | _ => (k ops).map fun m => (0, m)

/-- A V word with its sources in the positions A, B and C. -/
def vWith (o : VOp) (srcs : List (BitVec 10 × Bool)) : VOp :=
  let s (i : Nat) : BitVec 10 × Bool := srcs.getD i (0, false)
  { o with a := (s 0).1, ha := (s 0).2, b := (s 1).1, hb := (s 1).2, c := (s 2).1, hc := (s 2).2 }

/-- A V instruction. -/
def buildV (g : BitVec 4) (base : String) (sfx : List String) (ops : List (List Tok)) : P Instr :=
  let o : VOp := { vd := 0, w := false, g := g, km := 0, ha := false, hb := false, hc := false, a := 0, b := 0, c := 0,
                   rnd := 0 }
  match vForms.lookup base, sfx, ops with
  | some (f, form, rnd, mask), [], d :: ops => do
    let (vd, w) ← vDest d
    let (srcs, r) ← vSources form ops
    let (m, k) ← vTail rnd mask r
    return f { vWith o srcs with vd := vd, w := w, rnd := m, km := k }
  | _, _, _ =>
    match base, sfx, ops with
    | "vcmp", [k], d :: a :: b :: r => do
      let (_, m) ← vTail false true r
      let cond ← sfxIn vcondNames [k]
      return .vcmp { vWith o [← vSrc a, ← vSrc b, (BitVec.ofNat 10 cond, false)] with
        vd := BitVec.ofNat 9 (← regIn "k" 8 d), km := m }
    | "vsel", [], [d, a, b, k] => do
      let (vd, w) ← vDest d
      return .vsel { vWith o [← vSrc a, ← vSrc b] with vd := vd, w := w, km := BitVec.ofNat 3 (← regIn "k" 8 k) }
    | "vcvt", [t], d :: a :: r => do
      let (vd, w) ← vDest d
      let (m, k) ← vTail true true r
      let tag ← sfxIn tagNames [t]
      return .vcvt { vWith o [← vSrc a, (0, false), (BitVec.ofNat 10 tag, false)] with vd := vd, w := w, rnd := m, km := k }
    | "vtag", [t], d :: a :: r => do
      let (vd, w) ← vDest d
      let (m, k) ← vTail false true r
      let tag ← sfxIn tagNames [t]
      return .vtag { vWith o [← vSrc a, (0, false), (BitVec.ofNat 10 tag, false)] with vd := vd, w := w, rnd := m, km := k }
    | "vgen", [], d :: i :: j :: n :: r => do
      let (vd, w) ← vDest d
      let (_, k) ← vTail false true r
      let (gen, t) ← genOp n
      let c ← match t with
        | none => .ok gen.toNat
        | some "t" => .ok (gen.toNat + 8)
        | some _ => bad
      return .vgen { vWith o [← vScalar i, ← vScalar j, (BitVec.ofNat 10 c, false)] with vd := vd, w := w, km := k }
    | _, _, _ => bad

/-! ### M class (R75, R312) -/

/-- The M mnemonics. -/
def mNames : List String := ["mldw", "mflip", "mmul", "mmulz", "mbnd", "mepi", "mrda", "mwra", "mzero", "mred"]

/-- R73: the format code of a suffix; `.f8e4` where there is none. -/
def codeOf (sfx : List String) : P (BitVec 3) := if sfx.isEmpty then .ok 0 else (sfxIn codeNames sfx).map (BitVec.ofNat 3)

/-- R75: a plane word among those a form allows. -/
def planeOp (allowed : List String) (t : List Tok) : P (BitVec 2) :=
  match t with
  | [.id s] => if allowed.contains s then (wordIn planeNames t).map (BitVec.ofNat 2) else bad
  | _ => bad

/-- R75: a count or value: an immediate in [42:35], or a register in sn with [42:35] = 0. -/
def Ctx.countOp (c : Ctx) (o : MOp) (t : List Tok) : P MOp :=
  match sReg t with
  | .ok r => .ok { o with sn := r }
  | .error .doesNotFit => .error .doesNotFit
  | .error _ => do return { o with rows := ← c.uns 8 t }

/-- R75: a line, or a generator `genN[.t]`. -/
def Ctx.lineOp (c : Ctx) (o : MOp) (t : List Tok) : P MOp :=
  match genOp t with
  | .ok (n, none) => .ok { o with useGen := true, gen := n }
  | .ok (n, some "t") => .ok { o with useGen := true, gen := n, t := true }
  | .error .doesNotFit => .error .doesNotFit
  | _ => do return { o with line := ← c.uns 16 t }

/-- R75: the row of MRDA and MWRA: an immediate, or a register with R set, and the segment. -/
def Ctx.rowOp (c : Ctx) (o : MOp) (row seg : List Tok) : P MOp := do
  let o1 ← c.countOp o row
  let s ← c.uns 2 seg
  return { o1 with mode := (if (sReg row).toOption.isSome then 4 else 0) + BitVec.setWidth 3 s }

/-- An M instruction. -/
def buildM (c : Ctx) (g : BitVec 4) (base : String) (sfx : List String) (ops : List (List Tok)) : P Instr :=
  let o : MOp := { np := 0, acc := 0, plane := 0, mode := 0, g := g, sn := 0, line := 0, useGen := false, gen := 0,
                   t := false, rows := 0, rsv := 0 }
  match base, sfx, ops with
  | "mldw", k, [p, l] => do
    return .mldw (← c.lineOp { o with mode := ← codeOf k, plane := ← planeOp ["wa", "wb"] p } l)
  | "mflip", [], [p] => do return .mflip { o with plane := ← planeOp ["wa", "wb", "both"] p }
  | "mmul", k, [a, p, l, m, n] => do
    let o := { o with acc := ← accReg a, plane := ← planeOp ["wa", "wb", "straddle"] p, mode := ← codeOf k, np := ← npOp n }
    return .mmul (← c.countOp (← c.lineOp o l) m)
  | "mmulz", k, [a, p, l, m, n] => do
    let o := { o with acc := ← accReg a, plane := ← planeOp ["wa", "wb", "straddle"] p, mode := ← codeOf k, np := ← npOp n }
    return .mmulz (← c.countOp (← c.lineOp o l) m)
  | "mbnd", [], [v] => do return .mbnd (← c.countOp o v)
  | "mepi", [], l :: a :: m :: t :: f :: p => do
    let act ← wordIn actNames f
    let o := { o with line := ← c.uns 16 l, acc := ← accReg a, np := BitVec.ofNat 4 (← wordIn tagNames t),
                      mode := BitVec.ofNat 3 act }
    match p with
    | [] => return .mepi (← c.countOp o m)
    | [p] => return .mepi { o with rows := ← c.uns 8 m, sn := ← sReg p, mode := o.mode + 4 }
    | _ => bad
  | "mrda", [], [d, a, r, s] => do
    return .mrda (← c.rowOp { o with line := BitVec.setWidth 16 (← vReg d), acc := ← accReg a } r s)
  | "mwra", [], [a, r, s, d] => do
    return .mwra (← c.rowOp { o with line := BitVec.setWidth 16 (← vReg d), acc := ← accReg a } r s)
  | "mzero", [], [a] => do return .mzero { o with acc := ← accReg a }
  | "mzero", [], [a, t] => do
    let _ ← wordIn [("i32", 1)] t
    return .mzero { o with acc := ← accReg a, mode := 1 }
  | "mred", [], [a, m, n] => do return .mred (← c.countOp { o with acc := ← accReg a, np := ← npOp n } m)
  | _, _, _ => bad

/-! ### C class (R314) -/

/-- The C mnemonics. -/
def cNames : List String :=
  ["ld", "st", "ldv", "stv", "gath", "scat", "cpy", "cpyw", "mcast", "pin", "unpin", "atom", "flagw", "flagr", "fence",
   "barr", "msend", "lsend", "lrecv", "lradd", "subs", "slotdn", "bdred", "bdtopk", "xroute", "gpost", "pref", "wbl",
   "invl"]

/-- The C mnemonics that a hint may follow. -/
def cHinted : List String := ["ld", "st", "cpy", "mcast", "atom", "subs", "bdred", "bdtopk", "pref"]

/-- A scalar data register in the data field. -/
def sData (t : List Tok) : P (BitVec 9) := (sReg t).map (BitVec.setWidth 9)

/-- A C word with its memory operand. -/
def Ctx.withMem (c : Ctx) (o : COp) (t : List Tok) : P COp := (c.mem t).map fun m => { o with sa := m.1, imm := m.2 }

/-- R132, R101: an optional barrier operand. -/
def cbTail (ops : List (List Tok)) : P (BitVec 3) :=
  match ops with
  | [] => .ok 0
  | [b] => cbReg b
  | _ => bad

/-- One scope word and no other. -/
def onlyScope (name : String) (t : List Tok) : P (BitVec 3) := if t == [.id name] then scopeOp t else bad

/-- R249: the data field of the link engines: port and channel. -/
def Ctx.portOp (c : Ctx) (p ch : List Tok) : P (BitVec 9) := do
  return (← c.uns 4 ch) ++ (← c.uns 5 p)

/-- A link engine's word. -/
def Ctx.linkOp (c : Ctx) (o : COp) (ops : List (List Tok)) : P COp :=
  match ops with
  | [p, ch, m, b, s, k] => do
    return { (← c.withMem o m) with
      data := ← c.portOp p ch, sb := ← sReg b, scope := ← onlyScope "fabric" s, cb := ← cbReg k }
  | _ => bad

/-- A memory operand, a scope and perhaps a barrier. -/
def Ctx.memScope (c : Ctx) (o : COp) (m s : List Tok) (r : List (List Tok)) : P COp := do
  return { (← c.withMem o m) with scope := ← scopeOp s, cb := ← cbTail r }

/-- A C instruction, its suffixes without the hint. -/
def buildC (c : Ctx) (o : COp) (base : String) (sfx : List String) (ops : List (List Tok)) : P Instr :=
  match base, sfx, ops with
  | "ld", [f], [d, m] => do
    return .ld { (← c.withMem o m) with data := ← sData d, fmt := BitVec.ofNat 4 (← sfxIn tagNames [f]) }
  | "st", [f], [m, d] => do
    return .st { (← c.withMem o m) with data := ← sData d, fmt := BitVec.ofNat 4 (← sfxIn tagNames [f]) }
  | "ldv", [f], [d, m] => do
    return .ldv { (← c.withMem o m) with data := ← vReg d, fmt := BitVec.ofNat 4 (← sfxIn tagNames [f]) }
  | "stv", [f], [m, d] => do
    return .stv { (← c.withMem o m) with data := ← vReg d, fmt := BitVec.ofNat 4 (← sfxIn tagNames [f]) }
  | "gath", [f], [d, m] => do
    return .gath { (← c.withMem o m) with data := ← vReg d, fmt := BitVec.ofNat 4 (← sfxIn tagNames [f]) }
  | "scat", [f], [m, d] => do
    return .scat { (← c.withMem o m) with data := ← vReg d, fmt := BitVec.ofNat 4 (← sfxIn tagNames [f]) }
  | "cpy", [k], [b, m] => do
    return .cpy { (← c.withMem o m) with data := BitVec.ofNat 9 (← sfxIn copyNames [k]), cb := ← cbReg b }
  | "cpyw", [], [b] => do return .cpyw { o with cb := ← cbReg b }
  | "mcast", [], [d, a, b, n, k] => do
    let (r, _) ← match d with
      | [.sym '[', .id _, .sym ']'] => c.mem d
      | _ => bad
    return .mcast { o with data := BitVec.setWidth 9 r, sa := ← sReg a, sb := ← sReg b, imm := ← c.sgn 17 n,
                           cb := ← cbReg k }
  | "pin", [], [d, m, b] => do return .pin { (← c.withMem o m) with data := ← sData d, sb := ← sReg b }
  | "unpin", [], [m, b] => do return .unpin { (← c.withMem o m) with sb := ← sReg b }
  | "atom", [k], d :: m :: b :: s :: r => do
    return .atom { (← c.memScope o m s r) with data := ← sData d, sb := ← sReg b,
                                               fmt := BitVec.ofNat 4 (← sfxIn atomNames [k]) }
  | "flagw", k, m :: d :: s :: r => do
    let f ← if k.isEmpty then .ok 0 else sfxIn [("rel", 1)] k
    return .flagw { (← c.memScope o m s r) with data := ← sData d, fmt := BitVec.ofNat 4 f }
  | "flagr", k, d :: m :: s :: r => do
    let f ← if k.isEmpty then .ok 0 else sfxIn [("acq", 1)] k
    return .flagr { (← c.memScope o m s r) with data := ← sData d, fmt := BitVec.ofNat 4 f }
  | "fence", [k], [s] => do
    return .fence { o with scope := ← scopeOp s, fmt := BitVec.ofNat 4 (← sfxIn fenceNames [k]) }
  | "barr", [], [d, m, b, s, k] => do
    return .barr { (← c.memScope o m s [k]) with data := ← sData d, sb := ← sReg b }
  | "msend", [], m :: s :: r => do return .msend (← c.memScope o m s r)
  | "lsend", [], ops => do return .lsend (← c.linkOp o ops)
  | "lrecv", [], ops => do return .lrecv (← c.linkOp o ops)
  | "lradd", [k], ops => do
    return .lradd { (← c.linkOp o ops) with fmt := BitVec.ofNat 4 (← sfxIn [("f32", 1), ("bf16", 2)] [k]) }
  | "subs", [], [m, s, k] => do return .subs (← c.memScope o m s [k])
  | "slotdn", [], [u] => do return .slotdn { o with data := BitVec.setWidth 9 (← c.uns 5 u) }
  | "bdred", [], [m, k] => do return .bdred { (← c.withMem o m) with cb := ← cbReg k }
  | "bdtopk", [], [m, s, k] => do
    return .bdtopk { (← c.withMem o m) with scope := ← onlyScope "device" s, cb := ← cbReg k }
  | "xroute", [], [m, s, k] => do
    return .xroute { (← c.withMem o m) with scope := ← onlyScope "fabric" s, cb := ← cbReg k }
  | "gpost", [], [d, m, k] => do return .gpost { (← c.withMem o m) with data := ← sData d, cb := ← cbReg k }
  | "pref", [], [m] => do return .pref (← c.withMem o m)
  | "wbl", [], [m, b, k] => do return .wbl { (← c.withMem o m) with sb := ← sReg b, cb := ← cbReg k }
  | "invl", [], [m, b, k] => do return .invl { (← c.withMem o m) with sb := ← sReg b, cb := ← cbReg k }
  | _, _, _ => bad

/-! ### An instruction -/

/-- R288, R291: the slot of a mnemonic and the number of its words. -/
def mnemonicSlot (base : String) : Option (Slot × Nat) :=
  if sGuarded.contains base || sPlain.contains base || lNames.contains base then some (.scalar, 1)
  else if xNames.contains base then some (.scalar, 2)
  else if (vForms.lookup base).isSome || vOwn.contains base then some (.vector, 2)
  else if mNames.contains base then some (.matrix, 2)
  else if cNames.contains base then some (.copy, 2)
  else none

/-- The instruction of a text. -/
def buildInstr (c : Ctx) (t : InstText) : P Instr := do
  if t.guard.isSome && sPlain.contains t.base then throw .badGuard
  let g ← match t.guard with
    | none => .ok 0
    | some g => c.guard (t.base == "mbr") g
  if sGuarded.contains t.base || sPlain.contains t.base then buildS c g t.base t.sfx t.ops
  else if lNames.contains t.base then buildL c g t.base t.sfx t.ops
  else if xNames.contains t.base then buildX c g t.base t.sfx t.ops
  else if (vForms.lookup t.base).isSome || vOwn.contains t.base then buildV g t.base t.sfx t.ops
  else if mNames.contains t.base then buildM c g t.base t.sfx t.ops
  else if cNames.contains t.base then
    let (sfx, hint) := if cHinted.contains t.base then takeHint t.sfx else (t.sfx, 0)
    let o : COp := { data := 0, sa := 0, cb := 0, g := g, fmt := 0, hint := hint, scope := 0, sb := 0, imm := 0 }
    buildC c o t.base sfx t.ops
  else throw (.unknownMnemonic t.base)

end Sys2Proof.Asm
end

