-- ==== Sys2Proof/Machine/AsmBlocks.lean ====
section
/-! DEFINITION. What the data directives of fjas emit (17 R283-R286). -/

namespace Sys2Proof.Asm

open Sys2Proof.Machine

/-! ### Values and literals -/

/-- R283: a value of n bytes, in the signed or the unsigned range of its width. -/
def intBytes (n : Nat) (v : Word) : P (List Byte) :=
  if n = 8 || (-(2 ^ (8 * n - 1) : Int) ≤ v.toInt && v.toInt < 2 ^ (8 * n)) then
    .ok (leBytes n (v.toNat % 2 ^ (8 * n)))
  else .error .doesNotFit

/-- R276, R284: a floating literal. -/
inductive Lit where
  | nan
  | inf (neg : Bool)
  | fin (neg : Bool) (mant : Nat) (exp : Int)
  deriving DecidableEq, Repr

/-- R276: the literal that tokens write. -/
def litOf (ts : List Tok) : P Lit :=
  let (neg, ts) := match ts with
    | .sym '-' :: r => (true, r)
    | _ => (false, ts)
  match ts with
  | [.num n] => .ok (.fin neg n 0)
  | [.flt m x] => .ok (.fin neg m x)
  | [.id "inf"] => .ok (.inf neg)
  | [.id "nan"] => if neg then .error .badLiteral else .ok .nan
  | _ => .error .badLiteral

/-- The numerator and the denominator of mant * 10^exp. -/
def ratioOf (mant : Nat) (exp : Int) : Nat × Nat :=
  if 0 ≤ exp then (mant * 10 ^ exp.toNat, 1) else (mant, 10 ^ (-exp).toNat)

/-- R284: num/den, rounded to nearest even with the exponent range taken as unbounded, exceeds the format's largest
finite value: it lies above the middle between that value and the next, or on it when the value's last bit is 1. -/
def tooLarge (f : FFmt) (num den : Nat) : Bool :=
  match decodeF f f.maxCode with
  | .fin _ m e =>
    let mid := (2 * m + 1) * 2 ^ (e - 1).toNat * den
    decide (mid < num) || (mid == num && m % 2 == 1)
  | _ => false

/-- R284: a literal in one of the four IEEE-like formats. -/
def floatLit (f : FFmt) (l : Lit) : P Nat :=
  match l with
  | .nan => .ok f.nanCode
  | .inf neg =>
    match f.infCode with
    | some c => .ok (signBit f neg + c)
    | none => .error .badLiteral
  | .fin neg m x =>
    let (n, d) := ratioOf m x
    if tooLarge f n d then .error .badLiteral else .ok (roundRatio f .rne false neg n d 0)

/-- R284: a `.dp8` literal; the quotient is taken far below DP8's last place with a sticky bit. -/
def dp8Lit (l : Lit) : P Nat :=
  match l with
  | .nan => .ok 0xF0
  | .inf _ => .error .badLiteral
  | .fin neg m x =>
    let (n, d) := ratioOf m x
    if 2 * d < n then .error .badLiteral
    else
      let q := n * 2 ^ 64 / d
      .ok (encodeDp8 .rne (.fin neg (2 * q + (if n * 2 ^ 64 % d = 0 then 0 else 1)) (-65)))

/-- R284: the bytes of a floating directive's literal. -/
def litBytes (name : String) (ts : List Tok) : P (List Byte) := do
  let l ← litOf ts
  match name with
  | ".f32" => return leBytes 4 (← floatLit .f32 l)
  | ".bf16" => return leBytes 2 (← floatLit .bf16 l)
  | ".f8e4" => return leBytes 1 (← floatLit .f8e4 l)
  | ".f8e5" => return leBytes 1 (← floatLit .f8e5 l)
  | _ => return leBytes 1 (← dp8Lit l)

/-! ### Keys -/

/-- R285: `key=value` as its key and its tokens. -/
def keyOf (ts : List Tok) : P (String × List Tok) :=
  match ts with
  | .id k :: .sym '=' :: v => .ok (k, v)
  | _ => .error .badBlock

/-- R285: the keys of a block's arguments, each one of `names`, and at most once unless it is in `many`. -/
def keysOf (names many : List String) : List (List Tok) → P (List (String × List Tok))
  | [] => .ok []
  | t :: ts => do
    let k ← keyOf t
    let r ← keysOf names many ts
    if !names.contains k.1 then throw .badBlock
    if r.any (fun x => x.1 == k.1) && !many.contains k.1 then throw .badBlock
    return k :: r

/-- A value in an unsigned field of w bits; `dflt` where the key is left out. -/
def keyU (syms : List (String × Word)) (keys : List (String × List Tok)) (k : String) (w : Nat) (dflt : Nat) : P Nat :=
  match keys.lookup k with
  | none => .ok dflt
  | some t => (exprValue syms t).bind fun v => (fitU w v).map (·.toNat)

/-- A word from a table; 0 where the key is left out. -/
def keyW (keys : List (String × List Tok)) (k : String) (table : List (String × Nat)) : P Nat :=
  match keys.lookup k with
  | none => .ok 0
  | some t => wordIn table t

/-- The parts of a list `(a, b, …)`. -/
def tupleOf (ts : List Tok) : P (List (List Tok)) :=
  match ts with
  | .sym '(' :: r =>
    match r.reverse with
    | .sym ')' :: rev => .ok (argsOf rev.reverse)
    | _ => .error .badBlock
  | _ => .error .badBlock

/-! ### Blocks -/

/-- R108, R285: the values of `e` and `t`, five of w bits; those that a list does not write are 1. -/
def extentsOf (syms : List (String × Word)) (keys : List (String × List Tok)) (k : String) (w : Nat) : P (List Nat) :=
  match keys.lookup k with
  | none => .ok (List.replicate 5 0)
  | some t => do
    let vs ← (← tupleOf t).mapM fun x => (exprValue syms x).bind fun v => (fitU w v).map (·.toNat)
    if 5 < vs.length then throw .badBlock
    return vs ++ List.replicate (5 - vs.length) 1

/-- R285: `.tensor`, the descriptor of R108. -/
def tensorBytes (syms : List (String × Word)) (args : List (List Tok)) : P (List Byte) := do
  let ks ← keysOf ["rank", "fmt", "layout", "edge", "e", "t", "ttb"] [] args
  let e ← extentsOf syms ks "e" 32
  let t ← extentsOf syms ks "t" 16
  let bs := leBytes 1 (← keyU syms ks "rank" 8 0) ++ leBytes 1 (← keyW ks "fmt" tagNames) ++
    leBytes 1 (← keyW ks "layout" [("rows", 0), ("swizzle", 1)]) ++ leBytes 1 (← keyW ks "edge" [("zero", 0), ("fault", 1)]) ++
    leBytes 4 0 ++ e.flatMap (leBytes 4) ++ t.flatMap (leBytes 2) ++ leBytes 2 0 ++ leBytes 8 (← keyU syms ks "ttb" 64 0) ++
    leBytes 16 0
  if (tensorOf bs).isSome then return bs else throw .badBlock

/-- R157, R285: a tile reference `(tensor, dx, dy, swap, cores)`. -/
def refWord (syms : List (String × Word)) (t : List Tok) : P Nat := do
  match ← tupleOf t with
  | [n, dx, dy, sw, c] =>
    let val (x : List Tok) : P Word := exprValue syms x
    return (← fitU 12 (← val n)).toNat + (← fitS 6 (← val dx).toInt).toNat * 2 ^ 12 +
      (← fitS 6 (← val dy).toInt).toNat * 2 ^ 18 + (← fitU 1 (← val sw)).toNat * 2 ^ 24 + (← fitU 4 (← val c)).toNat * 2 ^ 28
  | _ => throw .badBlock

/-- R285: a label as a word offset from CODE; 0 where the key is left out. -/
def keyOffset (syms : List (String × Word)) (keys : List (String × List Tok)) (k : String) (code : Nat) : P Nat :=
  match keys.lookup k with
  | none => .ok 0
  | some t =>
    (exprValue syms t).bind fun v =>
      if code ≤ v.toNat && (v.toNat - code) % 4 = 0 && (v.toNat - code) / 4 < 2 ^ 16 then .ok ((v.toNat - code) / 4)
      else .error .doesNotFit

/-- R157: the kinds of a record. -/
def kindNames : List (String × Nat) := [("solo", 0), ("cell", 1), ("gang2", 2), ("gang4", 3), ("gang8", 4), ("gang16", 5)]

/-- R285: `.record`, the loop record of R157. Its rules are those of R158 that no code image bears on. -/
def recordBytes (syms : List (String × Word)) (args : List (List Tok)) : P (List Byte) := do
  let ks ← keysOf ["code", "pro", "ker", "epi", "trip", "stages", "kind", "rotsz", "vu", "at", "klen", "in", "out"]
    ["in", "out"] args
  let code ← keyU syms ks "code" 64 0
  let stages ← keyU syms ks "stages" 64 1
  let kind ← keyW ks "kind" kindNames
  let ins ← (ks.filter (·.1 == "in")).mapM fun k => refWord syms k.2
  let outs ← (ks.filter (·.1 == "out")).mapM fun k => refWord syms k.2
  if stages = 0 || 8 < stages || 6 < ins.length || 4 < outs.length then throw .badBlock
  let refs := ins ++ outs
  let bs := leBytes 8 code ++ leBytes 2 (← keyOffset syms ks "pro" code) ++ leBytes 2 (← keyOffset syms ks "ker" code) ++
    leBytes 2 (← keyOffset syms ks "epi" code) ++ leBytes 4 (← keyU syms ks "trip" 32 0) ++
    leBytes 1 (stages - 1 + kind * 8) ++ leBytes 1 (← keyU syms ks "rotsz" 8 0) ++
    leBytes 1 ((← keyU syms ks "vu" 4 0) + (← keyU syms ks "at" 4 0) * 16) ++ leBytes 1 (ins.length + outs.length * 8) ++
    leBytes 2 (← keyU syms ks "klen" 9 0) ++ (refs ++ List.replicate (10 - refs.length) 0).flatMap (leBytes 4)
  if recordOk bs 14336 then return bs else throw .badBlock

/-- R150, R285: the flags of `.arm`. -/
def armFlags (keys : List (String × List Tok)) : P Nat :=
  match keys.lookup "flags" with
  | none => .ok 0
  | some [.id "guard"] => .ok 1
  | some [.id "debug"] => .ok 2
  | some [.id "guard", .sym '+', .id "debug"] => .ok 3
  | some _ => .error .badBlock

/-- R285: `.arm`, the arm block of R150 with RESULT 0. -/
def armBytes (syms : List (String × Word)) (args : List (List Tok)) : P (List Byte) := do
  let ks ← keysOf ["tag", "part", "prio", "graph", "args", "rtag", "rdest", "flags", "stat"] [] args
  let tag ← keyU syms ks "tag" 48 0
  let bs := leBytes 6 tag ++ leBytes 1 (← keyU syms ks "part" 8 0) ++ leBytes 1 (← keyU syms ks "prio" 8 0) ++
    leBytes 8 (← keyU syms ks "graph" 64 0) ++ leBytes 8 (← keyU syms ks "args" 64 0) ++
    leBytes 6 (← keyU syms ks "rtag" 48 0) ++ leBytes 1 (← keyU syms ks "rdest" 8 0) ++ leBytes 1 (← armFlags ks) ++
    leBytes 8 (← keyU syms ks "stat" 64 0) ++ leBytes 24 0
  if tag != 0 && armOk bs then return bs else throw .badBlock

/-- R285: `.gen`, 32 bytes at the bit positions of R92. -/
def genBytes (syms : List (String × Word)) (args : List (List Tok)) : P (List Byte) := do
  let ks ← keysOf ["kind", "seed", "scope", "row0", "col0", "band", "scale", "fmt", "mix"] [] args
  let kind ← keyU syms ks "kind" 3 0
  if kind = 7 then throw .badBlock
  let fmt ← keyW ks "fmt" [("f8e4", 0), ("bf16", 1), ("f32", 2)]
  let mix ← keyU syms ks "mix" 1 0
  return leBytes 8 (← keyU syms ks "seed" 64 0) ++ leBytes 4 (← keyU syms ks "scope" 32 0) ++
    leBytes 4 (← keyU syms ks "row0" 32 0) ++ leBytes 4 (← keyU syms ks "col0" 32 0) ++
    leBytes 4 (← keyU syms ks "band" 32 0) ++ leBytes 1 (← keyU syms ks "scale" 8 127) ++
    leBytes 1 (kind + fmt * 16 + mix * 64) ++ leBytes 6 0

/-! ### Graphs -/

/-- A node line: its label, its graph, its index and its KIND. -/
structure NodeAt where
  label : Option String
  graph : Nat
  index : Nat
  kind : Nat
  deriving DecidableEq, Repr

/-- R164: the kinds of a node. -/
def nodeKinds : List (String × Nat) :=
  [("taskset", 1), ("cond", 2), ("while", 3), ("bucket", 4), ("join", 5), ("message", 6), ("test", 7)]

/-- A node of a graph by its label. -/
def findNode (nodes : List NodeAt) (graph : Nat) (t : List Tok) : P NodeAt :=
  match t with
  | [.id s] =>
    match nodes.find? fun n => n.graph == graph && n.label == some s with
    | some n => .ok n
    | none => .error .badBlock
  | _ => .error .badBlock

/-- R286: the keys of a kind of node. -/
def nodeKeys (kind : Nat) : List String :=
  match kind with
  | 1 => ["record", "w", "h", "stencil", "prod"]
  | 2 | 4 => ["word"]
  | 3 => ["word", "limit"]
  | 5 => ["count"]
  | 6 => ["msg"]
  | _ => ["cells"]

/-- R286: a node's 64 bytes with NEXT and ALT none. -/
def nodeBytes (syms : List (String × Word)) (nodes : List NodeAt) (graph kind : Nat) (args : List (List Tok)) :
    P (List Byte) := do
  let ks ← keysOf (nodeKeys kind) [] args
  let sel ← if kind = 7 then keyU syms ks "cells" 8 0 else keyU syms ks "word" 4 0
  let prod ← match ks.lookup "prod" with
    | none => .ok 0
    | some [.id "none"] => .ok 0xFFFFFFFF
    | some t => (findNode nodes graph t).map (·.index)
  let third ← match kind with
    | 1 => .ok prod
    | 3 => keyU syms ks "limit" 32 0
    | 5 => keyU syms ks "count" 32 0
    | _ => .ok 0
  let addr ← if kind = 6 then keyU syms ks "msg" 64 0 else keyU syms ks "record" 64 0
  return leBytes 1 kind ++ leBytes 1 sel ++ leBytes 2 0 ++ leBytes 4 0xFFFFFFFF ++ leBytes 4 0xFFFFFFFF ++
    leBytes 4 third ++ leBytes 8 addr ++ leBytes 2 (← keyU syms ks "w" 16 0) ++ leBytes 2 (← keyU syms ks "h" 16 0) ++
    leBytes 8 (← keyU syms ks "stencil" 64 0) ++ leBytes 28 0

/-- R286: the offset in a node that `.edge` writes. A BUCKET's successors S0 to S7 begin where NEXT does. -/
def edgeOffset (kind : Nat) (t : List (List Tok)) : P Nat :=
  match t with
  | [] => .ok 4
  | [[.id "alt"]] => .ok 8
  | [[.id s]] =>
    match regNo ['s'] s with
    | some n => if n < 8 && kind = 4 then .ok (4 + 4 * n) else .error .badBlock
    | none => .error .badBlock
  | _ => .error .badBlock

/-- R286: the value of `.stencil`: the OR of bits 8a + b. -/
def stencilValue (syms : List (String × Word)) : List (List Tok) → P Word
  | [] => .ok 0
  | t :: ts => do
    match ← tupleOf t with
    | [a, b] =>
      let x ← fitU 3 (← exprValue syms a)
      let y ← fitU 3 (← exprValue syms b)
      return (← stencilValue syms ts) ||| BitVec.twoPow 64 (8 * x.toNat + y.toNat)
    | _ => throw .badBlock

end Sys2Proof.Asm
end

