-- ==== Sys2Proof/Machine/Asm.lean ====
section
/-! DEFINITION. The assembler fjas: from a source to its code image and its data image (01 R7-R9, R11; 17 R275-R287).
A source is walked several times: until the values of its symbols stand, and then once to emit. -/

namespace Sys2Proof.Asm

open Sys2Proof.Machine

/-- R277: the two images that a source gives, and the values of its symbols. -/
structure Image where
  textBase : Nat
  text : List IWord
  dataBase : Nat
  data : List Byte
  syms : List (String × Word)
  deriving DecidableEq, Repr

/-- R277: the places that a line may emit to; `win` is `.local`. -/
inductive Place where
  | text | data | win
  deriving DecidableEq, Repr

/-- Where a walk through the lines stands. A counter is none while an expression it rests on has no value yet.
`pending` are labels whose line has emitted nothing yet, `words` and `bytes` what was emitted, the last first, and
`patches` what `.edge` writes over it. `control` is 2 after a bundle that holds a branch, 1 after a LOOP or an LMARK.
`kernelLeft` and `pinLeft` are the bundles still due of a LOOP and of an LMARK. -/
structure Walk where
  place : Place
  textBase : Option Nat
  textAt : Option Nat
  dataBase : Option Nat
  dataAt : Option Nat
  winAt : Option Nat
  syms : List (String × Word)
  pending : List String
  graphs : Nat
  graphAt : Option Nat
  nodes : List NodeAt
  words : List (List IWord)
  bytes : List (List Byte)
  patches : List (Nat × List Byte)
  control : Nat
  kernelLeft : Nat
  pinLeft : Nat
  deriving DecidableEq, Repr

/-- A walk before the first line. -/
def Walk.start : Walk :=
  { place := .text, textBase := none, textAt := some 0, dataBase := none, dataAt := some 0, winAt := some 0, syms := [],
    pending := [], graphs := 0, graphAt := none, nodes := [], words := [], bytes := [], patches := [], control := 0,
    kernelLeft := 0, pinLeft := 0 }

/-- What a walk takes from the one before it: the symbols and the nodes, and whether it is the last, which emits and
whose errors reject the source. -/
structure Env where
  syms : List (String × Word)
  nodes : List NodeAt
  last : Bool
  deriving DecidableEq, Repr

/-- A value that only the last walk must have. -/
def Env.soft {α : Type} (e : Env) (r : P α) : P (Option α) :=
  match r with
  | .ok a => .ok (some a)
  | .error x => if e.last then .error x else .ok none

/-- What only the last walk makes. -/
def Env.emit {α : Type} (e : Env) (dflt : α) (r : P α) : P α := if e.last then r else .ok dflt

/-- The value of an argument. -/
def Env.value (e : Env) (t : List Tok) : P (Option Nat) := e.soft ((exprValue e.syms t).map (·.toNat))

/-- The smallest multiple of n from a on. -/
def alignUp (a n : Nat) : Nat := (a + n - 1) / n * n

/-! ### Counters and labels -/

/-- The counter of the place that lines emit to. -/
def Walk.at_ (w : Walk) : Option Nat :=
  match w.place with
  | .text => w.textAt
  | .data => w.dataAt
  | .win => w.winAt

/-- The counter moved. -/
def Walk.moveTo (w : Walk) (a : Option Nat) : Walk :=
  match w.place with
  | .text => { w with textAt := a }
  | .data => { w with dataAt := a }
  | .win => { w with winAt := a }

/-- A symbol with its value. -/
def Walk.define (w : Walk) (s : String) (v : Option Word) : Walk :=
  match v with
  | some v => { w with syms := (s, v) :: w.syms }
  | none => w

/-- R277: the pending labels take the counter's value. -/
def Walk.settle (w : Walk) : Walk :=
  let v := w.at_.map (BitVec.ofNat 64)
  w.pending.foldl (fun w s => w.define s v) { w with pending := [] }

/-- Data emitted at the counter: n bytes, whose values the last walk makes. -/
def Walk.emitData (w : Walk) (e : Env) (n : Option Nat) (bs : P (List Byte)) : P Walk := do
  let w := w.settle
  let base := if w.place = .data then w.dataBase.orElse fun _ => w.dataAt else w.dataBase
  let at_ := match w.at_, n with
    | some a, some n => some (a + n)
    | _, _ => none
  let w : Walk := { w.moveTo at_ with dataBase := base }
  if w.place = .data then return { w with bytes := (← e.emit [] bs) :: w.bytes } else return w

/-- R277, R283: the counter advanced to a multiple of n: over pad words in `.text`, over zeros elsewhere. -/
def Walk.align (w : Walk) (n : Nat) : Walk :=
  match w.at_ with
  | none => w
  | some a =>
    let gap := alignUp a n - a
    let w := w.moveTo (some (a + gap))
    match w.place with
    | .text => { w with textBase := w.textBase.orElse fun _ => some a, words := List.replicate (gap / 4) 0x60000000 :: w.words }
    | .data => { w with dataBase := w.dataBase.orElse fun _ => some a, bytes := List.replicate gap 0 :: w.bytes }
    | .win => w

/-! ### Bundles -/

/-- R8: the slots of a bundle hold at most one scalar, two vector, one matrix and two copy instructions. -/
def slotsOk (ss : List Slot) : Bool :=
  decide (ss.count .scalar ≤ 1) && decide (ss.count .vector ≤ 2) && decide (ss.count .matrix ≤ 1) &&
    decide (ss.count .copy ≤ 2)

/-- R18, R287: what kind of control transfer an instruction is: 2 a branch, 1 a LOOP or an LMARK, 0 neither. -/
def controlOf (base : String) : Nat :=
  if ["br", "bri", "brb", "call", "ret", "mbr"].contains base then 2
  else if base == "loop" || base == "lmark" then 1 else 0

/-- R18, R287: a bundle may follow one of kind `prev`. -/
def controlOk (prev : Nat) (bases : List String) : Bool :=
  (prev == 0 || bases.all fun b => controlOf b == 0) && (prev != 2 || !bases.contains "yield")

/-- R8: the bundle-start bit in the first word. -/
def markStart : List IWord → List IWord
  | [] => []
  | w :: ws => (w ||| 0x80000000) :: ws

/-- R8: the words of a bundle's instructions. -/
def bundleWords (c : Ctx) (is : List InstText) : P (List Instr × List IWord) := do
  let ins ← is.mapM (buildInstr c)
  return (ins, markStart (ins.flatMap fun i => (encode i).getD []))

/-- R10, R25: the bundles that a LOOP or an LMARK speaks for. -/
def kernelOf (i : Instr) : Nat :=
  match i with
  | .loop o => o.imm.toNat % 256
  | _ => 0

/-- R25: the bundles that an LMARK pins. -/
def pinnedOf (i : Instr) : Nat :=
  match i with
  | .lmark o => o.imm.toNat
  | _ => 0

/-- The greatest of a list of numbers. -/
def greatest (ns : List Nat) : Nat := ns.foldl max 0

/-- R8, R287: a bundle. It is moved to the next packet when it does not fit in the space left in this one. -/
def Walk.bundle (w : Walk) (e : Env) (toks : List (List Tok)) : P Walk := do
  if w.place != .text then throw .badLine
  let is ← toks.mapM instText
  let slots ← is.mapM fun i =>
    match mnemonicSlot i.base with
    | some s => .ok s
    | none => .error (.unknownMnemonic i.base)
  if !slotsOk (slots.map (·.1)) then throw .tooManyInSlot
  let bases := is.map (·.base)
  if !controlOk w.control bases then throw .followsControl
  let n := 4 * (slots.map (·.2)).sum
  let w := match w.textAt with
    | some a => if 64 < a % 64 + n then w.align 64 else w
    | none => w
  let w := w.settle
  let addr := w.textAt.getD 0
  let ctx : Ctx := { syms := e.syms, addr := addr, mbr := bases.contains "mbr", kernel := w.kernelLeft != 0 }
  let (ins, ws) ← e.emit ([], []) (bundleWords ctx is)
  return { w with
    textBase := w.textBase.orElse fun _ => some addr, textAt := w.textAt.map (· + n), words := ws :: w.words,
    control := greatest (bases.map controlOf), kernelLeft := max (w.kernelLeft - 1) (greatest (ins.map kernelOf)),
    pinLeft := max (w.pinLeft - 1) (greatest (ins.map pinnedOf)) }

/-! ### Directives -/

/-- R287: the ranges of LOOP and LMARK end before the next place or the end of the source. -/
def Walk.rangesDone (w : Walk) (e : Env) : Bool := !e.last || (w.kernelLeft == 0 && w.pinLeft == 0)

/-- R277: the counter of a place that has a base, and the new base. `old` is none where the place was not opened. -/
def openAt (e : Env) (args : List (List Tok)) (old counter : Option Nat) (mult : Nat) : P (Option Nat × Option Nat) := do
  match args with
  | [] => return (old.orElse fun _ => counter, counter)
  | [t] =>
    match ← e.value t, old, counter with
    | none, _, _ => return (old, none)
    | some b, none, _ => if mult = 64 && b % 4 != 0 then throw .badBase else return (some b, some b)
    | some b, some o, some c =>
      if b < c || (c < b && b % mult != 0) then throw .badBase else return (some o, some b)
    | some b, some o, none => return (some o, some b)
  | _ => throw (.badDirective ".text")

/-- R277: `.text`, `.data` and `.local`. -/
def Walk.open_ (w : Walk) (e : Env) (name : String) (args : List (List Tok)) : P Walk := do
  if !w.rangesDone e then throw .rangeCut
  let w := w.settle
  match name with
  | ".text" =>
    let old := w.textAt
    let (b, c) ← openAt e args w.textBase old 64
    let gap := match old, c, w.textBase with
      | some a, some c, some _ => (c - a) / 4
      | _, _, _ => 0
    return { w with place := .text, textBase := b, textAt := c, words := List.replicate gap 0x60000000 :: w.words }
  | ".data" =>
    let old := w.dataAt
    let (b, c) ← openAt e args w.dataBase old 1
    let gap := match old, c, w.dataBase with
      | some a, some c, some _ => c - a
      | _, _, _ => 0
    return { w with place := .data, dataBase := b, dataAt := c, bytes := List.replicate gap 0 :: w.bytes }
  | _ =>
    match args with
    | [] => return { w with place := .win }
    | [t] => return { w with place := .win, winAt := ← e.value t }
    | _ => throw (.badDirective name)

/-- R283: `.align`. In `.text` a label that waits passes over the pad words (R277); elsewhere it names the gap. -/
def Walk.alignBy (w : Walk) (e : Env) (t : List Tok) : P Walk := do
  match ← e.value t with
  | none => return w.moveTo none
  | some n =>
    if !((List.range 64).any fun k => n == 2 ^ k) || (w.place = .text && n % 64 != 0) then throw (.badDirective ".align")
    return (if w.place = .text then w else w.settle).align n

/-- R283: the values of a directive, each of n bytes. -/
def valuesOf (syms : List (String × Word)) (n : Nat) (args : List (List Tok)) : P (List Byte) := do
  return (← args.mapM fun t => (exprValue syms t).bind (intBytes n)).flatten

/-- R286: `.node`: a node of the current graph, at the place in the array that its index gives it. -/
def Walk.node (w : Walk) (e : Env) (label : Option String) (args : List (List Tok)) : P Walk := do
  match args with
  | (.id k :: ks) :: rest =>
    match nodeKinds.lookup k with
    | none => throw .badBlock
    | some kind =>
      let args := if ks.isEmpty then rest else ks :: rest
      let index := (w.nodes.filter fun n => n.graph == w.graphs).length
      if w.graphs = 0 then throw .badBlock
      if e.last && w.dataAt != w.graphAt.map (· + 64 * index) then throw .badBlock
      let w ← w.emitData e (some 64) (nodeBytes e.syms e.nodes w.graphs kind args)
      let w := { w with nodes := { label := label, graph := w.graphs, index := index, kind := kind } :: w.nodes }
      match label with
      | some s => return w.define s (some (BitVec.ofNat 64 index))
      | none => return w
  | _ => throw .badBlock

/-- R286: `.edge`. -/
def Walk.edge (w : Walk) (e : Env) (args : List (List Tok)) : P Walk := do
  match args with
  | a :: b :: r =>
    let p ← e.emit none (do
      let x ← findNode e.nodes w.graphs a
      let y ← findNode e.nodes w.graphs b
      return some (64 * x.index + (← edgeOffset x.kind r), leBytes 4 y.index))
    match p, w.graphAt with
    | some p, some g => return { w with patches := (g + p.1, p.2) :: w.patches }
    | _, _ => return w
  | _ => throw (.badDirective ".edge")

/-- R283, R285, R286: the directives that may stand in `.data` alone. -/
def Walk.dataDir (w : Walk) (e : Env) (label : Option String) (name : String) (args : List (List Tok)) : P Walk := do
  if w.place != .data then throw (.badDirective name)
  let block (n : Nat) (bs : P (List Byte)) : P Walk := (w.align 64).emitData e (some n) bs
  match name, args with
  | ".word", a :: r => w.emitData e (some (4 * args.length)) (valuesOf e.syms 4 (a :: r))
  | ".dword", a :: r => w.emitData e (some (8 * args.length)) (valuesOf e.syms 8 (a :: r))
  | ".i8", a :: r => w.emitData e (some args.length) (valuesOf e.syms 1 (a :: r))
  | ".fill", [n, k, v] => do
    match ← e.value n, ← e.value k with
    | some n, some k =>
      if !([1, 2, 4, 8].contains k) then throw (.badDirective ".fill")
      w.emitData e (some (n * k)) ((valuesOf e.syms k [v]).map fun bs => (List.replicate n bs).flatten)
    | _, _ => w.emitData e none (.ok [])
  | ".tensor", a => block 64 (tensorBytes e.syms a)
  | ".record", a => block 64 (recordBytes e.syms a)
  | ".arm", a => block 64 (armBytes e.syms a)
  | ".gen", a => block 32 (genBytes e.syms a)
  | ".graph", [] =>
    let w := (w.align 64).settle
    return { w with graphs := w.graphs + 1, graphAt := w.dataAt, dataBase := w.dataBase.orElse fun _ => w.dataAt }
  | ".node", a => w.node e label a
  | ".edge", a => w.edge e a
  | _, a :: r =>
    let n := match name with
      | ".f32" => 4
      | ".bf16" => 2
      | _ => 1
    if !([".f32", ".bf16", ".f8e4", ".f8e5", ".dp8"].contains name) then throw (.badDirective name)
    w.emitData e (some (n * args.length)) (((a :: r).mapM (litBytes name)).map List.flatten)
  | _, _ => throw (.badDirective name)

/-- R283: a directive. -/
def Walk.directive (w : Walk) (e : Env) (label : Option String) (name : String) (args : List (List Tok)) : P Walk := do
  match name, args with
  | ".text", a => w.open_ e name a
  | ".data", a => w.open_ e name a
  | ".local", a => w.open_ e name a
  | ".end", [] => if w.rangesDone e then return w.settle else throw .rangeCut
  | ".align", [t] => w.alignBy e t
  | ".packet", [] => if w.place = .text then return w.align 64 else throw (.badDirective name)
  | ".equ", [[.id s], t] => return w.define s (← e.soft (exprValue e.syms t))
  | ".stencil", [.id s] :: r =>
    if w.place = .win then throw (.badDirective name)
    return w.define s (← e.soft (stencilValue e.syms r))
  | ".space", [t] =>
    if w.place = .text then throw (.badDirective name)
    let n ← e.value t
    w.emitData e n (.ok (List.replicate (n.getD 0) 0))
  | _, _ => w.dataDir e label name args

/-! ### Sources -/

/-- A label that waits for what is emitted next. -/
def Walk.wait (w : Walk) (label : Option String) : Walk := { w with pending := label.toList ++ w.pending }

/-- R275: a line. The label of a `.node` line takes the node's index, that of a line that opens a place belongs to the
place opened, and every label but a node's waits for what is emitted next. -/
def Walk.line (w : Walk) (e : Env) (l : Line) : P Walk :=
  match l.body with
  | .empty => .ok (w.wait l.label)
  | .bundle is => (w.wait l.label).bundle e is
  | .directive n a =>
    if n == ".node" then w.directive e l.label n a
    else if [".text", ".data", ".local"].contains n then (w.directive e none n a).map fun w => w.wait l.label
    else (w.wait l.label).directive e none n a

/-- The lines of a source, one after another. -/
def walkLines (e : Env) : List Line → Walk → P Walk
  | [], w => .ok w
  | l :: ls, w =>
    match w.line e l with
    | .ok w => walkLines e ls w
    | .error x => .error x

/-- Every mnemonic. -/
def mnemonics : List String :=
  sGuarded ++ sPlain ++ lNames ++ xNames ++ vForms.map (·.1) ++ vOwn ++ mNames ++ cNames

/-- R275: a name that may not be a symbol. -/
def reserved (s : String) : Bool :=
  isRegName s || mnemonics.contains s || (scopeNames.lookup s).isSome || suffixWords.contains s ||
    suffixWords.contains (String.ofList (s.toList.drop 1)) && s.toList.head? == some '.' || directiveNames.contains s

/-- The symbols that a line defines. -/
def definedBy (l : Line) : List String :=
  l.label.toList ++
    match l.body with
    | .directive ".equ" ([.id s] :: _) => [s]
    | .directive ".stencil" ([.id s] :: _) => [s]
    | _ => []

/-- R275: no symbol is reserved or defined twice. -/
def checkNames : List String → P Unit
  | [] => .ok ()
  | s :: ss =>
    if reserved s then .error (.reservedName s)
    else if ss.contains s then .error (.duplicateSymbol s)
    else checkNames ss

/-- Walks until no further symbol gets a value. -/
def settleSyms (ls : List Line) : (fuel : Nat) → Env → P Env
  | 0, e => .ok e
  | n + 1, e => do
    let w := (← walkLines e ls Walk.start).settle
    let f : Env := { syms := w.syms, nodes := w.nodes, last := false }
    if w.syms = e.syms then return f else settleSyms ls n f

/-- Bytes written over a list from a place on. -/
def overwrite (bs : List Byte) (at_ : Nat) (new : List Byte) : List Byte :=
  bs.take at_ ++ new ++ bs.drop (at_ + new.length)

/-- R277, R286, R287: the images of the last walk. -/
def Walk.image (w : Walk) : P Image :=
  let tb := w.textBase.getD 0
  let db := w.dataBase.getD 0
  if 57344 < w.textAt.getD 0 - tb && w.textBase.isSome then .error .imageTooLong
  else
    .ok { textBase := tb, text := w.words.reverse.flatten, dataBase := db,
          data := w.patches.reverse.foldl (fun bs p => overwrite bs (p.1 - db) p.2) w.bytes.reverse.flatten,
          syms := w.syms.reverse }

/-- The images of a source's lines.
Log entry 63, DEDUCED. -/
def assembleLines (ls : List Line) : P Image := do
  let names := ls.flatMap definedBy
  checkNames names
  let e ← settleSyms ls (names.length + 2) { syms := [], nodes := [], last := false }
  let w ← walkLines { e with last := true } ls Walk.start
  if w.rangesDone { e with last := true } then w.settle.image else throw .rangeCut

/-- R275: a source assembled. -/
def assemble (src : List Char) : P Image := (parse src).bind assembleLines

end Sys2Proof.Asm
end

