-- ==== Sys2Proof/Tests/Slice0.lean ====
section
/-! SUPPORT. Tests: a word of every encodable instruction and the spec's own words, a well-formed and an ill-formed term
for each check, a witness for the hypotheses of every statement, and single steps. -/

open Sys2Proof Sys2Proof.Machine

namespace Sys2Proof.Tests

set_option Elab.async false

/-! ### Words -/

/-- R293 to R299 and R306 to R314: one word of each instruction of the family decodes to it. -/
theorem test_decode_scalar_register :
    decodeTableWord 32 0x80000400 = some .nop ∧
    decodeTableWord 32 0x80000000 = some .nopW ∧
    decodeTableWord 32 0x80417FE1 = some (.add { d := 1, a := 31, b := 62, g := 1 }) ∧
    decodeTableWord 32 0x808283D2 = some (.sub { d := 2, a := 32, b := 61, g := 2 }) ∧
    decodeTableWord 32 0x80C387C3 = some (.mul { d := 3, a := 33, b := 60, g := 3 }) ∧
    decodeTableWord 32 0x81048BB4 = some (.mulh { d := 4, a := 34, b := 59, g := 4 }) ∧
    decodeTableWord 32 0x81458FA5 = some (.mulhn { d := 5, a := 35, b := 58, g := 5 }) ∧
    decodeTableWord 32 0x81869396 = some (.div { d := 6, a := 36, b := 57, g := 6 }) ∧
    decodeTableWord 32 0x81C79787 = some (.divn { d := 7, a := 37, b := 56, g := 7 }) ∧
    decodeTableWord 32 0x82089B78 = some (.min_ { d := 8, a := 38, b := 55, g := 8 }) ∧
    decodeTableWord 32 0x82499F69 = some (.max_ { d := 9, a := 39, b := 54, g := 9 }) ∧
    decodeTableWord 32 0x828AA35A = some (.minn { d := 10, a := 40, b := 53, g := 10 }) ∧
    decodeTableWord 32 0x82CBA74B = some (.maxn { d := 11, a := 41, b := 52, g := 11 }) ∧
    decodeTableWord 32 0x830CAB3C = some (.and_ { d := 12, a := 42, b := 51, g := 12 }) ∧
    decodeTableWord 32 0x834DAF2D = some (.or_ { d := 13, a := 43, b := 50, g := 13 }) ∧
    decodeTableWord 32 0x838EB31E = some (.xor_ { d := 14, a := 44, b := 49, g := 14 }) ∧
    decodeTableWord 32 0x83CFB70F = some (.shl { d := 15, a := 45, b := 48, g := 15 }) ∧
    decodeTableWord 32 0x8410BAF0 = some (.shr { d := 16, a := 46, b := 47, g := 0 }) ∧
    decodeTableWord 32 0x8451BEE1 = some (.sar { d := 17, a := 47, b := 46, g := 1 }) := by decide

/-- R293 to R299 and R306 to R314: one word of each instruction of the family decodes to it. -/
theorem test_decode_scalar_rest :
    decodeTableWord 32 0x84864809 = some (.clz { d := 6, a := 18, b := 0, g := 9 }) ∧
    decodeTableWord 32 0x84C64C09 = some (.popc { d := 6, a := 19, b := 0, g := 9 }) ∧
    decodeTableWord 32 0x85465409 = some (.mov { d := 6, a := 21, b := 0, g := 9 }) ∧
    decodeTableWord 32 0x85061C83 = some (.sel { d := 6, a := 7, b := 8, g := 3 }) ∧
    decodeTableWord 32 0x85821875 = some (.cmp { d := 2, a := 6, b := 7, g := 5 }) ∧
    decodeTableWord 32 0x85C40420 = some (.pand { d := 4, a := 1, b := 2, g := 0 }) ∧
    decodeTableWord 32 0x86040421 = some (.por { d := 4, a := 1, b := 2, g := 1 }) ∧
    decodeTableWord 32 0x86440422 = some (.pxor { d := 4, a := 1, b := 2, g := 2 }) ∧
    decodeTableWord 32 0x86840423 = some (.pandn { d := 4, a := 1, b := 2, g := 3 }) ∧
    decodeTableWord 32 0x86CF3807 = some (.movp { d := 15, a := 14, b := 0, g := 7 }) ∧
    decodeTableWord 32 0x87022400 = some (.setp { d := 2, a := 9, b := 0, g := 0 }) ∧
    decodeTableWord 32 0x880DA3FF = some (.addi { d := 13, a := 40, imm := 1023 }) ∧
    decodeTableWord 32 0x884DA7FE = some (.andi { d := 13, a := 41, imm := 1022 }) ∧
    decodeTableWord 32 0x888DABFD = some (.ori { d := 13, a := 42, imm := 1021 }) ∧
    decodeTableWord 32 0x88CDAFFC = some (.xori { d := 13, a := 43, imm := 1020 }) ∧
    decodeTableWord 32 0x890C2C3D = some (.shli { d := 12, a := 11, imm := 61 }) ∧
    decodeTableWord 32 0x894C2C3E = some (.shri { d := 12, a := 11, imm := 62 }) ∧
    decodeTableWord 32 0x898C2C3F = some (.sari { d := 12, a := 11, imm := 63 }) ∧
    decodeTableWord 32 0x89C70040 = some (.movi { d := 7, a := 0, imm := 64 }) ∧
    decodeTableWord 32 0x8A011E00 = some (.cmpeqi { d := 1, a := 7, imm := 512 }) ∧
    decodeTableWord 32 0x8A421E01 = some (.cmplti { d := 2, a := 7, imm := 513 }) ∧
    decodeTableWord 32 0x8A831E02 = some (.cmplei { d := 3, a := 7, imm := 514 }) ∧
    decodeTableWord 32 0x8AC41E03 = some (.cmpltni { d := 4, a := 7, imm := 515 }) := by decide

/-- R293 to R299 and R306 to R314: one word of each instruction of the family decodes to it. -/
theorem test_decode_control_system :
    decodeTableWord 32 0xD04FFFFB = some (.br { g := 9, imm := 524283 }) ∧
    decodeTableWord 32 0xD0810004 = some (.bri { g := 0, a := 8, imm := 4 }) ∧
    decodeTableWord 32 0xD1080007 = some (.brb { g := 1, a := 0, imm := 7 }) ∧
    decodeTableWord 32 0xD1900008 = some (.call { g := 2, imm := 8 }) ∧
    decodeTableWord 32 0xD2180000 = some (.ret { g := 3, a := 0, imm := 0 }) ∧
    decodeTableWord 32 0xD281E304 = some (.loop { g := 0, a := 15, imm := 772 }) ∧
    decodeTableWord 32 0xD3000040 = some (.lmark { g := 0, imm := 64 }) ∧
    decodeTableWord 32 0xD3A80000 = some (.taskend { g := 5, imm := 0 }) ∧
    decodeTableWord 32 0xD4100000 = some (.yield { g := 2, imm := 0 }) ∧
    decodeTableWord 64 0x80000108100B0000 = some (.movl { d := 11, a := 0, g := 0, sub := 0, imm := 2147483912 }) ∧
    decodeTableWord 64 0x00000002104B0040 = some (.movh { d := 11, a := 0, g := 1, sub := 0, imm := 2 }) ∧
    decodeTableWord 64 0x00009000108E0480 = some (.addl { d := 14, a := 1, g := 2, sub := 0, imm := 36864 }) ∧
    decodeTableWord 64 0x00000FFF10C61CC0 = some (.ldt { d := 6, a := 7, g := 3, sub := 0, imm := 4095 }) ∧
    decodeTableWord 64 0x0032032111000281 = some (.mbr { d := 0, a := 0, g := 10, sub := 1, imm := 3277601 }) ∧
    decodeTableWord 64 0x00000012114C0000 = some (.mfsr { d := 12, a := 0, g := 0, sub := 0, imm := 18 }) ∧
    decodeTableWord 64 0x0000000611804540 = some (.mtsr { d := 0, a := 17, g := 5, sub := 0, imm := 6 }) ∧
    decodeTableWord 64 0x0000FFFF11C00180 = some (.trap { d := 0, a := 0, g := 6, sub := 0, imm := 65535 }) ∧
    decodeTableWord 64 0x00000000120001C0 = some (.eret { d := 0, a := 0, g := 7, sub := 0, imm := 0 }) ∧
    decodeTableWord 64 0x0000000012400200 = some (.ckpt { d := 0, a := 0, g := 8, sub := 0, imm := 0 }) ∧
    decodeTableWord 64 0x0000000012802640 = some (.digest { d := 0, a := 9, g := 9, sub := 0, imm := 0 }) ∧
    decodeTableWord 64 0x0000000212C60040 = some (.grow { d := 6, a := 0, g := 1, sub := 0, imm := 2 }) ∧
    decodeTableWord 64 0x0000000813060041 = some (.shrink { d := 6, a := 0, g := 1, sub := 1, imm := 8 }) ∧
    decodeTableWord 64 0x0000000513461C00 = some (.arm { d := 6, a := 7, g := 0, sub := 0, imm := 5 }) ∧
    decodeTableWord 64 0x000000FF13860000 = some (.disarm { d := 6, a := 0, g := 0, sub := 0, imm := 255 }) ∧
    decodeTableWord 64 0x0000000313C02401 = some (.condw { d := 0, a := 9, g := 0, sub := 1, imm := 3 }) ∧
    decodeTableWord 64 0x00000000140003C0 = some (.tret { d := 0, a := 0, g := 15, sub := 0, imm := 0 }) ∧
    decodeTableWord 64 0xFFFFFFF014420000 = some (.dstart { d := 2, a := 0, g := 0, sub := 0, imm := 4294967280 }) ∧
    decodeTableWord 64 0x00000000148000C0 = some (.dstop { d := 0, a := 0, g := 3, sub := 0, imm := 0 }) ∧
    decodeTableWord 64 0x8000000014C21C01 = some (.genset { d := 2, a := 7, g := 0, sub := 1, imm := 2147483648 }) ∧
    decodeTableWord 64 0x0000000215061C00 = some (.selftest { d := 6, a := 7, g := 0, sub := 0, imm := 2 }) := by decide

/-- R293 to R299 and R306 to R314: one word of each instruction of the family decodes to it. -/
theorem test_decode_vector1 :
    decodeTableWord 64 0x006010012010044C = some (.vadd { vd := 0, w := true, g := 1, km := 1, ha := true, hb := false, hc := false, a := 1, b := 513, c := 0, rnd := 1 }) ∧
    decodeTableWord 64 0x00A02002202BE892 = some (.vsub { vd := 381, w := false, g := 2, km := 2, ha := false, hb := true, hc := false, a := 2, b := 514, c := 0, rnd := 2 }) ∧
    decodeTableWord 64 0x00E03003203BE0DC = some (.vmul { vd := 380, w := false, g := 3, km := 3, ha := true, hb := false, hc := false, a := 3, b := 515, c := 0, rnd := 3 }) ∧
    decodeTableWord 64 0x013FFCFC204BD921 = some (.vfma { vd := 379, w := false, g := 4, km := 4, ha := false, hb := false, hc := true, a := 4, b := 1023, c := 831, rnd := 0 }) ∧
    decodeTableWord 64 0x017FFCFD205BD169 = some (.vfms { vd := 378, w := false, g := 5, km := 5, ha := false, hb := false, hc := true, a := 5, b := 1023, c := 831, rnd := 1 }) ∧
    decodeTableWord 64 0x01BFFCFE206BC9B1 = some (.vfnma { vd := 377, w := false, g := 6, km := 6, ha := false, hb := false, hc := true, a := 6, b := 1023, c := 831, rnd := 2 }) ∧
    decodeTableWord 64 0x01E07000207BC1FC = some (.vmin { vd := 376, w := false, g := 7, km := 7, ha := true, hb := false, hc := false, a := 7, b := 519, c := 0, rnd := 0 }) ∧
    decodeTableWord 64 0x02208000208BBA02 = some (.vmax { vd := 375, w := false, g := 8, km := 0, ha := false, hb := true, hc := false, a := 8, b := 520, c := 0, rnd := 0 }) ∧
    decodeTableWord 64 0xC2400000209BB24C = some (.vabs { vd := 374, w := false, g := 9, km := 1, ha := true, hb := false, hc := false, a := 777, b := 0, c := 0, rnd := 0 }) ∧
    decodeTableWord 64 0xC280000020ABAA90 = some (.vneg { vd := 373, w := false, g := 10, km := 2, ha := false, hb := false, hc := false, a := 778, b := 0, c := 0, rnd := 0 }) ∧
    decodeTableWord 64 0x02E0B00020BBA2DC = some (.vand { vd := 372, w := false, g := 11, km := 3, ha := true, hb := false, hc := false, a := 11, b := 523, c := 0, rnd := 0 }) ∧
    decodeTableWord 64 0x0320C00020CB9B22 = some (.vor { vd := 371, w := false, g := 12, km := 4, ha := false, hb := true, hc := false, a := 12, b := 524, c := 0, rnd := 0 }) ∧
    decodeTableWord 64 0x0360D00020DB936C = some (.vxor { vd := 370, w := false, g := 13, km := 5, ha := true, hb := false, hc := false, a := 13, b := 525, c := 0, rnd := 0 }) ∧
    decodeTableWord 64 0x03A0E00020EB8BB2 = some (.vshl { vd := 369, w := false, g := 14, km := 6, ha := false, hb := true, hc := false, a := 14, b := 526, c := 0, rnd := 0 }) ∧
    decodeTableWord 64 0x03E0F00020FB83FC = some (.vshr { vd := 368, w := false, g := 15, km := 7, ha := true, hb := false, hc := false, a := 15, b := 527, c := 0, rnd := 0 }) ∧
    decodeTableWord 64 0x04200000210B7802 = some (.vsar { vd := 367, w := false, g := 0, km := 0, ha := false, hb := true, hc := false, a := 16, b := 512, c := 0, rnd := 0 }) ∧
    decodeTableWord 64 0x0040201C21102848 = some (.vcmp { vd := 5, w := false, g := 1, km := 1, ha := false, hb := false, hc := false, a := 1, b := 2, c := 7, rnd := 0 }) ∧
    decodeTableWord 64 0x04A02000212B6892 = some (.vsel { vd := 365, w := false, g := 2, km := 2, ha := false, hb := true, hc := false, a := 18, b := 514, c := 0, rnd := 0 }) ∧
    decodeTableWord 64 0xC4C00000213B60DC = some (.vmov { vd := 364, w := false, g := 3, km := 3, ha := true, hb := false, hc := false, a := 787, b := 0, c := 0, rnd := 0 }) ∧
    decodeTableWord 64 0xC5000000214B5920 = some (.vbcast { vd := 363, w := false, g := 4, km := 4, ha := false, hb := false, hc := false, a := 788, b := 0, c := 0, rnd := 0 }) ∧
    decodeTableWord 64 0x00000000215B5168 = some (.viota { vd := 362, w := false, g := 5, km := 5, ha := false, hb := false, hc := false, a := 0, b := 0, c := 0, rnd := 0 }) ∧
    decodeTableWord 64 0x05A06000216B49B2 = some (.vperm { vd := 361, w := false, g := 6, km := 6, ha := false, hb := true, hc := false, a := 22, b := 518, c := 0, rnd := 0 }) ∧
    decodeTableWord 64 0x05F17000217B41F8 = some (.vslide { vd := 360, w := false, g := 7, km := 7, ha := false, hb := false, hc := false, a := 23, b := 791, c := 0, rnd := 0 }) := by decide

/-- R293 to R299 and R306 to R314: one word of each instruction of the family decodes to it. -/
theorem test_decode_vector2 :
    decodeTableWord 64 0x5FC00030218B3A00 = some (.vcvt { vd := 359, w := false, g := 8, km := 0, ha := false, hb := false, hc := false, a := 383, b := 0, c := 12, rnd := 0 }) ∧
    decodeTableWord 64 0x05000001219B3240 = some (.vqnt { vd := 358, w := false, g := 9, km := 0, ha := false, hb := false, hc := false, a := 20, b := 0, c := 0, rnd := 1 }) ∧
    decodeTableWord 64 0x0501600021AB2A80 = some (.vdqnt { vd := 357, w := false, g := 10, km := 0, ha := false, hb := false, hc := false, a := 20, b := 22, c := 0, rnd := 0 }) ∧
    decodeTableWord 64 0x06E0B00321BB22DC = some (.vscl { vd := 356, w := false, g := 11, km := 3, ha := true, hb := false, hc := false, a := 27, b := 523, c := 0, rnd := 3 }) ∧
    decodeTableWord 64 0xC700000021CB1B20 = some (.vrcp { vd := 355, w := false, g := 12, km := 4, ha := false, hb := false, hc := false, a := 796, b := 0, c := 0, rnd := 0 }) ∧
    decodeTableWord 64 0xC740000021DB136C = some (.vrsq { vd := 354, w := false, g := 13, km := 5, ha := true, hb := false, hc := false, a := 797, b := 0, c := 0, rnd := 0 }) ∧
    decodeTableWord 64 0xC780000021EB0BB0 = some (.vexp2 { vd := 353, w := false, g := 14, km := 6, ha := false, hb := false, hc := false, a := 798, b := 0, c := 0, rnd := 0 }) ∧
    decodeTableWord 64 0xC7C0000021FB03FC = some (.vlog2 { vd := 352, w := false, g := 15, km := 7, ha := true, hb := false, hc := false, a := 799, b := 0, c := 0, rnd := 0 }) ∧
    decodeTableWord 64 0xC8000000220AF800 = some (.vrsum { vd := 351, w := false, g := 0, km := 0, ha := false, hb := false, hc := false, a := 800, b := 0, c := 0, rnd := 0 }) ∧
    decodeTableWord 64 0xC8400000221AF04C = some (.vrmax { vd := 350, w := false, g := 1, km := 1, ha := true, hb := false, hc := false, a := 801, b := 0, c := 0, rnd := 0 }) ∧
    decodeTableWord 64 0xC8800000222AE890 = some (.vrmin { vd := 349, w := false, g := 2, km := 2, ha := false, hb := false, hc := false, a := 802, b := 0, c := 0, rnd := 0 }) ∧
    decodeTableWord 64 0xC8C00003223AE0DC = some (.vscan { vd := 348, w := false, g := 3, km := 3, ha := true, hb := false, hc := false, a := 803, b := 0, c := 0, rnd := 3 }) ∧
    decodeTableWord 64 0x05309000224AD920 = some (.vsort { vd := 347, w := false, g := 4, km := 4, ha := false, hb := false, hc := false, a := 20, b := 777, c := 0, rnd := 0 }) ∧
    decodeTableWord 64 0x05309C28225AD168 = some (.vtopk { vd := 346, w := false, g := 5, km := 5, ha := false, hb := false, hc := false, a := 20, b := 777, c := 778, rnd := 0 }) ∧
    decodeTableWord 64 0x0A02CC24226AC980 = some (.vmergek { vd := 345, w := false, g := 6, km := 0, ha := false, hb := false, hc := false, a := 40, b := 44, c := 777, rnd := 0 }) ∧
    decodeTableWord 64 0x05309C28227AC1F8 = some (.vcomp { vd := 344, w := false, g := 7, km := 7, ha := false, hb := false, hc := false, a := 20, b := 777, c := 778, rnd := 0 }) ∧
    decodeTableWord 64 0xCA000000228ABA00 = some (.vpopc { vd := 343, w := false, g := 8, km := 0, ha := false, hb := false, hc := false, a := 808, b := 0, c := 0, rnd := 0 }) ∧
    decodeTableWord 64 0x0A729000229AB248 = some (.vmovs { vd := 342, w := false, g := 9, km := 1, ha := false, hb := false, hc := false, a := 41, b := 809, c := 0, rnd := 0 }) ∧
    decodeTableWord 64 0x0AA0A00022AAAA92 = some (.vhash { vd := 341, w := false, g := 10, km := 2, ha := false, hb := true, hc := false, a := 42, b := 522, c := 0, rnd := 0 }) ∧
    decodeTableWord 64 0xC1B0702822BAA2D8 = some (.vgen { vd := 340, w := false, g := 11, km := 3, ha := false, hb := false, hc := false, a := 774, b := 775, c := 10, rnd := 0 }) ∧
    decodeTableWord 64 0xCB00000022CA9B20 = some (.vclass { vd := 339, w := false, g := 12, km := 4, ha := false, hb := false, hc := false, a := 812, b := 0, c := 0, rnd := 0 }) ∧
    decodeTableWord 64 0xCB40000122DA936C = some (.vrnd { vd := 338, w := false, g := 13, km := 5, ha := true, hb := false, hc := false, a := 813, b := 0, c := 0, rnd := 1 }) ∧
    decodeTableWord 64 0x0240003422EA8B80 = some (.vtag { vd := 337, w := false, g := 14, km := 0, ha := false, hb := false, hc := false, a := 9, b := 0, c := 13, rnd := 0 }) := by decide

/-- R293 to R299 and R306 to R314: one word of each instruction of the family decodes to it. -/
theorem test_decode_matrix :
    decodeTableWord 64 0x0400000030003C00 = some (.mldw { np := 0, acc := 0, plane := 1, mode := 7, g := 0, sn := 0, line := 1024, useGen := false, gen := 0, t := false, rows := 0, rsv := 0 }) ∧
    decodeTableWord 64 0x0000000030404040 = some (.mflip { np := 0, acc := 0, plane := 2, mode := 0, g := 1, sn := 0, line := 0, useGen := false, gen := 0, t := false, rows := 0, rsv := 0 }) ∧
    decodeTableWord 64 0x0400020030853480 = some (.mmul { np := 1, acc := 2, plane := 1, mode := 5, g := 2, sn := 0, line := 1024, useGen := false, gen := 0, t := false, rows := 64, rsv := 0 }) ∧
    decodeTableWord 64 0x0000A80030CC0C0B = some (.mmulz { np := 3, acc := 0, plane := 0, mode := 3, g := 0, sn := 11, line := 0, useGen := true, gen := 2, t := true, rows := 0, rsv := 0 }) ∧
    decodeTableWord 64 0x000000003100000C = some (.mbnd { np := 0, acc := 0, plane := 0, mode := 0, g := 0, sn := 12, line := 0, useGen := false, gen := 0, t := false, rows := 0, rsv := 0 }) ∧
    decodeTableWord 64 0x0300008031449409 = some (.mepi { np := 1, acc := 1, plane := 0, mode := 5, g := 0, sn := 9, line := 768, useGen := false, gen := 0, t := false, rows := 16, rsv := 0 }) ∧
    decodeTableWord 64 0x0032006031808000 = some (.mrda { np := 0, acc := 1, plane := 0, mode := 0, g := 0, sn := 0, line := 50, useGen := false, gen := 0, t := false, rows := 12, rsv := 0 }) ∧
    decodeTableWord 64 0x017F000031C09C03 = some (.mwra { np := 0, acc := 1, plane := 0, mode := 7, g := 0, sn := 3, line := 383, useGen := false, gen := 0, t := false, rows := 0, rsv := 0 }) ∧
    decodeTableWord 64 0x0000000032018400 = some (.mzero { np := 0, acc := 3, plane := 0, mode := 1, g := 0, sn := 0, line := 0, useGen := false, gen := 0, t := false, rows := 0, rsv := 0 }) ∧
    decodeTableWord 64 0x00000400325B83C0 = some (.mred { np := 6, acc := 7, plane := 0, mode := 0, g := 15, sn := 0, line := 0, useGen := false, gen := 0, t := false, rows := 128, rsv := 0 }) := by decide

/-- R293 to R299 and R306 to R314: one word of each instruction of the family decodes to it. -/
theorem test_decode_copy :
    decodeTableWord 64 0xAC00A00040028000 = some (.ld { data := 20, sa := 0, cb := 0, g := 0, fmt := 10, hint := 3, scope := 0, sb := 0, imm := 40960 }) ∧
    decodeTableWord 64 0xC000020040402001 = some (.st { data := 1, sa := 0, cb := 0, g := 1, fmt := 12, hint := 0, scope := 0, sb := 0, imm := 512 }) ∧
    decodeTableWord 64 0x1000100040818000 = some (.ldv { data := 12, sa := 0, cb := 0, g := 0, fmt := 1, hint := 0, scope := 0, sb := 0, imm := 4096 }) ∧
    decodeTableWord 64 0xD001FFFF40EFE68C = some (.stv { data := 383, sa := 13, cb := 0, g := 12, fmt := 13, hint := 0, scope := 0, sb := 0, imm := 131071 }) ∧
    decodeTableWord 64 0xB000004041050400 = some (.gath { data := 40, sa := 8, cb := 0, g := 0, fmt := 11, hint := 0, scope := 0, sb := 0, imm := 64 }) ∧
    decodeTableWord 64 0x1001FFC041450400 = some (.scat { data := 40, sa := 8, cb := 0, g := 0, fmt := 1, hint := 0, scope := 0, sb := 0, imm := 131008 }) ∧
    decodeTableWord 64 0x0400010041806020 = some (.cpy { data := 3, sa := 0, cb := 2, g := 0, fmt := 0, hint := 1, scope := 0, sb := 0, imm := 256 }) ∧
    decodeTableWord 64 0x0000000041C00073 = some (.cpyw { data := 0, sa := 0, cb := 7, g := 3, fmt := 0, hint := 0, scope := 0, sb := 0, imm := 0 }) ∧
    decodeTableWord 64 0x001A080042014630 = some (.mcast { data := 10, sa := 12, cb := 3, g := 0, fmt := 0, hint := 0, scope := 0, sb := 13, imm := 2048 }) ∧
    decodeTableWord 64 0x000E10004240C000 = some (.pin { data := 6, sa := 0, cb := 0, g := 0, fmt := 0, hint := 0, scope := 0, sb := 7, imm := 4096 }) ∧
    decodeTableWord 64 0x000E100042800000 = some (.unpin { data := 0, sa := 0, cb := 0, g := 0, fmt := 0, hint := 0, scope := 0, sb := 7, imm := 4096 }) ∧
    decodeTableWord 64 0xAA12000842C0E410 = some (.atom { data := 7, sa := 8, cb := 1, g := 0, fmt := 10, hint := 2, scope := 4, sb := 9, imm := 8 }) ∧
    decodeTableWord 64 0x118020004300E410 = some (.flagw { data := 7, sa := 8, cb := 1, g := 0, fmt := 1, hint := 0, scope := 3, sb := 0, imm := 8192 }) ∧
    decodeTableWord 64 0x100020004340E000 = some (.flagr { data := 7, sa := 0, cb := 0, g := 0, fmt := 1, hint := 0, scope := 0, sb := 0, imm := 8192 }) ∧
    decodeTableWord 64 0x1180000043800000 = some (.fence { data := 0, sa := 0, cb := 0, g := 0, fmt := 1, hint := 0, scope := 3, sb := 0, imm := 0 }) ∧
    decodeTableWord 64 0x0192000043C0E440 = some (.barr { data := 7, sa := 8, cb := 4, g := 0, fmt := 0, hint := 0, scope := 3, sb := 9, imm := 0 }) ∧
    decodeTableWord 64 0x0180000044000410 = some (.msend { data := 0, sa := 8, cb := 1, g := 0, fmt := 0, hint := 0, scope := 3, sb := 0, imm := 0 }) ∧
    decodeTableWord 64 0x0212000044486410 = some (.lsend { data := 67, sa := 8, cb := 1, g := 0, fmt := 0, hint := 0, scope := 4, sb := 9, imm := 0 }) ∧
    decodeTableWord 64 0x0212000044886410 = some (.lrecv { data := 67, sa := 8, cb := 1, g := 0, fmt := 0, hint := 0, scope := 4, sb := 9, imm := 0 }) ∧
    decodeTableWord 64 0x1212000044C86410 = some (.lradd { data := 67, sa := 8, cb := 1, g := 0, fmt := 1, hint := 0, scope := 4, sb := 9, imm := 0 }) ∧
    decodeTableWord 64 0x0180000045000420 = some (.subs { data := 0, sa := 8, cb := 2, g := 0, fmt := 0, hint := 0, scope := 3, sb := 0, imm := 0 }) ∧
    decodeTableWord 64 0x0000000045410000 = some (.slotdn { data := 8, sa := 0, cb := 0, g := 0, fmt := 0, hint := 0, scope := 0, sb := 0, imm := 0 }) ∧
    decodeTableWord 64 0x0000000045800450 = some (.bdred { data := 0, sa := 8, cb := 5, g := 0, fmt := 0, hint := 0, scope := 0, sb := 0, imm := 0 }) ∧
    decodeTableWord 64 0x0180000045C00430 = some (.bdtopk { data := 0, sa := 8, cb := 3, g := 0, fmt := 0, hint := 0, scope := 3, sb := 0, imm := 0 }) ∧
    decodeTableWord 64 0x0200000046000420 = some (.xroute { data := 0, sa := 8, cb := 2, g := 0, fmt := 0, hint := 0, scope := 4, sb := 0, imm := 0 }) ∧
    decodeTableWord 64 0x000000004640C410 = some (.gpost { data := 6, sa := 8, cb := 1, g := 0, fmt := 0, hint := 0, scope := 0, sb := 0, imm := 0 }) ∧
    decodeTableWord 64 0x0800008046800400 = some (.pref { data := 0, sa := 8, cb := 0, g := 0, fmt := 0, hint := 2, scope := 0, sb := 0, imm := 128 }) ∧
    decodeTableWord 64 0x0012008046C00460 = some (.wbl { data := 0, sa := 8, cb := 6, g := 0, fmt := 0, hint := 0, scope := 0, sb := 9, imm := 128 }) ∧
    decodeTableWord 64 0x0013FF8047000460 = some (.invl { data := 0, sa := 8, cb := 6, g := 0, fmt := 0, hint := 0, scope := 0, sb := 9, imm := 130944 }) := by decide

/-- Words that the spec prints with their source lines (20 to 22, 02, 04, 10): each decodes to what it stands for. -/
theorem test_decode_spec_examples :
    decodeTableWord 32 0x818928B2 = some (.div { d := 9, a := 10, b := 11, g := 2 }) ∧
    decodeTableWord 32 0x88061BFF = some (.addi { d := 6, a := 6, imm := 1023 }) ∧
    decodeTableWord 32 0x890C2C03 = some (.shli { d := 12, a := 11, imm := 3 }) ∧
    decodeTableWord 32 0x89C70040 = some (.movi { d := 7, a := 0, imm := 64 }) ∧
    decodeTableWord 32 0xD04FFFFB = some (.br { g := 9, imm := 524283 }) ∧
    decodeTableWord 32 0xD0810004 = some (.bri { g := 0, a := 8, imm := 4 }) ∧
    decodeTableWord 32 0xD1000003 = some (.brb { g := 0, a := 0, imm := 3 }) ∧
    decodeTableWord 32 0x85061C83 = some (.sel { d := 6, a := 7, b := 8, g := 3 }) ∧
    decodeTableWord 32 0x85821870 = some (.cmp { d := 2, a := 6, b := 7, g := 0 }) ∧
    decodeTableWord 32 0x87022400 = some (.setp { d := 2, a := 9, b := 0, g := 0 }) ∧
    decodeTableWord 64 0x0002032191000000 = some (.mbr { d := 0, a := 0, g := 0, sub := 0, imm := 0x20321 }) ∧
    decodeTableWord 64 0x0000000393C02401 = some (.condw { d := 0, a := 9, g := 0, sub := 1, imm := 3 }) ∧
    decodeTableWord 64 0x05309C28A2514000 = some (.vtopk { vd := 40, w := false, g := 0, km := 0, ha := false, hb := false, hc := false, a := 20, b := 0x309, c := 0x30A, rnd := 0 }) ∧
    decodeTableWord 64 0x03000080B1449409 = some (.mepi { np := 1, acc := 1, plane := 0, mode := 5, g := 0, sn := 9, line := 0x300, useGen := false, gen := 0, t := false, rows := 16, rsv := 0 }) ∧
    decodeTableWord 64 0x0000A800B0000C00 = some (.mldw { np := 0, acc := 0, plane := 0, mode := 3, g := 0, sn := 0, line := 0, useGen := true, gen := 2, t := true, rows := 0, rsv := 0 }) ∧
    decodeTableWord 64 0x001A0010C2014630 = some (.mcast { data := 10, sa := 12, cb := 3, g := 0, fmt := 0, hint := 0, scope := 0, sb := 13, imm := 16 }) ∧
    decodeTableWord 64 0x12120000C4C86410 = some (.lradd { data := 67, sa := 8, cb := 1, g := 0, fmt := 1, hint := 0, scope := 4, sb := 9, imm := 0 }) := by decide

/-! ### Well-formed terms and, for each check, a term it refuses -/

/-- A register operation with sb 0. -/
def so : SOp := { d := 1, a := 2, b := 0, g := 0 }
/-- An immediate operation. -/
def si : SImm := { d := 1, a := 0, imm := 5 }
/-- An L instruction with imm 0. -/
def li : LImm := { g := 0, imm := 0 }
/-- An L instruction of the sa layout with imm 0. -/
def lr : LReg := { g := 0, a := 0, imm := 0 }
/-- An X instruction with every field 0. -/
def xo : XOp := { d := 0, a := 0, g := 0, sub := 0, imm := 0 }
/-- A V instruction with every field 0. -/
def vo : VOp := { vd := 0, w := false, g := 0, km := 0, ha := false, hb := false, hc := false, a := 0, b := 0, c := 0, rnd := 0 }
/-- An M instruction with every field 0. -/
def mo : MOp := { np := 0, acc := 0, plane := 0, mode := 0, g := 0, sn := 0, line := 0, useGen := false, gen := 0, t := false, rows := 0, rsv := 0 }
/-- A C instruction with every field 0. -/
def co : COp := { data := 0, sa := 0, cb := 0, g := 0, fmt := 0, hint := 0, scope := 0, sb := 0, imm := 0 }

/-- R303: instructions with legal fields pass. -/
theorem test_well_formed :
    ([.nop, .add so, .clz so, .cmp { so with g := 5 }, .pand so, .movp so, .setp so, .shli { si with imm := 63 }, .movi si,
      .cmpeqi { si with d := 15 }, .brb { lr with imm := 7 }, .ret lr, .loop { lr with imm := 0x8FF }, .lmark { li with imm := 64 },
      .taskend li, .movl xo, .addl { xo with a := 3 }, .ldt { xo with imm := 4095 }, .mbr { xo with g := 10, sub := 1 },
      .mfsr { xo with imm := 0x1B, a := 3 }, .mtsr { xo with imm := 0x22 }, .trap { xo with imm := 0xFFFF }, .eret xo,
      .digest { xo with a := 1 }, .grow { xo with imm := 12 }, .shrink { xo with sub := 1, imm := 8 }, .arm { xo with imm := 255 },
      .disarm xo, .condw { xo with sub := 3, imm := 15 }, .dstart { xo with d := 7 }, .genset { xo with d := 7, sub := 8 },
      .selftest { xo with imm := 2 }, .vadd { vo with rnd := 3 }, .vfma { vo with rnd := 3 }, .vand vo, .vmov vo,
      .vcmp { vo with c := 7, vd := 7 }, .viota vo, .vslide { vo with b := 0x33F }, .vcvt { vo with c := 12 }, .vqnt vo, .vdqnt vo,
      .vsort { vo with b := 0x300 }, .vtopk { vo with b := 0x300, c := 0x300 }, .vmergek { vo with c := 0x300 },
      .vgen { vo with a := 0x300, b := 0x300, c := 15 }, .vtag { vo with c := 13 }, .mldw { mo with mode := 4 }, .mflip { mo with plane := 2 },
      .mmul { mo with np := 6, plane := 2, rows := 128 }, .mbnd { mo with rows := 128 }, .mepi { mo with np := 6, mode := 4, rows := 1 },
      .mrda { mo with line := 511, rows := 127 }, .mzero { mo with mode := 1 }, .mred { mo with np := 1, rows := 128 },
      .ld { co with fmt := 12, data := 63 }, .ldv { co with fmt := 13 }, .cpy { co with data := 3 }, .cpyw co,
      .mcast { co with imm := 2048 }, .pin co, .unpin co, .atom { co with fmt := 10, scope := 4 }, .flagw { co with fmt := 1 },
      .fence { co with fmt := 3 }, .barr co, .msend { co with scope := 3 }, .lsend { co with data := 23, scope := 4 },
      .lradd { co with fmt := 2, scope := 4 }, .subs co, .slotdn { co with data := 15 }, .bdred co, .bdtopk { co with scope := 3 },
      .xroute { co with scope := 4 }, .gpost co, .pref co, .wbl co] : List Instr).all fieldsOk = true := by decide

/-- R293, R295, R303, R307, R318, R327: S and L forms with one illegal field each are refused. -/
theorem test_ill_formed_scalar :
    ([.clz { so with b := 1 }, .popc { so with b := 1 }, .mov { so with b := 1 }, .cmp { so with d := 16 }, .cmp { so with g := 6 },
      .pand { so with d := 16 }, .por { so with a := 16 }, .pxor { so with b := 16 }, .pandn { so with b := 63 }, .movp { so with b := 1 },
      .movp { so with d := 16 }, .movp { so with a := 16 }, .setp { so with b := 1 }, .setp { so with d := 16 },
      .shli { si with imm := 64 }, .shri { si with imm := 64 }, .sari { si with imm := 1023 }, .movi { si with a := 1 },
      .cmpeqi { si with d := 16 }, .cmplti { si with d := 16 }, .cmplei { si with d := 16 }, .cmpltni { si with d := 16 },
      .brb { lr with a := 1 }, .brb { lr with imm := 8 }, .ret { lr with a := 1 }, .ret { lr with imm := 1 },
      .loop { lr with imm := 1 }, .loop { lr with imm := 0x901 }, .loop { lr with imm := 0x100 }, .lmark li, .lmark { li with imm := 65 },
      .taskend { li with imm := 1 }, .yield { li with imm := 1 }] : List Instr).all (fun i => !fieldsOk i) = true := by decide

/-- R294, R302, R303, R316 and the entries of the X instructions: one illegal field each is refused. -/
theorem test_ill_formed_system :
    ([.movl { xo with a := 1 }, .movh { xo with sub := 1 }, .addl { xo with sub := 1 }, .ldt { xo with imm := 4096 }, .ldt { xo with sub := 1 },
      .mbr { xo with d := 1 }, .mbr { xo with a := 1 }, .mbr { xo with sub := 2 }, .mbr { xo with imm := 0x400000 }, .mbr { xo with g := 11 },
      .mfsr { xo with sub := 1 }, .mfsr { xo with imm := 256 }, .mfsr { xo with imm := 0x15 }, .mfsr { xo with a := 1 },
      .mtsr { xo with d := 1 }, .mtsr { xo with imm := 0x1D }, .mtsr { xo with imm := 0x23 }, .trap { xo with d := 1 }, .trap { xo with a := 1 },
      .trap { xo with sub := 1 }, .trap { xo with imm := 0x10000 }, .eret { xo with imm := 1 }, .ckpt { xo with d := 1 }, .tret { xo with a := 1 },
      .dstop { xo with sub := 1 }, .digest { xo with d := 1 }, .digest { xo with imm := 1 }, .grow xo, .grow { xo with imm := 13 },
      .grow { xo with sub := 2, imm := 1 }, .shrink { xo with sub := 1, imm := 9 }, .grow { xo with a := 1, imm := 1 }, .arm { xo with imm := 256 },
      .arm { xo with sub := 1 }, .disarm { xo with a := 1 }, .disarm { xo with imm := 256 }, .condw { xo with d := 1 }, .condw { xo with imm := 16 },
      .condw { xo with sub := 4 }, .dstart { xo with d := 8 }, .dstart { xo with a := 1 }, .genset { xo with d := 8 }, .genset { xo with sub := 9 },
      .selftest { xo with imm := 3 }, .selftest { xo with sub := 1 }] : List Instr).all (fun i => !fieldsOk i) = true := by decide

/-- R20, R296, R297, R311 and the entries of the V instructions: one illegal field each is refused. -/
theorem test_ill_formed_vector :
    ([.vadd { vo with a := 0x210 }, .vadd { vo with b := 0x340 }, .vadd { vo with c := 1 }, .vadd { vo with hc := true },
      .vadd { vo with w := true, vd := 1 }, .vmin { vo with rnd := 1 }, .vfma { vo with c := 0x2FF }, .vfma { vo with w := true, vd := 1 },
      .vmov { vo with b := 1 }, .vmov { vo with hb := true }, .vmov { vo with c := 1 }, .vmov { vo with rnd := 1 }, .vcmp { vo with c := 8 },
      .vcmp { vo with vd := 8 }, .vcmp { vo with w := true }, .vcmp { vo with rnd := 1 }, .vcmp { vo with hc := true }, .viota { vo with a := 1 },
      .viota { vo with ha := true }, .viota { vo with rnd := 1 }, .vslide vo, .vmovs { vo with b := 0x200 }, .vcvt vo, .vcvt { vo with c := 13 },
      .vcvt { vo with b := 1, c := 1 }, .vqnt { vo with a := 0x200 }, .vqnt { vo with ha := true }, .vqnt { vo with w := true }, .vqnt { vo with km := 1 },
      .vdqnt { vo with ha := true }, .vdqnt { vo with hb := true }, .vdqnt { vo with km := 1 }, .vdqnt { vo with rnd := 1 },
      .vsort vo, .vsort { vo with b := 0x300, hb := true }, .vsort { vo with b := 0x300, w := true }, .vtopk { vo with b := 0x300 },
      .vtopk { vo with b := 0x300, c := 0x300, hc := true }, .vmergek { vo with c := 0x300, km := 1 }, .vmergek { vo with a := 0x200, c := 0x300 },
      .vgen { vo with b := 0x300 }, .vgen { vo with a := 0x300, b := 0x300, ha := true }, .vgen { vo with a := 0x300, b := 0x300, c := 16 },
      .vtag { vo with c := 14 }, .vtag { vo with km := 1 }, .vtag { vo with rnd := 1 }] : List Instr).all (fun i => !fieldsOk i) = true := by decide

/-- R75, R76, R298, R303, R313 and the entries of the M instructions: one illegal field each is refused. -/
theorem test_ill_formed_matrix :
    ([.mldw { mo with np := 1 }, .mldw { mo with acc := 1 }, .mldw { mo with rows := 1 }, .mldw { mo with sn := 1 }, .mldw { mo with rsv := 1 },
      .mldw { mo with plane := 2 }, .mldw { mo with mode := 4, plane := 1 }, .mldw { mo with t := true }, .mldw { mo with useGen := true, line := 1 },
      .mflip { mo with plane := 3 }, .mflip { mo with mode := 1 }, .mflip { mo with line := 1 }, .mflip { mo with gen := 1 }, .mmul mo,
      .mmul { mo with np := 7 }, .mmul { mo with np := 1, plane := 3 }, .mmul { mo with np := 1, rows := 129 }, .mmulz { mo with np := 1, rsv := 4 },
      .mbnd { mo with np := 1 }, .mbnd { mo with acc := 1 }, .mbnd { mo with plane := 1 }, .mbnd { mo with rows := 129 }, .mepi { mo with np := 5 },
      .mepi { mo with np := 1, plane := 1 }, .mepi { mo with np := 1, mode := 4 }, .mepi { mo with np := 1, useGen := true }, .mrda { mo with np := 1 },
      .mrda { mo with line := 512 }, .mrda { mo with rows := 128 }, .mwra { mo with mode := 4, rows := 1 }, .mzero { mo with mode := 2 },
      .mzero { mo with sn := 1 }, .mred mo, .mred { mo with np := 1, mode := 1 }, .mred { mo with np := 1, line := 1 }]
      : List Instr).all (fun i => !fieldsOk i) = true := by decide

/-- R299, R303 and the entries of the C instructions: one illegal field each is refused. -/
theorem test_ill_formed_copy :
    ([.ld co, .ld { co with fmt := 13 }, .ld { co with fmt := 1, data := 64 }, .ld { co with fmt := 1, cb := 1 }, .st { co with fmt := 1, scope := 1 },
      .st { co with fmt := 1, sb := 1 }, .ldv { co with fmt := 14 }, .stv { co with fmt := 1, hint := 1 }, .gath { co with fmt := 1, cb := 1 },
      .scat { co with fmt := 1, sb := 1 }, .cpy { co with data := 4 }, .cpy { co with fmt := 1 }, .cpy { co with scope := 1 }, .cpyw { co with sa := 1 },
      .cpyw { co with imm := 1 }, .cpyw { co with data := 1 }, .mcast co, .mcast { co with imm := 2049 }, .mcast { co with imm := 1, fmt := 1 },
      .mcast { co with imm := 1, data := 64 }, .pin { co with cb := 1 }, .pin { co with data := 64 }, .unpin { co with data := 1 },
      .unpin { co with scope := 1 }, .atom { co with fmt := 11 }, .atom { co with scope := 5 }, .atom { co with data := 64 }, .flagw { co with fmt := 2 },
      .flagr { co with sb := 1 }, .flagr { co with scope := 7 }, .fence co, .fence { co with fmt := 4 }, .fence { co with fmt := 1, sa := 1 },
      .fence { co with fmt := 1, hint := 1 }, .barr { co with fmt := 1 }, .barr { co with scope := 5 }, .msend co, .msend { co with scope := 3, hint := 1 },
      .lsend { co with data := 24, scope := 4 }, .lsend { co with scope := 3 }, .lrecv { co with scope := 4, fmt := 1 }, .lradd { co with scope := 4 },
      .lradd { co with fmt := 3, scope := 4 }, .subs { co with data := 1 }, .subs { co with scope := 5 }, .slotdn { co with data := 16 },
      .slotdn { co with sa := 1 }, .bdred { co with scope := 1 }, .bdtopk co, .xroute { co with scope := 3 }, .xroute { co with scope := 4, hint := 1 },
      .gpost { co with hint := 1 }, .gpost { co with data := 64 }, .pref { co with cb := 1 }, .pref { co with sb := 1 }, .wbl { co with fmt := 1 },
      .invl { co with data := 1 }] : List Instr).all (fun i => !fieldsOk i) = true := by decide

/-- R305: words of no opcode are no instruction: class 7, a P word other than the pad word, an S op above the table, a V op of 0. -/
theorem test_unassigned :
    decodeTableWord 32 0xF0000000 = none ∧ decodeTableWord 32 0xE0000000 = none ∧ decodeTableWord 32 0x60000000 = none ∧
    decodeTableWord 32 0x87400000 = none ∧ decodeTableWord 32 0x8B000000 = none ∧ decodeTableWord 64 0xA0000000 = none ∧
    decodeTableWord 64 0xA2F00000 = none ∧ decodeTableWord 64 0x95400000 = none ∧ decodeTableWord 64 0xB2800000 = none ∧
    decodeTableWord 64 0xC7400000 = none ∧ decodeTableWord 32 0xD4800000 = none := by decide

/-! ### Small states -/

/-- A task's bank that issues bundles in user mode, with every unit and tile and every line of the window. -/
def bank : Bank := { Bank.clear with run := .active, vu := 12, at_ := 8, pins := BitVec.allOnes 65536 }
/-- A state whose running bank is the given one. -/
def at_ (b : Bank) : State := State.reset.setBank b
/-- The primary in user mode. -/
def user : State := at_ bank
/-- The primary in supervisor mode. -/
def super : State := at_ { bank with status := { bank.status with sup := true } }
/-- The primary in guarded mode. -/
def guarded : State := at_ { bank with status := { bank.status with guard := true } }
/-- A drift thread of the running bank in user mode. -/
def thr : State := { user with agent := .drift 0 }
/-- The same core with a gang of four cores whose lead has logged one bundle; the running bank is that of a member. -/
def member : State :=
  (at_ { bank with pos := 1, task := some { task := 7, launch := 1, part := 0, x := 0, y := 0, gang := some 1, member := 1, tret := false, digest := [], inUnits := [], outUnits := [], marked := [], pulled := [] } }).setHub
    { Hub.clear with gangs := [{ id := 1, cores := [4, 0, 1, 2], bank := 0, steps := [{ at_ := 0, pc := 0, guard := true, target := 64, count := 0, rows := 0, leaf := none, irq := false, pre := false }] }] }
/-- The task of a bank. -/
def bt : BankTask := { task := 7, launch := 1, part := 0, x := 0, y := 0, gang := none, member := 0, tret := false, digest := [], inUnits := [0], outUnits := [8], marked := [], pulled := [] }
/-- A state in a solo task of launch 1. -/
def solo : State := at_ { bank with task := some bt }

/-! ### The hypotheses of the statements are met: scalar and system instructions -/

/-- ScalarRegisterResults: the primary and a drift thread, with the last register of each. -/
theorem witness_scalar_register :
    (user.runs 0 ∧ user.dregsOk [63, 62, 61] = true ∧ user.destOk 63 = true) ∧
    (thr.runs 0 ∧ thr.dregsOk [31, 30, 29] = true ∧ thr.destOk 31 = true) := by
  refine ⟨⟨rfl, rfl, rfl⟩, ⟨by decide, rfl⟩, rfl, rfl⟩

/-- MoveAndImmediateResults: each clause. -/
theorem witness_move_immediate :
    user.runs 0 ∧ user.dregsOk [63, 62, 61] = true ∧ user.destOk 55 = true ∧ user.destOk 60 = true ∧
    (thr.agent = .drift 0 ∧ thr.dregsOk [31, 0, 1] = true ∧ (3 : BitVec 4).toNat < 4 ∧ 4 ≤ (4 : BitVec 4).toNat) ∧
    (user.primaryRuns 0 ∧ thr.threadRuns 0 0 ∧ ({ so with b := 1 } : SOp).b ≠ 0) ∧
    (user.core.bank.guard 0 = true ∧ user.sup? = false ∧ 56 ≤ (56 : BitVec 6).toNat ∧ (59 : BitVec 6).toNat ≤ 59) ∧
    (64 ≤ (64 : BitVec 10).toNat ∧ ({ si with a := 1 } : SImm).a ≠ 0 ∧ ({ xo with sub := 1 } : XOp).sub ≠ 0) ∧
    (user.core.bank.pend = [] ∧ 0 < 63 ∧ 63 < 64) ∧
    ((thr.core.thread 7).bank = thr.core.curBank ∧ ∀ m < 8, m ≠ 7 → (thr.core.thread m).busy = false) := by
  refine ⟨rfl, rfl, rfl, rfl, ⟨rfl, rfl, by decide, by decide⟩, ⟨⟨rfl, rfl⟩, ⟨rfl, by decide, rfl⟩, by decide⟩, ?_, ?_, ?_, ?_⟩ <;> decide

/-- MoveAndImmediateResults and UserModePrivilege: a thread's register beyond d31, each in its place, and both ends of the
supervisor's registers. -/
theorem witness_move_refused :
    (thr.agent = .drift 0 ∧ thr.dregsOk [32, 0] = false ∧ thr.dregsOk [0, 32] = false ∧ thr.dregsOk [0, 0, 32] = false ∧ thr.threadRuns 0 0 ∧
      32 ≤ (32 : BitVec 6).toNat) ∧
    (user.agent = .primary ∧ user.sup? = false ∧ user.primaryRuns 0 ∧
      ∀ d ∈ ([56, 59] : List (BitVec 6)), 56 ≤ d.toNat ∧ d.toNat ≤ 59 ∧ 56 ≤ (d.setWidth 9 : BitVec 9).toNat % 64 ∧ (d.setWidth 9 : BitVec 9).toNat % 64 ≤ 59) := by
  refine ⟨⟨rfl, rfl, rfl, rfl, ⟨rfl, by decide, rfl⟩, by decide⟩, rfl, rfl, ⟨rfl, rfl⟩, by decide⟩

/-- PredicateResults: both agents, the conditions 0 to 5, and the last predicate of each. -/
theorem witness_predicate :
    (user.runs 0 ∧ user.agent = .primary ∧ user.dregsOk [63, 62] = true ∧ user.core.bank.pend = [] ∧ 15 < 16) ∧
    (thr.runs 0 ∧ thr.dregsOk [31, 0] = true ∧ (3 : BitVec 6).toNat % 16 < 4 ∧ (3 : BitVec 6).toNat < 4) ∧
    user.core.bank.loop.active = false ∧ (at_ { bank with loop := { LoopState.off with active := true } }).core.bank.loop.active = true := by
  refine ⟨⟨rfl, rfl, rfl, rfl, by decide⟩, ⟨⟨by decide, rfl⟩, rfl, by decide, by decide⟩, rfl, rfl⟩

/-- PredicateResults: a thread's fields one past the last it may name, each in its place, and a condition of 6. -/
theorem witness_predicate_refused :
    (thr.agent = .drift 0 ∧ thr.threadRuns 0 0 ∧ thr.dregsOk [32, 0] = false ∧ thr.dregsOk [0, 32] = false) ∧
    (4 ≤ ({ so with d := 4 } : SOp).d.toNat % 16 ∧ 4 ≤ (4 : BitVec 6).toNat ∧ 4 ≤ (4 : BitVec 4).toNat ∧ 6 ≤ ({ so with g := 6 } : SOp).g.toNat) ∧
    user.agent = .primary ∧ (thr.core.thread 0).bank = thr.core.curBank ∧ ∀ m < 8, m ≠ 0 → (thr.core.thread m).busy = false := by
  refine ⟨⟨rfl, ⟨rfl, by decide, rfl⟩, rfl, rfl⟩, by decide, rfl, rfl, by decide⟩

/-- GuardsAndIllegalFields: instructions outside the list of R31 in drift code, the first with a guard that may be false. -/
theorem witness_drift_refused :
    ([.pin { co with g := 1 }, .ldv co, .vadd vo, .brb lr, .yield li] : List Instr).all (fun i => !driftMay i && (encode i).isSome) = true ∧
    thr.agent = .drift 0 := by decide

/-- GuardsAndIllegalFields: a false guard, and an illegal field with each guard. -/
theorem witness_guards :
    (encode (.add { so with g := 1 }) ≠ none ∧ user.core.bank.guard (guardOf (.add { so with g := 1 })) = false ∧
      classOf ((encode (.add { so with g := 1 })).getD []).headI ≠ 5 ∧ isMbrInstr (.add so) = false) ∧
    fieldsOk (.clz { so with b := 1 }) = false ∧ user.core.bank.guard (fieldGuard (.clz { so with b := 1 })) = true ∧
    user.core.bank.guard (fieldGuard (.clz { so with b := 1, g := 1 })) = false := by decide

/-- NopEffect: words with one illegal field each. -/
theorem witness_nop :
    (classOf 0x80000401 = 0 ∧ bitsOf (0x80000401 : IWord) 22 6 = 0 ∧ bitsOf (0x80000401 : IWord) 0 10 ≠ 0) ∧
    (classOf 0x80000800 = 0 ∧ bitsOf (0x80000800 : IWord) 22 6 = 0 ∧ bitsOf (0x80000800 : IWord) 11 11 ≠ 0 ∧
      user.core.bank.guard (bitsOf (0x80000800 : IWord) 0 4) = true) ∧ user.agent = .primary ∧ thr.agent = .drift 0 := by decide

/-- Branches: the primary, the bank at a branch, and a thread. -/
theorem witness_branches :
    user.controlRuns 0 ∧ (({ bank with newBranch := some 64 } : Bank).newLoop = none ∧ bank.branch = none ∧ bank.loop.active = false) ∧
    thr.threadRuns 0 0 ∧ (31 : BitVec 6).toNat < 32 := by
  refine ⟨⟨⟨rfl, rfl⟩, rfl, rfl, rfl⟩, ⟨rfl, rfl, rfl⟩, ⟨rfl, by decide, rfl⟩, by decide⟩

/-- ControlTransferRules: a delay bundle, a kernel, and a gang's member. -/
theorem witness_control_rules :
    (at_ { bank with prevCtl := true }).core.bank.prevCtl = true ∧
    (let s := at_ { bank with loop := { LoopState.off with active := true } }
     s.agent = .primary ∧ s.core.bank.prevCtl = false ∧ s.gang = none ∧ s.core.bank.loop.active = true ∧ s.core.bank.guard 0 = true) ∧
    (∃ g d, member.agent = .primary ∧ member.core.bank.prevCtl = false ∧ member.core.bank.loop.active = false ∧
      member.gang = some g ∧ member.core.bank.pos ≠ 0 ∧ g.steps[member.core.bank.gstep]? = some d) := by
  refine ⟨rfl, ⟨rfl, rfl, rfl, rfl, rfl⟩, _, _, rfl, rfl, rfl, rfl, by decide, rfl⟩

/-- ControlTransferRules: a gang's member whose lead goes on and one whose lead does not; a bank outside a handler and
behind no branch. -/
theorem witness_gang_rules :
    member.core.bank.handler = false ∧ member.core.bank.prevBr = false ∧
    (∃ g d, member.gang = some g ∧ g.steps[member.core.bank.gstep]? = some d ∧ d.guard = true ∧ d.count ≠ 1) ∧
    ∀ guard ∈ [false, true], (let s := member.setHub { member.hub with gangs := [{ id := 1, cores := [4, 0, 1, 2], bank := 0, steps := [{ at_ := 0, pc := 0, guard := guard, target := 64, count := 1, rows := 0, leaf := none, irq := false, pre := false }] }] }
     (s.gang.bind fun g => g.steps[s.core.bank.gstep]?).map (fun d => (d.guard, d.count)) = some (guard, 1)) := by
  refine ⟨rfl, rfl, ⟨_, _, rfl, rfl, rfl, by decide⟩, by decide⟩

/-- ControlTransferRules: a gang's member whose trap frame holds its entries. -/
theorem witness_gang_trap : member.core.bank.status.guard = false ∧ member.core.bank.rimeFits = true ∧ member.core.bank.handler = false := by
  refine ⟨rfl, ?_, rfl⟩; decide +kernel

/-- MbrLeaf. -/
theorem witness_mbr : user.agent = .primary ∧ user.core.bank.prevCtl = false ∧ user.core.bank.loop.active = false ∧ user.gang = none := by
  refine ⟨rfl, rfl, rfl, rfl⟩

/-- LoopKernel: a LOOP of no iteration and of one, and an iteration boundary before the first and a later iteration. -/
theorem witness_loop :
    (user.controlRuns 0 ∧ (user.core.bank.sreg 1).toNat % 2 ^ 32 = 0) ∧
    (let s := at_ (bank.setS 1 1); s.controlRuns 0 ∧ 0 < (s.core.bank.sreg 1).toNat % 2 ^ 32) ∧
    (at_ { bank with atLoop := true }).core.bank.atLoop = true ∧
    (let b := (at_ { bank with atLoop := true, rotSize := 8, loop := { LoopState.off with iter := 1 } }).core.bank
     b.atLoop = true ∧ 0 < b.loop.iter ∧ 0 < b.rotSize ∧ b.loop.left = 0) := by
  refine ⟨⟨⟨⟨rfl, rfl⟩, rfl, rfl, rfl⟩, rfl⟩, ⟨⟨⟨rfl, rfl⟩, rfl, rfl, rfl⟩, by decide⟩, rfl, by decide⟩

/-- MarkEndYield. -/
theorem witness_mark_end_yield : user.controlRuns 0 ∧ user.core.bank.handler = false ∧ user.core.bank.prevBr = false :=
  ⟨⟨⟨rfl, rfl⟩, rfl, rfl, rfl⟩, rfl, rfl⟩

/-- SystemRegisterRead: a plain register in both agents and modes, an indexed one in supervisor mode. -/
theorem witness_mfsr :
    (user.runs 0 ∧ user.dregsOk [63, 0] = true ∧ user.destOk 63 = true ∧ sysIndexed 0x0E = false) ∧
    (thr.runs 0 ∧ thr.dregsOk [31, 0] = true ∧ thr.destOk 31 = true) ∧
    (super.runs 0 ∧ super.destOk 56 = true ∧ sysIndexed 0x1B = true ∧ super.agent = .primary ∧ super.sup? = true) := by
  refine ⟨⟨rfl, rfl, rfl, rfl⟩, ⟨⟨by decide, rfl⟩, rfl, rfl⟩, rfl, rfl, rfl, rfl, rfl⟩

/-- SystemRegisterRead: the partition of a bank without a task and of one with a task; a reserved bank and each part of another. -/
theorem witness_mfsr_indexed :
    (user.core.bank.task.map (·.part)).getD (user.hub.partOfCore user.cur) = (0 : Fin 4) ∧
    (solo.core.bank.task.map (·.part)).getD (solo.hub.partOfCore solo.cur) = (0 : Fin 4) ∧
    (∀ w, (at_ (super.core.bank.setS 1 w)).runs 0 ∧ (at_ (super.core.bank.setS 1 w)).destOk 56 = true) ∧
    ([26, 30, 31, 63, 95, 127] : List Word).map (fun w => (at_ (super.core.bank.setS 1 w)).rs 1) = [26, 30, 31, 63, 95, 127] := by
  refine ⟨rfl, rfl, fun w => ⟨rfl, rfl⟩, by decide +kernel⟩

/-- SystemRegisterWrite: user mode, and each way in which R23 refuses a ROTSZ, at its boundary. -/
theorem witness_mtsr_user :
    (user.primaryRuns 0 ∧ user.sup? = false ∧ super.sup? = true) ∧
    ((at_ { bank with loop := { LoopState.off with active := true } }).core.bank.loop.active = true ∧ 1 % 8 ≠ 0 ∧ 128 < 136) ∧
    (let s := at_ (({ bank with vu := 3 } : Bank).setS 1 104); s.core.bank.loop.active = false ∧ 32 * s.core.bank.vu < (s.rs 1).toNat % 256 ∧ (s.rs 1).toNat % 8 = 0) := by
  refine ⟨⟨⟨rfl, rfl⟩, rfl, rfl⟩, by decide, by decide⟩

/-- SystemRegisterWrite: a ROTSZ that R23 allows. -/
theorem witness_mtsr : super.primaryRuns 0 ∧ super.sup? = true ∧ super.core.bank.rotFault (super.rs 0) = none := by
  refine ⟨⟨rfl, rfl⟩, rfl, by decide⟩

/-- UserModePrivilege: both ends of the ranges. -/
theorem witness_user_mode :
    user.primaryRuns 0 ∧ user.sup? = false ∧ user.agent = .primary ∧ user.core.bank.guard 0 = true ∧
    (0x08 : BitVec 32).toNat ∈ [0x08, 0x09, 0x0A, 0x0B, 0x0C, 0x0D, 0x0F, 0x18, 0x19, 0x1A, 0x1B, 0x1C, 0x20, 0x21] ∧
    (0x21 : BitVec 32).toNat ∈ [0x1B, 0x20, 0x21] ∧ 56 ≤ (59 : BitVec 6).toNat ∧ (59 : BitVec 6).toNat ≤ 59 := by
  refine ⟨⟨rfl, rfl⟩, rfl, rfl, rfl, ?_⟩; decide

/-- TrapEntry: a frame in pinned lines, each mode in which TRAP is illegal, and a frame past the pinned lines. -/
theorem witness_trap :
    (user.primaryRuns 0 ∧ user.gang = none ∧ user.core.bank.loop.active = false ∧ user.core.bank.status.guard = false ∧
      user.core.bank.handler = false ∧ user.core.bank.rimeFits = true ∧ user.core.bank.framePinned = true) ∧
    guarded.core.bank.status.guard = true ∧ (at_ { bank with handler := true }).core.bank.handler = true ∧
    ({ bank with tfbase := 65536 - 191 } : Bank).framePinned = false ∧ ({ bank with tfbase := 65536 - 192 } : Bank).framePinned = true ∧
    ({ bank with pins := 0 } : Bank).framePinned = false := by
  refine ⟨⟨⟨rfl, rfl⟩, rfl, rfl, rfl, rfl, ?_, ?_⟩, rfl, rfl, ?_, ?_, ?_⟩ <;> decide +kernel

/-- TrapEntry: scalar results in flight at both ends of what a frame's REMAIN holds, and a result under a kernel's boundary. -/
theorem witness_trap_entries :
    let s := at_ { bank with tick := 100, atLoop := true, pend := [{ due := 101, seq := 0, eff := .s 0 77, unit := 2, flags := 0 }, { due := 164, seq := 1, eff := .s 63 78, unit := 2, flags := 0 }] }
    s.primaryRuns 0 ∧ s.gang = none ∧ s.core.bank.rimeFits = true ∧ s.core.bank.framePinned = true ∧ s.core.bank.rimeCount.1 = 2 ∧
      s.core.bank.atLoop = true ∧ (100 < 101 ∧ 164 ≤ 100 + 64 ∧ 63 < 64) := by
  refine ⟨⟨rfl, rfl⟩, rfl, ?_, ?_, ?_, rfl, by decide⟩ <;> decide +kernel

/-- A supervisor bank whose frame holds n entries, the first with the given descriptor. -/
def frame (n d : Nat) (b : Bank) : State :=
  let s := at_ { b with status := { b.status with sup := true } }
  s.setCore { s.core with store := writeBytes (writeBytes [] 0x58 (leBytes 8 n)) 0x2200 (leBytes 16 d) }

/-- EretRestores: a frame in lines not pinned, 65 entries, an entry of a reserved CLASS, scalar entries of both units, and
an entry that is FAULTED as the operation behind it is. -/
theorem witness_eret_refused :
    (frame 0 0 { bank with pins := 0 }).core.bank.framePinned = false ∧ 64 < (rimesRead (frame 65 0 bank).core.store 0).length ∧
    (let s := frame 1 (7 * 512) bank; s.core.bank.framePinned = true ∧ ∃ x ∈ rimesRead s.core.store 0, s.core.bank.rimeLegal x = false) ∧
    (∀ u ∈ [2, 4], ∃ x, rimesRead (frame 1 (5 + u * 2 ^ 27) bank).core.store 0 = [x] ∧ bank.rimeLegal x = true ∧ x.1.cls = 0 ∧ x.1.bar = false ∧
      x.1.faulted = false ∧ x.1.unit = u) ∧
    (let r : BarRes := { op := 3, dest := .reg 5, val := none }
     let q : Parked := { tick := 0, pc := 0, prevCtl := false, prevBr := false, pend := [], mreds := [], holds := [], tracked := [], planeUse := [], epiBusy := 0, streamBusy := 0, mredBusy := 0, loadBusy := 0, loop := LoopState.off, gens := bank.gens, bars := [3], rimeBase := 0, waitPc := none }
     let f := frame 1 (5 + 2 ^ 12 + 2 ^ 13 + 2 * 2 ^ 14) { bank with cbs := bank.cbs.set 2 { Barrier.clear with count := 1, results := [r] }, parked := [q] }
     let s : State := { f with ops := [{ id := 3, seq := 0, core := 0, bank := 0, cb := 2, drift := none, user := true, part := 0, hint := 0, kind := .flagr 0 5 none, done := 0, old := 0, stop := some .translation, paired := false, data := [], saved := none }] }
     s.primaryRuns 0 ∧ s.sup? = true ∧ s.core.bank.heldRes s.core.bank.heldBars = [(2, r)] ∧ s.opStuck r.op = true ∧
       ∃ x, rimesRead s.core.store 0 = [x] ∧ s.core.bank.rimeLegal x = true ∧ x.1.bar = true ∧ x.1.faulted = true) := by
  refine ⟨by decide +kernel, by decide +kernel, ⟨by decide +kernel, _, List.mem_singleton.2 rfl, by decide +kernel⟩, ?_, ⟨rfl, rfl⟩, rfl, by decide +kernel, by decide +kernel, _, rfl, by decide +kernel⟩
  intro u hu
  fin_cases hu <;> exact ⟨_, rfl, by decide +kernel⟩

/-- EretRestores: a frame of zeros, which has no entries. -/
theorem witness_eret :
    super.primaryRuns 0 ∧ super.sup? = true ∧ super.core.bank.framePinned = true ∧
    (rimesRead super.core.store 0).length ≤ 64 ∧ (∀ x ∈ rimesRead super.core.store 0, super.core.bank.rimeLegal x = true ∧ x.1.faulted = false) ∧
    ∀ id ∈ super.core.bank.heldBars, super.opStuck id = false := by
  refine ⟨⟨rfl, rfl⟩, rfl, ?_, ?_, ?_, ?_⟩ <;> decide +kernel

/-- AllotmentCheckpointGenerator: GROW within and at the limits, SHRINK to nothing and past it, CKPT in each mode,
GENSET and SELFTEST. -/
theorem witness_allotment :
    (let s := at_ { bank with vu := 11, at_ := 7 }
     s.primaryRuns 0 ∧ s.destOk 1 = true ∧ s.core.bank.vu + 1 ≤ 12 ∧ 1 ≤ 24 - s.core.bank.vu - s.core.other.vu ∧
       s.core.bank.at_ + 1 ≤ 8 ∧ 1 ≤ 8 - s.core.bank.at_ - s.core.other.at_ ∧ 12 < s.core.bank.vu + 2) ∧
    (12 ≤ user.core.bank.vu ∧ user.core.bank.rotSize ≤ 32 * (user.core.bank.vu - 12) ∧
      user.core.bank.targets false (32 * (user.core.bank.vu - 12)) = false ∧ user.core.bank.targets true (user.core.bank.at_ - 8) = false ∧ user.core.bank.at_ < 9) ∧
    (user.core.bank.status.guard = false ∧ guarded.primaryRuns 0 ∧ guarded.core.bank.status.guard = true ∧ guarded.core.bank.quiet = true) ∧
    (let s := at_ { guarded.core.bank with cbs := guarded.core.bank.cbs.set 0 { Barrier.clear with count := 1 } }
     s.primaryRuns 0 ∧ s.core.bank.status.guard = true ∧ s.core.bank.quiet = false) ∧
    (super.primaryRuns 0 ∧ super.sup? = true ∧ ((6 : Word).toNat % 8 ≠ 7 ∧ (2 : Word).toNat % 4 ≠ 3 ∧ (7 : BitVec 6).toNat < 8)) := by
  refine ⟨⟨⟨rfl, rfl⟩, ?_⟩, ?_, ⟨rfl, ⟨rfl, rfl⟩, rfl, ?_⟩, ⟨⟨rfl, rfl⟩, rfl, ?_⟩, ⟨rfl, rfl⟩, rfl, ?_⟩ <;> decide

/-- AllotmentCheckpointGenerator: what SHRINK and GENSET refuse, at the boundary. -/
theorem witness_allotment_refused :
    (at_ { bank with vu := 0 }).core.bank.vu < 1 ∧ 32 * ((at_ { bank with rotSize := 8 }).core.bank.vu - 12) < 8 ∧
    (let s := at_ { bank with pend := [{ due := 9, seq := 0, eff := .v 383 1 3 (BitVec.allOnes 2048), unit := 4, flags := 0 }] }
     1 ≤ s.core.bank.vu ∧ s.core.bank.rotSize ≤ 32 * (s.core.bank.vu - 1) ∧ s.core.bank.targets false (32 * (s.core.bank.vu - 1)) = true) ∧
    (({ xo with imm := 7 } : XOp).sub = 0 ∧ (user.rs 0 + (7 : BitVec 32).signExtend 64).toNat % 8 = 7 ∧
      ({ xo with sub := 7 } : XOp).sub = 7 ∧ (user.rs 0 + (3 : BitVec 32).signExtend 64).toNat % 4 = 3) := by decide +kernel

/-- ArmDisarmLdt: the descriptor of a tensor of one dimension, its tile 64 KiB of F32. -/
theorem witness_tensor :
    (tensorOf (leBytes 64 (1 + 2 ^ 8 + 2 ^ 64 + 2 ^ 96 + 2 ^ 128 + 2 ^ 160 + 2 ^ 192 + 2 ^ 238 + 2 ^ 240 + 2 ^ 256 + 2 ^ 272 + 2 ^ 288))) =
      some { rank := 1, fmt := 1, layout := 0, edge := 0, ext := [1, 1, 1, 1, 1], tile := [16384, 1, 1, 1, 1], ttb := 0 } := by decide +kernel

/-- ArmDisarmLdt: a block of zeros, an empty queue, and a descriptor that keeps R108 and one that breaks it. -/
theorem witness_arm :
    super.primaryRuns 0 ∧ super.sup? = true ∧ super.block (super.rs 0).toNat 64 64 = .ok (List.replicate 64 0) ∧
    super.core.hubq.length < 4 ∧ 4 ≤ (List.replicate 4 (HubReq.disarm 0)).length ∧ super.destOk 1 = true ∧
    tensorOf (List.replicate 64 0) = none := by
  refine ⟨⟨rfl, rfl⟩, rfl, by decide +kernel, ?_, ?_, ?_, ?_⟩ <;> decide

/-- TaskWords: a solo task, a gang's task, and one after its TRET. -/
theorem witness_task_words :
    (solo.primaryRuns 0 ∧ solo.core.bank.task = some bt ∧ solo.core.bank.status.guard = false ∧ solo.isRerun = false ∧
      bt.tret = false ∧ bt.gang = none) ∧
    (∃ k g, member.core.bank.task = some k ∧ k.tret = false ∧ k.gang = some g) ∧
    ((at_ { bank with task := some { bt with tret := true } }).core.bank.task = some { bt with tret := true }) := by
  refine ⟨⟨⟨rfl, rfl⟩, rfl, rfl, rfl, rfl, rfl⟩, ⟨_, _, rfl, rfl, rfl⟩, rfl⟩

/-- TaskWords: the launch of the running task, and a guarded bank of a task with room in its hold buffer. -/
theorem witness_condw :
    let s := solo.setBank { solo.core.bank with status := guarded.core.bank.status }
    s.primaryRuns 0 ∧ s.core.bank.task = some bt ∧ s.core.bank.status.guard = true ∧ s.isRerun = false ∧ s.core.bank.heldLines.length ≤ 256 := by
  refine ⟨⟨rfl, rfl⟩, rfl, rfl, rfl, by decide⟩

/-- DriftStartStop: a stopped thread, a running one, and the last thread as the agent. -/
theorem witness_drift_start :
    (user.primaryRuns 0 ∧ user.core.bank.status.guard = false ∧ (user.core.thread 7).running = false ∧ (user.core.thread 7).busy = false) ∧
    (∃ k, solo.core.bank.task = some k ∧ (solo.core.thread 7).task ≠ k.task + 1) ∧
    ((user.setCore (user.core.setThread 7 { Thread.clear with running := true })).core.thread 7).running = true ∧
    ({ user with agent := .drift 7 } : State).threadRuns 7 0 := by
  refine ⟨⟨⟨rfl, rfl⟩, rfl, rfl, rfl⟩, ⟨_, rfl, by decide⟩, rfl, rfl, by decide, rfl⟩

/-- DriftStartStop: a thread that ran before in the same task, guarded mode, and a drift thread as the agent. -/
theorem witness_drift_again :
    (let s := solo.setCore (solo.core.setThread 7 { Thread.clear with task := 8, bank := solo.core.curBank })
     s.primaryRuns 0 ∧ s.core.bank.task = some bt ∧ (s.core.thread 7).task = bt.task + 1 ∧ (s.core.thread 7).bank = s.core.curBank ∧
       (s.core.thread 7).running = false ∧ (s.core.thread 7).busy = false) ∧
    guarded.primaryRuns 0 ∧ guarded.core.bank.status.guard = true ∧ thr.agent = .drift 0 := by
  refine ⟨⟨⟨rfl, rfl⟩, rfl, by decide, by decide, by decide, by decide⟩, ⟨rfl, rfl⟩, rfl, rfl⟩

/-! ### Vector instructions -/

/-- A state whose vector register 0 holds ones under a tag, and register 1 zeros under another. -/
def vec (t u : Tag) : State := at_ ((bank.setV 0 { bits := BitVec.allOnes 2048, tag := t }).setV 1 { bits := 0, tag := u })

/-- A V instruction of this state is ready, whatever it reads of register 0 and the 0 broadcast. -/
theorem vec_ready (t u : Tag) (n more : Nat) (hn : n ≤ 3) (hm : more ≤ 3) : (vec t u).vReady vo n more := by
  refine ⟨⟨⟨rfl, rfl⟩, ?_, .inr rfl, .inl rfl⟩, ?_⟩
  · interval_cases n <;> rfl
  · intro _ i hi
    have : i ≤ 3 := by omega
    interval_cases i <;> rfl

/-- VectorIntegerLanes: a signed tag of the widest lanes and a natural one of the narrowest, with two sources and one. -/
theorem witness_vector_integer :
    ∀ t ∈ ([12, 9] : List Tag), ∀ n ∈ [1, 2], (vec t 0).vReady vo n 0 ∧ tagInt ((vec t 0).vIn vo n).tag = true ∧
      ((vec t 0).vIn vo n).agree = true ∧ kmOk vo.km ((vec t 0).vIn vo n).tag ((vec t 0).vIn vo n).tag = true := by
  intro t ht n hn
  refine ⟨vec_ready t 0 n 0 (by simp at hn; omega) (by omega), ?_⟩
  revert n t; decide

/-- VectorFloatLanes: both formats, one source to three. -/
theorem witness_vector_float :
    ∀ t ∈ ([1, 2] : List Tag), ∀ n ∈ [1, 2, 3], (vec t 0).vReady vo n 0 ∧ (tagFmt ((vec t 0).vIn vo n).tag).isSome = true ∧
      tagFloat ((vec t 0).vIn vo n).tag = true ∧ ((vec t 0).vIn vo n).agree = true ∧
      kmOk vo.km ((vec t 0).vIn vo n).tag ((vec t 0).vIn vo n).tag = true := by
  intro t ht n hn
  refine ⟨vec_ready t 0 n 0 (by simp at hn; omega) (by omega), ?_⟩
  revert n t; decide

/-- VectorLogicMovesGenerator: bitwise and moves on B1 and F8E4, VIOTA and VGEN without a source, VSEL under k0. -/
theorem witness_vector_logic :
    (∀ t ∈ ([13, 3] : List Tag), ∀ n ∈ [1, 2], (vec t 0).vReady vo n 0 ∧ ((vec t 0).vIn vo n).ok tagAny = true ∧
      kmOk vo.km ((vec t 0).vIn vo n).tag ((vec t 0).vIn vo n).tag = true ∧ (((vec t 0).vIn vo n).tag = 13 → vo.km = 0) ∧
      ¬(((vec t 0).vIn vo n).scalar = true ∧ ((vec t 0).vIn vo n).tag = 13)) ∧ (vec 0 0).vReady vo 0 0 := by
  refine ⟨fun t ht n hn => ⟨vec_ready t 0 n 0 (by simp at hn; omega) (by omega), ?_⟩, vec_ready 0 0 0 0 (by omega) (by omega)⟩
  revert n t; decide

/-- VectorTestsPermutes: a compare, a class, a count on B1 and on integers, a hash, a permutation and a slide. -/
theorem witness_vector_tests :
    ((vec 7 0).vReads vo 2 ∧ ((vec 7 0).vIn vo 2).ok tagArith = true ∧ kmOk vo.km ((vec 7 0).vIn vo 2).tag ((vec 7 0).vIn vo 2).tag = true) ∧
    (((vec 2 0).vIn vo 1).ok tagFloat = true ∧ kmOk vo.km 2 10 = true ∧ ((vec 12 0).vIn vo 1).ok tagInt = true ∧
      ((vec 13 0).vIn vo 1).ok (· == 13) = true ∧ ((vec 11 0).vIn vo 2).ok (fun t => t == 8 || t == 11) = true) ∧
    (let o : VOp := { vo with b := 1 }
     let i := (vec 1 11).vIn o 2
     (vec 1 11).vReady o 2 0 ∧ kmOk o.km (i.tagOf 0) (i.tagOf 0) = true ∧ tagData (i.tagOf 0) = true ∧ i.tagOf 0 ≠ 12 ∧
       tagNat (i.tagOf 1) = true ∧ tagWidth (i.tagOf 1) = tagWidth (i.tagOf 0)) ∧
    (let o : VOp := { vo with b := 0x33F }
     let i := (vec 1 11).vIn o 2
     (vec 1 11).vReady o 2 0 ∧ vsrc o.b = .bcast (63 : BitVec 6).toNat ∧ kmOk o.km i.tag i.tag = true ∧ i.agree = true ∧
       tagAny i.tag = true ∧ tagData i.tag = true) := by
  refine ⟨⟨(vec_ready 7 0 2 0 (by omega) (by omega)).1, by decide⟩, by decide, ⟨⟨⟨⟨rfl, rfl⟩, rfl, .inr rfl, .inl rfl⟩, ?_⟩, by decide⟩,
    ⟨⟨⟨rfl, rfl⟩, rfl, .inr rfl, .inl rfl⟩, ?_⟩, by decide⟩ <;>
  · intro _ i hi
    obtain rfl : i = 0 := by omega
    rfl

/-- VectorConversions: VCVT to each width, VSCL by a natural and a signed count, VDQNT and VQNT of both source formats. -/
theorem witness_vector_conversions :
    (∀ t ∈ ([0, 1, 3, 12] : List Tag), tagWidth t ≠ 0 → ((vec 1 0).vReady vo 1 0 ∧ ((vec 1 0).vIn vo 1).ok tagData = true ∧
      kmOk vo.km ((vec 1 0).vIn vo 1).tag t = true)) ∧
    (let o : VOp := { vo with b := 1 }
     (tagFloat (((vec 1 8).vIn o 2).tagOf 0) = true ∧ kmOk o.km 1 1 = true ∧ ((vec 1 8).vIn o 2).tagOf 1 = 8) ∧
       ((vec 2 7).vIn o 2).tagOf 0 = 2 ∧ ((vec 2 7).vIn o 2).tagOf 1 = 7) ∧
    (let o : VOp := { vo with b := 1 }
     let i := (vec 4 9).vIn o 2
     (vec 4 9).vReady o 2 3 ∧ i.isPlain 0 = false ∧ i.isPlain 1 = false ∧ i.tagOf 0 = 4 ∧ i.tagOf 1 = 9) ∧
    (let s := at_ (((((bank.setV 0 { bits := 1, tag := 2 }).setV 1 { bits := 2, tag := 2 })).setV 2 { bits := 1, tag := 1 }))
     let b := s.core.bank
     s.primaryRuns vo.g ∧ b.vregIn vo.vd.toNat = true ∧ b.vregIn (vo.vd.toNat + 1) = true ∧ (∀ j < 2, b.vregIn (vo.a.toNat + j) = true) ∧
       tagFloat (b.vreg (b.phys vo.a.toNat)).tag = true ∧ ∀ r ∈ b.group vo.a 2, r.tag = 2) := by
  refine ⟨fun t ht hw => ⟨vec_ready 1 0 1 0 (by omega) (by omega), ?_⟩, by decide, ⟨⟨⟨⟨rfl, rfl⟩, rfl, .inr rfl, .inl rfl⟩, ?_⟩, by decide⟩, ⟨rfl, rfl⟩, by decide⟩
  · revert hw t; decide
  · intro _ i hi
    have : i ≤ 3 := by omega
    interval_cases i <;> rfl

/-- VectorReductionsElementary: a natural tag, a floating one, and F32. -/
theorem witness_vector_reductions :
    ∀ t ∈ ([9, 2, 1] : List Tag), (vec t 0).vReady vo 1 0 ∧ ((vec t 0).vIn vo 1).ok tagArith = true ∧
      ((vec t 0).vIn vo 1).agree = true ∧ ((vec t 0).vIn vo 1).tag = t ∧ kmOk vo.km t t = true := by
  intro t ht
  refine ⟨vec_ready t 0 1 0 (by omega) (by omega), ?_⟩
  revert t; decide

/-- VectorSelections: lists of a ranked tag. -/
theorem witness_vector_selections :
    ((vec 1 11).vReady vo 1 1 ∧ (vec 1 11).vReady vo 1 2 ∧ ((vec 1 11).vIn vo 1).ok tagRanked = true) ∧
    (let b := (vec 1 11).core.bank
     (vec 1 11).primaryRuns vo.g ∧ b.vregIn 0 = true ∧ b.vregIn 1 = true ∧ tagRanked (b.vreg (b.phys 0)).tag = true ∧
       (b.vreg (b.phys 1)).tag = 11) := by
  refine ⟨⟨vec_ready 1 11 1 1 (by omega) (by omega), vec_ready 1 11 1 2 (by omega) (by omega), by decide⟩, ⟨rfl, rfl⟩, by decide⟩

/-- VectorChecks: a source beyond the allotment in the second and third place, a vd beyond it, a scalar beside a MASK
source, and a lost latch in debug mode under sources that pass. -/
theorem witness_vector_checks_more :
    (({ bank with vu := 1 } : Bank).srcIn 32 = false ∧ ({ bank with vu := 1 } : Bank).srcIn 31 = true ∧ ({ bank with vu := 1 } : Bank).vregIn 32 = false) ∧
    (let i := (vec 13 0).vIn { vo with b := 0x300 } 2
     i.agree = true ∧ i.scalar = true ∧ i.tag = 13 ∧ kmOk 0 i.tag i.tag = true) ∧
    (kmOk 1 ((vec 2 0).vIn vo 1).tag 1 = false ∧ kmOk 1 ((vec 2 0).vIn vo 1).tag ((vec 2 0).vIn vo 1).tag = true ∧
      kmOk 1 ((vec 6 0).vIn vo 1).tag 11 = false ∧ kmOk 1 ((vec 1 0).vIn vo 1).tag 1 = true) ∧
    (let s := at_ { (vec 1 1).core.bank with status := { bank.status with debug := true } }
     let i := s.vIn { vo with b := 0x200 } 2
     s.primaryRuns 0 ∧ i.lost = true ∧ i.agree = true ∧ tagArith i.tag = true ∧ i.scalar = false ∧ s.core.bank.srcIn 0x200 = true ∧
       s.core.bank.status.debug = true) := by
  refine ⟨by decide, by decide, by decide, ⟨rfl, rfl⟩, ?_⟩; decide

/-- VectorFloatLanes, VectorTestsPermutes, VectorConversions: a lane of each class, at the ends of each. -/
theorem witness_lane_classes :
    decodeF .f32 0x7F800001 = .nan ∧ decodeF .f32 0xFF800000 = .inf true ∧ decodeF .f32 0x7F800000 = .inf false ∧
    decodeF .f32 0x7F7FFFFF = .fin false 0xFFFFFF 104 ∧ decodeF .f32 1 = .fin false 1 (-149) ∧ decodeF .f8e5 0x7C = .inf false ∧
    decodeF .f8e4 0x7F = .nan ∧ tagFmt 3 = some .f8e4 ∧ tagFmt 4 = some .f8e5 ∧ tagFloat 1 = true ∧ tagFmt 1 = some .f32 ∧ tagInt 6 = true ∧
    tagInt 12 = true ∧ tagFloat 2 = true ∧ (2 ^ 31 - 1 : Nat) < 2 ^ tagWidth 8 ∧ decodeF .f32 0xBF800000 = .fin true 8388608 (-23) := by decide +kernel

/-- VectorConversions: a block of zeros, a block whose largest magnitude is 2^k, and 256 elements. -/
theorem witness_quantize :
    (List.replicate 256 0x3F800000).length = 256 ∧ decodeF .f32 ((List.replicate 256 0x3F800000).getD 255 0) = .fin false 8388608 (-23) ∧
    (FVal.fin false 8388608 (-23)).lt (.fin false 1 1) = true ∧ (FVal.fin false 8388608 (-23)).lt (.fin false 1 0) = false ∧
    decodeF .f32 0 = .fin false 0 (-149) := by decide +kernel

/-- VectorChecks: a register beyond the allotment, the last inside it, tags that disagree, and a mask 64 lanes forbid. -/
theorem witness_vector_checks :
    ((vec 1 11).primaryRuns 0 ∧ thr.agent = .drift 0) ∧ bank.vregIn 384 = false ∧ bank.srcIn 383 = true ∧ ({ bank with vu := 0 } : Bank).srcIn 0 = false ∧
    ((vec 1 11).vIn { vo with b := 1 } 2).agree = false ∧ tagArith ((vec 13 0).vIn vo 2).tag = false ∧
    kmOk 1 ((vec 13 0).vIn vo 2).tag ((vec 13 0).vIn vo 2).tag = false := by
  refine ⟨⟨⟨rfl, rfl⟩, rfl⟩, ?_⟩; decide

/-- VectorChecks: a masked selection of a B1 register. -/
theorem witness_vector_mask :
    let o : VOp := { vo with km := 1 }
    (vec 13 0).primaryRuns o.g ∧ o.km ≠ 0 ∧ ((vec 13 0).vIn o 1).anyMask = true ∧ (vec 13 0).core.bank.srcIn o.a = true ∧
      ∀ i ≤ 2, (vec 13 0).core.bank.vregIn (o.vd.toNat + i) = true := by
  refine ⟨⟨rfl, rfl⟩, ?_⟩; decide

/-- VectorResultLands, and VectorMatrixFrame for one instruction of each class. -/
theorem witness_vector_lands :
    (vec 1 0).core.bank.pend = [] ∧ (vec 1 0).core.bank.vslot = 0 ∧
    classOf ((encode (.vadd vo)).getD []).headI = 2 ∧ (encode (.vadd vo)).isSome = true ∧
    (∃ t, exec (.vadd vo) (vec 1 0) = .next t) ∧
    classOf ((encode (.mzero mo)).getD []).headI = 3 ∧ (encode (.mzero mo)).isSome = true ∧ ∃ t, exec (.mzero mo) (vec 1 0) = .next t := by
  refine ⟨rfl, rfl, by decide, by decide, ⟨_, rfl⟩, by decide, by decide, ⟨_, rfl⟩⟩

/-! ### Matrix instructions -/

/-- A state whose tile 0 holds F32 and whose front plane WA holds code 3. -/
def mtx : State :=
  let s := at_ ({ bank with acc := [(0, { tag := 1, rows := [] })] }.setV 0 { bits := 0, tag := 1 })
  s.setCore { s.core with planes := { Planes.none with waF := { Plane.none 0 with code := some 3 } } }
/-- Rows of profile NP3 on plane WA. -/
def m3 (rows : BitVec 8) : MOp := { mo with np := 3, mode := 3, rows := rows }

/-- MatrixMoves: the last tile inside the allotment and the first beyond it, equal and unequal tags, a plane under load and none. -/
theorem witness_matrix_moves :
    mtx.primaryRuns 0 ∧ 7 < mtx.core.bank.at_ ∧ mtx.core.bank.vregIn 383 = true ∧
    (mtx.core.bank.vreg (mtx.core.bank.phys 0)).tag = (mtx.core.bank.tile 0).tag ∧ (mtx.core.bank.vreg (mtx.core.bank.phys 1)).tag ≠ (mtx.core.bank.tile 0).tag ∧
    mtx.core.bank.tileHeld 0 8 = false ∧ mtx.core.bank.loadingPlane true true = false ∧
    (at_ { bank with loader := some { seq := 0, issue := 0, plane := 0, code := 3, base := 0, gen := none, wa := [], wb := [], scales := [], next := 0 } }).core.bank.loadingPlane true false = true ∧
    (at_ { bank with at_ := 7 }).core.bank.at_ ≤ 7 ∧ 3 < 4 := by
  refine ⟨⟨rfl, rfl⟩, ?_⟩; decide

/-- MatrixStreams: no row, one row, 128 rows and one row too many; the first and the last row that a stream reads. -/
theorem witness_matrix_streams :
    mtx.primaryRuns 0 ∧ mtx.rowCount (m3 0) = 0 ∧ mtx.rowCount (m3 1) = 1 ∧ mtx.rowCount (m3 128) = 128 ∧ mtx.rowCount (m3 129) = 129 ∧
    (m3 1).plane = 0 ∧ pairOk 3 (mtx.core.planes.waF.code.getD 99) 3 = true ∧ (mtx.core.bank.tile 0).tag = profileTag 3 ∧
    mtx.genFits (m3 128) = true ∧ (m3 128).useGen = false ∧ (m3 128).line.toNat % actLines 3 = 0 ∧
    mtx.linesOk (m3 128).line.toNat (128 * actLines 3) = none ∧ mtx.core.bank.tileHeld 0 40 = false ∧ mtx.core.bank.streamBusy ≤ mtx.core.bank.tick ∧
    (let st : Stream := { seq := 0, issue := 0, acc := 0, np := 3, code := 3, base := 0, rows := 128, zero := true, gen := none, sel := 0, rowb := 0, wa := Plane.none 0, wb := Plane.none 2, next := 127, old := 0, act := [], scl := [] }
     st.np ≠ 5 ∧ 127 < st.rows ∧ st.next ≤ 127 ∧ ({ bank with tick := 127 } : Bank).tick = st.issue + 127) := by
  refine ⟨⟨rfl, rfl⟩, ?_⟩; decide +kernel

/-- MatrixLoad: code 3 in plane WA, and the tick before the plane is ready. -/
theorem witness_matrix_load :
    (let o : MOp := { mo with mode := 3 }
     mtx.primaryRuns 0 ∧ mtx.genFits o = true ∧ o.line.toNat % weightLines 3 = 0 ∧
       mtx.linesOk o.line.toNat (128 * weightLines 3) = none ∧ (∀ u ∈ [((1 : Nat), (0 : Nat))], u.2 < ({ bank with tick := 1, planeUse := [(1, 0)] } : Bank).tick) ∧ mtx.core.bank.planeUse = [] ∧
       mtx.core.bank.loadBusy ≤ mtx.core.bank.tick) ∧
    ∃ l, (at_ { bank with tick := 63, loader := some { seq := 0, issue := 0, plane := 0, code := 3, base := 0, gen := none, wa := [], wb := [], scales := [], next := 63 } }).core.bank.loader = some l ∧ 63 = l.issue + 63 ∧ l.next ≤ 63 := by
  refine ⟨⟨⟨rfl, rfl⟩, ?_⟩, _, rfl, rfl, by decide⟩; decide +kernel

/-- MatrixEpilogue: no row and 128 rows of F32 output with parameters. -/
theorem witness_matrix_epilogue :
    (let o : MOp := { mo with np := 1, mode := 4, rows := 128 }
     mtx.primaryRuns 0 ∧ mtx.rowCount { o with rows := 0 } = 0 ∧ mtx.rowCount o = 128 ∧ 0 < mtx.core.bank.at_ ∧ (mtx.core.bank.tile 0).tag = 1 ∧
       o.line.toNat % epiLines o.np = 0 ∧ (mtx.core.bank.sreg o.sn).toNat % 65536 % 16 = 0 ∧ mtx.linesOk 0 16 = none ∧
       mtx.linesOk 0 (128 * epiLines o.np) = none ∧ mtx.core.bank.epiHazard 0 128 (epiLines o.np) = false ∧
       mtx.unitHeld 0 (128 * 128 * epiLines o.np) = false ∧ mtx.core.bank.epiBusy ≤ mtx.core.bank.tick ∧
       mtx.core.bank.undo.length + (mtx.newUndo ((List.range (128 * epiLines o.np)).map (0 + ·))).length ≤ 512) ∧
    (let e : Epi := { seq := 0, issue := 0, acc := 0, rows := 128, dest := 0, out := 1, act := 0, param := none, next := 127 }
     127 < e.rows ∧ e.next ≤ 127 ∧ ({ bank with tick := 127 } : Bank).tick = e.issue + 127) := by
  refine ⟨⟨⟨rfl, rfl⟩, ?_⟩, ?_⟩
  · decide +kernel
  · decide

/-- MatrixReduce: a solo task, and the lead of a gang with 128 rows. -/
theorem witness_matrix_reduce :
    (mtx.primaryRuns 0 ∧ mtx.gang = none) ∧
    (let s := at_ { member.core.bank with pos := 0, acc := [(0, { tag := 1, rows := [] })] } |>.setHub member.hub
     let o : MOp := { mo with np := 1, rows := 128 }
     s.primaryRuns 0 ∧ s.gang ≠ none ∧ (s.leadRows (s.rowCount o)).1 = 128 ∧ 0 < s.core.bank.at_ ∧ (s.core.bank.tile 0).tag = profileTag o.np.toNat ∧
       s.core.bank.tileHeld 0 48 = false ∧ s.core.bank.mredBusy ≤ s.core.bank.tick ∧ s.core.bank.pos % 4 = 0) := by
  refine ⟨⟨⟨rfl, rfl⟩, rfl⟩, ⟨rfl, rfl⟩, ?_⟩; decide

/-- A gang of the cell's four cores, each of which holds tile 0 under the given tag inside the given allotment. -/
def cell4 (tag : Tag) (n : Nat) : State :=
  let b : Bank := { member.core.bank with pos := 0, acc := [(0, { tag := 1, rows := [] })] }
  let c : Core := { user.core with bank := { bank with at_ := n, acc := [(0, { tag := tag, rows := [] })] } }
  { (at_ b).setHub member.hub with others := [(1, c), (2, c), (3, c)] }

/-- MatrixReduce: tiles that agree, one tag that differs, one tile beyond its allotment, and a member that has issued. -/
theorem witness_matrix_members :
    (let o : MOp := { mo with np := 1, rows := 128 }
     let s := cell4 1 8
     s.primaryRuns 0 ∧ s.gang ≠ none ∧ (s.leadRows (s.rowCount o)).1 = 128 ∧
       (∀ q < 4, o.acc.toNat < (s.mredTile o.acc.toNat q).1 ∧ (s.mredTile o.acc.toNat q).2 = profileTag o.np.toNat) ∧
       s.core.bank.tileHeld 0 (s.core.bank.tick + 48) = false ∧ s.core.bank.mredBusy ≤ s.core.bank.tick) ∧
    ((∀ q < 4, 0 < ((cell4 8 8).mredTile 0 q).1) ∧ ∃ q < 4, ((cell4 8 8).mredTile 0 q).2 ≠ profileTag 1) ∧
    (∃ q < 4, ((cell4 1 0).mredTile 0 q).1 ≤ 0) ∧
    ((∀ r ∈ ((cell4 1 8).coreAt 3).bank.mreds, r.seq ≠ (cell4 1 8).core.bank.mredN) ∧ ((cell4 1 8).coreAt 3).bank.pend = []) ∧
    (let r : Mred := { seq := 0, issue := 0, acc := 0, rows := 128, tag := 8, out := [] }
     let c : Core := { user.core with bank := { bank with mreds := [r] } }
     let s := { cell4 1 8 with others := [(3, c)] }
     ((s.coreAt 3).bankAt s.core.curBank).mreds = [r] ∧ r.seq = s.core.bank.mredN ∧ (s.mredTile 0 3).2 = 8) ∧
    (cell4 1 8).core.bank.pos % 4 = 0 := by
  refine ⟨⟨⟨rfl, rfl⟩, ?_⟩, ?_, ?_, ?_, ?_, ?_⟩ <;> decide +kernel

/-- MatrixEpilogue: parameter lines and destination lines that no bank has pinned, and that the other bank has pinned. -/
theorem witness_matrix_epilogue_lines :
    (let s := mtx.setBank { mtx.core.bank with pins := 0 }; s.linesOk 0 128 = some 0x06 ∧ s.linesOk 128 16 = some 0x06) ∧
    (let s := mtx.setCore { mtx.core with bank := { mtx.core.bank with pins := 0 }, other := { Bank.clear with pins := BitVec.allOnes 65536 } }
     s.linesOk 0 128 = some 0x0D ∧ s.linesOk 128 16 = some 0x0D) := by
  decide +kernel

/-- MatrixCheckOrder: each check's first failing value. -/
theorem witness_matrix_checks :
    (mtx.primaryRuns 0 ∧ (m3 128).useGen = false ∧ (m3 128).plane = 0 ∧ 1 ≤ mtx.rowCount (m3 128) ∧ mtx.rowCount (m3 128) ≤ 128) ∧
    (at_ { bank with at_ := 0 }).core.bank.at_ ≤ 0 ∧ pairOk 3 (user.core.planes.waF.code.getD 99) 3 = false ∧
    pairOk 3 (mtx.core.planes.waF.code.getD 99) 3 = true ∧ (1 : Nat) % actLines 3 ≠ 0 ∧
    (let s := mtx.setCore { mtx.core with bank := { mtx.core.bank with pins := BitVec.allOnes 65536 &&& ~~~(1 : BitVec 65536) }, other := { Bank.clear with pins := 1 } }
     (∀ l, 0 ≤ l → l < 256 → s.core.bank.pins.getLsbD l = true ∨ s.core.other.pins.getLsbD l = true) ∧ s.core.bank.pins.getLsbD 0 = false) ∧
    (let s := mtx.setBank { mtx.core.bank with pins := 0 }
     s.core.bank.pins.getLsbD 255 = false ∧ s.core.other.pins.getLsbD 255 = false) ∧ 65536 < 65282 + 256 := by
  refine ⟨⟨⟨rfl, rfl⟩, ?_⟩, ?_⟩
  · decide
  · decide +kernel

/-- MatrixCheckOrder: each way in which an MMUL does not fit, and a generator of another code. -/
theorem witness_matrix_fits :
    (let p := mtx.core.planes
     pairOk 3 (p.waF.code.getD 99) 3 = true ∧ p.waF.code ≠ p.wbF.code ∧ pairOk 3 (p.wbF.code.getD 99) 3 = false ∧
       (mtx.core.bank.tile 0).tag = profileTag 3 ∧ (mtx.core.bank.tile 1).tag ≠ profileTag 3) ∧
    ((m3 128).useGen = false ∧ genCode (mtx.core.bank.gen 0) ≠ 3 ∧ (List.replicate 128 (0 : Nat)).length = 128) := by decide +kernel

/-- MatrixCheckOrder: every line of the window pinned by this bank, by the other, and by none; a tile that is held, and
an engine that still streams. -/
theorem witness_matrix_checks_last :
    (mtx.linesOk 0 128 = none ∧ mtx.core.bank.tileHeld 0 (mtx.core.bank.tick + 40) = false ∧ mtx.core.bank.tick < 1 ∧ 0 % actLines 3 = 0 ∧
      ∀ l < 65536, mtx.core.bank.pins.getLsbD l = true) ∧
    ({ mtx.core.bank with holds := [(0, 41)] } : Bank).tileHeld 0 (mtx.core.bank.tick + 40) = true ∧
    mtx.core.bank.tick < ({ mtx.core.bank with streamBusy := 1 } : Bank).streamBusy := by
  refine ⟨⟨by decide +kernel, by decide, by decide, by decide, fun l hl => ?_⟩, by decide, by decide⟩
  exact (BitVec.getLsbD_allOnes (v := 65536)).trans (decide_eq_true hl)

/-! ### Loads, stores, engine operations and barriers -/

/-- A C instruction whose address is in s1. -/
def c1 : COp := { co with sa := 1, data := 2 }
/-- A task whose s1 holds the given value and s2 another. -/
def regs (x y : Word) : State := at_ ((bank.setS 1 x).setS 2 y)
/-- A task whose window starts with the given bytes. -/
def blk (bs : List Byte) : State := user.setCore { user.core with store := writeBytes [] 0 bs }

/-- LoadsAndStores: the last word and the last vector of the window, for the primary and for a drift thread. -/
theorem witness_loads_stores :
    (let s := regs 0x7FFFF8 0
     s.primaryRuns 0 ∧ s.destOk 63 = true ∧ s.ea c1 = 0x7FFFF8 ∧ s.checkLocal 0x7FFFF8 8 8 = none ∧ s.storeCheck 0x7FFFF8 8 3 = none) ∧
    (let s := regs 0x7FFF00 0
     s.core.bank.vregIn 383 = true ∧ s.checkLocal 0x7FFF00 256 64 = none ∧ s.storeCheck 0x7FFF00 256 3 = none ∧
       (s.core.bank.vreg 0).tag = 0 ∧ (s.core.bank.vreg 0).tag ≠ 1) ∧
    (let t := ({ user with agent := .drift 7 } : State)
     t.threadRuns 7 0 ∧ t.dregsOk [31, 0] = true ∧ t.ea co < 2 ^ 32 ∧ t.checkLocal (t.ea co) 8 8 = none ∧
       t.core.bank.hazard (linesOf (t.ea co) 8) (t.core.bank.tick + 12) = false) := by
  refine ⟨⟨⟨rfl, rfl⟩, ?_⟩, ?_, ⟨rfl, by decide, rfl⟩, ?_⟩
  · decide +kernel
  · decide +kernel
  · decide +kernel

/-- LoadsAndStores: a store that would land at the tick of a stream's read of its line, the store of a thread whose line no
stream reads and of one whose line a stream has read by now, and a window with no store that a release has published. -/
theorem witness_store_hazard :
    (let s := (regs 0 0).setBank { (regs 0 0).core.bank with tracked := [(0, 3)] }
     s.primaryRuns 0 ∧ s.checkLocal (s.ea { c1 with fmt := 12 }) 8 8 = none ∧ (0, 3) ∈ s.core.bank.tracked ∧ 0 ∈ linesOf 0 8 ∧ s.core.bank.tick + 3 ≤ 3) ∧
    (let t : Thread := { Thread.clear with busy := true, running := true, eff := .store 0 [7, 8] none }
     let s := user.setCore (user.core.setThread 3 t)
     let r := s.setBank { s.core.bank with tracked := [(0, 1000)] }
     (s.core.thread 3).eff = .store 0 [7, 8] none ∧ (s.core.thread 3).bank = s.core.curBank ∧ s.landsLate (linesOf 0 2) = false ∧
       (r.core.thread 3).eff = .store 0 [7, 8] none ∧ r.landsLate (linesOf 0 2) = true) ∧
    (∀ e ∈ user.core.bank.pend, e.pub = false) ∧ ∀ q ∈ user.core.bank.parked, ∀ e ∈ q.pend, e.pub = false := by
  refine ⟨⟨⟨rfl, rfl⟩, by decide +kernel⟩, by decide +kernel, by decide, by decide⟩

/-- StoreLands: an empty window and nothing in flight; before and at the due tick. -/
theorem witness_store_lands : Mem.wf user.core.store = true ∧ user.core.bank.pend = [] ∧ 2 < user.core.bank.tick + 3 ∧ user.core.bank.tick + 3 ≤ 3 := by
  decide

/-- AccessCheckOrder: the boundary of each check. -/
theorem witness_access_checks :
    (user.primaryRuns 0 ∧ user.destOk 2 = true) ∧ ¬(2 ^ 56 < 2 ^ 56 ∨ 2 ^ 64 - 2 ^ 56 ≤ 2 ^ 56) ∧
    (let a := (regs (2 ^ 56 - 4) 0).ea c1; a < 2 ^ 56 ∧ 2 ^ 56 < a + 8) ∧
    (let a := (regs (-1) 0).ea c1; 2 ^ 64 - 2 ^ 56 ≤ a ∧ 2 ^ 64 < a + 8) ∧
    (let a := (regs (-0x100000000000000) 0).ea c1; 2 ^ 64 - 2 ^ 56 ≤ a ∧ ¬(2 ^ 64 < a + 8) ∧ 2 ^ 56 ≤ a) ∧
    ((regs 4 0).ea c1 % 8 ≠ 0 ∧ (regs 0x800000 0).ea c1 = 0x800000 ∧ (regs 0x7FFFF8 0).ea c1 < 0x800000) ∧
    (let s := user.setCore { user.core with bank := { bank with pins := 0 }, other := { Bank.clear with pins := 1 } }
     s.core.bank.pins.getLsbD 0 = false ∧ s.core.other.pins.getLsbD 0 = true ∧ s.core.other.pins.getLsbD 65535 = false) ∧
    user.core.bank.pins.getLsbD 65535 = true := by
  refine ⟨⟨⟨rfl, rfl⟩, rfl⟩, ?_⟩; decide +kernel

/-- GatherScatter: one lane named, the others skipped. -/
theorem witness_gather :
    (let s := at_ ((bank.setV 0 { bits := 0, tag := 1 }).setV 1 { bits := BitVec.allOnes 2048 <<< 32, tag := 11 })
     let b := s.core.bank
     let gs := granules (s.ea co) (b.vreg (b.phys 1)).bits
     s.primaryRuns 0 ∧ b.vregIn 0 = true ∧ b.vregIn 1 = true ∧ (b.vreg (b.phys 1)).tag = 11 ∧ s.ea co % 64 = 0 ∧ s.checkGranules gs = none ∧
       gs = [(0, 0)] ∧ laneAt 32 (b.vreg (b.phys 1)).bits 63 = 0xFFFFFFFF ∧ (b.vreg (b.phys 0)).tag = 1 ∧ (gs.any fun g => s.unitHeld g.2 4) = false ∧
       b.hazard (gs.map fun g => g.2 / 128).eraseDups (b.tick + 12) = false ∧
       b.undo.length + (s.newUndo (gs.map fun g => g.2 / 128).eraseDups).length ≤ 512) := by
  refine ⟨⟨rfl, rfl⟩, ?_⟩; decide +kernel

/-- PinUnpin: no line, the last line, a line of the other bank, and the whole window. -/
theorem witness_pin :
    (let s := at_ ({ bank with pins := 0 }.setS 1 0x7FFF80 |>.setS 2 1)
     let o : COp := { c1 with sb := 2 }
     s.primaryRuns 0 ∧ s.destOk 2 = true ∧ s.checkPinRange (s.ea o) (s.rs o.sb).toNat = none ∧ (s.rs o.sb).toNat = 1 ∧ s.pinCode 65535 1 = 0 ∧
       s.core.other.pins.getLsbD 65535 = false ∧ s.linesBusy 65535 1 = false) ∧
    (user.checkPinRange (user.ea co) 0 = none ∧ (user.rs co.sb).toNat = 0) ∧
    (let s := user.setCore { user.core with bank := (bank.setS 1 1), other := { Bank.clear with pins := 1 } }
     s.checkPinRange 0 1 = none ∧ s.core.other.pinsAhead.getLsbD 0 = true ∧ s.core.other.pins.getLsbD 0 = true) ∧
    (0 + 65536 ≤ 65536 ∧ Mem.wf user.core.store = true) := by
  refine ⟨⟨⟨rfl, rfl⟩, ?_⟩, ?_⟩
  · decide +kernel
  · decide +kernel

/-- A bank with no pinned line and the address and line count of a PIN in s1 and s2. -/
def pin (a n : Nat) : State := at_ (({ bank with pins := 0 }.setS 1 (BitVec.ofNat 64 a)).setS 2 (BitVec.ofNat 64 n))

/-- PinUnpin: a range that fills each set to its last way, one line more, each cause that breaks the checks, and a line in use. -/
theorem witness_pin_codes :
    (let o : COp := { c1 with sb := 2 }
     ([(64, 1, 0x08), (0x7FFF80, 2, 0x06), (2 ^ 56, 1, 0x07), (2 ^ 64 - 0x10000, 1, 0x0C), (0, 65537, 0x06)] : List (Nat × Nat × Nat)).all fun x =>
       (pin x.1 x.2.1).checkPinRange ((pin x.1 x.2.1).ea o) ((pin x.1 x.2.1).rs o.sb).toNat == some x.2.2) ∧
    ((pin 0 57344).pinCode 0 57344 = 0 ∧ (pin 0 57345).pinCode 0 57345 = 1) ∧
    (let s := (pin 0 1).setBank { (pin 0 1).core.bank with pins := 1, tracked := [(0, 1000)] }
     s.linesBusy 0 1 = true ∧ s.core.other.pins.getLsbD 0 = false ∧ s.checkPinRange 0 1 = none) := by
  refine ⟨by decide +kernel, ?_, by decide +kernel⟩; decide +kernel

/-- A block whose address passes its check is read whole. -/
theorem block_of {s : State} {a len al : Nat} (p : s.agent = .primary) (h : s.checkLocal a len al = none) :
    s.block a len al = .ok (readBytes s.core.store a len) := by
  simp [State.block, h, p]

/-- EngineOperationsStart: one operand list for each operation, and a barrier without room. -/
theorem witness_engine_starts :
    (user.primaryRuns 0 ∧ user.core.bank.barrierRoom 7 = true ∧
      ({ bank with cbs := bank.cbs.set 7 { Barrier.clear with count := 7 } } : Bank).barrierRoom 7 = true ∧
      ({ bank with cbs := bank.cbs.set 7 { Barrier.clear with count := 8 } } : Bank).barrierRoom 7 = false) ∧
    (∃ bs, (blk (leBytes 64 (0x100000000 * 2 ^ 320 + 0x80 * 2 ^ 384))).block 0 64 64 = .ok bs ∧
      (let c := copyBlock bs; c.zeros = true ∧ c.gaddr = 0x100000000 ∧ c.len = 128 ∧
        user.checkLocal c.loc c.len 128 = none ∧ user.checkGlobal c.gaddr c.len 1 = none)) ∧
    (∃ bs, (blk (leBytes 64 (0x10001000100010080 * 2 ^ 224))).block 0 64 64 = .ok bs ∧
      (let c := copyBlock bs
       let t : Tensor := { rank := 1, fmt := 6, layout := 0, edge := 1, ext := [65536, 1, 1, 1, 1], tile := [65536, 1, 1, 1, 1], ttb := 0 }
       c.tid = 0 ∧ c.boxOk t = true ∧ boxSize c.box * t.width = 128 ∧ c.past t = false ∧ sget [(0, t)] c.tid = some t)) ∧
    (let s := regs 0x100000000 0
     s.checkGlobal (s.rs 1).toNat (128 * 1) 128 = none ∧ checkSteps13 (!s.sup?) (s.rs 0).toNat (128 * 1) 128 = none ∧
       windowBytes ≤ s.ea c1 ∧ s.checkGlobal (s.ea c1) (atomBytes 10) (atomBytes 10) = none ∧ s.checkGlobal (s.ea c1) 8 8 = none ∧ s.destOk 2 = true) ∧
    (∃ bs, (blk (leBytes 64 0)).block 0 64 64 = .ok bs ∧ msendOk co bs = true) ∧
    (let s := regs 0x100000000 65536
     checkSteps13 (!s.sup?) (s.ea c1) (128 * (s.rs 2).toNat) 128 = none ∧ (s.rs 2).toNat = 65536 ∧ inHubWindow (s.ea c1 + 128 * 65536 - 1) = false) ∧
    user.agent = .primary := by
  refine ⟨⟨⟨rfl, rfl⟩, by decide, by decide, by decide⟩, ⟨_, block_of rfl (by decide +kernel), by decide +kernel⟩, ⟨_, block_of rfl (by decide +kernel), by decide +kernel⟩, by decide +kernel, ⟨_, block_of rfl (by decide +kernel), by decide +kernel⟩, by decide +kernel, rfl⟩

/-- A task whose barrier 0 has as many operations as it takes, with the given bytes in its window and values in s1 and s2. -/
def full (bs : List Byte) (x y : Word) : State :=
  let s := at_ ((({ bank with cbs := bank.cbs.set 0 { Barrier.clear with count := 7, waits := 1 }, tensors := [(0, { rank := 1, fmt := 6, layout := 0, edge := 1, ext := [65536, 1, 1, 1, 1], tile := [65536, 1, 1, 1, 1], ttb := 0 })] } : Bank).setS 1 x).setS 2 y)
  s.setCore { s.core with store := writeBytes [] 0 bs }

/-- EngineOperationsStart: each operation on a barrier without room, and a bank whose barriers share thirty-two. -/
theorem witness_engine_no_room :
    ((full [] 0 0).primaryRuns 0 ∧ (full [] 0 0).core.bank.barrierRoom 0 = false ∧
      ({ bank with cbs := (((bank.cbs.set 0 { Barrier.clear with count := 8 }).set 1 { Barrier.clear with count := 8 }).set 2 { Barrier.clear with waits := 8 }).set 3 { Barrier.clear with count := 7 } } : Bank).barrierRoom 7 = true ∧
      ({ bank with cbs := (((bank.cbs.set 0 { Barrier.clear with count := 8 }).set 1 { Barrier.clear with count := 8 }).set 2 { Barrier.clear with waits := 8 }).set 3 { Barrier.clear with count := 8 } } : Bank).barrierRoom 7 = false) ∧
    (∃ bs, (full (leBytes 64 (0x100000000 * 2 ^ 320 + 0x80 * 2 ^ 384)) 0 0).block ((full (leBytes 64 (0x100000000 * 2 ^ 320 + 0x80 * 2 ^ 384)) 0 0).ea co) 64 64 = .ok bs ∧
      (let c := copyBlock bs; c.zeros = true ∧ c.gaddr = 0x100000000 ∧ c.len = 128 ∧ 2 ≤ ({ co with data := 2 } : COp).data.toNat ∧
        (full [] 0 0).checkLocal c.loc c.len 128 = none ∧ (full [] 0 0).checkGlobal c.gaddr c.len 1 = none)) ∧
    (∃ bs, (full (leBytes 64 (0x10001000100010080 * 2 ^ 224)) 0 0).block ((full (leBytes 64 (0x10001000100010080 * 2 ^ 224)) 0 0).ea co) 64 64 = .ok bs ∧
      (let c := copyBlock bs
       c.zeros = true ∧ c.tid = 0 ∧ ∃ t, sget (full [] 0 0).core.bank.tensors c.tid = some t ∧ c.boxOk t = true ∧ boxSize c.box * t.width = 128 ∧
         (full [] 0 0).checkLocal c.loc 128 128 = none ∧ t.edge = 1 ∧ c.past t = false)) ∧
    (∃ bs, (full (leBytes 64 0) 0 0).block ((full (leBytes 64 0) 0 0).ea co) 64 64 = .ok bs ∧ msendOk co bs = true) ∧
    (let s := full [] 0x100000000 65536
     windowBytes ≤ s.ea c1 ∧ s.checkGlobal (s.ea c1) 8 8 = none ∧ s.destOk (c1.data.setWidth 6) = true ∧
       s.checkGlobal (s.ea c1) (atomBytes 10) (atomBytes 10) = none ∧ 0 < (s.rs 2).toNat ∧ (s.rs 2).toNat ≤ 65536 ∧
       checkSteps13 (!s.sup?) (s.ea c1) (128 * (s.rs 2).toNat) 128 = none ∧ 2 ^ 32 ≤ s.ea c1 ∧
       inHubWindow (s.ea c1 + 128 * (s.rs 2).toNat - 1) = false ∧
       s.checkGlobal (s.rs 1).toNat (128 * 1) 128 = none ∧ checkSteps13 (!s.sup?) (s.rs 0).toNat (128 * 1) 128 = none ∧
       (s.rs 0).toNat + 128 * 1 ≤ windowBytes) := by
  refine ⟨⟨⟨rfl, rfl⟩, by decide, by decide, by decide⟩, ⟨_, block_of rfl (by decide +kernel), by decide +kernel⟩, ⟨_, block_of rfl (by decide +kernel), ?_⟩, ⟨_, block_of rfl (by decide +kernel), by decide +kernel⟩, by decide +kernel⟩
  exact ⟨by decide +kernel, by decide +kernel, _, rfl, by decide +kernel, by decide +kernel, by decide +kernel, rfl, by decide +kernel⟩

/-- LocalFlagsAndAtom: the last word of the window. -/
theorem witness_local_flags :
    (let s := regs 0x7FFFF8 0
     s.primaryRuns 0 ∧ s.ea c1 < windowBytes ∧ c1.cb = 0 ∧ s.checkLocal (s.ea c1) 8 8 = none ∧ s.storeCheck (s.ea c1) 8 3 = none ∧ s.destOk 2 = true ∧
       s.unitHeld (s.ea c1) 8 = false ∧ s.core.bank.undo.length + (s.newUndo (linesOf (s.ea c1) 8)).length ≤ 512 ∧ s.core.bank.barrierRoom 0 = true) := by
  refine ⟨⟨rfl, rfl⟩, ?_⟩; decide +kernel

/-- LocalFlagsAndAtom: an ATOM whose line is read last one tick before it is due, and whose line is read at its due tick. -/
theorem witness_atom_due :
    (let b := { bank with tracked := [(65535, 2), (0, 9)] }
     (∀ x ∈ b.tracked, x.1 = 0x7FFFF8 / 128 → x.2 < b.tick + 3)) ∧
    (let b := { bank with tracked := [(65535, 2), (65535, 3), (0, 9)] }
     (0x7FFFF8 / 128, 3) ∈ b.tracked ∧ b.tick + 3 ≤ 3 ∧ ∀ x ∈ b.tracked, x.1 = 0x7FFFF8 / 128 → x.2 ≤ 3) := by
  decide

/-- AtomicOperations: an equal and an unequal comparand, the last barrier, the codes 10 and 11, and a misaligned word. -/
theorem witness_atomic :
    ((5 : Word) = 5 ∧ (5 : Word) ≠ 6 ∧ Mem.wf user.core.store = true ∧ 10 ≤ 10 ∧ 7 < 8) ∧
    (let s := regs 4 0
     s.primaryRuns 0 ∧ 11 ≤ ({ c1 with fmt := 11 } : COp).fmt.toNat ∧ s.destOk (c1.data.setWidth 6) = true ∧ s.ea c1 + 8 ≤ 2 ^ 56 ∧ s.ea c1 % 8 ≠ 0 ∧
       (regs 2 0).ea { c1 with fmt := 10 } % 4 ≠ 0) := by
  refine ⟨?_, ⟨rfl, rfl⟩, ?_⟩ <;> decide

/-- A task whose barrier 7 is the given one. -/
def bar (c : Barrier) : State := at_ { bank with cbs := bank.cbs.set 7 c }

/-- WaitsFencesBarriers: each state of a barrier, and BARR on a word of the window, a global one and in guarded mode. -/
theorem witness_waits :
    ((bar Barrier.clear).primaryRuns 0 ∧ (bar Barrier.clear).core.bank.run = .active ∧ ((bar Barrier.clear).core.bank.cb 7) = Barrier.clear) ∧
    (let c : Barrier := { Barrier.clear with results := [{ op := 3, dest := .reg 63, val := some 9 }] }
     ((bar c).core.bank.cb 7).results = [{ op := 3, dest := .reg 63, val := some 9 }] ∧ ((bar c).core.bank.cb 7).count = 0) ∧
    0 < ((bar { Barrier.clear with count := 1 }).core.bank.cb 7).count ∧
    (∃ r, ((bar { Barrier.clear with count := 1, record := some { kind := .protection, va := 0, line := 0, op := 0 } }).core.bank.cb 7).record = some r ∧ r.kind = .protection) ∧
    (∃ r, ((bar { Barrier.clear with count := 1, record := some { kind := .uncorrectable, va := 0, line := 0, op := 0 } }).core.bank.cb 7).record = some r ∧ r.kind = .uncorrectable) ∧
    (∃ r, ((bar { Barrier.clear with count := 1, record := some { kind := .translation, va := 0, line := 0, op := 0 } }).core.bank.cb 7).record = some r ∧ r.kind = .translation ∧ bank.handler = false) ∧
    (user.core.bank.status.guard = false ∧ (regs 0x100000000 0).checkGlobal ((regs 0x100000000 0).ea c1) 1 1 = none) ∧
    (user.destOk 0 = true ∧ user.core.bank.barrierRoom 7 = true ∧ user.checkLocal 0 8 8 = none ∧ user.unitHeld 0 8 = false ∧
      windowBytes ≤ (regs 0x100000000 0).ea c1 ∧ (regs 0x100000000 0).checkGlobal ((regs 0x100000000 0).ea c1) 8 8 = none) ∧
    (guarded.primaryRuns 0 ∧ guarded.core.bank.status.guard = true ∧ (guarded.core.bank.holding (guarded.heldAdd 0x100000000 0)).heldLines.length ≤ 256) := by
  refine ⟨⟨⟨rfl, rfl⟩, rfl, rfl⟩, ⟨rfl, rfl⟩, by decide, ⟨_, rfl, rfl⟩, ⟨_, rfl, rfl⟩, ⟨_, rfl, rfl, rfl⟩, by decide, by decide +kernel, ⟨rfl, rfl⟩, rfl, by decide +kernel⟩

/-- WaitsFencesBarriers: what lands at a CPYW: nothing, one result, and one that a handler's frame has moved to this barrier. -/
theorem witness_landing :
    (bar Barrier.clear).core.bank.landing 7 = [] ∧
    (bar { Barrier.clear with results := [{ op := 3, dest := .reg 63, val := some 9 }] }).core.bank.landing 7 = [{ op := 3, dest := .reg 63, val := some 9 }] ∧
    (let r : BarRes := { op := 3, dest := .reg 63, val := some 9, land := some 7 }
     ({ bank with cbs := bank.cbs.set 0 { Barrier.clear with results := [r] } } : Bank).landing 7 = [r]) ∧
    (let r : BarRes := { op := 3, dest := .reg 63, val := some 9 }
     let q : BarRes := { op := 4, dest := .reg 63, val := some 8 }
     let b := (bar { Barrier.clear with results := [r, q] }).core.bank
     b.landing 7 = [r, q] ∧ (b.cb 7).record = none ∧ (b.cb 7).waits = 0 ∧ (b.cb 7).count = 0) ∧
    (bar Barrier.clear).core.bank.status.guard = false := by decide

/-- LinkAndBlockOperations: each value that breaks R249's table, at its boundary, and a channel of another partition. -/
theorem witness_links_refused :
    (user.primaryRuns 0 ∧ 64 % 128 ≠ 0 ∧ 0 < 128 ∧ 0 % 128 = 0 ∧ (2 : Nat) ^ 22 < 2 ^ 22 + 128) ∧
    (let s : State := { user with ports := [(23, { Port.clear with owners := [(3, 1)] })] }
     (s.port 23).owner 3 ≠ s.part ∧ s.checkLocal 0 128 128 = none ∧ s.checkLocal 0 256 128 = none) := by
  refine ⟨⟨⟨rfl, rfl⟩, by decide⟩, ?_⟩; decide +kernel

/-- LinkAndBlockOperations: the shortest and the longest transfer, and a block of each operation that keeps its rules and one that breaks them. -/
theorem witness_links_blocks :
    (user.primaryRuns 0 ∧ user.core.bank.barrierRoom 0 = true ∧ user.core.bank.status.guard = false ∧ (user.port 23).owner 3 = user.part ∧ (user.port 23).down = false ∧
      128 % 128 = 0 ∧ (4194304 : Nat) ≤ 2 ^ 22 ∧ user.checkLocal 0 4194304 128 = none ∧ user.checkLocal 0 (2 * 4194304) 128 = none ∧
      (onChannel (user.port 23).sends 3).length < 4 ∧ (onChannel (user.port 23).recvs 3).length < 4) ∧
    (∃ bs, (blk (leBytes 256 (0x100000000 + 128 * 2 ^ 64 + 2 * 2 ^ 96 + 2 ^ 104 + 0x100010000 * 2 ^ 128 + 0x100000000 * 2 ^ 256 + 0x100020000 * 2 ^ 320))).block 0 256 128 = .ok bs ∧ bdredOk bs = true ∧
      user.checkRanges ((field bs 0 8, field bs 8 4) :: (field bs 16 8, 8) :: (bdredSrcs bs).map fun a => (a, field bs 8 4)) = none) ∧
    (∃ bs, (blk (leBytes 64 0)).block 0 256 128 = .ok bs ∧ bdredOk bs = false ∧ bdtopkOk bs = false) ∧
    (∃ bs, (blk (leBytes 64 (0x100000000 + 0x100010000 * 2 ^ 64 + 2 ^ 128 + 2 ^ 160 + 64 * 2 ^ 192 + 2 ^ 224 + 2 ^ 232))).block 0 64 64 = .ok bs ∧ bdtopkOk bs = true ∧
      user.checkRanges [(field bs 0 8, (field bs 16 4 - 1) * field bs 24 4 + field bs 20 4 * if field bs 29 1 = 1 then 4 else 2), (field bs 8 8, 8 * field bs 28 1 * field bs 16 4)] = none) ∧
    (∃ bs, (blk (leBytes 64 (2 ^ 64 + 128 * 2 ^ 96))).block 0 64 64 = .ok bs ∧ xrouteOk bs = true ∧
      user.checkLocal (field bs 4 4) (field bs 8 4 * field bs 12 4) 128 = none ∧ user.checkLocal (field bs 16 4) 8 8 = none) ∧
    (∃ bs, (blk (leBytes 64 (3 * 2 ^ 32 + 0x100000000 * 2 ^ 64))).block 0 64 64 = .ok bs ∧ packetOk bs = true ∧ user.destOk 0 = true ∧ user.part = user.hub.regs.guestPart) ∧
    (user.setHub { user.hub with regs := { user.hub.regs with guestPart := 1 } }).part ≠ 1 := by
  refine ⟨⟨⟨rfl, rfl⟩, ?_⟩, ⟨_, block_of rfl (by decide +kernel), ?_⟩, ⟨_, block_of rfl (by decide +kernel), ?_⟩, ⟨_, block_of rfl (by decide +kernel), ?_⟩, ⟨_, block_of rfl (by decide +kernel), ?_⟩, ⟨_, block_of rfl (by decide +kernel), ?_⟩, ?_⟩ <;> decide +kernel

/-- A tensor of one tile of bytes. -/
def tensor : Tensor := { rank := 1, fmt := 6, layout := 0, edge := 0, ext := [65536, 1, 1, 1, 1], tile := [65536, 1, 1, 1, 1], ttb := 0 }
/-- A subscription of that tensor in ring unit 1. -/
def sub : Sub := { op := 0, tid := 0, tensor := tensor, first := 1, nslot := 1, size := 0, start := [0, 0, 0, 0, 0], box := [1, 1, 1, 1, 1], stat := 0, delivered := 0, freed := 1, hint := 0, cb := 7 }

/-- Subscriptions: a legal block in a bank whose slots are free, and SLOTDN of each kind of unit. -/
theorem witness_subscriptions :
    (let s := at_ { bank with tensors := [(0, tensor)] }
     s.primaryRuns 0 ∧ ∃ bs, (s.setCore { s.core with store := writeBytes [] 0 (leBytes 64 (0x100 * 2 ^ 16 + 0x0100000000 + 0x10001000100010001 * 2 ^ 224 - 0x100000000 + 2 ^ 16)) }).block 0 64 64 = .ok bs ∧
       subsOk bs = true ∧ sget s.core.bank.tensors (field bs 0 2) = some tensor ∧
       (let u := subOf bs s.nextOp 0 0 tensor
        s.checkLocal u.stat 8 8 = none ∧ (u.units.any fun n => lineMask (unitAddr s.core.curBank n / 128) 512 &&& ~~~s.core.bank.pins != 0) = false ∧
          (u.units.any fun n => s.core.bank.unitsInUse.contains n) = false ∧ s.core.bank.subs.length < 4 ∧ s.core.bank.barrierRoom 0 = true)) ∧
    (solo.core.bank.task = some bt ∧ 8 ∈ bt.outUnits ∧ 8 ∉ bt.marked ∧ 9 ∉ bt.outUnits ∧ 0 ∉ bt.outUnits ∧ 0 ∈ bt.inUnits ∧ 9 ∉ bt.inUnits ∧ ∀ u ∈ solo.core.bank.subs, u.slotAt 0 = none) ∧
    ((at_ { bank with task := some bt, subs := [sub] }).core.bank.subs = [sub] ∧ sub.slotAt 1 = some 0) := by
  refine ⟨⟨⟨rfl, rfl⟩, _, block_of rfl (by decide +kernel), ?_⟩, ⟨rfl, ?_⟩, rfl, ?_⟩ <;> decide +kernel

/-- EngineOperationsStart, WaitsFencesBarriers, LinkAndBlockOperations: blocks that break their rules, and a FENCE in guarded mode. -/
theorem witness_blocks_refused :
    (∃ bs, (blk (leBytes 64 (2 ^ 56))).block 0 64 64 = .ok bs ∧ msendOk co bs = false ∧ xrouteOk bs = false ∧ packetOk bs = false ∧ user.destOk 0 = true) ∧
    (guarded.primaryRuns 0 ∧ guarded.core.bank.status.guard = true ∧ 1 ≤ ({ co with scope := 1 } : COp).scope.toNat) := by
  refine ⟨⟨_, block_of rfl (by decide +kernel), by decide +kernel⟩, ⟨rfl, rfl⟩, rfl, by decide⟩

/-- The block of a subscription of one slot in unit 0. -/
def subBlock : List Byte := leBytes 64 (0x100 * 2 ^ 16 + 0x10001000100010001 * 2 ^ 224)
/-- Subscriptions: the refusals of SUBS: a broken block, no tensor, a unit that is not pinned, one in use, a fifth subscription and a barrier without room. -/
theorem witness_subs_refused :
    (∃ bs, (blk subBlock).block 0 64 64 = .ok bs ∧ subsOk bs = true ∧ sget ([] : List (Nat × Tensor)) (field bs 0 2) = none ∧ field bs 40 8 = 0) ∧
    (∃ bs, (blk (leBytes 64 0)).block 0 64 64 = .ok bs ∧ subsOk bs = false) ∧
    (user.checkLocal 0 8 8 = none ∧ lineMask (unitAddr 0 0 / 128) 512 &&& ~~~(0 : BitVec 65536) ≠ 0 ∧ lineMask (unitAddr 0 0 / 128) 512 &&& ~~~bank.pins = 0) ∧
    (1 ∈ ({ bank with subs := [sub] } : Bank).unitsInUse ∧ 0 ∉ ({ bank with subs := [sub, sub, sub, sub] } : Bank).unitsInUse ∧ 4 ≤ [sub, sub, sub, sub].length) ∧
    ({ bank with cbs := bank.cbs.set 7 { Barrier.clear with count := 8 } } : Bank).barrierRoom 7 = false := by
  refine ⟨⟨_, block_of rfl (by decide +kernel), by decide +kernel⟩, ⟨_, block_of rfl (by decide +kernel), by decide +kernel⟩, ⟨by decide +kernel, by decide +kernel, by decide +kernel⟩, by decide, by decide⟩

/-! ### The steps of agents -/

/-- A page table of partition 0: the page of address 2^32 is at 0x10000, with every right, and no other page is present. -/
def pages : Mem := [(0, 1), (1, 0x20), (0x2000, 1), (0x2001, 0x40), (0x4200, 1), (0x4201, 0x60), (0x6000, 0x0F), (0x6002, 1)]
/-- A task with that page table. -/
def paged : State := { user with mem := pages }
/-- The rights of an access. -/
def rights (write : Bool) : Rights := { write := write, user := true, read := !write }

/-- A drift thread of the running bank that waits for an operation of variable latency. -/
def waits (e : DriftEff) : State := paged.setCore (paged.core.setThread 7 { Thread.clear with running := true, busy := true, eff := e })

/-- CoreEvents: each step's condition. -/
theorem witness_core_events :
    (let x : Pend := { due := 0, seq := 0, eff := .sPlain 63 1, unit := 4, flags := 0 }
     let y : Pend := { x with seq := 1, eff := .sPlain 63 2 }
     (at_ { bank with pend := [x, y] }).core.bank.pend = [x, y] ∧ x.due ≤ bank.tick) ∧
    (user.setCore { user.core with timer := 1 }).core.timer = 1 ∧ user.core.cycle % 256 = 0 ∧ (user.setCore { user.core with cycle := 1 }).core.cycle % 256 ≠ 0 ∧
    (let c := (waits (.hubLoad 8 31)).core
     user.cur < 256 ∧ (c.thread 7).busy = true ∧ (c.thread 7).due = none ∧ (c.thread 7).waitEv = none ∧ (c.thread 7).bank = c.curBank ∧ (c.thread 7).eff = .hubLoad 8 31) ∧
    ((waits (.gload 0x100000000 8 false 31 0 none)).translate 0 0x100000000 (rights false) = .ok 0x10000) ∧
    ((waits (.gstore 0x100000000 [1] 0 none)).translate 0 0x100000000 (rights true) = .ok 0x10000 ∧ Mem.wf pages = true) ∧
    (let c := { user.core with bank := { bank with image := { base := 0, words := [0x80000400, 0x80000400] } }, slots := { user.core.slots with scalar := true } }
     let s := user.setCore (c.setThread 7 { Thread.clear with running := true })
     (∀ m < 8, s.core.threadIsReady m = decide (m = 7)) ∧ s.core.switching = none ∧ s.core.slots.scalar = true ∧ s.core.slots.copy0 = false ∧ s.core.slots.copy1 = false ∧
       s.driftRefuse 7 (some .nop) = none ∧ (s.setCore { s.core with tokens := 0 }).driftRefuse 7 (some .nop) = some 0x14) ∧
    ((user.setCore { user.core with switching := some 161 }).core.switching = some 161 ∧ user.drained = true ∧ user.core.threadsDrained = true) ∧
    (let s := user.setCore { user.core with bank := { bank with run := .event 0 .reissue }, other := bank }
     s.core.switching = none ∧ s.core.otherReady = true ∧ s.core.bank.run = .event 0 .reissue) ∧
    (let s := user.setCore { user.core with bank := { bank with atLoop := true, loop := { LoopState.off with iter := 1 } }, other := { bank with released := true } }
     s.core.bank.run = .active ∧ s.core.bank.handler = false ∧ s.core.bank.taken ≠ some s.core.bank.gstep ∧ s.core.bank.atLoop = true ∧ 0 < s.core.bank.loop.iter ∧ s.core.other.released = true ∧ s.core.otherReady = true) ∧
    (let s := user.setCore { user.core with bank := { bank with status := { bank.status with ie := true } }, inten := 8, pend := 8 }
     s.core.pend &&& s.core.inten ≠ 0 ∧ s.core.bank.status.ie = true ∧ s.core.bank.status.guard = false ∧ s.gang = none ∧ s.core.bank.run = .active ∧ s.core.bank.stall = 0 ∧
       s.core.bank.branch = none ∧ s.core.bank.newBranch = none ∧ s.core.bank.loop.active = false ∧ s.core.bank.rimeFits = true ∧ s.core.bank.framePinned = true) := by
  refine ⟨⟨rfl, ?_⟩, rfl, ?_, ?_, ⟨?_, ?_, ?_, ?_, ?_, rfl⟩, ?_, ?_, ?_, ⟨rfl, ?_⟩, ⟨?_, ?_, rfl⟩, ⟨rfl, ?_⟩, ?_⟩ <;> decide +kernel

/-- CoreEvents: a bank that the other one may take over at a boundary or at a YIELD, and one that it may not. -/
theorem witness_bank_wants :
    (∀ b ∈ [{ bank with atLoop := true, loop := { LoopState.off with iter := 1 } }, { bank with atIter := true, loop := { LoopState.off with iter := 1 } }, { bank with curYield := true }],
      let s := user.setCore { user.core with bank := b, other := { bank with released := true } }
      s.core.switching = none ∧ s.core.otherReady = true ∧ s.gang = none ∧ s.core.bank.run = .active ∧ s.core.bank.handler = false ∧ s.core.bank.taken ≠ some s.core.bank.gstep ∧
        ((s.core.bank.atBoundary = true ∧ 0 < s.core.bank.loop.iter) ∨ s.core.bank.curYield = true) ∧ s.core.other.released = true) ∧
    (let s := user.setCore { user.core with other := bank }
     s.core.otherReady = true ∧ s.gang = none ∧ s.core.bank.run = .active ∧ s.core.other.released = false ∧
       ¬(s.bankPrio s.cur s.core.curBank < s.bankPrio s.cur (1 - s.core.curBank))) := by
  refine ⟨?_, ?_⟩ <;> decide

/-- The drift thread's next bundle in witness_core_events is one NOP. -/
theorem witness_drift_next :
    let c := { user.core with bank := { bank with image := { base := 0, words := [0x80000400, 0x80000400] } } }
    (user.setCore (c.setThread 7 { Thread.clear with running := true })).driftNext 7 = .run 0 (.ok .nop) 4 := by
  rfl

/-- An operation of the running bank. -/
def eop (k : OpKind) : EngineOp := { id := 5, seq := 0, core := 0, bank := 0, cb := 7, drift := none, user := true, part := 0, hint := 0, kind := k, done := 0, old := 0, stop := none, paired := false, data := [], saved := none }
/-- A task with that operation in flight on its barrier 7. -/
def withOp (o : EngineOp) : State :=
  let s := paged.setBank { bank with cbs := bank.cbs.set 7 { Barrier.clear with count := 1 }, subs := [{ sub with op := 5, stat := 0, tensor := { tensor with ttb := 0x100000000 } }] }
  { s with ops := [o] }

/-- EngineEvents: the first line of a copy each way, a global ATOM, an operation that stops, an answer, and a slot. -/
theorem witness_engine_events :
    (let o := eop (.cpy 2 0 none [] [] 0x100000000 128)
     let s := withOp o
     s.op? o.id = some o ∧ o.core = s.cur ∧ o.bank = s.core.curBank ∧ o.drift = none ∧ o.saved = none ∧ o.cb < 8 ∧ s.core.bank.status.guard = false ∧
       s.core.bank.heldWrites = [] ∧ s.core.bank.undo.length ≤ 512 ∧ Mem.wf s.mem = true ∧ Mem.wf s.core.store = true ∧ o.stop = none ∧ o.done < 128 / 128 ∧
       s.core.bank.tracked = [] ∧ s.core.bank.pend = [] ∧ s.core.bank.parked = [] ∧ s.hubXlat o.part (0x100000000 + 128 * o.done) (rights false) = .ok 0x10000 ∧
       s.hubXlat o.part (0x100000000 + 128 * o.done) (rights true) = .ok 0x10000) ∧
    (let o := eop (.atom 0x100000000 9 1 2 63)
     (withOp o).op? 5 = some o ∧ 9 ≤ 9 ∧ (withOp o).hubXlat o.part 0x100000000 { write := true, user := o.user, read := true } = .ok 0x10000) ∧
    (let o := { eop (.cpy 2 0 none [] [] 0x100010000 128) with stop := some RecKind.translation, old := 0x100010000 }
     let e : Event := { id := 3, launch := none, core := 0, bank := 0, op := some 5, thread := none, va := 0x100010000, tile := none, guest := false }
     let s := (withOp o).setHub { (withOp o).hub with events := [e] } |>.setBank { (withOp o).core.bank with run := .event 3 (.cpyw 7) }
     s.op? o.id = some o ∧ s.hub.events.find? (fun x => x.id == 3) = some e ∧ e.thread = none ∧ e.op = some o.id ∧ o.stop = some .translation ∧
       s.core.bank.run = .event 3 (.cpyw o.cb) ∧ s.guestHolds e.va = false ∧ s.absentPte (s.eventPart e) e.va = some 0x6008) ∧
    (let o := eop .subs
     let s := { withOp o with mem := writeBytes pages 0x10000 (leBytes 8 0x20003) }
     let u : Sub := { sub with op := 5, tensor := { tensor with ttb := 0x100000000 } }
     s.core.switching = none ∧ s.core.bank.subs = [u] ∧ u.op = o.id ∧ u.size = 0 ∧ 0 < u.nslot ∧ u.delivered < u.tiles ∧ u.freed.testBit (u.delivered % u.nslot) = true ∧
       u.nextTiles.map u.tensor.tileOf = [some 0] ∧ u.stat + 8 ≤ unitAddr s.core.curBank (u.first + u.delivered % u.nslot) ∧ (u.tiles ≤ u.delivered + 1) ∧
       s.tileWordOn s.cur s.core.curBank o.part o.user u.tensor u.tid 0 = .ok 0x20003 ∧ s.tileGrant 0x20003 false = .ok 0x20000 ∧
       s.core.xlat? s.core.curBank u.tid 0 = none ∧ s.tileWord o.part o.user u.tensor 0 = .ok 0x20003 ∧ u.tensor.full 0 = true ∧
       (∀ k ∈ [0, 511], s.deliveryHeld s.cur s.core.curBank (unitAddr s.core.curBank u.first / 128 + k) = false) ∧
       s.deliveryHeld s.cur s.core.curBank (u.stat / 128) = false) := by
  refine ⟨?_, ?_, ?_, ?_⟩ <;> decide +kernel

/-- EngineEvents: a slot whose last line is due, one whose lines have all landed, and a subscription with a tile left. -/
theorem witness_slot_lines :
    (∀ n ∈ [511, 512], let o := { eop .subs with done := n, data := List.replicate 65536 7 }
      (withOp o).op? o.id = some o ∧ 0 < o.done ∧ o.data.length = 65536) ∧
    (let u : Sub := { sub with op := 5, nslot := 2, box := [3, 1, 1, 1, 1], freed := 3 }
     u.delivered + 1 < u.tiles ∧ 0 < u.nslot ∧ u.freed.testBit (u.delivered % u.nslot) = true) := by
  refine ⟨?_, by decide⟩
  intro n hn
  refine ⟨rfl, ?_, List.length_replicate ..⟩
  revert n; decide

/-- EngineEvents: an operation of a task whose launch runs, and of one whose launch has faulted. -/
theorem witness_engine_launch :
    (∀ k l, (withOp (eop .subs)).core.bank.task = some k → (withOp (eop .subs)).hub.launch? k.launch = some l → l.fault = none) ∧
    (let o := eop (.atom 0x100000000 9 1 2 63)
     let f : Raised := { cause := 0x21, thread := none, cb := 0, addr := 0, aux := 0 }
     let l : Launch := { id := 1, slot := 0, fabric := false, payload := 9, key := 0, queued := false, cond := Vector.replicate 16 0, branches := [], nextBranch := 1, passes := [], joins := [], boards := [], entries := [], fault := some f, faultAt := none, digests := [], endEv := none }
     let s := (withOp o).setBank { (withOp o).core.bank with task := some bt } |>.setHub { (withOp o).hub with launches := [l] }
     s.op? o.id = some o ∧ s.core.bank.task = some bt ∧ s.hub.launch? bt.launch = some l ∧ l.fault = some f ∧ o.stop = none ∧ o.discards = true) := by
  refine ⟨?_, by decide +kernel⟩
  intro k l h
  exact absurd (show none = some k from h) nofun

/-- EngineEvents: ports that are free, an operation alone on its barrier, a tile inside its extents, and a present entry. -/
theorem witness_engine_ports :
    (let o := eop (.cpy 2 0 none [] [] 0x100000000 128)
     let s := withOp o
     s.deliveryHeld s.cur s.core.curBank 0 = false ∧ s.readHeld s.cur [0] = false ∧
       ∀ x ∈ s.ops, x.core = o.core → x.bank = o.bank → x.cb = o.cb → x.drift = none → x.saved = none → x.id ≠ o.id → x.stop = none) ∧
    { tensor with ttb := 0x100000000 }.edgeFault (some 0) = false ∧ 0xC00000 ≤ bitsAt ((2 ^ 40 : Word)).toNat 16 36 := by
  decide +kernel

/-- FabricEvents: a send whose lines have left, one whose receiver has landed its last line, and flits: a message, the
landing, and one of a type that the device drops. -/
theorem witness_fabric_flits :
    (let o := { eop (.lsend 23 3 0 128) with done := 1, paired := true }
     let s := withOp o
     s.op? 5 = some o ∧ o.old = 0 ∧ s.ops.filter (fun x => x.linkDone 23 3) = [o]) ∧
    (let o := { eop (.lsend 23 3 0 128) with done := 1, paired := true, old := 1 }
     let s := withOp o
     let f : Flit := { type := 3, crcOk := true, seq := 0, deltas := [], msg := none, link := none, credit := none, landed := some 3 }
     s.op? 5 = some o ∧ o.core = s.cur ∧ o.bank = s.core.curBank ∧ o.drift = none ∧ o.cb < 8 ∧ o.live = true ∧ s.ops.filter (fun x => x.old == 1) = [o] ∧
       (s.port 23).down = false ∧ f.crcOk = true ∧ f.seq = (s.port 23).expect ∧ f.type = 3 ∧ f.deltas = [] ∧ f.credit = none ∧ f.landed = some 3) ∧
    (let f : Flit := { type := 2, crcOk := true, seq := 0, deltas := [], msg := some (messageOf (List.replicate 64 0)), link := none, credit := none }
     f.crcOk = true ∧ f.seq = (user.port 23).expect ∧ f.type = 2 ∧ f.msg.isSome = true ∧ f.deltas = [] ∧ { f with seq := 1 }.seq ≠ (user.port 23).expect ∧
       { f with crcOk := false }.crcOk = false ∧ 5 ≤ ({ f with type := 5 } : Flit).type.toNat) := by
  refine ⟨?_, ?_, ?_⟩ <;> decide

/-- FabricEvents: a send and a receive with their other halves, one that is done, a flit in turn, a lane, a write due and one held. -/
theorem witness_fabric_events :
    (let o := eop (.lsend 23 3 0 128)
     let s := { withOp o with ports := [(23, { Port.clear with sends := [(3, 5)], credits := [(3, 128)] })] }
     s.op? 5 = some o ∧ onChannel (s.port 23).sends 3 = [5] ∧ onChannel (s.port 23).credits 3 = [128] ∧ onChannel (s.port 23).recvs 3 = []) ∧
    (let o := eop (.lrecv 23 3 0 1)
     let s := { withOp o with ports := [(23, { Port.clear with recvs := [(3, 5)], incoming := [(3, [7])] })] }
     s.op? 5 = some o ∧ [(7 : Byte)].length = 1 ∧ onChannel (s.port 23).sends 3 = [] ∧ onChannel (s.port 23).recvs 3 = [5] ∧ (s.port 23).incoming = [(3, [7])]) ∧
    (let o := { eop (.lrecv 23 3 0 128) with done := 1, paired := true }
     let s := withOp o
     s.ops.filter (fun x => x.linkDone 23 3) = [o] ∧ o.core = s.cur ∧ o.bank = s.core.curBank ∧ o.drift = none ∧ o.cb < 8) ∧
    ((user.port 23).down = false ∧ (user.port 23).spareFor = none ∧ (user.port 23).expect = 0 ∧ 23 < 24 ∧ 8 < 9 ∧
      (({ user with ports := [(23, { Port.clear with spareFor := some 8 })] } : State).port 23).spareFor = some 8) ∧
    (17 < 18 ∧ user.clocks.length = 18 ∧ Mem.wf user.mem = true ∧
      (∀ c < 18, c = 4 ∨ ([] : List Nat).getD c 0 ≤ (user.clocks.getD 17 []).getD c 0) ∧
      (let stamp := [0, 0, 0, 0, 0, 0, 0, 1]; 7 ≠ 4 ∧ (user.clocks.getD 17 []).getD 7 0 < stamp.getD 7 0)) := by
  refine ⟨?_, ?_, ?_, ?_, ?_⟩ <;> decide +kernel

/-- A launch of slot 0 that runs, at a node of the given bytes. -/
def lau (bs : List Byte) : Launch :=
  { id := 1, slot := 0, fabric := false, payload := 9, key := 0, queued := false, cond := Vector.replicate 16 0, branches := [{ id := 0, at_ := .node 0, waitEv := none, block := bs, mark := 0, msg := [] }],
    nextBranch := 1, passes := [], joins := [], boards := [], entries := [], fault := none, faultAt := none, digests := [], endEv := none }
/-- TaskWords: the launch of the running task. -/
theorem witness_condw_launch :
    let s := solo.setHub { solo.hub with launches := [lau []] }
    s.primaryRuns 0 ∧ s.core.bank.task = some bt ∧ s.core.bank.status.guard = false ∧ s.isRerun = false ∧ s.hub.launch? bt.launch = some (lau []) := by
  refine ⟨⟨rfl, rfl⟩, rfl, rfl, rfl, rfl⟩

/-- A device whose slot 0 is armed for tag 5 and which runs the given launches. -/
def dev (ls : List Launch) : State :=
  let h := { Hub.clear with slots := [(0, { ArmSlot.clear with armed := true, tag := 5, graph := 0x100000000 })], launches := ls, launchCount := ls.length,
                            cells := Hub.clear.cells.set 0 { Cell.clear with run := .enabled, part := some 0 } }
  paged.setHub { h with regs := { h.regs with ready := true } }

/-- LaunchEvents: a message to the port and one out of form, a tag that matches and one that does not, a request, and launches. -/
theorem witness_launch_events :
    ((dev []).hub.regs.ready = true ∧ 4032 < 4096 ∧ 4032 % 64 = 0 ∧ (4033 : Nat) % 64 ≠ 0 ∧ (dev []).hub.portQueue.length < 256 ∧
      256 ≤ (List.replicate 256 (default : Nat)).length) ∧
    (dev []).hub.match? 6 = none ∧
    (∃ a, (dev []).hub.match? 5 = some (0, a) ∧ (dev []).hub.slot 0 = a ∧ a.running = none ∧ a.queued.length < 4 ∧ a.rtag = 0) ∧
    (let s := user.setCore { user.core with hubq := [.arm 0 [] 56 0] }
     s.core.hubq = .arm 0 [] 56 s.core.curBank :: [] ∧ s.core.bank.pins.getLsbD (56 / 128) = true ∧ Mem.wf s.core.store = true) ∧
    (let l := { lau [] with queued := true }
     let s := dev [l]
     (s.hub.part 0).halted = false ∧ s.hub.regs.fatal = false ∧ (s.hub.runningIn 0).length < 8 ∧ s.hub.nextLaunch 0 = some l ∧ s.hub.launch? l.id = some l) ∧
    (let l : Launch := { lau [] with branches := [] }
     let s := dev [l]
     s.hub.launch? l.id = some l ∧ l.endEv = none ∧ (s.hub.slotOf l).queued = [] ∧ (s.hub.slotOf l).rtag = 0 ∧ l.id < 2 ^ 64 ∧ Mem.wf s.mem = true ∧ l.queued = false ∧
       l.fault = none ∧ (∀ b ∈ l.branches, b.at_ = .ended) ∧ s.hub.allEnded l.id s.hub.nextTask = true ∧ (∀ x ∈ s.hub.audits, x.launch = l.id → x.decided = true) ∧
       (s.hub.slotOf l).stat = 0 ∧ s.banksOf l.id = [] ∧ s.hubXlat 0 0x100000000 { write := true, user := false, read := false } = .ok 0x10000) ∧
    (let l : Launch := { lau [] with fault := some { cause := 0x21, thread := none, cb := 0, addr := 0, aux := 0 } }
     l.fault = some { cause := 0x21, thread := none, cb := 0, addr := 0, aux := 0 } ∧ 0x21 < 256 ∧ (dev [l]).ops = []) := by
  refine ⟨?_, ?_, ⟨_, rfl, ?_⟩, ?_, ?_, ?_, ?_⟩ <;> decide +kernel

/-- LaunchEvents: messages of the port, of the fabric and of neither, in a device without and with a launch on the slot. -/
theorem witness_launch_messages :
    (∀ d ∈ ([0, 1, 2, 25] : List (BitVec 8)), let m := { messageOf (List.replicate 64 0) with tag := 5, dest := d }
      (∃ a, (dev []).hub.match? m.tag.toNat = some (0, a) ∧ (dev []).hub.slot 0 = a ∧ a.running = none)) ∧
    (let h := (dev [lau []]).hub
     let a := { h.slot 0 with running := some 1 }
     let s := (dev [lau []]).setHub { h with slots := [(0, a)] }
     s.hub.match? 5 = some (0, a) ∧ s.hub.slot 0 = a ∧ a.running ≠ none ∧ a.queued.length < 4 ∧
       4 ≤ ({ a with queued := List.replicate 4 (messageOf []) } : ArmSlot).queued.length) := by
  refine ⟨?_, by decide⟩
  intro d hd
  exact ⟨_, rfl, rfl, rfl⟩

/-- LaunchEvents: a legal node 0 of a launch at the head of its queue. -/
theorem witness_launch_start :
    let l := { lau [] with queued := true }
    let s := { dev [l] with mem := writeBytes pages 0x10000 (leBytes 64 6) }
    s.hub.nextLaunch 0 = some l ∧ s.readNode l 0 = .ok (leBytes 64 6) ∧ nodeOk (leBytes 64 6) = true ∧ (nodeEvent 6 l.id 0).isSome = true := by
  decide +kernel

/-- A node of 64 bytes. -/
def nodeBytes (n : Nat) : List Byte := leBytes 64 n

/-- NodeEvents: a branch at a node of each kind, with no task posted before, at both sides of each choice. -/
theorem witness_node_events :
    (∀ k ∈ [1, 2, 3, 4, 5, 6, 7], let l := lau (nodeBytes k)
      (dev [l]).hub.branchAt 1 0 k = some (l, { id := 0, at_ := .node 0, waitEv := none, block := nodeBytes k, mark := 0, msg := [] }, 0) ∧ (dev [l]).hub.allEnded 1 0 = true) ∧
    ((dev [lau []]).hub.launch? 1 = some (lau []) ∧ ((lau []).branches.find? fun x => x.id == 0).isSome = true) ∧
    (∀ t ∈ (dev [lau []]).hub.tasks, t.launch = 1 → t.node = 0 → t.auditOf = none → t.retired = true) ∧
    ((lau []).word 0 = 0 ∧ ({ lau [] with cond := Vector.replicate 16 1 } : Launch).word 15 ≠ 0 ∧ field (nodeBytes 3) 12 4 = 0 ∧
      field (nodeBytes (3 + 2 ^ 96)) 12 4 = 1 ∧ (sget [(0, 1)] 0).getD 0 = 1) ∧
    (field (nodeBytes (5 + 2 ^ 96)) 12 4 ≤ 0 + 1 ∧ 0 + 1 < field (nodeBytes (5 + 2 * 2 ^ 96)) 12 4) ∧
    ((List.replicate 64 (0 : Byte)).length = 64 ∧ (messageOf (List.replicate 64 0)).dest = 0) := by
  refine ⟨?_, ?_, ?_, ?_, ?_, ?_⟩ <;> decide +kernel

/-- NodeEvents: a node that a branch enters, a node without ALT and one with it, and a launch that is there once NEXT is entered. -/
theorem witness_node_branches :
    (let s := { dev [lau []] with mem := writeBytes pages 0x10000 (leBytes 64 6) }
     0 ≠ noNode ∧ s.hub.launch? 1 = some (lau []) ∧ ((lau []).branches.find? fun x => x.id == 0).isSome = true ∧ s.readNode (lau []) 0 = .ok (leBytes 64 6) ∧
       nodeOk (leBytes 64 6) = true ∧ (nodeEvent (field (leBytes 64 6) 0 1) 1 0).isSome = true) ∧
    field (nodeBytes (1 + 0xFFFFFFFF * 2 ^ 64)) 8 4 = 0xFFFFFFFF ∧ field (nodeBytes (1 + 2 ^ 64)) 8 4 ≠ 0xFFFFFFFF ∧
    (((dev [lau []]).enterNode 1 0 (field (nodeBytes (1 + noNode * 2 ^ 32)) 4 4)).hub.launch? 1).isSome = true := by
  decide +kernel

/-- A task of launch 1 at its TASKSET node. -/
def tsk (r : LoopRec) : Task :=
  { id := 7, launch := 1, node := 0, entry := 0, x := 0, y := 0, stencil := 0, prod := none, recAddr := 0, lrec := some r, prio := 0, waited := 0, since := none, run := .posted, retired := false,
    cores := [], bank := 0, landed := [], resident := [], pulls := [], trets := [], ends := [], digest := none, folds := [], outData := [], audit := none, auditOf := none, banned := [], started := 0, qth := 0, waitEv := none }
/-- A loop record of a solo task. -/
def lrec : LoopRec := { code := 0, pro := 0, ker := 0, epi := 0, trip := 1, stages := 1, kind := 0, rot := 0, vu := 1, at_ := 1, klen := 1, ins := [], outs := [] }
/-- The tile (0, 0) of tensor 0 on the core. -/
def tref : TileRef := { tensor := 0, dx := 0, dy := 0, swap := false, cores := 1 }
/-- A device with a launch, the given tasks and the given running bank. -/
def run (ts : List Task) (b : Bank) : State := ((dev [lau []]).setHub { (dev [lau []]).hub with tasks := ts, nextTask := 8 }).setBank b

/-- TaskEvents: a task to place, one whose input arrives and which starts, an output unit to pull, a task to save and one to resume. -/
theorem witness_task_events :
    (let s := run [tsk lrec] Bank.clear
     s.hub.regs.fatal = false ∧ s.hub.waiting 0 = [tsk lrec] ∧ s.hub.task? 7 = some (tsk lrec) ∧ (tsk lrec).run = .posted ∧ (tsk lrec).lrec = some lrec ∧ lrec.kind = 0 ∧
       lrec.ins = [] ∧ 0 < lrec.trip ∧ s.findPlace 0 (tsk lrec) lrec = some ([s.cur], s.core.curBank) ∧ s.hub.waits 0 (tsk lrec) = true ∧ (tsk lrec).prio + (tsk lrec).waited < 7) ∧
    (let r := { lrec with ins := [tref], outs := [tref] }
     let k := { tsk r with run := .placed, cores := [0] }
     let d := { tensor with ttb := 0x100000000 }
     let s := { run [k] { bank with tensors := [(0, d)], task := some { bt with marked := [8] } } with mem := writeBytes pages 0x10000 (leBytes 8 0x20007) }
     s.hub.task? k.id = some k ∧ k.lrec = some r ∧ s.hub.launch? k.launch = some (lau []) ∧ (lau []).fault = none ∧ k.cores = [s.cur] ∧ k.bank = s.core.curBank ∧ k.waitEv = none ∧
       k.auditOf = none ∧ Mem.wf s.core.store = true ∧ Mem.wf s.mem = true ∧ r.ins[0]? = some tref ∧ 0 ∉ k.resident ∧ tref.cores.testBit 0 = true ∧
       sget s.core.bank.tensors tref.tensor = some d ∧ tref.tileOf d k.x k.y = some 0 ∧ s.tileWordOn s.cur s.core.curBank (s.hub.partOf (lau [])) true d tref.tensor 0 = .ok 0x20007 ∧
       s.tileGrant 0x20007 false = .ok 0x20000 ∧ d.full 0 = true ∧ k.landedIn 0 0 = 0 ∧
       s.deliveryHeld s.cur s.core.curBank (unitAddr s.core.curBank 0 / 128) = false ∧ s.core.bank.unitFlight (unitAddr s.core.curBank 8) = false ∧
       r.outs[0]? = some tref ∧ (s.core.bank.task.map fun y => y.task) = some k.id ∧ 8 ∈ [8] ∧ 8 ∉ ([] : List Nat) ∧ s.tileGrant 0x20007 true = .ok 0x20000) ∧
    (let s := solo.setCore { solo.core with switching := some 162 }
     s.core.bank.task = some bt ∧ s.core.switching = some 162 ∧ s.ops = [] ∧ s.core.threadsQuiet = true ∧ s.guest.queues = [] ∧ s.core.bank.framePinned = true ∧ bt.part < 4) ∧
    (let k := { tsk lrec with run := .saved }
     let v : Saved := { task := 7, member := 0, bank := { bank with pins := 0 }, lines := [], planes := Planes.none, threads := [], guestSave := false }
     let s := run [k] Bank.clear
     let s := s.setHub (s.hub.mapPart 0 fun p => { p with saved := [v] })
     s.hub.waiting 0 = [k] ∧ s.hub.task? k.id = some k ∧ s.findPlace 0 k lrec = some ([s.cur], k.bank) ∧ (s.hub.part 0).saved = [v] ∧ v.task = k.id ∧ v.member = 0 ∧ v.threads = [] ∧ v.bank.run = .active) := by
  refine ⟨?_, ?_, ?_, ?_⟩ <;> decide +kernel

/-- TaskEvents: an input whose last line is due; an output unit with a store or an epilogue's rows still to come. -/
theorem witness_task_lines :
    (let k := { tsk { lrec with ins := [tref] } with run := .placed, cores := [0], landed := [(landKey 0 0, 511)] }
     k.landedIn 0 0 = 511 ∧ (run [k] bank).hub.task? k.id = some k ∧ 0 ∉ k.resident) ∧
    ({ bank with epis := [{ seq := 0, issue := 0, acc := 0, rows := 1, dest := unitAddr 0 8 / 128 + 511, out := 6, act := 0, param := none, next := 0 }] } : Bank).unitFlight (unitAddr 0 8) = true ∧
    ({ bank with pend := [{ due := 3, seq := 0, eff := .store (unitAddr 0 8) [7] none, unit := 4, flags := 0, pub := true }] } : Bank).unitFlight (unitAddr 0 8) = false := by
  decide +kernel

/-- TaskEvents: a task that has waited 2^20 cycles for a place and one that has waited one less; and an element of a tile
that its tensor does not fill. -/
theorem witness_task_aging :
    (∀ c ∈ [2 ^ 20, 2 ^ 20 - 1], let k := { tsk lrec with since := some 0 }
      let s := run [k] Bank.clear
      let s := s.setCore { s.core with cycle := c }
      s.hub.waits 0 k = true ∧ k.agedAt s.now = decide (c = 2 ^ 20)) ∧
    (let d := { tensor with ext := [65000, 1, 1, 1, 1] }
     d.full 0 = false ∧ d.insideAt 0 64999 = true ∧ d.insideAt 0 65000 = false ∧ d.edgeFault (some 0) = false ∧
       ({ d with edge := 1 } : Tensor).edgeFault (some 0) = true) := by
  refine ⟨?_, ?_⟩ <;> decide +kernel

/-- DeviceEvents: a boot that halts and one that does not, a report asked for, the replica steps and a trip. -/
theorem witness_device_events :
    State.reset.svc.load.bootCode = 0 ∧ ({ State.reset.svc with trainOk := false } : Service).load.bootCode ≠ 0 ∧
    (memByte ([(0x30, 1)] : Mem) 0x30 = 1 ∧ Mem.wf [(0x30, 1)] = true) ∧ (1 : Word).getLsbD 0 = true ∧ (65532 : Nat) % 8 ≠ 0 ∧
    (let r := { HubRegs.clear with replN := 3, replPorts := 1 }; r.replOn = true ∧ r.replHalted = false ∧ r.replPorts.testBit 0 = true) ∧
    (let r := { HubRegs.clear with replN := 3, replHalted := true }
     [r.replDigest, 1].length + 1 = r.replN ∧ r.replN < 2 * (1 + (([r.replDigest, 1] : List Word).filter fun d => d == r.replDigest).length) ∧
       2 * (1 + (([1, 2] : List Word).filter fun d => d == r.replDigest).length) ≤ r.replN) ∧
    ((Hub.clear.mcBank 25).en = true ∧ (Hub.clear.mcBank 25).valid = false ∧ (Hub.clear.mcBank 16).en = true ∧ (Hub.clear.mcBank 16).valid = false) ∧
    95 ≤ (95 : BitVec 8).toNat ∧ (89 : BitVec 8).toNat < 90 ∧ 110 ≤ (110 : BitVec 8).toNat := by
  decide +kernel

/-- DeviceEvents: a boot stopped early and one stopped by a device without a cell; a cell of each state; heat on each side of
its thresholds; digests with and without a majority; and a replica that is not on. -/
theorem witness_device_bounds :
    (let v := State.reset.svc
     ({ v with trainOk := false } : Service).earlyCode = 3 ∧ ({ v with harvest := 0 } : Service).earlyCode = 0 ∧ ({ v with harvest := 0 } : Service).bootCode = 4 ∧
       v.harvest.testBit 59 = true ∧ v.harvest.testBit 60 = false ∧ 59 ∉ v.record.retired ∧ 0 ∈ ({ v.record with retired := [0] } : Record).retired ∧ v.dirty = false) ∧
    ((109 : BitVec 8).toNat < 110 ∧ 95 ≤ (95 : BitVec 8).toNat ∧ (89 : BitVec 8).toNat < 90 ∧ 110 ≤ (110 : BitVec 8).toNat ∧
      ({ HubRegs.clear with thermHot := true } : HubRegs).thermHot = true ∧ HubRegs.clear.thermHot = false) ∧
    (majority 3 [1, 2, 2] = true ∧ majority 3 [1, 2, 3] = false ∧ majority 2 [1, 2] = false ∧ majority 3 [2, 2, 1] = true) := by
  refine ⟨?_, ?_, ?_⟩ <;> decide +kernel

/-- A device with a guest that has one packet, whose flag lies at 2^32, and holds one translation. -/
def gst : State :=
  { dev [lau []] with guest := { Guest.clear with present := true, queues := [(0, [{ id := 2, bytes := leBytes 64 (2 ^ 96), launch := none }])], held := [0x100000000], invalidating := [0x10000] } }

/-- GuestEvents: a packet that ends, a translation asked for and one invalidated, an access held and one not, and the host's. -/
theorem witness_guest_events :
    (let p : Packet := { id := 2, bytes := leBytes 64 (2 ^ 96), launch := none }
     gst.guest.packet? p.id = some (0, p) ∧ gst.guest.present = true ∧ gst.hub.regs.guestFenced = false ∧ gst.guest.mayEnd 0 p = true ∧ field p.bytes 0 1 < 0xF0 ∧
       gst.hubXlat gst.hub.regs.guestPart (field p.bytes 8 8) (rights true) = .ok 0x10000 ∧ Mem.wf gst.mem = true ∧ (gst.hub.mcBank 31).en = true ∧ (gst.hub.mcBank 31).valid = false) ∧
    (gst.guest.held.length < 4096 ∧ gst.hubXlat gst.hub.regs.guestPart 0x100000000 (rights false) = .ok 0x10000 ∧ 0x100000000 / 65536 ∈ gst.guest.invalidating ∧
      gst.hub.regs.guestPart < 4 ∧ (∃ l ∈ gst.hub.launches, gst.hub.partOf l = gst.hub.regs.guestPart)) ∧
    ((∀ h ∈ gst.guest.held, h / 65536 ≠ 0x100010000 / 65536) ∧ (∃ h ∈ gst.guest.held, h / 65536 = 0x100000000 / 65536) ∧ 0x10000FFFF % 65536 + 1 ≤ 65536 ∧
      gst.hubXlat gst.hub.regs.guestPart 0x10000FFFF (rights true) = .ok 0x1FFFF) ∧
    (gst.hub.regs.ready = true ∧ 0xBFFFFFFFFF + 1 ≤ 0xC000000000 ∧ 0x10000000000 ≤ 0x1FFFFFFFFFF ∧ 0x1FFFFFFFFFF + 1 ≤ 0x20000000000 ∧
      0xC000000000 < 0xFFFFFFFFFF + 1 ∧ 0xFFFFFFFFFF + 1 ≤ 0x10000000000 ∧ (gst.hub.mcBank 16).en = true ∧ (gst.hub.mcBank 16).valid = false) := by
  refine ⟨?_, ?_, ?_, ?_⟩ <;> decide +kernel

/-- GuestEvents: a PREEMPT of a launch that may end, a packet whose flag is not zero, and a fault's codes. -/
theorem witness_guest_preempt :
    (let p : Packet := { id := 2, bytes := leBytes 64 (0xF0 + 2 ^ 96), launch := some 1 }
     let s := { gst with guest := { gst.guest with queues := [(0, [p])] } }
     s.hubXlat s.hub.regs.guestPart (field p.bytes 8 8) (rights true) = .ok 0x10000 ∧ s.guest.packet? p.id = some (0, p) ∧ s.guest.present = true ∧ s.hub.regs.guestFenced = false ∧ s.guest.mayEnd 0 p = true ∧ p.launch = some 1 ∧
       field p.bytes 0 1 = 0xF0) ∧
    (0x8000 ≤ (0x8000 : BitVec 16).toNat ∧ 250 < (251 : BitVec 8).toNat ∧ ¬(250 < (250 : BitVec 8).toNat)) := by
  refine ⟨?_, ?_⟩ <;> decide +kernel

/-- ErrorEvents: the hub's own bank, and the last byte of a stack's memory. -/
theorem witness_error_fatal :
    (let e : ErrorSite := { bank := 16, unit := 0, addr := 0, synd := 0 }
     e.bank = 16 ∧ (Hub.clear.mcBank 16).en = true ∧ (Hub.clear.mcBank 16).valid = false) ∧
    (0xBFFFFFFFFF : Word).toNat < 0xC000000000 := by decide

/-- ErrorEvents: a site in a stack's bank, both modes of a bank, an audit at each stage, a test, and cells to move. -/
theorem witness_error_events :
    (25 < 26 ∧ (Hub.clear.mcBank 15).en = true ∧ (Hub.clear.mcBank 15).valid = false ∧ 4 ≤ 15 ∧ 15 < 16 ∧ user.cur < 256 ∧ user.core.bank.run = .active ∧ user.core.bank.status.guard = false) ∧
    (let s := guarded.setCore { guarded.core with shadow := some bank }
     s.core.bank.status.guard = true ∧ s.core.bank.rerun = none ∧ s.gang = none ∧ s.core.shadow = some bank ∧ s.core.bank.undo = []) ∧
    (∀ ds ∈ ([[1], [1, 1], [1, 2], [1, 2, 1], [2, 1, 1]] : List (List Word)),
      let a : Audit := { task := 7, launch := 1, cells := [0, 63, 1].take ds.length, digests := ds, data := [], dies := [], ends := false, rerun := none, decided := false }
      let s := run [tsk lrec] bank
      let s := s.setHub { s.hub with audits := [a] }
      s.hub.audits = [a] ∧ (s.hub.task? a.task).isSome = true ∧ a.decided = false ∧ a.rerun = none) ∧
    (let h := { Hub.clear with cells := Hub.clear.cells.set 63 { Cell.clear with testing := some (2, some 0) } }
     (h.cell 63).testing = some (2, some user.cur)) ∧
    (let h := { Hub.clear with cells := Hub.clear.cells.set 0 { Cell.clear with run := .retired, part := some 3 } }
     h.idle 3 = true ∧ (List.range 64).find? (fun c => (h.cell c).run == .retired && (h.cell c).part == some 3) = some 0 ∧
       (List.range 64).find? (fun c => (h.cell c).run == .spare) = some 60) ∧
    (let h := (dev []).hub
     (h.cell 0).run = .enabled ∧ (h.cell 0).testing = none ∧ (h.cell 0).part = some 0 ∧ h.idle 0 = true ∧ h.idle 3 = true) := by
  refine ⟨?_, ?_, ?_, ?_, ?_, ?_⟩ <;> decide +kernel

/-! ### The step, the encoding and memory -/

/-- A task about to issue a bundle of one word. -/
def fetching : State :=
  { at_ { bank with image := { base := 0, words := [0x804D34EC, 0x80000400] }, pc := 0, next := 0 } with agenda := [] }

/-- StepRunsDecoded: an event, a core's turn, the bundle ADD, and a drift thread's NOP. -/
theorem witness_step :
    ((dev []).hub.regs.fatal = false ∧ ({ dev [] with agenda := [.event .timerExpiry] } : State).agenda = .event .timerExpiry :: [] ∧ 255 < 256) ∧
    (let s := fetching
     let i : Instr := .add { d := 13, a := 13, b := 14, g := 12 }
     s.agenda = [] ∧ s.hub.regs.fatal = false ∧ s.agent = .primary ∧ s.core.switching = none ∧ s.core.bank.run = .active ∧ s.core.bank.stall = 0 ∧ s.gang = none ∧
       s.resumeDue = false ∧ s.preemptDue = false ∧ s.interruptDue = false ∧ s.core.bank.kernel = none ∧ encode i = some [0x004D34EC] ∧ WellFormed i ∧ isCpyw i = false ∧ isTrap i = false) ∧
    (let u := fetching.land_.boundary
     let b := u.core.bank
     b.waitPc = none ∧ b.rerun = none ∧ u.image.fetch b.pc.toNat b.byBranch = .ok ([0x004D34EC ||| 0x80000000], 4)) ∧
    (let i : Instr := .add { d := 13, a := 13, b := 14, g := 12 }
     let u := fetching.land_.boundary
     let xs : Bundle := [((classOf 0x004D34EC).toNat, .ok i)]
     let v := u.setBank (u.core.bank.begin_ 4 xs (u.bundleLeaf xs))
     v.bundleFault xs = none ∧ ∃ t, exec i (v.setBank { v.core.bank with sub := 0, vslot := 0, cslot := 0 }) = .next t) := by
  refine ⟨by decide, by decide +kernel, ⟨rfl, rfl, rfl⟩, rfl, _, rfl⟩

/-- A task about to issue a bundle of a scalar instruction and a vector one. -/
def fetching2 : State := fetching.setBank { fetching.core.bank with image := { base := 0, words := [0x804D34EC, 0x20408200, 0x00F0901C, 0x80000400] } }
/-- StepRunsDecoded: a bundle of two members, run in order; and one whose slots do not fit. -/
theorem witness_step_bundle :
    (let s := fetching2
     let u := s.land_.boundary
     ∃ is : List (Nat × Instr), is.length = 2 ∧
       u.image.fetch u.core.bank.pc.toNat u.core.bank.byBranch = .ok ([0x804D34EC, 0x20408200, 0x00F0901C], 12) ∧
       decodeBundle 16 [0x804D34EC, 0x20408200, 0x00F0901C] = is.map (fun x => (x.1, .ok x.2)) ∧
       s.agenda = [] ∧ s.core.bank.run = .active ∧ s.core.bank.kernel = none ∧ u.core.bank.waitPc = none ∧ u.core.bank.rerun = none ∧
       (∀ x ∈ is, isCpyw x.2 = false ∧ isTrap x.2 = false ∧ isEret x.2 = false) ∧
       (let xs : Bundle := is.map fun x => (x.1, .ok x.2)
        let v := u.setBank (u.core.bank.begin_ 12 xs (u.bundleLeaf xs))
        v.bundleFault xs = none ∧ ∃ t, execInOrder is 0 0 0 v t)) ∧
    (let i : Instr := .add { d := 13, a := 13, b := 14, g := 12 }
     fetching.bundleFault [(0, .ok i), (0, .ok i), (0, .ok i), (0, .ok i), (0, .ok i), (0, .ok i)] = some 0x04) := by
  refine ⟨⟨[(0, .add { d := 13, a := 13, b := 14, g := 12 }), (2, .vfma { vd := 16, w := false, g := 8, km := 0, ha := false, hb := false, hc := false, a := 3, b := 0x309, c := 7, rnd := 0 })],
    rfl, by decide +kernel, by decide +kernel, rfl, rfl, rfl, rfl, rfl, by decide, by decide +kernel, ?_⟩, by decide +kernel⟩
  refine ⟨_, _, rfl, ?_, _, rfl, ?_, rfl⟩ <;> decide +kernel

/-- StepRunsDecoded: an engine's step that waits for its core's turn, and one that does not. -/
theorem witness_step_waits :
    (let o := eop (.cpy 2 0 none [] [] 0x100000000 128)
     let s := { withOp o with agenda := [.core 0] }
     s.waitsFor (.engineLineLand 5) = some 0 ∧ ({ s with agenda := [] } : State).waitsFor (.engineLineLand 5) = none) ∧
    (dev []).waitsFor .timerExpiry = none := by
  refine ⟨?_, ?_⟩ <;> decide

/-- RoundTrip: a well-formed instruction of one word and one of two. -/
theorem witness_round_trip :
    (encode (.add { so with g := 15 })).isSome = true ∧ WellFormed (.add { so with g := 15 }) ∧ (encode (.vadd vo)).isSome = true ∧ WellFormed (.vadd vo) := by
  decide

/-- MemoryStaysCanonical: the reset state, and a step from it. -/
theorem witness_memory : State.reset.memOk = true ∧ ∃ t, step State.reset = .next t := ⟨by decide, _, rfl⟩

/-- ArmDisarmLdt and TaskWords: a legal descriptor, and the launch of a task. -/
theorem witness_descriptor :
    (tensorOf (leBytes 64 (1 + 6 * 2 ^ 8 + 65536 * 2 ^ 64 + 2 ^ 96 + 2 ^ 128 + 2 ^ 160 + 2 ^ 192 + 32768 * 2 ^ 224 + 2 ^ 240 + 2 ^ 256 + 2 ^ 272 + 2 ^ 288))).isSome = false ∧
    (tensorOf (leBytes 64 (1 + 8 * 2 ^ 8 + 65536 * 2 ^ 64 + 2 ^ 96 + 2 ^ 128 + 2 ^ 160 + 2 ^ 192 + 16384 * 2 ^ 224 + 2 ^ 240 + 2 ^ 256 + 2 ^ 272 + 2 ^ 288))).isSome = true ∧
    (run [tsk lrec] { bank with task := some bt }).hub.launch? bt.launch = some (lau []) ∧ (15 : BitVec 32).toNat < 16 := by
  decide +kernel

/-! ### Single steps; every expected value is the spec's own -/

/-- The running bank of an outcome, n ticks later, with the results then due landed. -/
def later (n : Nat) (o : Out) : Bank :=
  match o with
  | .next t => ((t.setBank { t.core.bank with tick := t.core.bank.tick + n }).landDue).core.bank
  | _ => Bank.clear
/-- The state of an outcome. -/
def out (o : Out) : State := match o with | .next t => t | _ => State.reset
/-- F32 lanes, lane 0 first. -/
def f32s (xs : List Nat) : VBits := ofLanes 32 xs
/-- A register operation on s1 and s2 into s3. -/
def s312 : SOp := { d := 3, a := 1, b := 2, g := 0 }

/-- R317: -7 over 2 is -3, a zero divisor gives -1, and the most negative quotient wraps. -/
theorem test_div : (later 20 (exec (.div s312) (regs (-7) 2))).sregN 3 = -3 ∧ (later 20 (exec (.div s312) (regs 5 0))).sregN 3 = -1 ∧
    (later 20 (exec (.div s312) (regs 0x8000000000000000 (-1)))).sregN 3 = 0x8000000000000000 := by decide
/-- R317: a result is not in its register one tick before its latency ends. -/
theorem test_mul_latency : (later 2 (exec (.mul s312) (regs 6 7))).sregN 3 = 0 ∧ (later 3 (exec (.mul s312) (regs 6 7))).sregN 3 = 42 := by decide
/-- R317: the high half of a signed and of an unsigned product of -1 and 2. -/
theorem test_mulh : (later 3 (exec (.mulh s312) (regs (-1) 2))).sregN 3 = -1 ∧ (later 3 (exec (.mulhn s312) (regs (-1) 2))).sregN 3 = 1 := by decide
/-- R301: a write to s0 is discarded. -/
theorem test_s0 : (later 1 (exec (.add { s312 with d := 0 }) (regs 1 2))).sregN 0 = 0 := by decide
/-- R317: a shift by 64 is a shift by 0, and SAR copies bit 63. -/
theorem test_shift : (later 1 (exec (.shl s312) (regs 3 64))).sregN 3 = 3 ∧ (later 1 (exec (.sar s312) (regs (-8) 1))).sregN 3 = -4 := by decide
/-- R327: CLZ of 0 is 64. -/
theorem test_clz : (later 1 (exec (.clz { s312 with b := 0 }) (regs 0 0))).sregN 3 = 64 ∧ (later 1 (exec (.clz { s312 with b := 0 }) (regs 1 0))).sregN 3 = 63 := by decide
/-- R307: LT is signed and LTN unsigned; R280: the complement is written too. -/
theorem test_cmp : (later 1 (exec (.cmp { s312 with g := 2 }) (regs (-1) 1))).pred 3 = true ∧ (later 1 (exec (.cmp { s312 with g := 4 }) (regs (-1) 1))).pred 3 = false ∧
    (later 1 (exec (.cmp { s312 with g := 2 }) (regs (-1) 1))).pred 11 = false := by decide
/-- R19: the result of a CMP enters scalar latch 0 as 1 or 0. -/
theorem test_cmp_latch : (later 1 (exec (.cmp { s312 with g := 2 }) (regs (-1) 1))).latS[0] = { val := 1, valid := true } := by decide
/-- R319: MOVH keeps the low half. -/
theorem test_movh : (later 1 (exec (.movh { xo with d := 1, imm := 7 }) (regs 0x1234567890 0))).sregN 1 = 0x734567890 := by decide
/-- R350: MBR's leaf from the first true test. -/
theorem test_mbr : (out (exec (.mbr { xo with imm := 0x10210 }) user)).core.bank.leaf = some 3 := by decide
/-- R347: a LOOP of no iteration goes on behind its kernel. -/
theorem test_loop_zero : ((out (exec (.loop { lr with a := 1, imm := 0x101 }) (at_ { bank with image := { base := 0, words := [0xD2810101, 0x80000400, 0x80000400, 0x80000400] } }))).core.bank.advance).pc = 8 := by decide

/-- R383: an I8 sum wraps. -/
theorem test_vadd_wraps :
    laneAt 8 ((later 2 (exec (.vadd { vo with vd := 2, b := 1 }) (at_ ((bank.setV 0 { bits := 127, tag := 6 }).setV 1 { bits := 1, tag := 6 })))).vreg 2).bits 0 = 128 := by decide +kernel
/-- R382: the magnitude of the most negative I8 is itself, and of a negative zero zero. -/
theorem test_vabs :
    laneAt 8 ((later 2 (exec (.vabs { vo with vd := 2 }) (at_ (bank.setV 0 { bits := 128, tag := 6 })))).vreg 2).bits 0 = 128 ∧
    laneAt 32 ((later 2 (exec (.vabs { vo with vd := 2 }) (at_ (bank.setV 0 { bits := 0x80000000, tag := 1 })))).vreg 2).bits 0 = 0 := by decide +kernel
/-- R66: the fixed tree gives 16777218. -/
theorem test_vrsum :
    laneAt 32 ((later 6 (exec (.vrsum { vo with vd := 2 }) (at_ (bank.setV 0 { bits := f32s [0x4B800000, 0x3F800000, 0x3F800000, 0x3F800000], tag := 1 })))).vreg 2).bits 0 = 0x4B800001 := by
  decide +kernel
/-- R191: the two best of shard 1 are 3.0 at 67 and -0 at 74, and its left-out sum is -61.0. -/
theorem test_vtopk :
    let v := f32s ((List.range 64).map fun l => if l = 3 then 0x40400000 else if l = 10 then 0x80000000 else 0xBF800000)
    let b := later 12 (exec (.vtopk { vo with vd := 44, b := 0x309, c := 0x30B }) (at_ (((bank.setV 0 { bits := v, tag := 1 }).setS 9 3).setS 11 64)))
    (laneAt 32 (b.vreg 44).bits 0, laneAt 32 (b.vreg 45).bits 0) = (0x40400000, 67) ∧
    (laneAt 32 (b.vreg 44).bits 1, laneAt 32 (b.vreg 45).bits 1) = (0x80000000, 74) ∧
    (laneAt 32 (b.vreg 44).bits 3, laneAt 32 (b.vreg 45).bits 3) = (0x7FC00000, 0xFFFFFFFF) ∧
    laneAt 32 (b.vreg 46).bits 1 = 0xC2740000 := by decide +kernel
/-- R54: two tags that disagree raise cause 0x05. -/
theorem test_vadd_tags : (out (exec (.vadd { vo with b := 1 }) (vec 1 11))).core.bank.cause = 5 := by decide +kernel

/-- R84: MZERO clears a tile and sets its tag after eight ticks. -/
theorem test_mzero : ((later 8 (exec (.mzero { mo with mode := 1 }) (at_ (bank.putRow 0 3 5 (some 1))))).tile 0).row 3 = 0 ∧
    ((later 8 (exec (.mzero { mo with mode := 1 }) (at_ (bank.putRow 0 3 5 (some 1))))).tile 0).tag = 8 := by decide +kernel
/-- R340: GROW past the bank's limit answers 1 and adds nothing. -/
theorem test_grow : (later 1 (exec (.grow { xo with d := 3, imm := 1 }) user)).sregN 3 = 1 ∧ (later 1 (exec (.grow { xo with d := 3, imm := 1 }) user)).vu = 12 := by decide +kernel

/-- R342, R4: a signed halfword is read little-endian and extended. -/
theorem test_ld : (later 5 (exec (.ld { co with data := 3, fmt := 7 }) (blk [0xFE, 0xFF, 0x01]))).sregN 3 = -2 := by decide +kernel
/-- R99: misaligned, outside the window, and the supervisor half in user mode. -/
theorem test_ld_checks : (out (exec (.ld { c1 with fmt := 12 }) (regs 4 0))).core.bank.cause = 8 ∧ (out (exec (.ld { c1 with fmt := 12 }) (regs 0x800000 0))).core.bank.cause = 6 ∧
    (out (exec (.ld { c1 with fmt := 12 }) (regs (-8) 0))).core.bank.cause = 12 := by decide +kernel
/-- R369: while bank 1 holds line 0x800, PIN answers 2 and pins nothing. -/
theorem test_pin_other :
    let s := at_ ((({ bank with pins := 0 } : Bank).setS 8 0x40000).setS 7 2)
    let s := s.setCore { s.core with other := { Bank.clear with pins := 1 <<< 0x800 } }
    let b := later 6 (exec (.pin { co with data := 6, sa := 8, sb := 7 }) s)
    b.sregN 6 = 2 ∧ b.pins.getLsbD 0x800 = false := by decide +kernel
/-- R121: FADD rounds 2^24 + 1 to even, CAS replaces an equal word. -/
theorem test_atom : atomNew 10 0x4B800000 0x3F800000 0 = 0x4B800000 ∧ atomNew 9 5 7 5 = 7 ∧ atomNew 9 6 7 5 = 6 ∧ atomNew 1 (-1) 1 0 = -1 ∧ atomNew 3 (-1) 1 0 = 1 := by decide +kernel
/-- R115: a CPYW on a barrier with an operation outstanding waits on it. -/
theorem test_cpyw : (out (exec (.cpyw { co with cb := 7 }) (bar { Barrier.clear with count := 1 }))).core.bank.run = .cpyw 7 := by decide +kernel

/-- R208, R214, R215: a TRAP with code 5 enters supervisor mode at TVEC; its CAUSE holds the code. -/
theorem test_trap :
    let b := (out (exec (.trap { xo with imm := 5 }) (at_ { bank with tvec := 0x1000, next := 8 }))).core.bank
    b.status.sup = true ∧ b.pc = 0x1000 ∧ b.epc = 8 ∧ b.cause = 0x5000E := by decide +kernel
/-- R202: in user mode MTSR of TVEC raises cause 0x0C; R302: in supervisor mode it governs two ticks later. -/
theorem test_mtsr : (out (exec (.mtsr { xo with a := 1, imm := 0x0A }) (regs 64 0))).core.bank.cause = 12 ∧
    (later 2 (exec (.mtsr { xo with a := 1, imm := 0x0A }) (at_ (super.core.bank.setS 1 64)))).tvec = 64 := by decide +kernel
/-- R35: a drift thread's ADD of d1 and d2 is due after four cycles. -/
theorem test_drift_add : ((out (exec (.add s312) thr)).core.thread 0).due = some 4 ∧ ((out (exec (.add { s312 with d := 32 }) thr)).core.bank.cause) = 0x0801 := by decide +kernel
/-- R154, R156: an unmatched message is counted. -/
theorem test_unmatched : (out (exec (.taggedMessage { (messageOf (List.replicate 64 0)) with tag := 6 }) (dev []))).hub.regs.unmatched = 1 := by decide +kernel
/-- R268: power-on sets READY and leaves no boot code. -/
theorem test_power_on : (out (step State.reset)).hub.regs.ready = true ∧ (out (step State.reset)).hub.regs.bootCode = 0 := by decide +kernel
/-- FIPS 180-4's example: the digest of "abc" (log entry 64). -/
theorem test_sha384_abc : (sha384 [0x61, 0x62, 0x63]).map (·.toNat) =
    [0xcb, 0x00, 0x75, 0x3f, 0x45, 0xa3, 0x5e, 0x8b, 0xb5, 0xa0, 0x3d, 0x69, 0x9a, 0xc6, 0x50, 0x07, 0x27, 0x2c,
     0x32, 0xab, 0x0e, 0xde, 0xd1, 0x63, 0x1a, 0x8b, 0x60, 0x5a, 0x43, 0xff, 0x5b, 0xed, 0x80, 0x86, 0x07, 0x2b,
     0xa1, 0xe7, 0xcc, 0x23, 0x58, 0xba, 0xec, 0xa1, 0x34, 0xc8, 0x25, 0xa7] := by decide +kernel
/-- The first instruction after reset is the one that withFetchWord places (log entry 1). -/
theorem test_first_step : (out (step (State.reset.withFetchWord 32 0x804D34E0))).core.bank.pend.length = 1 := by decide +kernel

/-! ### The assembler -/

/-- A source of lines, assembled. -/
def asm (ls : List String) : Option Asm.Image := (Asm.assemble (ls.flatMap fun s => s.toList ++ ['\n'])).toOption
/-- The code words of a source; none where fjas rejects it. -/
def asmWords (ls : List String) : Option (List Nat) := (asm ls).map fun i => i.text.map (·.toNat)
/-- The data bytes of a source. -/
def asmBytes (ls : List String) : Option (List Nat) := (asm ls).map fun i => i.data.map (·.toNat)

/-- R8: the bundle of four instructions, and the pad words before one that does not fit. -/
theorem test_asm_bundle : asmWords
    ["    add s6, s1, s2 | vadd v10, v2, v3", "| vadd v11, v4, v5 | ldv.f32 v12, [s0+0x1000] ; R8",
     "movl s1, 5 | vadd v1, v2, v3 | vadd v4, v5, v6", "| mflip wa | cpyw cb0"] =
    some ([0x80460420, 0x20105000, 0x00803000, 0x20105800, 0x01005000, 0x40818000, 0x10001000] ++
      List.replicate 9 0x60000000 ++
      [0x90010000, 5, 0x20100800, 0x00803000, 0x20102000, 0x01406000, 0x30400000, 0, 0x41C00000, 0]) := by decide +kernel
/-- R287: the source at the chapter's end: its record and its nodes. -/
theorem test_asm_source :
    (asmBytes
      ["        .text 0x0000_0002_0000_0000", "kbody:  taskend", "        .data 0x0000_0002_0010_0000",
       "        .stencil left, (3,3), (2,3)        ; left = 0x0808_0000",
       "rec:    .record code=kbody, pro=kbody, trip=1, kind=cell", "        .graph",
       "n0:     .node taskset, record=rec, w=3, h=2, stencil=0, prod=none",
       "n1:     .node taskset, record=rec, w=3, h=2, stencil=left, prod=n0", "        .edge n0, n1", "        .end"]).map
      (fun b => (b.take 20, (b.drop 64).take 12, b.drop 128)) =
    some ([0, 0, 0, 0, 2, 0, 0, 0, 0, 0, 0, 0, 0, 0, 1, 0, 0, 0, 8, 0], [1, 0, 0, 0, 1, 0, 0, 0, 255, 255, 255, 255],
      [1, 0, 0, 0, 255, 255, 255, 255, 255, 255, 255, 255, 0, 0, 0, 0, 0, 0, 0x10, 0, 2, 0, 0, 0, 3, 0, 2, 0, 0, 0, 8, 8, 0,
       0, 0, 0] ++ List.replicate 28 0) := by decide +kernel
/-- R280, R282, R26: a negated guard with a label 20 bytes before, and an MBR. -/
theorem test_asm_branch : asmWords ["x: nop", "nop", "nop", "nop", "nop", "(!p1) br x"] =
      some [0x80000400, 0x80000400, 0x80000400, 0x80000400, 0x80000400, 0xD04FFFFB] ∧
    asmWords ["mbr.chain b0, p1, !p2, p3, p0"] = some [0x91000000, 0x00020321] := by decide +kernel
/-- R284: DP8 literals, and literals above a format's largest value. -/
theorem test_asm_literals : asmBytes [".data", ".dp8 0.7, 0.005, 2, -2, nan", ".f32 1.5"] =
      some [0x12, 0x77, 0x00, 0x88, 0xF0, 0, 0, 0xC0, 0x3F] ∧
    asmBytes [".data", ".dp8 2.5"] = none ∧ asmBytes [".data", ".f8e4 464.1"] = none := by decide +kernel
/-- R276, R281, R287: what fjas rejects. -/
theorem test_asm_rejects : asmWords ["movi s7, 1|2"] = none ∧ asmWords ["movi s7, (1|2)"] = some [0x89C70003] ∧
    asmWords ["pin s6, [s0+0x4_0000], s7"] = none ∧ asmWords ["(p1) movi s7, 1"] = none ∧
    asmWords ["add s1, s2, s3 | add s4, s5, s6"] = none ∧ asmWords ["br 0", "br 0"] = none ∧
    asmWords ["loop s1, 1, 2", "nop"] = none ∧ asmWords ["add: nop"] = none ∧ asmWords ["x: nop", "x: nop"] = none := by
  decide +kernel

end Sys2Proof.Tests
end

section
/-! ATOM (R121): the word each operation leaves, an ATOM that lands, and the causes it raises. -/

namespace Sys2Proof.Machine

/-! ### The word an ATOM leaves -/

/-- The signed comparison selects the smaller integer. -/
theorem ofInt_min_toInt {w : Nat} (x y : BitVec w) :
    BitVec.ofInt w (min x.toInt y.toInt) = if x.slt y then x else y := by
  rw [BitVec.slt_eq_decide]
  by_cases h : x.toInt < y.toInt
  · simp [h, min_eq_left h.le]
  · simp [h, min_eq_right (not_lt.mp h)]

/-- The signed comparison selects the larger integer. -/
theorem ofInt_max_toInt {w : Nat} (x y : BitVec w) :
    BitVec.ofInt w (max x.toInt y.toInt) = if x.slt y then y else x := by
  rw [BitVec.slt_eq_decide]
  by_cases h : x.toInt < y.toInt
  · simp [h, max_eq_right h.le]
  · simp [h, max_eq_left (not_lt.mp h)]

/-- The unsigned comparison selects the smaller number. -/
theorem ofNat_min_toNat {w : Nat} (x y : BitVec w) :
    BitVec.ofNat w (min x.toNat y.toNat) = if x.ult y then x else y := by
  rw [BitVec.ult_eq_decide]
  by_cases h : x.toNat < y.toNat
  · simp [h, min_eq_left h.le]
  · simp [h, min_eq_right (not_lt.mp h)]

/-- The unsigned comparison selects the larger number. -/
theorem ofNat_max_toNat {w : Nat} (x y : BitVec w) :
    BitVec.ofNat w (max x.toNat y.toNat) = if x.ult y then y else x := by
  rw [BitVec.ult_eq_decide]
  by_cases h : x.toNat < y.toNat
  · simp [h, max_eq_right h.le]
  · simp [h, max_eq_left (not_lt.mp h)]

/-- R63: the FP32 sum is the exact sum of the two values, rounded once to nearest even. -/
theorem addRne_eq (a b : Nat) :
    addRne a b = encodeF .f32 .rne false (FVal.add .rne (decodeF .f32 a) (decodeF .f32 b)) := rfl

/-- R121: FADD adds the low 32 bits of the old word and of the operand. -/
theorem atomNew_fadd (old x cmp : Word) :
    atomNew 10 old x cmp = BitVec.ofNat 64 (encodeF .f32 .rne false
      (FVal.add .rne (decodeF .f32 (old.toNat % 2 ^ 32)) (decodeF .f32 (x.toNat % 2 ^ 32)))) := by
  rw [← addRne_eq]; rfl

/-- R121: the compare-and-swap. -/
theorem atomNew_cas (old x cmp : Word) : atomNew 9 old x cmp = if old = cmp then x else old := rfl

/-! ### An ATOM that lands -/

/-- R124: making writes visible changes no barrier. -/
@[simp] theorem Core.afterFence_cb (c : Core) (seq n : Nat) : (c.afterFence seq).bank.cb n = c.bank.cb n := by
  unfold Core.afterFence; split <;> rfl

/-- R114: the barrier of an operation that finishes holds its result and counts one less. -/
theorem Bank.finishOn_cb (b : Bank) {n : Nat} (hn : n < 8) (op : Nat) (v : Option Word) :
    (b.finishOn n op v).cb n = (b.cb n).finish op v := by
  have h : (b.setCb n ((b.cb n).finish op v)).cb n = (b.cb n).finish op v := by
    rw [Bank.setCb_cb b n _ n hn hn, if_pos rfl]
  exact h

/-- R121, R122: the core after an ATOM lands whose value no other agent of its core has fixed. -/
theorem State.landOne_atom_core (s : State) {e : Pend} {a op cb id : Nat} {x cmp : Word}
    (he : e.eff = .atom a op x cmp cb id none) :
    (s.landOne e).core = Core.afterFence { s.core with
      store := writeBytes s.core.store a (atomOn s.core.store a op x cmp),
      bank := s.core.bank.finishOn cb id (some (BitVec.ofNat 64 (readNat s.core.store a (atomBytes op)))) } e.seq := by
  rw [State.landOne, he]; rfl

/-- R121: an ATOM that lands writes its new word in the window. -/
theorem State.landOne_atom_store (s : State) {e : Pend} {a op cb id : Nat} {x cmp : Word}
    (he : e.eff = .atom a op x cmp cb id none) :
    (s.landOne e).core.store = writeBytes s.core.store a (atomOn s.core.store a op x cmp) := by
  rw [State.landOne_atom_core s he, Core.afterFence_store]

/-- R121, R114: an ATOM that lands finishes on its barrier with the old word, zero-extended. -/
theorem State.landOne_atom_cb (s : State) {e : Pend} {a op cb id : Nat} {x cmp : Word}
    (he : e.eff = .atom a op x cmp cb id none) (hcb : cb < 8) :
    (s.landOne e).core.bank.cb cb =
      (s.core.bank.cb cb).finish id (some (BitVec.ofNat 64 (readNat s.core.store a (atomBytes op)))) := by
  rw [State.landOne_atom_core s he, Core.afterFence_cb, Bank.finishOn_cb _ hcb]

@[simp] theorem length_atomOn (m : Mem) (pa op : Nat) (x cmp : Word) : (atomOn m pa op x cmp).length = atomBytes op :=
  length_leBytes _ _

/-- R121: the word read after an ATOM is the new one, cut to the word's width. -/
theorem readNat_writeBytes_atomOn {m : Mem} (h : Mem.wf m = true) (pa op : Nat) (x cmp : Word) :
    readNat (writeBytes m pa (atomOn m pa op x cmp)) pa (atomBytes op) =
      (atomNew op (BitVec.ofNat 64 (readNat m pa (atomBytes op))) x cmp).toNat % 2 ^ (8 * atomBytes op) := by
  rw [atomOn, readNat_writeBytes h, Nat.pow_mul]

/-! ### The causes of ATOM -/

/-- In the primary an instruction whose guard is true runs. -/
theorem State.primaryRuns.runs {s : State} {g : BitVec 4} (h : s.primaryRuns g) : s.runs g := by
  obtain ⟨ha, hg⟩ := h
  simp [State.runs, ha, hg]

/-- R304: an instruction with an illegal field and a true guard raises cause 0x01. -/
theorem runOne_illegal {s : State} {i : Instr} (alone : Bool) (hf : fieldsOk i = false)
    (hg : s.core.bank.guard (fieldGuard i) = true) : runOne (checked (some i)) alone s = s.raise 0x01 := by
  simp [checked, hf, runOne, hg]

/-- R121: the operation codes 11 to 15 are illegal. -/
theorem fieldsOk_atom_false {o : COp} (h : 11 ≤ o.fmt.toNat) : fieldsOk (.atom o) = false := by
  have hc : decide (o.fmt.toNat ≤ 10) = false := decide_eq_false (by omega)
  simp [fieldsOk, hc]

/-- R99: a range below 2^56 passes the first two steps, so the third finds it misaligned. -/
theorem checkSteps13_misaligned (user : Bool) {a n al : Nat} (hn : 0 < n) (hend : a + n ≤ 2 ^ 56) (hal : a % al ≠ 0) :
    checkSteps13 user a n al = some 0x08 := by
  have hlow : a < 2 ^ 56 := by omega
  have hlast : a + n - 1 < 2 ^ 56 := by omega
  have hmax : max n 1 = n := max_eq_left hn
  have hstep1 : step1 a (max n 1) = true := by
    simp only [step1, canonical, hmax, hlow, hlast, decide_true, Bool.true_or, Bool.and_self, if_true]
  have hstep2 : decide (2 ^ 56 ≤ a) = false := decide_eq_false (not_le.mpr hlow)
  simp only [checkSteps13, hstep1, hstep2, Bool.not_true, Bool.and_false, Bool.false_eq_true, if_false, ne_eq, hal,
    not_false_eq_true, if_true]

/-- R99: a misaligned word of the window raises cause 0x08. -/
theorem State.checkLocal_misaligned (s : State) {a n al : Nat} (hn : 0 < n) (hend : a + n ≤ 2 ^ 56) (hal : a % al ≠ 0) :
    s.checkLocal a n al = some 0x08 := by
  rw [State.checkLocal, checkSteps13_misaligned _ hn hend hal]

/-- R99: a misaligned global word raises cause 0x08. -/
theorem State.checkGlobal_misaligned (s : State) {a n al : Nat} (hn : 0 < n) (hend : a + n ≤ 2 ^ 56) (hal : a % al ≠ 0) :
    s.checkGlobal a n al = some 0x08 := by
  rw [State.checkGlobal, checkSteps13_misaligned _ hn hend hal]

theorem atomBytes_pos (op : Nat) : 0 < atomBytes op := by unfold atomBytes; split <;> decide

/-- The width by the operation field. -/
theorem atomBytes_toNat (f : BitVec 4) : atomBytes f.toNat = if f = 10 then 4 else 8 := by
  have h : f.toNat = 10 ↔ f = 10 := by rw [← BitVec.toNat_inj]; rfl
  simp only [atomBytes, h]

/-- R121: the primary's ATOM on a word that is not aligned to its width raises cause 0x08 with its address. -/
theorem execAtom_misaligned {o : COp} {s : State} (hr : s.primaryRuns o.g) (hd : s.destOk (dataReg o) = true)
    (hend : s.ea o + atomBytes o.fmt.toNat ≤ 2 ^ 56) (hal : s.ea o % atomBytes o.fmt.toNat ≠ 0) :
    execAtom o s = s.raiseWith 0x08 0 (s.ea o) 0 := by
  have hn := atomBytes_pos o.fmt.toNat
  rw [execAtom, State.guarded_runs hr.runs]
  simp only [State.dregsOk_primary hr.1, hd, hr.1, Bool.not_true, Bool.false_eq_true, if_false]
  cases hw : inWindow (s.ea o)
  · simp [State.checkGlobal_misaligned s hn hend hal]
  · simp [State.atomLocal, State.checkLocal_misaligned s hn hend hal]

/-! ### The statement -/

/-- Settles O43, clause by clause: the words of `atomNew`, the landing of a result in flight, and the two causes. -/
theorem atomicOperations : Obligations.AtomicOperations := by
  unfold Obligations.AtomicOperations
  refine ⟨fun old x c => ?words, fun s a op cb id x c hwf _ hcb => ?landing, fun o s hr => ⟨fun hop => ?illegal, ?aligned⟩⟩
  case words =>
    refine ⟨rfl, (ofInt_min_toInt old x).symm, (ofInt_max_toInt old x).symm, (ofNat_min_toNat old x).symm,
      (ofNat_max_toNat old x).symm, rfl, rfl, rfl, rfl, fun h => ?_, fun h => ?_, atomNew_fadd old x c⟩
    · rw [atomNew_cas, if_pos h]
    · rw [atomNew_cas, if_neg h]
  case landing =>
    intro w n old
    have hstore : w.core.store = writeBytes s.core.store a (atomOn s.core.store a op x c) := State.landOne_atom_store s rfl
    have hbar : w.core.bank.cb cb = (s.core.bank.cb cb).finish id (some old) := State.landOne_atom_cb s rfl hcb
    rw [hstore, hbar]
    refine ⟨readNat_writeBytes_atomOn hwf a op x c, rfl, rfl, fun y hy => memByte_writeBytes_out hwf ?_⟩
    rwa [length_atomOn]
  case illegal => exact runOne_illegal true (fieldsOk_atom_false hop) hr.2
  case aligned =>
    rw [← atomBytes_toNat]
    exact fun hd hend hal => execAtom_misaligned hr hd hend hal

end Sys2Proof.Machine
end

section
/-! Counts, moves, SEL and the immediate operations (R318, R319, R327, R372): the results and refusals of every scalar
operation, and where a scalar result lands. -/

namespace Sys2Proof.Machine

/-! ### The refusals of a scalar operation -/

/-- A drift instruction whose guard is true runs. -/
theorem State.threadRuns.runs {s : State} {n : Nat} {g : BitVec 4} (h : s.threadRuns n g) : s.runs g := by
  obtain ⟨ha, hg, hp⟩ := h
  simp [State.runs, ha, hg, hp]

/-- R31: in drift code a guard code of 4 to 15 raises cause 0x01. -/
theorem State.guarded_drift_badCode {s : State} {n : Nat} {g : BitVec 4} (k : State → Out) (ha : s.agent = .drift n)
    (hg : 4 ≤ g.toNat) : s.guarded g k = s.raise 0x01 := by
  simp [State.guarded, ha, hg]

/-- R31: a register field of 32 or more in drift code. -/
theorem State.dregsOk_drift_false {s : State} {n : Nat} {f : BitVec 6} {fs : List (BitVec 6)} (ha : s.agent = .drift n)
    (hf : f ∈ fs) (h32 : 32 ≤ f.toNat) : s.dregsOk fs = false := by
  rw [State.dregsOk, ha]
  exact List.all_eq_false.mpr ⟨f, hf, by simpa using h32⟩

/-- The first of the fields that a thread may name. -/
theorem State.dregsOk_head {s : State} {f : BitVec 6} {fs : List (BitVec 6)} (h : s.dregsOk (f :: fs) = true) :
    s.dregsOk [f] = true := by
  unfold State.dregsOk at *
  split at h <;> simp_all

/-- In drift code every destination is allowed. -/
theorem State.destOk_drift {s : State} {n : Nat} (ha : s.agent = .drift n) (d : BitVec 6) : s.destOk d = true := by
  rw [State.destOk, ha]

/-- R202: s56 to s59 are no destinations in user mode. -/
theorem State.destOk_user {s : State} {d : BitVec 6} (ha : s.agent = .primary) (hs : s.sup? = false)
    (h56 : 56 ≤ d.toNat) (h59 : d.toNat ≤ 59) : s.destOk d = false := by
  simp [State.destOk, ha, hs, h56, h59]

/-- R31: a scalar operation with a register field that a thread may not name raises cause 0x01. -/
theorem State.scalarOp_badReg {s : State} {lat dlat : Nat} {d : BitVec 6} {srcs : List (BitVec 6)} {v : State → Word}
    (h : s.dregsOk (d :: srcs) = false) : s.scalarOp lat dlat d srcs v = s.raise 0x01 := by
  simp [State.scalarOp, h]

/-- R202: a scalar operation of the primary to s56 to s59 raises cause 0x0C in user mode. -/
theorem State.scalarOp_userDest {s : State} {lat dlat : Nat} {d : BitVec 6} {srcs : List (BitVec 6)} {v : State → Word}
    (ha : s.agent = .primary) (hs : s.sup? = false) (h56 : 56 ≤ d.toNat) (h59 : d.toNat ≤ 59) :
    s.scalarOp lat dlat d srcs v = s.raise 0x0C := by
  simp [State.scalarOp, State.dregsOk_primary ha, State.destOk_user ha hs h56 h59]

/-- R304: a drift instruction with an illegal field and a true guard raises cause 0x01. -/
theorem State.driftRun_illegal {s : State} {n : Nat} {i : Instr} (hf : fieldsOk i = false)
    (hp : (s.core.thread n).pred (fieldGuard i).toNat = true) : s.driftRun n (checked (some i)) = s.raise 0x01 := by
  simp [checked, hf, State.driftRun, hp]

/-- R304: an illegal field under guard g raises cause 0x01 for both agents. -/
theorem illegalField_raises {s : State} {i : Instr} {g : BitVec 4} (h : fieldsOk i = false ∧ fieldGuard i = g) :
    (s.primaryRuns g → runOne (checked (some i)) true s = s.raise 0x01) ∧
      ∀ n, s.threadRuns n g → s.driftRun n (checked (some i)) = s.raise 0x01 := by
  obtain ⟨hf, rfl⟩ := h
  exact ⟨fun hr => runOne_illegal true hf hr.2, fun n hr => State.driftRun_illegal hf hr.2.2⟩

/-- R293, R304: an illegal field of an instruction without a guard raises cause 0x01 for both agents. -/
theorem illegalField_raises_noGuard {s : State} {i : Instr} (h : fieldsOk i = false ∧ fieldGuard i = 0) :
    (s.agent = .primary → runOne (checked (some i)) true s = s.raise 0x01) ∧
      ∀ n, s.driftRun n (checked (some i)) = s.raise 0x01 := by
  obtain ⟨hf, hg⟩ := h
  refine ⟨fun _ => runOne_illegal true hf ?_, fun n => State.driftRun_illegal hf ?_⟩
  · rw [hg, Bank.guard_zero]
  · rw [hg]; exact Thread.pred_zero _

/-! ### The instructions as scalar operations -/

/-- A guarded scalar operation on one register completes. -/
theorem State.unaryOp_next {s : State} {o : SOp} {f : Word → Word} (hr : s.runs o.g) (hd : s.dregsOk [o.d, o.a] = true)
    (hdest : s.destOk o.d = true) : s.unaryOp o f = .next (s.scalarResult 1 4 o.d (f (s.rs o.a))) := by
  rw [State.unaryOp, State.guarded_runs hr, State.scalarOp_next hd hdest]

/-- An immediate operation, which has no guard, completes. -/
theorem State.immOp_next {s : State} {o : SImm} {f : Word → Word → Word} (hd : s.dregsOk [o.d, o.a] = true)
    (hdest : s.destOk o.d = true) :
    s.immOp o f = .next (s.scalarResult 1 4 o.d (f (s.rs o.a) (o.imm.signExtend 64))) :=
  State.scalarOp_next hd hdest

/-! R327: the operations on one register. -/

theorem exec_clz (o : SOp) (s : State) :
    exec (.clz o) s = s.unaryOp o fun x => BitVec.ofNat 64 (clzBits x.toNat 64) := rfl
theorem exec_popc (o : SOp) (s : State) :
    exec (.popc o) s = s.unaryOp o fun x => BitVec.ofNat 64 (popCount x.toNat 64) := rfl
theorem exec_mov (o : SOp) (s : State) : exec (.mov o) s = s.unaryOp o id := rfl

/-! R318: the immediate operations. -/

theorem exec_addi (o : SImm) (s : State) : exec (.addi o) s = s.immOp o (· + ·) := rfl
theorem exec_andi (o : SImm) (s : State) : exec (.andi o) s = s.immOp o (· &&& ·) := rfl
theorem exec_ori (o : SImm) (s : State) : exec (.ori o) s = s.immOp o (· ||| ·) := rfl
theorem exec_xori (o : SImm) (s : State) : exec (.xori o) s = s.immOp o (· ^^^ ·) := rfl
theorem exec_shli (o : SImm) (s : State) : exec (.shli o) s = s.immOp o fun x _ => x <<< o.imm.toNat := rfl
theorem exec_shri (o : SImm) (s : State) : exec (.shri o) s = s.immOp o fun x _ => x >>> o.imm.toNat := rfl
theorem exec_sari (o : SImm) (s : State) : exec (.sari o) s = s.immOp o fun x _ => x.sshiftRight o.imm.toNat := rfl
theorem exec_movi (o : SImm) (s : State) : exec (.movi o) s = s.immOp o fun _ i => i := rfl

/-! R319: the long immediates. -/

theorem exec_addl (o : XOp) (s : State) :
    exec (.addl o) s = s.guarded o.g fun s => s.scalarOp 1 4 o.d [o.a] fun s => s.rs o.a + o.imm.signExtend 64 := rfl
theorem exec_movl (o : XOp) (s : State) :
    exec (.movl o) s = s.guarded o.g fun s => s.scalarOp 1 4 o.d [] fun _ => o.imm.signExtend 64 := rfl
theorem exec_movh (o : XOp) (s : State) :
    exec (.movh o) s = s.guarded o.g fun s => s.scalarOp 1 4 o.d [] fun s => o.imm ++ (s.rs o.d).setWidth 32 := rfl

/-- R327: CLZ, POPC and MOV are operations on one register. -/
theorem exec_unary {o : SOp} {i : Instr} (hi : i ∈ [Instr.clz o, .popc o, .mov o]) :
    ∃ f, ∀ s, exec i s = s.unaryOp o f := by
  simp only [List.mem_cons, List.not_mem_nil, or_false] at hi
  obtain rfl | rfl | rfl := hi
  exacts [⟨_, exec_clz o⟩, ⟨_, exec_popc o⟩, ⟨_, exec_mov o⟩]

/-- R318: the immediate operations are one shared operation on sext(imm10). -/
theorem exec_immediate {o : SImm} {i : Instr}
    (hi : i ∈ [Instr.addi o, .andi o, .ori o, .xori o, .shli o, .shri o, .sari o, .movi o]) :
    ∃ f, ∀ s, exec i s = s.immOp o f := by
  simp only [List.mem_cons, List.not_mem_nil, or_false] at hi
  obtain rfl | rfl | rfl | rfl | rfl | rfl | rfl | rfl := hi
  exacts [⟨_, exec_addi o⟩, ⟨_, exec_andi o⟩, ⟨_, exec_ori o⟩, ⟨_, exec_xori o⟩, ⟨_, exec_shli o⟩, ⟨_, exec_shri o⟩,
    ⟨_, exec_sari o⟩, ⟨_, exec_movi o⟩]

/-- R319: the long immediates are guarded scalar operations to sd. -/
theorem exec_long {o : XOp} {i : Instr} (hi : i ∈ [Instr.addl o, .movl o, .movh o]) :
    ∃ srcs v, ∀ s, exec i s = s.guarded o.g fun s => s.scalarOp 1 4 o.d srcs v := by
  simp only [List.mem_cons, List.not_mem_nil, or_false] at hi
  obtain rfl | rfl | rfl := hi
  exacts [⟨_, _, exec_addl o⟩, ⟨_, _, exec_movl o⟩, ⟨_, _, exec_movh o⟩]

/-- R372: a SEL whose selector code the agent may name is a scalar operation without a guard. -/
theorem exec_sel {o : SOp} {s : State} (h : (s.isDrift && decide (4 ≤ o.g.toNat)) = false) :
    exec (.sel o) s = s.scalarOp 1 4 o.d [o.a, o.b] fun s => if s.selector o.g then s.rs o.a else s.rs o.b := by
  change execSel o s = _
  rw [execSel, h]; rfl

/-- R31, R372: in drift code a selector code of 4 to 15 raises cause 0x01. -/
theorem exec_sel_badCode {o : SOp} {s : State} {n : Nat} (ha : s.agent = .drift n) (hg : 4 ≤ o.g.toNat) :
    exec (.sel o) s = s.raise 0x01 := by
  change execSel o s = _
  simp [execSel, State.isDrift, ha, hg]

/-- R372: the primary's SEL takes the register that its selector's predicate chooses, in an MBR bundle too. -/
theorem exec_sel_primary {o : SOp} {s : State} (ha : s.agent = .primary) (hdest : s.destOk o.d = true) :
    exec (.sel o) s = .next (s.scalarResult 1 4 o.d
      (if s.core.bank.pred o.g then s.core.bank.sreg o.a else s.core.bank.sreg o.b)) := by
  rw [exec_sel (by simp [State.isDrift, ha]), State.scalarOp_next (State.dregsOk_primary ha _) hdest]
  simp [State.selector, State.rs, ha]

/-- R372: a thread's SEL takes the register that its own predicate chooses. -/
theorem exec_sel_drift {o : SOp} {s : State} {n : Nat} (ha : s.agent = .drift n) (hg : o.g.toNat < 4)
    (hd : s.dregsOk [o.d, o.a, o.b] = true) :
    exec (.sel o) s = .next (s.scalarResult 1 4 o.d
      (if (s.core.thread n).pred o.g.toNat then (s.core.thread n).dreg o.a else (s.core.thread n).dreg o.b)) := by
  rw [exec_sel (by simp [hg]), State.scalarOp_next hd (State.destOk_drift ha _)]
  simp [State.selector, State.rs, ha]

/-- R31: SEL with a register that the thread may not name raises cause 0x01, whatever its selector. -/
theorem exec_sel_badReg {o : SOp} {s : State} {n : Nat} (ha : s.agent = .drift n)
    (hd : s.dregsOk [o.d, o.a, o.b] = false) : exec (.sel o) s = s.raise 0x01 := by
  by_cases hg : 4 ≤ o.g.toNat
  · exact exec_sel_badCode ha hg
  · rw [exec_sel (by simp [hg]), State.scalarOp_badReg hd]

/-- R327: CLZ's count of a register. -/
theorem clzBits_word (x : Word) : clzBits x.toNat 64 ≤ 64 ∧
    (∀ i, 64 - clzBits x.toNat 64 ≤ i → x.getLsbD i = false) ∧
    (clzBits x.toNat 64 < 64 → x.getLsbD (63 - clzBits x.toNat 64) = true) :=
  clzBits_spec x 64 le_rfl fun i hi => BitVec.getLsbD_of_ge x i hi

/-- R327: what CLZ, POPC and MOV write. -/
theorem exec_unary_results {o : SOp} {s : State} (hr : s.runs o.g) (hd : s.dregsOk [o.d, o.a] = true)
    (hdest : s.destOk o.d = true) :
    (∃ n : Nat, n ≤ 64 ∧ exec (.clz o) s = .next (s.scalarResult 1 4 o.d (BitVec.ofNat 64 n)) ∧
      (∀ i, 64 - n ≤ i → (s.rs o.a).getLsbD i = false) ∧ (n < 64 → (s.rs o.a).getLsbD (63 - n) = true)) ∧
    exec (.popc o) s = .next (s.scalarResult 1 4 o.d
      (BitVec.ofNat 64 (((List.range 64).filter fun i => (s.rs o.a).getLsbD i).length))) ∧
    exec (.mov o) s = .next (s.scalarResult 1 4 o.d (s.rs o.a)) := by
  obtain ⟨hle, habove, htop⟩ := clzBits_word (s.rs o.a)
  refine ⟨⟨clzBits (s.rs o.a).toNat 64, hle, ?_, habove, htop⟩, ?_, ?_⟩
  · rw [exec_clz, State.unaryOp_next hr hd hdest]
  · rw [exec_popc, State.unaryOp_next hr hd hdest, popCount_spec]
  · rw [exec_mov, State.unaryOp_next hr hd hdest]; rfl

/-! ### Illegal fields -/

/-- R327: sb is reserved in CLZ, POPC and MOV. -/
theorem unary_sb_illegal {o : SOp} {i : Instr} (hb : o.b ≠ 0) (hi : i ∈ [Instr.clz o, .popc o, .mov o]) :
    fieldsOk i = false ∧ fieldGuard i = o.g := by
  simp only [List.mem_cons, List.not_mem_nil, or_false] at hi
  obtain rfl | rfl | rfl := hi <;> exact ⟨beq_eq_false_iff_ne.mpr hb, rfl⟩

/-- R318: a shift count is 0 to 63. -/
theorem immediate_shift_illegal {o : SImm} {i : Instr} (h : 64 ≤ o.imm.toNat)
    (hi : i ∈ [Instr.shli o, .shri o, .sari o]) : fieldsOk i = false ∧ fieldGuard i = 0 := by
  simp only [List.mem_cons, List.not_mem_nil, or_false] at hi
  obtain rfl | rfl | rfl := hi <;> exact ⟨decide_eq_false (not_lt.mpr h), rfl⟩

/-- R318: sa is reserved in MOVI. -/
theorem movi_sa_illegal {o : SImm} (ha : o.a ≠ 0) : fieldsOk (.movi o) = false ∧ fieldGuard (.movi o) = 0 :=
  ⟨beq_eq_false_iff_ne.mpr ha, rfl⟩

/-- R319: sub is reserved in the long immediates, and sa in MOVL and MOVH. -/
theorem long_illegal {o : XOp} {i : Instr} (hi : i ∈ [Instr.addl o, .movl o, .movh o])
    (h : o.sub ≠ 0 ∨ (o.a ≠ 0 ∧ i ≠ .addl o)) : fieldsOk i = false ∧ fieldGuard i = o.g := by
  simp only [List.mem_cons, List.not_mem_nil, or_false] at hi
  obtain rfl | rfl | rfl := hi
  · have hsub : o.sub ≠ 0 := h.resolve_right fun hn => hn.2 rfl
    exact ⟨by simpa [fieldsOk, xZero] using hsub, rfl⟩
  all_goals
    have hor : o.a = 0 → o.sub ≠ 0 := fun ha => h.resolve_right fun hn => hn.1 ha
    exact ⟨by simpa [fieldsOk, xZero] using hor, rfl⟩

/-! ### A primary's result lands (R15, R19) -/

/-- A result of a scalar instruction that lands: its register, and scalar latch 0. -/
theorem State.landOne_s {s : State} {e : Pend} {n : Nat} {v : Word} (he : e.eff = .s n v) :
    s.landOne e = s.setBank ((s.core.bank.setS n v).latchS v) := by
  simp [State.landOne, he]

/-- The only result in flight, not yet due, stays so. -/
theorem State.landDue_single_later (s : State) {b : Bank} {e : Pend} (hp : b.pend = [e]) (hd : b.tick < e.due) :
    (s.setBank b).landDue = s.setBank b := by
  have hpend : ({ b with pend := [e] } : Bank) = b := by rw [← hp]
  simp only [State.landDue, State.setBank_core, hp, List.filter_cons, not_le.mpr hd, List.filter_nil, decide_false,
    Bool.not_false, if_true, Bool.false_eq_true, if_false, List.foldl_nil, State.setBank_setBank]
  exact congrArg s.setBank hpend

/-- The only result in flight, due and without flags, lands alone. -/
theorem State.landDue_single_now (s : State) {b : Bank} {e : Pend} (hp : b.pend = [e]) (hd : e.due ≤ b.tick)
    (hf : e.flags = 0) : (s.setBank b).landDue = (s.setBank { b with pend := [] }).landOne e := by
  simp only [State.landDue, State.setBank_core, State.setBank_setBank, hp, List.filter_cons, hd, List.filter_nil,
    decide_true, Bool.not_true, if_true, Bool.false_eq_true, if_false, List.foldl_cons, List.foldl_nil]
  rw [hf, Bank.setFlags_none, State.setBank_self]

/-- A scalar result alone in flight, seen at another tick. -/
theorem State.scalarResult_atTick {s : State} (lat dlat t : Nat) (d : BitVec 6) (v : Word) (ha : s.agent = .primary)
    (hp : s.core.bank.pend = []) :
    let u := s.scalarResult lat dlat d v
    u.setBank { u.core.bank with tick := t } = s.setBank { s.core.bank with
      tick := t, pend := [⟨s.core.bank.tick + lat, s.core.bank.seq, .s d.toNat v, 4, 0, false⟩] } := by
  simp only [State.scalarResult_primary ha, Bank.addPend, hp]
  rfl

/-- R15: a scalar result alone in flight is still in flight before its tick, and nothing else has changed. -/
theorem State.scalarResult_later {s : State} {lat t : Nat} (dlat : Nat) (d : BitVec 6) (v : Word) (ha : s.agent = .primary)
    (hp : s.core.bank.pend = []) (ht : t < s.core.bank.tick + lat) :
    let u := s.scalarResult lat dlat d v
    (u.setBank { u.core.bank with tick := t }).landDue = s.setBank { s.core.bank with
      tick := t, pend := [⟨s.core.bank.tick + lat, s.core.bank.seq, .s d.toNat v, 4, 0, false⟩] } := by
  simp only [State.scalarResult_atTick lat dlat t d v ha hp]
  exact State.landDue_single_later s rfl ht

/-- A scalar result that lands changes the scalar registers and the scalar latch alone. -/
theorem Bank.setS_latchS (b : Bank) (n : Nat) (v : Word) :
    (b.setS n v).latchS v = { b with s := (b.setS n v).s, latS := shiftIn b.latS { val := v, valid := true } } := by
  rw [Bank.setS_frame]; rfl

/-- R15, R19: a scalar result alone in flight is at its tick in its register and in scalar latch 0. -/
theorem State.scalarResult_now {s : State} {lat t : Nat} (dlat : Nat) (d : BitVec 6) (v : Word) (ha : s.agent = .primary)
    (hp : s.core.bank.pend = []) (ht : s.core.bank.tick + lat ≤ t) :
    let u := s.scalarResult lat dlat d v
    (u.setBank { u.core.bank with tick := t }).landDue =
      s.setBank ((({ s.core.bank with tick := t } : Bank).setS d.toNat v).latchS v) := by
  have hempty : ({ s.core.bank with tick := t, pend := [] } : Bank) = { s.core.bank with tick := t } := by rw [← hp]
  simp only [State.scalarResult_atTick lat dlat t d v ha hp]
  rw [State.landDue_single_now s rfl ht rfl, State.landOne_s rfl]
  exact congrArg (fun b : Bank => s.setBank ((b.setS d.toNat v).latchS v)) hempty

/-! ### A drift thread's result lands (R35) -/

/-- A fold in which only the n-th step changes anything is that step. -/
theorem foldl_range_only {σ : Type} {f : σ → Nat → σ} {s : σ} {n k : Nat} (hn : n < k)
    (hbefore : ∀ m < k, m ≠ n → f s m = s) (hafter : ∀ m < k, m ≠ n → f (f s n) m = f s n) :
    (List.range k).foldl f s = f s n := by
  have key : ∀ j ≤ k, (List.range j).foldl f s = if n < j then f s n else s := by
    intro j hj
    induction j with
    | zero => rfl
    | succ j ih =>
      rw [List.range_succ, List.foldl_append, ih (by omega), List.foldl_cons, List.foldl_nil]
      rcases lt_trichotomy n j with h | rfl | h
      · rw [if_pos h, if_pos (by omega), hafter j (by omega) (by omega)]
      · rw [if_neg (lt_irrefl n), if_pos (by omega)]
      · rw [if_neg (by omega), if_neg (by omega), hbefore j (by omega) (by omega)]
  rw [key k le_rfl, if_pos hn]

/-- A thread replaced changes nothing of its core but the threads. -/
theorem Core.setThread_frame (c : Core) (n : Nat) (t : Thread) :
    c.setThread n t = { c with threads := (c.setThread n t).threads } := by
  unfold Core.setThread; split <;> rfl

@[simp] theorem Core.setThread_bank (c : Core) (n : Nat) (t : Thread) : (c.setThread n t).bank = c.bank := by
  rw [Core.setThread_frame]

/-- A thread replaced reads back. -/
theorem Core.setThread_self (c : Core) {n : Nat} (hn : n < 8) (t : Thread) : (c.setThread n t).thread n = t := by
  rw [Core.setThread_thread _ _ _ _ hn hn, if_pos rfl]

/-- A thread replaced leaves the others as they were. -/
theorem Core.setThread_other (c : Core) {n m : Nat} (hn : n < 8) (hm : m < 8) (hne : m ≠ n) (t : Thread) :
    (c.setThread n t).thread m = c.thread m := by
  rw [Core.setThread_thread _ _ _ _ hn hm, if_neg hne]

/-- Of two replacements of a thread the second stands. -/
theorem Core.setThread_setThread (c : Core) (n : Nat) (t u : Thread) : (c.setThread n t).setThread n u = c.setThread n u := by
  unfold Core.setThread; split <;> simp

/-- The core's cycle and its threads are apart. -/
theorem Core.setThread_cycle (c : Core) (k n : Nat) (t : Thread) :
    ({ c with cycle := k } : Core).setThread n t = { c.setThread n t with cycle := k } := by
  unfold Core.setThread; split <;> rfl

/-- A thread that waits until a cycle for a result v of its register k. -/
def Thread.issueD (t : Thread) (due k : Nat) (v : Word) : Thread := { t with busy := true, due := some due, eff := .d k v }

/-- A thread that is ready again, with the result v in its register k. -/
def Thread.landD (t : Thread) (k : Nat) (v : Word) : Thread :=
  { t.setD k v with busy := false, due := none, eff := .none, waitEv := none }

/-- The completion puts the result into the registers as they stood at issue. -/
theorem Thread.landD_issueD (t : Thread) (due k : Nat) (v : Word) : (t.issueD due k v).landD k v = t.landD k v := by
  unfold Thread.landD Thread.issueD Thread.setD
  split
  · split <;> rfl
  · rfl

/-- R31, R301: a drift register after the completion. -/
theorem Thread.landD_dreg {t : Thread} {d : BitVec 6} (hd : d.toNat < 32) (v : Word) :
    (t.landD d.toNat v).dreg d = if d = 0 then 0 else v := by
  change (t.setD d.toNat v).dreg d = _
  rw [Thread.setD_dreg _ _ _ _ hd hd, if_pos rfl]

/-- R317: a thread's scalar result goes to its register after dlat cycles. -/
theorem State.scalarResult_drift {s : State} {n : Nat} (ha : s.agent = .drift n) (lat dlat : Nat) (d : BitVec 6) (v : Word) :
    s.scalarResult lat dlat d v =
      s.setCore (s.core.setThread n ((s.core.thread n).issueD (s.core.cycle + dlat) d.toNat v)) := by
  rw [State.scalarResult, ha]
  exact State.driftIssue_eq ha dlat _

/-- R35: the completion of a register operation of a thread of the running bank. -/
theorem State.driftDone_d {s : State} {n k : Nat} {v : Word} (hn : n < 8) (hb : (s.core.thread n).bank = s.core.curBank)
    (he : (s.core.thread n).eff = .d k v) :
    s.driftDone n = s.setCore (s.core.setThread n ((s.core.thread n).landD k v)) := by
  rw [State.driftDone, State.onBank, if_pos hb]
  simp only [State.asAgent, State.driftApply, State.thread, he, State.putD, State.threadReady, State.setThread,
    State.setCore, Core.setThread_self _ hn, Core.setThread_setThread, Thread.landD]

/-- R35: with one operation of fixed latency due, its completion is all that falls due. -/
theorem State.driftDue_only {s : State} {n c : Nat} (hn : n < 8) (hbusy : (s.core.thread n).busy = true)
    (hdue : (s.core.thread n).due = some c) (hc : c ≤ s.core.cycle)
    (hidle : ∀ m < 8, m ≠ n → (s.core.thread m).busy = false ∧ ((s.driftDone n).core.thread m).busy = false) :
    s.driftDue = s.driftDone n := by
  rw [State.driftDue]
  refine (foldl_range_only hn (fun m hm hne => ?_) (fun m hm hne => ?_)).trans ?_
  · simp [(hidle m hm hne).1]
  · simp [hbusy, hdue, hc, (hidle m hm hne).2]
  · simp [hbusy, hdue, hc]

/-- R35: a thread's scalar result is in its register when its cycles have passed and no other thread's operation runs. -/
theorem State.scalarResult_driftDue {s : State} {n : Nat} (lat dlat : Nat) (d : BitVec 6) (v : Word)
    (ha : s.agent = .drift n) (hn : n < 8) (hb : (s.core.thread n).bank = s.core.curBank)
    (hidle : ∀ m < 8, m ≠ n → (s.core.thread m).busy = false) :
    let t := s.scalarResult lat dlat d v
    (t.setCore { t.core with cycle := s.core.cycle + dlat }).driftDue =
      s.setCore { s.core.setThread n ((s.core.thread n).landD d.toNat v) with cycle := s.core.cycle + dlat } := by
  rw [State.scalarResult_drift ha]
  dsimp only
  generalize hu : State.setCore _ _ = u
  have hself : u.core.thread n = (s.core.thread n).issueD (s.core.cycle + dlat) d.toNat v :=
    hu ▸ Core.setThread_self _ hn _
  have hcycle : u.core.cycle = s.core.cycle + dlat := by rw [← hu]; rfl
  have hcur : u.core.curBank = s.core.curBank := by rw [← hu, Core.setThread_frame]; rfl
  have hdone : u.driftDone n =
      s.setCore { s.core.setThread n ((s.core.thread n).landD d.toNat v) with cycle := s.core.cycle + dlat } := by
    rw [State.driftDone_d (k := d.toNat) (v := v) hn (by rw [hself, hcur]; exact hb) (by rw [hself]; rfl), hself,
      Thread.landD_issueD, ← hu]
    simp only [State.setCore_core, State.setCore_setCore, Core.setThread_cycle, Core.setThread_setThread]
  rw [← hdone]
  refine State.driftDue_only hn (by rw [hself]; rfl) (by rw [hself]; rfl) hcycle.ge fun m hm hne => ⟨?_, ?_⟩
  · rw [← hu]
    exact (congrArg Thread.busy (Core.setThread_other _ hn hm hne _)).trans (hidle m hm hne)
  · rw [hdone]
    exact (congrArg Thread.busy (Core.setThread_other _ hn hm hne _)).trans (hidle m hm hne)

/-! ### The statement -/

/-- Settles O2: the results by the shared scalar operations, the refusals by what those operations and the encoding check
refuse, and the landing by the only result in flight. -/
theorem moveAndImmediateResults : Obligations.MoveAndImmediateResults := by
  unfold Obligations.MoveAndImmediateResults
  refine ⟨fun o s => ⟨exec_unary_results, fun ha => exec_sel_primary ha, fun n ha => exec_sel_drift ha,
      fun n ha => ⟨fun hg => ?unaryBadCode, exec_sel_badReg ha, fun hr hd => ?unaryBadReg⟩,
      fun hb i hi => illegalField_raises (unary_sb_illegal hb hi), fun ha hg hs h56 h59 => ?unaryUserDest⟩,
    fun o s => ⟨fun hd hdest => ?immediate,
      fun h j hj => illegalField_raises_noGuard (immediate_shift_illegal h hj),
      fun h => illegalField_raises_noGuard (movi_sa_illegal h), fun n ha hd j hj => ?immBadReg,
      fun ha hs h56 h59 j hj => ?immUserDest⟩,
    fun o s => ⟨fun hr hd hdest => ?long, fun j hj h => illegalField_raises (long_illegal hj h),
      fun n ha => ⟨fun hg j hj => ?longBadCode, fun hr h j hj => ?longBadDest, fun hr h => ?addlBadReg⟩,
      fun hr hs h56 h59 j hj => ?longUserDest⟩,
    fun s lat n v t ha hp hn hlat => ?primaryLanding, fun s n lat dlat d v ha hn hd hb hidle => ?driftLanding⟩
  case unaryBadCode =>
    intro i hi
    obtain hi | hi := List.mem_append.mp (show i ∈ [Instr.clz o, .popc o, .mov o] ++ [.sel o] from hi)
    · obtain ⟨f, hf⟩ := exec_unary hi
      rw [hf, State.unaryOp, State.guarded_drift_badCode _ ha hg]
    · rw [List.mem_singleton.mp hi, exec_sel_badCode ha hg]
  case unaryBadReg =>
    intro i hi
    obtain ⟨f, hf⟩ := exec_unary hi
    rw [hf, State.unaryOp, State.guarded_runs hr.runs, State.scalarOp_badReg hd]
  case unaryUserDest =>
    have hr : s.primaryRuns o.g := ⟨ha, hg⟩
    have hunary : ∀ f, s.unaryOp o f = s.raise 0x0C := fun f => by
      rw [State.unaryOp, State.guarded_runs hr.runs, State.scalarOp_userDest ha hs h56 h59]
    rw [exec_clz, hunary, exec_popc, hunary, exec_mov, hunary]
    refine ⟨rfl, rfl, rfl, ?_⟩
    rw [exec_sel (by simp [State.isDrift, ha]), State.scalarOp_userDest ha hs h56 h59]
  case immediate =>
    rw [exec_addi, exec_andi, exec_ori, exec_xori, exec_shli, exec_shri, exec_sari, exec_movi]
    have hnext (f) : s.immOp o f = _ := State.immOp_next hd hdest
    exact ⟨hnext _, hnext _, hnext _, hnext _, hnext _, hnext _, hnext _, hnext _⟩
  case immBadReg =>
    obtain ⟨f, hf⟩ := exec_immediate hj
    rw [hf, State.immOp, State.scalarOp_badReg hd]
  case immUserDest =>
    obtain ⟨f, hf⟩ := exec_immediate hj
    rw [hf, State.immOp, State.scalarOp_userDest ha hs h56 h59]
  case long =>
    have hd0 := State.dregsOk_head hd
    refine ⟨?_, ?_, ?_⟩
    · rw [exec_addl, State.guarded_runs hr, State.scalarOp_next hd hdest]
    · rw [exec_movl, State.guarded_runs hr, State.scalarOp_next hd0 hdest]
    · rw [exec_movh, State.guarded_runs hr, State.scalarOp_next hd0 hdest, BitVec.setWidth_eq_extractLsb' (by decide)]
  case longBadCode =>
    obtain ⟨srcs, f, hf⟩ := exec_long hj
    rw [hf, State.guarded_drift_badCode _ ha hg]
  case longBadDest =>
    obtain ⟨srcs, f, hf⟩ := exec_long hj
    rw [hf, State.guarded_runs hr.runs, State.scalarOp_badReg (State.dregsOk_drift_false ha List.mem_cons_self h)]
  case addlBadReg =>
    rw [exec_addl, State.guarded_runs hr.runs, State.scalarOp_badReg (State.dregsOk_drift_false ha (by simp) h)]
  case longUserDest =>
    obtain ⟨srcs, f, hf⟩ := exec_long hj
    rw [hf, State.guarded_runs hr.runs, State.scalarOp_userDest hr.1 hs h56 h59]
  case primaryLanding =>
    intro u w
    have hd : (BitVec.ofNat 6 n).toNat = n := Nat.mod_eq_of_lt hn
    rcases lt_or_ge t (s.core.bank.tick + lat) with ht | ht
    · have hw : w = _ := State.scalarResult_later lat _ v ha hp ht
      rw [hw]
      exact ⟨fun _ => ⟨rfl, rfl⟩, fun h => absurd ht (not_lt.mpr h), rfl, rfl, rfl, rfl, rfl, rfl, rfl, rfl, rfl⟩
    · have hw : w = _ := State.scalarResult_now lat _ v ha hp ht
      rw [hw, hd, Bank.setS_latchS]
      refine ⟨fun h => absurd h (not_lt.mpr ht), fun _ => ⟨?own, fun m hm hne => ?others, rfl, rfl, rfl⟩,
        rfl, rfl, rfl, rfl, rfl, rfl, rfl, rfl, rfl⟩
      case own =>
        change (Bank.setS _ n v).sregN n = _
        rw [Bank.setS_sregN _ _ _ _ hn hn, if_pos rfl]
      case others =>
        change (Bank.setS _ n v).sregN m = _
        rw [Bank.setS_sregN _ _ _ _ hm hn, if_neg hne]
        exact ite_eq_right_iff.mpr fun h0 => h0 ▸ rfl
  case driftLanding =>
    intro t u
    have ht : t = _ := State.scalarResult_drift ha lat dlat d v
    have hu : u = _ := State.scalarResult_driftDue lat dlat d v ha hn hb hidle
    have hself (x) : (s.core.setThread n x).thread n = x := Core.setThread_self _ hn x
    rw [hu, ht]
    exact ⟨Core.setThread_bank _ _ _, congrArg Thread.busy (hself _), congrArg Thread.due (hself _),
      (congrArg (Thread.dreg · d) (hself _)).trans (Thread.landD_dreg hd v), congrArg Thread.busy (hself _),
      Core.setThread_bank _ _ _, Core.setThread_store _ _ _, rfl,
      fun m hm hne => Core.setThread_other _ hn hm hne _⟩

end Sys2Proof.Machine
end

section
/-! NOP (R368): its words, the words its field check refuses, the scalar slot of its bundle, and its issue by the primary
and by a drift thread. -/

namespace Sys2Proof.Machine

/-! ### The words of NOP -/

/-- R305: a word of class S whose op is 0 is a NOP. -/
theorem decodeWords_classS_op_zero {w : IWord} (hk : classOf w = 0) (hop : bitsOf w 22 6 = 0) (w1 : IWord) :
    decodeWords w w1 = nopOf w := by
  simp [decodeWords, hk, hop]

/-- R368: a NOP whose reserved fields, which are all but sa bit 0, are 0 is legal. -/
theorem nopOf_legal {w : IWord} (hlow : bitsOf w 0 10 = 0) (hhigh : bitsOf w 11 11 = 0) :
    nopOf w = .ok (if bitsOf w 10 1 == 1 then .nop else .nopW) := by
  simp [nopOf, hlow, hhigh]

/-- R368: a non-zero sd, sa[5:1], sb or pg of a NOP is an illegal field. -/
theorem nopOf_illegal {w : IWord} (h : bitsOf w 0 10 ≠ 0 ∨ bitsOf w 11 11 ≠ 0) :
    nopOf w = .error (.illegalField (bitsOf w 0 4) (if bitsOf w 10 1 == 1 then .nop else .nopW)) := by
  have hreserved : ¬(bitsOf w 0 10 = 0 ∧ bitsOf w 11 11 = 0) := not_and_or.mpr h
  simpa [nopOf] using hreserved

/-- R304: an illegal field under a true guard raises cause 0x01, whatever the candidate is. -/
theorem runOne_illegalField {s : State} {g : BitVec 4} (i : Instr) (alone : Bool) (hg : s.core.bank.guard g = true) :
    runOne (.error (.illegalField g i)) alone s = s.raise 0x01 := by
  simp [runOne, hg]

/-! ### The scalar slot -/

/-- R9, R33: a bundle with one scalar instruction leaves the scalar slot empty when the instruction does. -/
theorem State.emptySlots_scalar_one (s : State) (i : Instr) :
    (s.emptySlots [(0, .ok i)]).scalar = leavesSlot i := by
  simp [State.emptySlots, candidate]

/-! ### The issue of NOP -/

theorem exec_nop (s : State) : exec .nop s = .next s.skip := rfl
theorem exec_nopW (s : State) : exec .nopW s = .next s.skip := rfl

/-- R35: in a drift thread an instruction without effect is an operation of four cycles. -/
theorem State.skip_drift {s : State} {n : Nat} (ha : s.agent = .drift n) : s.skip = s.driftIssue 4 .none := by
  simp [State.skip, ha]

/-! ### The statement -/

/-- Settles O5: the words by the decoder of NOP, the slot by the one instruction of the bundle, and the issue of both
forms as an instruction without effect. -/
theorem nopEffect : Obligations.NopEffect := by
  unfold Obligations.NopEffect
  refine ⟨?announced, ?withheld, fun w hk hop hreserved s _ hg => ?illegal, fun s =>
    ⟨State.emptySlots_scalar_one s .nop, State.emptySlots_scalar_one s .nopW, rfl, fun ha => ?primary, fun n ha => ?drift⟩⟩
  case announced => rw [decodeWords_classS_op_zero (by decide) (by decide), nopOf_legal (by decide) (by decide)]; rfl
  case withheld => rw [decodeWords_classS_op_zero (by decide) (by decide), nopOf_legal (by decide) (by decide)]; rfl
  case illegal => rw [decodeWords_classS_op_zero hk hop, nopOf_illegal hreserved, runOne_illegalField _ _ hg]
  case primary => rw [exec_nop, exec_nopW, State.skip_primary ha]; exact ⟨rfl, rfl⟩
  case drift => rw [exec_nop, exec_nopW, State.skip_drift ha]; exact ⟨rfl, rfl⟩

end Sys2Proof.Machine
end

section
/-! Every step keeps every memory in canonical form (log entry 5): the outcome of each turn of the agenda, from the
instruction's meaning up to the step. -/

namespace Sys2Proof.Machine

/-! ### Instructions and bundles -/

/-- Every instruction and every agent's step keeps the form. -/
theorem exec_form (i : Instr) {s : State} (h : s.Form) : OutForm (exec i s) := by
  cases i <;> simp [exec, h]

/-- The outcome of a computation that goes on in a next state is in form. -/
theorem OutForm.bind {o : Out} {f : State → Out} (ho : OutForm o) (hf : ∀ t, t.Form → OutForm (f t)) :
    OutForm (match o with | .next t => f t | o => o) := by
  cases o with
  | next t => exact hf t ((outForm_next t).mp ho)
  | fault r => exact ho
  | refused r => exact ho

/-- The hub of a state in form, put into another. -/
theorem State.setHub_of_form {s t : State} (hs : s.Form) (ht : t.Form) : (s.setHub t.hub).Form :=
  setHub_form hs ht.attest ht.saved

theorem State.checkTrap_form (i : Instr) {s : State} (h : s.Form) : OutForm (s.checkTrap i) :=
  OutForm.bind (exec_form i h) fun _ ht => (outForm_next _).mpr (form_ite ht (State.setHub_of_form h ht))

theorem runOne_form (r : Except Reject Instr) (alone : Bool) {s : State} (h : s.Form) : OutForm (runOne r alone s) := by
  unfold runOne
  split
  · simp [h]
  · exact outForm_ite (by simp [h]) (by simp [h])
  · exact outForm_ite (by simp [h]) (outForm_ite (State.checkTrap_form _ h) (outForm_ite (by simp [h]) (exec_form _ h)))

theorem runAll_form (alone : Bool) (xs : Bundle) (sub v c : Nat) {s : State} (h : s.Form) :
    OutForm (runAll alone xs sub v c s) := by
  induction xs generalizing sub v c s with
  | nil => exact (outForm_next s).mpr h
  | cons x xs ih =>
    exact OutForm.bind (runOne_form x.2 alone ((setBank_form _).mpr h)) fun _ ht =>
      outForm_ite ((outForm_next _).mpr ht) (ih _ _ _ ht)

theorem runWaits_form (is : List Instr) {s : State} (h : s.Form) : OutForm (runWaits is s) := by
  induction is generalizing s with
  | nil => exact (outForm_next s).mpr h
  | cons i is ih => exact OutForm.bind (exec_form i h) fun _ ht => ih ht

theorem State.armTrap_form (i : Option Instr) {s : State} (h : s.Form) : OutForm (s.armTrap i) := by
  cases i with
  | none => exact (outForm_next s).mpr h
  | some i =>
    refine OutForm.bind (exec_form i h) fun t ht => (outForm_next _).mpr (form_ite ht (form_ite ?_ ?_))
    · exact (setBank_form _).mpr (State.setHub_of_form h ht)
    · exact State.setHub_of_form h ht

theorem State.runBundle_form {s s0 : State} (xs : Bundle) (h : s.Form) (h0 : s0.Form) : OutForm (s.runBundle s0 xs) := by
  refine OutForm.bind (runAll_form _ xs 0 0 0 h) fun t ht => ?_
  cases t.core.bank.raised with
  | some r => exact (outForm_next _).mpr (State.bundleStops_form _ _ h0)
  | none =>
    refine OutForm.bind (State.armTrap_form _ ht) fun u hu => ?_
    cases u.core.bank.raised with
    | some r => exact (outForm_next _).mpr (State.bundleStops_form _ _ h0)
    | none => exact OutForm.bind (runWaits_form _ hu) fun w hw => (outForm_next _).mpr (State.finish_form _ _ hw)

theorem State.issueBundle_form {s : State} (h : s.Form) : OutForm s.issueBundle := by
  have hstop (r) : OutForm (.next (s.bundleStops r)) := (outForm_next _).mpr (State.bundleStops_form _ _ h)
  unfold State.issueBundle
  dsimp only
  split
  · exact hstop _
  · split
    · exact hstop _
    · split
      · next r _ =>
        have hu : (s.rerunPoint r).Form := State.rerunPoint_form _ _ h
        refine outForm_ite (outForm_ite ?_ ?_) (State.runBundle_form _ ((setBank_form _).mpr h) h)
        · exact State.runBundle_form _ ((setBank_form _).mpr hu) h
        · exact (outForm_next _).mpr (State.frozen_form _ hu)
      · exact State.runBundle_form _ ((setBank_form _).mpr h) h

/-! ### Turns of a bank -/

theorem State.recall_form {s : State} (h : s.Form) : s.recall.Form := by
  unfold State.recall
  split
  · exact h
  · split
    · exact h
    · exact form_ite (State.noteStep_form _ _ h) h

theorem State.waitAgain_form (w : CpywWait) {s : State} (h : s.Form) : OutForm (s.waitAgain w) := by
  unfold State.waitAgain
  dsimp only
  have hr := fun b => State.recall_form ((setBank_form (s := s) b).mpr h)
  split <;> simp [hr]

theorem State.issue_form {s : State} (h : s.Form) : OutForm s.issue := by
  unfold State.issue
  split
  · exact outForm_ite (State.waitAgain_form _ h) (State.issueBundle_form h)
  · exact State.issueBundle_form h

theorem State.activeTurn_form {s : State} (h : s.Form) : OutForm s.activeTurn := by
  have ho : (if s.resumeDue then s.noteSwitch else s.openStep).Form := by
    split <;> simp [h]
  unfold State.activeTurn
  refine outForm_ite ((outForm_next _).mpr (by split <;> simp [h])) (outForm_ite (by simp [h])
    (outForm_ite (by simp [h]) (outForm_ite (by simp [h]) (outForm_ite ?_ (outForm_ite ?_ ?_)))))
  · exact (outForm_next _).mpr (State.startPreempt_form _ ho)
  · exact (outForm_next _).mpr (State.interrupted_form _ ho)
  · exact State.issue_form (State.boundary_form _ (State.land__form _ ((setBank_form _).mpr ho)))

theorem State.waitTurn_form (n : Nat) {s : State} (h : s.Form) : OutForm (s.waitTurn n) := by
  unfold State.waitTurn
  refine outForm_ite (by simp [h]) ?_
  dsimp only
  have hw (b : Bank) (cbs : List Nat) : ((s.atomsOn.setBank b).cpywTry n cbs).Form :=
    State.cpywTry_form _ _ _ ((setBank_form _).mpr (State.atomsOn_form _ h))
  split
  · exact (outForm_next _).mpr (State.close_form _ _ _ (State.takeTrap_form _ _ ((setBank_form _).mpr (hw _ _))))
  · exact (outForm_next _).mpr (State.close_form _ _ _ ((setBank_form _).mpr (hw _ _)))
  · exact (outForm_next _).mpr (State.frozen_form _ (hw _ _))

theorem State.endingTurn_form {s : State} (h : s.Form) : OutForm s.endingTurn := by
  have hu : (if s.core.bank.status.guard then s.sendHeld.armWaits else s).Form :=
    form_ite (State.armWaits_form _ (State.sendHeld_form _ h)) h
  unfold State.endingTurn
  refine outForm_ite (by simp [h]) (outForm_ite ?_ ?_)
  · exact (outForm_next _).mpr (State.idle_form _ (State.matrixTick_form _ (State.land__form _ h)))
  dsimp only
  generalize (if s.core.bank.status.guard then s.sendHeld.armWaits else s) = u at hu
  split
  · simp [hu]
  · refine outForm_ite ?_ (by simp [hu])
    split
    · next r _ =>
      have hr : (u.rerunPoint r).Form := State.rerunPoint_form _ _ hu
      exact (outForm_next _).mpr (form_ite (State.frozen_form _ (State.endTask_form _ hr)) (State.frozen_form _ hr))
    · exact (outForm_next _).mpr (State.frozen_form _ (State.endTask_form _ hu))

theorem State.bankTurn_form {s : State} (h : s.Form) : OutForm s.bankTurn := by
  unfold State.bankTurn
  split
  · exact State.activeTurn_form h
  · exact State.waitTurn_form _ h
  · exact State.endingTurn_form h
  · exact (outForm_next _).mpr (form_ite (by simp [h]) (by simp [h]))

theorem State.coreTurn_form {s : State} (h : s.Form) : OutForm s.coreTurn := by
  have ha : ({ s with agent := .primary } : State).Form := ⟨h.mem, h.attest, h.store, h.others, h.saved⟩
  unfold State.coreTurn
  dsimp only
  split
  · exact State.bankTurn_form ha
  · exact State.bankTurn_form (State.switchOver_form _ ha)
  · exact outForm_ite (passing_form _ _ (execBankSwitch_form _ ha)) (outForm_ite
      (passing_form _ _ (execPreemption_form _ ha)) (by simp [ha]))

/-! ### The other turns -/

theorem State.driftRun_form (n : Nat) (r : Except Reject Instr) {s : State} (h : s.Form) : OutForm (s.driftRun n r) := by
  unfold State.driftRun
  split
  · simp [h]
  · exact outForm_ite (by simp [h]) (by simp [h])
  · exact exec_form _ h

theorem State.driftTurn_form (n : Nat) {s : State} (h : s.Form) : OutForm (s.driftTurn n) := by
  have ha (t : State) (x : Agent) (ht : t.Form) : ({ t with agent := x } : State).Form :=
    ⟨ht.mem, ht.attest, ht.store, ht.others, ht.saved⟩
  unfold State.driftTurn
  dsimp only
  split
  · exact (outForm_next _).mpr (ha _ _ (by simp [ha, h]))
  · exact OutForm.bind (State.driftRun_form _ _ (by simp [ha, h])) fun t ht =>
      (outForm_next _).mpr (State.driftOver_form _ _ ht)

theorem State.turn_form (x : Turn) {s : State} (h : s.Form) : OutForm (s.turn x) := by
  cases x with
  | event i =>
    refine outForm_ite (by simp [h]) ?_
    dsimp only
    split
    · exact (outForm_next _).mpr (State.onCore_form _ _ _ h fun _ ht => setCore_form ht ht.store)
    · exact exec_form i h
  | core c =>
    exact outForm_ite (by simp) (outForm_ite (by simp [h]) (State.coreTurn_form (by simp [h])))
  | drift n => exact State.driftTurn_form n h
  | endCycle p => exact (outForm_next _).mpr (State.endCycle_form _ _ h)

theorem step_form {s : State} (h : s.Form) : OutForm (step s) := by
  unfold step
  split
  · exact outForm_ite (by simp [h]) (State.coreTurn_form h)
  · exact State.turn_form _ ⟨h.mem, h.attest, h.store, h.others, h.saved⟩

/-! ### The statement -/

/-- Settles O59: the form of the step's outcome, by the turn it takes. -/
theorem memoryStaysCanonical : Obligations.MemoryStaysCanonical := by
  intro s t hs ht
  exact (State.form_iff t).mp (step_form ((State.form_iff s).mpr hs) t ht)

end Sys2Proof.Machine
end

section
/-! Decoding and encoding (R288 to R299, R305 to R314): the formats' fields and words, the ops of each class, and that
both directions agree. -/

namespace Sys2Proof.Machine

/-! ### Bits of a word -/

/-- The mask of the bits that belong to the instruction has every bit but the bundle-start bit. -/
theorem startMask_bit : ∀ i < 32, (0x7FFFFFFF#32).getLsbD i = decide (i < 31) := by decide

/-- R289: the bits below the bundle-start bit do not depend on it. -/
theorem bitsOf_or_start (w : IWord) {lo len : Nat} (h : lo + len ≤ 31) :
    bitsOf (w ||| 0x80000000) lo len = bitsOf w lo len := by
  apply BitVec.eq_of_getLsbD_eq
  intro i hi
  have hb : (0x80000000#32).getLsbD (lo + i) = false := by
    have key : ∀ j < 31, (0x80000000#32).getLsbD j = false := by decide
    exact key _ (by omega)
  simp [bitsOf, hi, hb]

/-- Neighbouring fields of a word are one longer field. -/
theorem bitsOf_append_bitsOf (w : IWord) (lo m n k : Nat) (hk : k = lo + m) :
    bitsOf w k n ++ bitsOf w lo m = bitsOf w lo (n + m) :=
  BitVec.extractLsb'_append_extractLsb'_eq_extractLsb' hk

/-- A field of a field. -/
theorem bitsOf_extract (w : IWord) {lo len lo' len' : Nat} (h : lo' + len' ≤ len) :
    (bitsOf w lo len).extractLsb' lo' len' = bitsOf w (lo + lo') len' := by
  apply BitVec.eq_of_getLsbD_eq
  intro i hi
  simp [bitsOf, hi, show lo' + i < len by omega, Nat.add_assoc]

@[simp] theorem bit1_beq_one (b : Bool) : (bit1 b == 1#1) = b := by revert b; decide

/-- Words that agree in two neighbouring fields agree in both. -/
theorem bitsOf_join {w v : IWord} {lo m n k : Nat} (hk : k = lo + m) (hlow : bitsOf v lo m = bitsOf w lo m)
    (hhigh : bitsOf v k n = bitsOf w k n) : bitsOf v lo (n + m) = bitsOf w lo (n + m) := by
  rw [← bitsOf_append_bitsOf v _ _ _ _ hk, ← bitsOf_append_bitsOf w _ _ _ _ hk, hlow, hhigh]

/-- A word without its bundle-start bit is its class over the other bits. -/
theorem class_append_rest (w : IWord) {k : BitVec 4} (hk : k = 0#1 ++ classOf w) :
    k ++ bitsOf w 0 28 = w &&& 0x7FFFFFFF := by
  subst hk
  unfold IWord at *
  apply BitVec.eq_of_getLsbD_eq
  intro i hi
  have hm : (0x7FFFFFFF : IWord).getLsbD i = decide (i < 31) := startMask_bit i hi
  rw [BitVec.getLsbD_and, hm]
  simp only [classOf, bitsOf, BitVec.getLsbD_append, BitVec.getLsbD_extractLsb', Nat.zero_add]
  by_cases h28 : i < 28
  · simp [h28, show i < 31 by omega]
  · by_cases h31 : i < 31
    · simp [h28, h31, show i - 28 < 3 by omega, show 28 + (i - 28) = i by omega]
    · simp [h28, h31, show ¬ i - 28 < 3 by omega]

/-- The class of a word whose bits 31:28 are known. -/
theorem classOf_eq {w : IWord} {k : BitVec 4} (h : bitsOf w 28 4 = k) : classOf w = k.extractLsb' 0 3 := by
  rw [← h, bitsOf_extract w (by decide)]; rfl

theorem eq_of_bitsOf {w v : IWord} (h : bitsOf v 0 32 = bitsOf w 0 32) : v = w := by
  rwa [bitsOf, bitsOf, BitVec.extractLsb'_eq_self, BitVec.extractLsb'_eq_self] at h

/-- A word is another without its start bit if it has its class, a clear start bit and the same bits below. -/
theorem eq_clearStart {v w : IWord} {k : BitVec 4} (hv : bitsOf v 28 4 = k) (hk : k = 0#1 ++ classOf w)
    (hrest : bitsOf v 0 28 = bitsOf w 0 28) : v = w &&& 0x7FFFFFFF := by
  rw [← class_append_rest w hk, ← hrest, ← hv, bitsOf_append_bitsOf v 0 28 4 28 rfl]
  exact (BitVec.extractLsb'_eq_self).symm

/-! ### The fields of the words of each format -/

/-- R295: the sa layout holds the imm19 field's bits as a register and 13 bits. -/
def immReg (o : LImm) : LReg := { g := o.g, a := o.imm.extractLsb' 13 6, imm := o.imm.extractLsb' 0 13 }

/-- R295: the imm19 layout of the bits of a sa layout. -/
def regImm (o : LReg) : LImm := { g := o.g, imm := o.a ++ o.imm }

theorem immReg_regImm (o : LReg) : immReg (regImm o) = o := by
  unfold immReg regImm
  simp (disch := decide) only [BitVec.extractLsb'_append_eq_of_le, BitVec.extractLsb'_append_eq_of_add_le]
  simp

theorem packLReg_eq (op : Nat) (o : LReg) : packLReg op o = packLImm op (regImm o) := by
  apply BitVec.eq_of_getLsbD_eq
  intro i _
  simp only [packLReg, packLImm, regImm, BitVec.getLsbD_append]
  by_cases h13 : i < 13
  · simp [h13, show i < 19 by omega]
  · simp [h13, show i - 13 < 6 ↔ i < 19 by omega, show i - 13 - 6 = i - 19 by omega]

theorem packLReg_immReg (op : Nat) (o : LImm) : packLReg op (immReg o) = packLImm op o := by
  have h : regImm (immReg o) = o := by
    have himm : o.imm.extractLsb' 13 6 ++ o.imm.extractLsb' 0 13 = o.imm :=
      (BitVec.extractLsb'_append_extractLsb'_eq_extractLsb' rfl).trans BitVec.extractLsb'_eq_self
    exact congrArg (LImm.mk o.g) himm
  rw [packLReg_eq, h]

theorem unpackLReg_eq (w : IWord) : unpackLReg w = immReg (unpackLImm w) := by
  simp [unpackLReg, unpackLImm, immReg, bitsOf_extract]

theorem packS_fields (op : Nat) (o : SOp) :
    bitsOf (packS op o) 28 4 = 0 ∧ bitsOf (packS op o) 22 6 = BitVec.ofNat 6 op ∧ unpackS (packS op o) = o := by
  unfold packS unpackS bitsOf
  simp (disch := decide) only [BitVec.extractLsb'_append_eq_of_le, BitVec.extractLsb'_append_eq_of_add_le]
  simp

theorem packSImm_fields (op : Nat) (o : SImm) :
    bitsOf (packSImm op o) 28 4 = 0 ∧ bitsOf (packSImm op o) 22 6 = BitVec.ofNat 6 op ∧ unpackSImm (packSImm op o) = o := by
  unfold packSImm unpackSImm bitsOf
  simp (disch := decide) only [BitVec.extractLsb'_append_eq_of_le, BitVec.extractLsb'_append_eq_of_add_le]
  simp

theorem packLImm_fields (op : Nat) (o : LImm) :
    bitsOf (packLImm op o) 28 4 = 5 ∧ bitsOf (packLImm op o) 23 5 = BitVec.ofNat 5 op ∧ unpackLImm (packLImm op o) = o := by
  unfold packLImm unpackLImm bitsOf
  simp (disch := decide) only [BitVec.extractLsb'_append_eq_of_le, BitVec.extractLsb'_append_eq_of_add_le]
  simp

theorem packX_fields (op : Nat) (o : XOp) :
    bitsOf (packX op o) 28 4 = 1 ∧ bitsOf (packX op o) 22 6 = BitVec.ofNat 6 op ∧ unpackX (packX op o) o.imm = o := by
  unfold packX unpackX bitsOf
  simp (disch := decide) only [BitVec.extractLsb'_append_eq_of_le, BitVec.extractLsb'_append_eq_of_add_le]
  simp

theorem packV_fields (op : Nat) (o : VOp) :
    bitsOf (packV0 op o) 28 4 = 2 ∧ bitsOf (packV0 op o) 20 8 = BitVec.ofNat 8 op ∧ unpackV (packV0 op o) (packV1 o) = o := by
  unfold packV0 packV1 unpackV bitsOf
  simp (disch := decide) only [BitVec.extractLsb'_append_eq_of_le, BitVec.extractLsb'_append_eq_of_add_le]
  simp

theorem packM_fields (op : Nat) (o : MOp) :
    bitsOf (packM0 op o) 28 4 = 3 ∧ bitsOf (packM0 op o) 22 6 = BitVec.ofNat 6 op ∧ unpackM (packM0 op o) (packM1 o) = o := by
  unfold packM0 packM1 unpackM bitsOf
  simp (disch := decide) only [BitVec.extractLsb'_append_eq_of_le, BitVec.extractLsb'_append_eq_of_add_le]
  simp

theorem packC_fields (op : Nat) (o : COp) :
    bitsOf (packC0 op o) 28 4 = 4 ∧ bitsOf (packC0 op o) 22 6 = BitVec.ofNat 6 op ∧ unpackC (packC0 op o) (packC1 o) = o := by
  unfold packC0 packC1 unpackC bitsOf
  simp (disch := decide) only [BitVec.extractLsb'_append_eq_of_le, BitVec.extractLsb'_append_eq_of_add_le]
  simp

/-! ### The words a format gives back -/

theorem packS_unpackS {w : IWord} {op : Nat} (hc : classOf w = 0) (hop : bitsOf w 22 6 = BitVec.ofNat 6 op) :
    packS op (unpackS w) = w &&& 0x7FFFFFFF := by
  obtain ⟨hk, hop', hf⟩ := packS_fields op (unpackS w)
  simp only [unpackS, SOp.mk.injEq] at hf
  obtain ⟨hd, ha, hb, hg⟩ := hf
  exact eq_clearStart hk (by rw [hc]; rfl)
    (bitsOf_join rfl (bitsOf_join rfl (bitsOf_join rfl (bitsOf_join rfl hg hb) ha) hd) (hop'.trans hop.symm))

theorem packSImm_unpackSImm {w : IWord} {op : Nat} (hc : classOf w = 0) (hop : bitsOf w 22 6 = BitVec.ofNat 6 op) :
    packSImm op (unpackSImm w) = w &&& 0x7FFFFFFF := by
  obtain ⟨hk, hop', hf⟩ := packSImm_fields op (unpackSImm w)
  simp only [unpackSImm, SImm.mk.injEq] at hf
  obtain ⟨hd, ha, hi⟩ := hf
  exact eq_clearStart hk (by rw [hc]; rfl)
    (bitsOf_join rfl (bitsOf_join rfl (bitsOf_join rfl hi ha) hd) (hop'.trans hop.symm))

theorem packLImm_unpackLImm {w : IWord} {op : Nat} (hc : classOf w = 5) (hop : bitsOf w 23 5 = BitVec.ofNat 5 op) :
    packLImm op (unpackLImm w) = w &&& 0x7FFFFFFF := by
  obtain ⟨hk, hop', hf⟩ := packLImm_fields op (unpackLImm w)
  simp only [unpackLImm, LImm.mk.injEq] at hf
  obtain ⟨hg, hi⟩ := hf
  exact eq_clearStart hk (by rw [hc]; rfl) (bitsOf_join rfl (bitsOf_join rfl hi hg) (hop'.trans hop.symm))

theorem packX_unpackX {w : IWord} {op : Nat} (w1 : IWord) (hc : classOf w = 1)
    (hop : bitsOf w 22 6 = BitVec.ofNat 6 op) : packX op (unpackX w w1) = w &&& 0x7FFFFFFF := by
  obtain ⟨hk, hop', hf⟩ := packX_fields op (unpackX w w1)
  simp only [unpackX, XOp.mk.injEq] at hf
  obtain ⟨hd, ha, hg, hs, -⟩ := hf
  exact eq_clearStart hk (by rw [hc]; rfl)
    (bitsOf_join rfl (bitsOf_join rfl (bitsOf_join rfl (bitsOf_join rfl hs hg) ha) hd) (hop'.trans hop.symm))

/-- Two fields of one bit agree if they are 1 together. -/
theorem bit_eq_of_beq {x y : BitVec 1} (h : (x == 1) = (y == 1)) : x = y := by revert x y; decide

theorem packV_unpackV {w w1 : IWord} {op : Nat} (hc : classOf w = 2) (hop : bitsOf w 20 8 = BitVec.ofNat 8 op) :
    packV0 op (unpackV w w1) = w &&& 0x7FFFFFFF ∧ packV1 (unpackV w w1) = w1 := by
  obtain ⟨hk, hop', hf⟩ := packV_fields op (unpackV w w1)
  simp only [unpackV, VOp.mk.injEq] at hf
  obtain ⟨hvd, hw, hg, hkm, hha, hhb, hhc, ha, hb, hc1, hr⟩ := hf
  refine ⟨eq_clearStart hk (by rw [hc]; rfl) (bitsOf_join rfl (bitsOf_join rfl (bitsOf_join rfl (bitsOf_join rfl
    (bitsOf_join rfl (bitsOf_join rfl (bitsOf_join rfl (bit_eq_of_beq hhc) (bit_eq_of_beq hhb)) (bit_eq_of_beq hha)) hkm)
    hg) (bit_eq_of_beq hw)) hvd) (hop'.trans hop.symm)), ?_⟩
  exact eq_of_bitsOf (bitsOf_join rfl (bitsOf_join rfl (bitsOf_join rfl hr hc1) hb) ha)

theorem packM_unpackM {w w1 : IWord} {op : Nat} (hc : classOf w = 3) (hop : bitsOf w 22 6 = BitVec.ofNat 6 op) :
    packM0 op (unpackM w w1) = w &&& 0x7FFFFFFF ∧ packM1 (unpackM w w1) = w1 := by
  obtain ⟨hk, hop', hf⟩ := packM_fields op (unpackM w w1)
  simp only [unpackM, MOp.mk.injEq] at hf
  obtain ⟨hnp, hacc, hpl, hmode, hg, hsn, hline, hug, hgen, ht, hrows, hrsv⟩ := hf
  refine ⟨eq_clearStart hk (by rw [hc]; rfl) (bitsOf_join rfl (bitsOf_join rfl (bitsOf_join rfl (bitsOf_join rfl
    (bitsOf_join rfl (bitsOf_join rfl hsn hg) hmode) hpl) hacc) hnp) (hop'.trans hop.symm)), ?_⟩
  exact eq_of_bitsOf (bitsOf_join rfl (bitsOf_join rfl (bitsOf_join rfl (bitsOf_join rfl (bitsOf_join rfl hrsv hrows)
    (bit_eq_of_beq ht)) hgen) (bit_eq_of_beq hug)) hline)

theorem packC_unpackC {w w1 : IWord} {op : Nat} (hc : classOf w = 4) (hop : bitsOf w 22 6 = BitVec.ofNat 6 op) :
    packC0 op (unpackC w w1) = w &&& 0x7FFFFFFF ∧ packC1 (unpackC w w1) = w1 := by
  obtain ⟨hk, hop', hf⟩ := packC_fields op (unpackC w w1)
  simp only [unpackC, COp.mk.injEq] at hf
  obtain ⟨hdata, hsa, hcb, hg, hfmt, hhint, hscope, hsb, himm⟩ := hf
  refine ⟨eq_clearStart hk (by rw [hc]; rfl) (bitsOf_join rfl (bitsOf_join rfl (bitsOf_join rfl (bitsOf_join rfl hg hcb)
    hsa) hdata) (hop'.trans hop.symm)), ?_⟩
  exact eq_of_bitsOf (bitsOf_join rfl (bitsOf_join rfl (bitsOf_join rfl (bitsOf_join rfl himm hsb) hscope) hhint) hfmt)

/-! ### The ops of each class -/

/-- The ops that R306 gives to register forms, and the words of their instructions. -/
theorem instrOfS_some {op : Nat} {o : SOp} {i : Instr} (h : instrOfS op o = some i) :
    0 < op ∧ op < 0x20 ∧ encode i = some [packS op o] := by
  unfold instrOfS at h
  split at h <;> cases h <;> exact ⟨by decide, by decide, rfl⟩

theorem instrOfSImm_some {op : Nat} {o : SImm} {i : Instr} (h : instrOfSImm op o = some i) :
    0x20 ≤ op ∧ op < 64 ∧ encode i = some [packSImm op o] := by
  unfold instrOfSImm at h
  split at h <;> cases h <;> exact ⟨by decide, by decide, rfl⟩

theorem instrOfL_some {op : Nat} {o : LImm} {i : Instr} (h : instrOfL op o (immReg o) = some i) :
    op < 32 ∧ encode i = some [packLImm op o] := by
  unfold instrOfL at h
  split at h <;> cases h <;> simp [encode, packLReg_immReg]

theorem instrOfX_some {op : Nat} {o : XOp} {i : Instr} (h : instrOfX op o = some i) :
    op < 64 ∧ encode i = some [packX op o, o.imm] := by
  unfold instrOfX at h
  split at h <;> cases h <;> exact ⟨by decide, rfl⟩

theorem instrOfV_some {op : Nat} {o : VOp} {i : Instr} (h : instrOfV op o = some i) :
    op < 256 ∧ encode i = some [packV0 op o, packV1 o] := by
  unfold instrOfV at h
  split at h <;> cases h <;> exact ⟨by decide, rfl⟩

theorem instrOfM_some {op : Nat} {o : MOp} {i : Instr} (h : instrOfM op o = some i) :
    op < 64 ∧ encode i = some [packM0 op o, packM1 o] := by
  unfold instrOfM at h
  split at h <;> cases h <;> exact ⟨by decide, rfl⟩

theorem instrOfC_some {op : Nat} {o : COp} {i : Instr} (h : instrOfC op o = some i) :
    op < 64 ∧ encode i = some [packC0 op o, packC1 o] := by
  unfold instrOfC at h
  split at h <;> cases h <;> exact ⟨by decide, rfl⟩

/-! ### The instructions that have words -/

/-- An instruction as its format, its op and its fields give it (R293 to R299). -/
inductive Encoded where
  | nop (announced : Bool)
  | s (op : Nat) (o : SOp)
  | sImm (op : Nat) (o : SImm)
  | l (op : Nat) (o : LImm)
  | x (op : Nat) (o : XOp)
  | v (op : Nat) (o : VOp)
  | m (op : Nat) (o : MOp)
  | c (op : Nat) (o : COp)

/-- The instruction of a format, an op and fields, if the op is assigned. -/
def Encoded.instr? : Encoded → Option Instr
  | .nop a => some (if a then .nop else .nopW)
  | .s op o => instrOfS op o
  | .sImm op o => instrOfSImm op o
  | .l op o => instrOfL op o (immReg o)
  | .x op o => instrOfX op o
  | .v op o => instrOfV op o
  | .m op o => instrOfM op o
  | .c op o => instrOfC op o

/-- Its words. -/
def Encoded.words : Encoded → List IWord
  | .nop a => [packS 0 { d := 0, a := if a then 1 else 0, b := 0, g := 0 }]
  | .s op o => [packS op o]
  | .sImm op o => [packSImm op o]
  | .l op o => [packLImm op o]
  | .x op o => [packX op o, o.imm]
  | .v op o => [packV0 op o, packV1 o]
  | .m op o => [packM0 op o, packM1 o]
  | .c op o => [packC0 op o, packC1 o]

/-- The encoder gives the words of the format. -/
theorem Encoded.encode_eq {f : Encoded} {i : Instr} (h : f.instr? = some i) : encode i = some f.words := by
  cases f with
  | nop a => cases h; cases a <;> rfl
  | s op o => exact (instrOfS_some h).2.2
  | sImm op o => exact (instrOfSImm_some h).2.2
  | l op o => exact (instrOfL_some h).2
  | x op o => exact (instrOfX_some h).2
  | v op o => exact (instrOfV_some h).2
  | m op o => exact (instrOfM_some h).2
  | c op o => exact (instrOfC_some h).2

/-- Every instruction with words has them by a format. -/
theorem exists_encoded {i : Instr} {ws : List IWord} (h : encode i = some ws) :
    ∃ f : Encoded, encode i = some f.words ∧ f.instr? = some i := by
  cases i with
  | nop => exact ⟨.nop true, rfl, rfl⟩
  | nopW => exact ⟨.nop false, rfl, rfl⟩
  | add o | sub o | mul o | mulh o | mulhn o | div o | divn o | min_ o | max_ o | minn o | maxn o | and_ o | or_ o
  | xor_ o | shl o | shr o | sar o | clz o | popc o | sel o | mov o | cmp o | pand o | por o | pxor o | pandn o
  | movp o | setp o =>
    exact ⟨.s _ o, rfl, rfl⟩
  | addi o | andi o | ori o | xori o | shli o | shri o | sari o | movi o | cmpeqi o | cmplti o | cmplei o
  | cmpltni o =>
    exact ⟨.sImm _ o, rfl, rfl⟩
  | br o | call o | lmark o | taskend o | yield o =>
    exact ⟨.l _ o, rfl, rfl⟩
  | bri o | brb o | ret o | loop o =>
    exact ⟨.l _ (regImm o), congrArg (fun w => some [w]) (packLReg_eq _ o), by
      rw [Encoded.instr?, immReg_regImm]; rfl⟩
  | movl o | movh o | addl o | ldt o | mbr o | mfsr o | mtsr o | trap o | eret o | ckpt o | digest o | grow o
  | shrink o | arm o | disarm o | condw o | tret o | dstart o | dstop o | genset o | selftest o =>
    exact ⟨.x _ o, rfl, rfl⟩
  | vadd o | vsub o | vmul o | vfma o | vfms o | vfnma o | vmin o | vmax o | vabs o | vneg o | vand o | vor o
  | vxor o | vshl o | vshr o | vsar o | vcmp o | vsel o | vmov o | vbcast o | viota o | vperm o | vslide o | vcvt o
  | vqnt o | vdqnt o | vscl o | vrcp o | vrsq o | vexp2 o | vlog2 o | vrsum o | vrmax o | vrmin o | vscan o
  | vsort o | vtopk o | vmergek o | vcomp o | vpopc o | vmovs o | vhash o | vgen o | vclass o | vrnd o | vtag o =>
    exact ⟨.v _ o, rfl, rfl⟩
  | mldw o | mflip o | mmul o | mmulz o | mbnd o | mepi o | mrda o | mwra o | mzero o | mred o =>
    exact ⟨.m _ o, rfl, rfl⟩
  | ld o | st o | ldv o | stv o | gath o | scat o | cpy o | cpyw o | mcast o | pin o | unpin o | atom o | flagw o
  | flagr o | fence o | barr o | msend o | lsend o | lrecv o | lradd o | subs o | slotdn o | bdred o | bdtopk o
  | xroute o | gpost o | pref o | wbl o | invl o =>
    exact ⟨.c _ o, rfl, rfl⟩
  | _ => cases h

/-- R289: the words are as many as the class says. -/
theorem Encoded.classWords_eq (f : Encoded) :
    classWords (classOf (f.words.headD 0)).toNat = some f.words.length := by
  cases f with
  | nop a => exact congrArg (fun k : BitVec 3 => classWords k.toNat) (classOf_eq (packS_fields _ _).1)
  | s op o => exact congrArg (fun k : BitVec 3 => classWords k.toNat) (classOf_eq (packS_fields _ _).1)
  | sImm op o => exact congrArg (fun k : BitVec 3 => classWords k.toNat) (classOf_eq (packSImm_fields _ _).1)
  | l op o => exact congrArg (fun k : BitVec 3 => classWords k.toNat) (classOf_eq (packLImm_fields _ _).1)
  | x op o => exact congrArg (fun k : BitVec 3 => classWords k.toNat) (classOf_eq (packX_fields _ _).1)
  | v op o => exact congrArg (fun k : BitVec 3 => classWords k.toNat) (classOf_eq (packV_fields _ _).1)
  | m op o => exact congrArg (fun k : BitVec 3 => classWords k.toNat) (classOf_eq (packM_fields _ _).1)
  | c op o => exact congrArg (fun k : BitVec 3 => classWords k.toNat) (classOf_eq (packC_fields _ _).1)

/-! ### Decoding the words of an instruction -/

/-- R289: the decoder does not read the bundle-start bit. -/
theorem decodeWords_or_start (w w1 : IWord) : decodeWords (w ||| 0x80000000) w1 = decodeWords w w1 := by
  have h {lo len : Nat} : lo + len ≤ 31 → bitsOf (w ||| 0x80000000) lo len = bitsOf w lo len := bitsOf_or_start w
  simp (disch := decide) only [decodeWords, nopOf, classOf, unpackS, unpackSImm, unpackX, unpackV, unpackM, unpackC,
    unpackLImm, unpackLReg, h]

theorem decodeWords_classS {w : IWord} (w1 : IWord) (h : classOf w = 0) :
    decodeWords w w1 = if (bitsOf w 22 6).toNat = 0 then nopOf w
      else if (bitsOf w 22 6).toNat < 0x20 then checked (instrOfS (bitsOf w 22 6).toNat (unpackS w))
      else checked (instrOfSImm (bitsOf w 22 6).toNat (unpackSImm w)) := by
  rw [decodeWords, h]; rfl

theorem decodeWords_classX {w : IWord} (w1 : IWord) (h : classOf w = 1) :
    decodeWords w w1 = checked (instrOfX (bitsOf w 22 6).toNat (unpackX w w1)) := by
  rw [decodeWords, h]; rfl

theorem decodeWords_classV {w : IWord} (w1 : IWord) (h : classOf w = 2) :
    decodeWords w w1 = checked (instrOfV (bitsOf w 20 8).toNat (unpackV w w1)) := by
  rw [decodeWords, h]; rfl

theorem decodeWords_classM {w : IWord} (w1 : IWord) (h : classOf w = 3) :
    decodeWords w w1 = checked (instrOfM (bitsOf w 22 6).toNat (unpackM w w1)) := by
  rw [decodeWords, h]; rfl

theorem decodeWords_classC {w : IWord} (w1 : IWord) (h : classOf w = 4) :
    decodeWords w w1 = checked (instrOfC (bitsOf w 22 6).toNat (unpackC w w1)) := by
  rw [decodeWords, h]; rfl

theorem decodeWords_classL {w : IWord} (w1 : IWord) (h : classOf w = 5) :
    decodeWords w w1 = checked (instrOfL (bitsOf w 23 5).toNat (unpackLImm w) (unpackLReg w)) := by
  rw [decodeWords, h]; rfl

/-- R303: the encoding check passes exactly the well-formed instructions. -/
theorem checked_eq_ok {x : Option Instr} {i : Instr} : checked x = .ok i ↔ x = some i ∧ WellFormed i := by
  cases x with
  | none => simp [checked]
  | some j =>
    by_cases hf : fieldsOk j = true
    · simp only [checked, hf, if_true, Except.ok.injEq, Option.some.injEq]
      exact ⟨fun h => ⟨h, h ▸ hf⟩, And.left⟩
    · simp only [checked, hf, Option.some.injEq]
      exact ⟨nofun, fun h => absurd (h.1 ▸ h.2) hf⟩

/-- R305: the words of a well-formed instruction decode to it. -/
theorem Encoded.decodeWords_eq {f : Encoded} {i : Instr} (h : f.instr? = some i) (hf : WellFormed i) :
    decodeWords (f.words.headD 0) (f.words.getD 1 0) = .ok i := by
  have hok : checked f.instr? = .ok i := checked_eq_ok.mpr ⟨h, hf⟩
  cases f with
  | nop a => cases h; cases a <;> rfl
  | s op o =>
    obtain ⟨hpos, hlt, -⟩ := instrOfS_some h
    obtain ⟨hk, hop, ho⟩ := packS_fields op o
    have hn : (BitVec.ofNat 6 op).toNat = op := Nat.mod_eq_of_lt (by omega)
    change decodeWords (packS op o) 0 = _
    rw [decodeWords_classS _ (classOf_eq hk), hop, hn, if_neg (by omega), if_pos hlt, ho]
    exact hok
  | sImm op o =>
    obtain ⟨hge, hlt, -⟩ := instrOfSImm_some h
    obtain ⟨hk, hop, ho⟩ := packSImm_fields op o
    have hn : (BitVec.ofNat 6 op).toNat = op := Nat.mod_eq_of_lt hlt
    change decodeWords (packSImm op o) 0 = _
    rw [decodeWords_classS _ (classOf_eq hk), hop, hn, if_neg (by omega), if_neg (by omega), ho]
    exact hok
  | l op o =>
    obtain ⟨hk, hop, ho⟩ := packLImm_fields op o
    have hn : (BitVec.ofNat 5 op).toNat = op := Nat.mod_eq_of_lt (instrOfL_some h).1
    change decodeWords (packLImm op o) 0 = _
    rw [decodeWords_classL _ (classOf_eq hk), hop, hn, unpackLReg_eq, ho]
    exact hok
  | x op o =>
    obtain ⟨hk, hop, ho⟩ := packX_fields op o
    have hn : (BitVec.ofNat 6 op).toNat = op := Nat.mod_eq_of_lt (instrOfX_some h).1
    change decodeWords (packX op o) o.imm = _
    rw [decodeWords_classX _ (classOf_eq hk), hop, hn, ho]
    exact hok
  | v op o =>
    obtain ⟨hk, hop, ho⟩ := packV_fields op o
    have hn : (BitVec.ofNat 8 op).toNat = op := Nat.mod_eq_of_lt (instrOfV_some h).1
    change decodeWords (packV0 op o) (packV1 o) = _
    rw [decodeWords_classV _ (classOf_eq hk), hop, hn, ho]
    exact hok
  | m op o =>
    obtain ⟨hk, hop, ho⟩ := packM_fields op o
    have hn : (BitVec.ofNat 6 op).toNat = op := Nat.mod_eq_of_lt (instrOfM_some h).1
    change decodeWords (packM0 op o) (packM1 o) = _
    rw [decodeWords_classM _ (classOf_eq hk), hop, hn, ho]
    exact hok
  | c op o =>
    obtain ⟨hk, hop, ho⟩ := packC_fields op o
    have hn : (BitVec.ofNat 6 op).toNat = op := Nat.mod_eq_of_lt (instrOfC_some h).1
    change decodeWords (packC0 op o) (packC1 o) = _
    rw [decodeWords_classC _ (classOf_eq hk), hop, hn, ho]
    exact hok

/-! ### Encoding what was decoded -/

/-- R306, R368: a word of op 0 with clear reserved bits is the word of its NOP. -/
theorem nopOf_eq_ok {w : IWord} {i : Instr} (hc : classOf w = 0) (hop : bitsOf w 22 6 = BitVec.ofNat 6 0)
    (h : nopOf w = .ok i) :
    ∃ f : Encoded, f.instr? = some i ∧ WellFormed i ∧ f.words = [w &&& 0x7FFFFFFF] := by
  unfold nopOf at h
  dsimp only at h
  split at h
  · next hz =>
    simp only [Bool.and_eq_true, beq_iff_eq] at hz
    obtain ⟨hlow, hhigh⟩ := hz
    have hs : unpackS w = { d := 0, a := if bitsOf w 10 1 == 1 then 1 else 0, b := 0, g := 0 } := by
      have ha : bitsOf w 10 6 = if bitsOf w 10 1 == 1 then 1 else 0 := by
        rw [← bitsOf_append_bitsOf w 10 1 5 11 rfl, ← bitsOf_extract w (lo := 11) (len := 11) (lo' := 0) (by decide), hhigh]
        generalize bitsOf w 10 1 = a
        revert a; decide
      unfold unpackS
      rw [ha, ← bitsOf_extract w (lo := 11) (len := 11) (lo' := 5) (len' := 6) (by decide), hhigh,
        ← bitsOf_extract w (lo := 0) (len := 10) (lo' := 4) (len' := 6) (by decide), hlow,
        ← bitsOf_extract w (lo := 0) (len := 10) (lo' := 0) (len' := 4) (by decide), hlow]
      rfl
    refine ⟨.nop (bitsOf w 10 1 == 1), ?_, ?_, ?_⟩
    · exact congrArg some (Except.ok.inj h)
    · rw [← Except.ok.inj h]; split <;> rfl
    · rw [Encoded.words, ← hs, packS_unpackS hc hop]
  · cases h

/-- R305: words that decode to an instruction are its words. -/
theorem exists_encoded_of_decodeWords {w w1 : IWord} {i : Instr} (h : decodeWords w w1 = .ok i) :
    ∃ f : Encoded, f.instr? = some i ∧ WellFormed i ∧
      (f.words = [w &&& 0x7FFFFFFF] ∨ f.words = [w &&& 0x7FFFFFFF, w1]) := by
  have hop (lo len : Nat) : bitsOf w lo len = BitVec.ofNat len (bitsOf w lo len).toNat := by simp
  have classes : ∀ k : BitVec 3, k = 0 ∨ k = 1 ∨ k = 2 ∨ k = 3 ∨ k = 4 ∨ k = 5 ∨ k = 6 ∨ k = 7 := by decide
  obtain hk | hk | hk | hk | hk | hk | hk | hk := classes (classOf w)
  · rw [decodeWords_classS w1 hk] at h
    split at h
    · next h0 =>
      obtain ⟨f, hf, hwf, hw⟩ := nopOf_eq_ok hk (h0 ▸ hop 22 6) h
      exact ⟨f, hf, hwf, .inl hw⟩
    · split at h
      · obtain ⟨hi, hwf⟩ := checked_eq_ok.mp h
        exact ⟨.s _ _, hi, hwf, .inl (congrArg ([·]) (packS_unpackS hk (hop 22 6)))⟩
      · obtain ⟨hi, hwf⟩ := checked_eq_ok.mp h
        exact ⟨.sImm _ _, hi, hwf, .inl (congrArg ([·]) (packSImm_unpackSImm hk (hop 22 6)))⟩
  · obtain ⟨hi, hwf⟩ := checked_eq_ok.mp (decodeWords_classX w1 hk ▸ h)
    exact ⟨.x _ _, hi, hwf, .inr (congrArg ([·, w1]) (packX_unpackX w1 hk (hop 22 6)))⟩
  · obtain ⟨hi, hwf⟩ := checked_eq_ok.mp (decodeWords_classV w1 hk ▸ h)
    obtain ⟨h0, h1⟩ := packV_unpackV (w1 := w1) hk (hop 20 8)
    exact ⟨.v _ _, hi, hwf, .inr (congrArg₂ ([·, ·]) h0 h1)⟩
  · obtain ⟨hi, hwf⟩ := checked_eq_ok.mp (decodeWords_classM w1 hk ▸ h)
    obtain ⟨h0, h1⟩ := packM_unpackM (w1 := w1) hk (hop 22 6)
    exact ⟨.m _ _, hi, hwf, .inr (congrArg₂ ([·, ·]) h0 h1)⟩
  · obtain ⟨hi, hwf⟩ := checked_eq_ok.mp (decodeWords_classC w1 hk ▸ h)
    obtain ⟨h0, h1⟩ := packC_unpackC (w1 := w1) hk (hop 22 6)
    exact ⟨.c _ _, hi, hwf, .inr (congrArg₂ ([·, ·]) h0 h1)⟩
  · rw [decodeWords_classL w1 hk, unpackLReg_eq] at h
    obtain ⟨hi, hwf⟩ := checked_eq_ok.mp h
    exact ⟨.l _ _, hi, hwf, .inl (congrArg ([·]) (packLImm_unpackLImm hk (hop 23 5)))⟩
  all_goals
    rw [decodeWords, hk] at h
    cases h

/-! ### The statement -/

/-- Settles O58: each instruction with words is the instruction of a format, an op and fields, and the decoder and the
encoder agree on these. -/
theorem roundTrip : Obligations.RoundTrip := by
  refine ⟨fun i ws start hi hwf => ?_, fun w w1 i hi => ?_⟩
  · obtain ⟨f, hf, hinstr⟩ := exists_encoded hi
    obtain rfl : f.words = ws := Option.some.inj (hf.symm.trans hi)
    refine ⟨f.classWords_eq, ?_⟩
    cases start
    · exact Encoded.decodeWords_eq hinstr hwf
    · exact (decodeWords_or_start _ _).trans (Encoded.decodeWords_eq hinstr hwf)
  · obtain ⟨f, hinstr, hwf, hw⟩ := exists_encoded_of_decodeWords hi
    rw [Encoded.encode_eq hinstr]
    exact ⟨hwf, hw.imp (congrArg some) (congrArg some)⟩

end Sys2Proof.Machine
end

section
/-! The compares and the predicate operations (R307, R328, R362): what each writes, what drift code refuses, and where a
predicate result lands (R15, R280). -/

namespace Sys2Proof.Machine

/-! ### Predicate results -/

/-- R301: a predicate field by number. -/
theorem toNat_setWidth_pred (f : BitVec 6) : (f.setWidth 4).toNat = f.toNat % 16 := BitVec.toNat_setWidth _ _

/-- A predicate that the agent may name takes its result. -/
theorem State.predResult_next {s : State} {n : Nat} (v : Bool) (h : s.agent = .primary ∨ n < 4) :
    s.predResult n v = .next (s.predState n v) := by
  rw [State.predResult, if_neg]
  rcases h with h | h <;> simp [State.isDrift, h]

/-- R31: in drift code a predicate field of 4 to 15 raises cause 0x01. -/
theorem State.predResult_drift_bad {s : State} {n t : Nat} (v : Bool) (ha : s.agent = .drift t) (h : 4 ≤ n) :
    s.predResult n v = s.raise 0x01 := by
  rw [State.predResult, if_pos]
  simp [State.isDrift, ha, h]

/-- A predicate source that the agent may name. -/
theorem State.predSrcOk_true {s : State} {f : BitVec 6} (h : s.agent = .primary ∨ f.toNat < 4) : s.predSrcOk f = true := by
  rcases h with h | h <;> simp [State.predSrcOk, State.isDrift, h]

/-- R31: a predicate source field of 4 to 15 in drift code. -/
theorem State.predSrcOk_drift_bad {s : State} {f : BitVec 6} {t : Nat} (ha : s.agent = .drift t) (h : 4 ≤ f.toNat) :
    s.predSrcOk f = false := by
  simp [State.predSrcOk, State.isDrift, ha, h]

/-! ### Compares (R307, R328) -/

/-- A compare whose fields the agent may name completes. -/
theorem State.compare_next {s : State} {p : BitVec 6} {srcs : List (BitVec 6)} {v : State → Bool}
    (hsrc : s.dregsOk srcs = true) (hd : s.agent = .primary ∨ p.toNat % 16 < 4) :
    s.compare p srcs v = .next (s.predState (p.toNat % 16) (v s)) := by
  rw [State.compare, hsrc, toNat_setWidth_pred, State.predResult_next _ hd]; rfl

/-- R31: a compare with a field that a thread may not name raises cause 0x01. -/
theorem State.compare_drift_bad {s : State} {p : BitVec 6} {srcs : List (BitVec 6)} {t : Nat} (v : State → Bool)
    (ha : s.agent = .drift t) (h : 4 ≤ p.toNat % 16 ∨ s.dregsOk srcs = false) : s.compare p srcs v = s.raise 0x01 := by
  rw [State.compare]
  cases hsrc : s.dregsOk srcs
  · rfl
  · rw [toNat_setWidth_pred, State.predResult_drift_bad _ ha (h.resolve_right (by simp [hsrc]))]; rfl

theorem exec_cmp (o : SOp) (s : State) :
    exec (.cmp o) s = s.compare o.d [o.a, o.b] fun s => scalarCond o.g.toNat (s.rs o.a) (s.rs o.b) := rfl
theorem exec_cmpeqi (o : SImm) (s : State) :
    exec (.cmpeqi o) s = s.compare o.d [o.a] fun s => s.rs o.a == o.imm.signExtend 64 := rfl
theorem exec_cmplti (o : SImm) (s : State) :
    exec (.cmplti o) s = s.compare o.d [o.a] fun s => (s.rs o.a).slt (o.imm.signExtend 64) := rfl
theorem exec_cmplei (o : SImm) (s : State) :
    exec (.cmplei o) s = s.compare o.d [o.a] fun s => (s.rs o.a).sle (o.imm.signExtend 64) := rfl
theorem exec_cmpltni (o : SImm) (s : State) :
    exec (.cmpltni o) s = s.compare o.d [o.a] fun s => (s.rs o.a).ult (o.imm.signExtend 64) := rfl

/-- The immediate compares are compares of one register. -/
theorem exec_compareImm {o : SImm} {j : Instr} (hj : j ∈ [Instr.cmpeqi o, .cmplti o, .cmplei o, .cmpltni o]) :
    ∃ v, ∀ s, exec j s = s.compare o.d [o.a] v := by
  simp only [List.mem_cons, List.not_mem_nil, or_false] at hj
  obtain rfl | rfl | rfl | rfl := hj
  exacts [⟨_, exec_cmpeqi o⟩, ⟨_, exec_cmplti o⟩, ⟨_, exec_cmplei o⟩, ⟨_, exec_cmpltni o⟩]

/-- R328: CMP under a condition of R307. -/
theorem exec_cmp_next {o : SOp} {s : State} (c : BitVec 4) (hsrc : s.dregsOk [o.a, o.b] = true)
    (hd : s.agent = .primary ∨ o.d.toNat % 16 < 4) (hg : o.g = c) :
    exec (.cmp o) s = .next (s.predState (o.d.toNat % 16) (scalarCond c.toNat (s.rs o.a) (s.rs o.b))) := by
  rw [exec_cmp, State.compare_next hsrc hd, hg]

/-- R307: the conditions. -/
theorem scalarCond_eq (x y : Word) :
    scalarCond 0 x y = decide (x = y) ∧ scalarCond 1 x y = decide (x ≠ y) ∧
    scalarCond 2 x y = decide (x.toInt < y.toInt) ∧ scalarCond 3 x y = decide (x.toInt ≤ y.toInt) ∧
    scalarCond 4 x y = decide (x.toNat < y.toNat) ∧ scalarCond 5 x y = decide (x.toNat ≤ y.toNat) :=
  ⟨Bool.beq_eq_decide_eq x y, by simp [scalarCond, bne, Bool.beq_eq_decide_eq], BitVec.slt_eq_decide, BitVec.sle_eq_decide,
    BitVec.ult_eq_decide, BitVec.ule_eq_decide⟩

/-! ### Predicate operations (R362) -/

/-- A predicate operation whose fields the agent may name completes. -/
theorem State.predOp_next {s : State} {o : SOp} {srcs : List (BitVec 6)} {f : State → Bool} (hr : s.runs o.g)
    (hd : s.agent = .primary ∨ o.d.toNat % 16 < 4) (hsrc : srcs.all s.predSrcOk = true) :
    s.predOp o srcs f = .next (s.predState (o.d.toNat % 16) (f s)) := by
  rw [State.predOp, State.guarded_runs hr, hsrc, toNat_setWidth_pred, State.predResult_next _ hd]; rfl

/-- R31: a predicate operation with a field that a thread may not name raises cause 0x01. -/
theorem State.predOp_drift_bad {s : State} {o : SOp} {srcs : List (BitVec 6)} {t : Nat} (f : State → Bool)
    (hr : s.threadRuns t o.g) (h : 4 ≤ o.d.toNat % 16 ∨ ∃ x ∈ srcs, 4 ≤ x.toNat) :
    s.predOp o srcs f = s.raise 0x01 := by
  rw [State.predOp, State.guarded_runs hr.runs]
  cases hsrc : srcs.all s.predSrcOk
  · rfl
  · rw [toNat_setWidth_pred, State.predResult_drift_bad _ hr.1]
    · rfl
    · refine h.resolve_right fun ⟨x, hx, h4⟩ => ?_
      simpa [State.predSrcOk_drift_bad hr.1 h4] using List.all_eq_true.mp hsrc x hx

theorem exec_pand (o : SOp) (s : State) :
    exec (.pand o) s = s.predOp o [o.a, o.b] fun s => s.predSrc o.a && s.predSrc o.b := rfl
theorem exec_por (o : SOp) (s : State) :
    exec (.por o) s = s.predOp o [o.a, o.b] fun s => s.predSrc o.a || s.predSrc o.b := rfl
theorem exec_pxor (o : SOp) (s : State) :
    exec (.pxor o) s = s.predOp o [o.a, o.b] fun s => s.predSrc o.a ^^ s.predSrc o.b := rfl
theorem exec_pandn (o : SOp) (s : State) :
    exec (.pandn o) s = s.predOp o [o.a, o.b] fun s => s.predSrc o.a && !s.predSrc o.b := rfl
theorem exec_movp (o : SOp) (s : State) : exec (.movp o) s = s.predOp o [o.a] fun s => s.predSrc o.a := rfl
theorem exec_setp (o : SOp) (s : State) :
    exec (.setp o) s = s.guarded o.g fun s =>
      if !(s.dregsOk [o.a]) then s.raise 0x01 else s.predResult (o.d.setWidth 4).toNat (s.rs o.a != 0) := rfl

/-- R362: PAND, POR, PXOR and PANDN are operations on two predicates. -/
theorem exec_predPair {o : SOp} {j : Instr} (hj : j ∈ [Instr.pand o, .por o, .pxor o, .pandn o]) :
    ∃ f, ∀ s, exec j s = s.predOp o [o.a, o.b] f := by
  simp only [List.mem_cons, List.not_mem_nil, or_false] at hj
  obtain rfl | rfl | rfl | rfl := hj
  exacts [⟨_, exec_pand o⟩, ⟨_, exec_por o⟩, ⟨_, exec_pxor o⟩, ⟨_, exec_pandn o⟩]

/-- R362: the predicate operations have a guard. -/
theorem exec_predOp_guarded {o : SOp} {j : Instr} (hj : j ∈ [Instr.pand o, .por o, .pxor o, .pandn o, .movp o, .setp o]) :
    ∃ k, ∀ s, exec j s = s.guarded o.g k := by
  simp only [List.mem_cons, List.not_mem_nil, or_false] at hj
  obtain rfl | rfl | rfl | rfl | rfl | rfl := hj
  exacts [⟨_, exec_pand o⟩, ⟨_, exec_por o⟩, ⟨_, exec_pxor o⟩, ⟨_, exec_pandn o⟩, ⟨_, exec_movp o⟩, ⟨_, exec_setp o⟩]

/-- R362: SETP writes whether its register is non-zero. -/
theorem exec_setp_next {o : SOp} {s : State} (hr : s.runs o.g) (hsrc : s.dregsOk [o.a] = true)
    (hd : s.agent = .primary ∨ o.d.toNat % 16 < 4) :
    exec (.setp o) s = .next (s.predState (o.d.toNat % 16) (decide (s.rs o.a ≠ 0))) := by
  rw [exec_setp, State.guarded_runs hr, hsrc, toNat_setWidth_pred, State.predResult_next _ hd, bne,
    Bool.beq_eq_decide_eq, ← decide_not]; rfl

/-- R31: SETP with a field that a thread may not name raises cause 0x01. -/
theorem exec_setp_drift_bad {o : SOp} {s : State} {t : Nat} (hr : s.threadRuns t o.g)
    (h : 4 ≤ o.d.toNat % 16 ∨ 32 ≤ o.a.toNat) : exec (.setp o) s = s.raise 0x01 := by
  rw [exec_setp, State.guarded_runs hr.runs]
  rcases h with h | h
  · rw [toNat_setWidth_pred, State.predResult_drift_bad _ hr.1 h]; split <;> rfl
  · rw [State.dregsOk_drift_false hr.1 (List.mem_singleton.mpr rfl) h]; rfl

/-- R307: the conditions of 6 to 15 are illegal. -/
theorem cmp_condition_illegal {o : SOp} (h : 6 ≤ o.g.toNat) : fieldsOk (.cmp o) = false ∧ fieldGuard (.cmp o) = 0 := by
  have hc : decide (o.g.toNat ≤ 5) = false := decide_eq_false (by omega)
  exact ⟨by simp [fieldsOk, hc], rfl⟩

/-! ### A primary's predicate lands (R15, R280) -/

/-- A predicate by number after a write. -/
theorem Bank.setP_predN (b : Bank) {n m : Nat} (v : Bool) (hn : n < 16) (hm : m < 16) :
    (b.setP n v).pred (BitVec.ofNat 4 m) =
      if m = 0 then true else if m = n then v else b.pred (BitVec.ofNat 4 m) := by
  have hz : BitVec.ofNat 4 m = 0 ↔ m = 0 := by
    rw [← BitVec.toNat_inj, BitVec.toNat_ofNat, Nat.mod_eq_of_lt hm]; rfl
  rw [Bank.setP_pred _ _ _ _ hn, BitVec.toNat_ofNat, Nat.mod_eq_of_lt hm]
  exact if_congr hz rfl rfl

/-- The running bank after a predicate result has landed. -/
def Bank.landP (b : Bank) (n : Nat) (v compl : Bool) : Bank :=
  let c := if compl then (b.setP n v).setP (n + 8) (!v) else b.setP n v
  c.latchS (if v then 1 else 0)

/-- R280: a predicate result that lands: its predicate, the complement where it has one, and scalar latch 0. -/
theorem State.landOne_p {s : State} {e : Pend} {n : Nat} {v compl : Bool} (he : e.eff = .p n v compl) (hu : e.unit = 2) :
    s.landOne e = s.setBank (s.core.bank.landP n v compl) := by
  simp [State.landOne, he, hu, Bank.landP]

/-- A predicate that lands changes the predicates and the scalar latch alone. -/
theorem Bank.landP_frame (b : Bank) (n : Nat) (v compl : Bool) :
    b.landP n v compl = { b with p := (b.landP n v compl).p, latS := (b.landP n v compl).latS } := by
  unfold Bank.landP
  cases compl
  · rw [if_neg Bool.false_ne_true, Bank.setP_frame]; rfl
  · rw [if_pos rfl, Bank.setP_frame, Bank.setP_frame b]; rfl

/-- R15, R280: a predicate after a result has landed in predicate n, with its complement in p(N+8) or without. -/
theorem Bank.landP_pred (b : Bank) {n : Nat} (v compl : Bool) (hn : n < 16) (hc : compl = true → 1 ≤ n ∧ n ≤ 7) {m : Nat}
    (hm : m < 16) :
    (b.landP n v compl).pred (BitVec.ofNat 4 m) =
      if m = 0 then true else if compl = true ∧ m = n + 8 then !v else if m = n then v
      else b.pred (BitVec.ofNat 4 m) := by
  have hlatch (c : Bank) (x : Word) : (c.latchS x).pred (BitVec.ofNat 4 m) = c.pred (BitVec.ofNat 4 m) := rfl
  unfold Bank.landP
  dsimp only
  rw [hlatch]
  cases compl with
  | false =>
    rw [if_neg Bool.false_ne_true, Bank.setP_predN _ _ hn hm, if_neg (show ¬(false = true ∧ m = n + 8) by simp)]
  | true =>
    have h7 := hc rfl
    rw [if_pos rfl, Bank.setP_predN _ _ (by omega) hm, Bank.setP_predN _ _ hn hm]
    by_cases h0 : m = 0
    · rw [if_pos h0, if_pos h0]
    · rw [if_neg h0, if_neg h0, if_neg h0]
      exact if_congr (by simp) rfl rfl

/-- R15: the primary's predicate result, alone in flight, has landed after one tick. -/
theorem State.predState_landed {s : State} (n : Nat) (v : Bool) (ha : s.agent = .primary) (hp : s.core.bank.pend = []) :
    let u := s.predState n v
    (u.setBank { u.core.bank with tick := u.core.bank.tick + 1 }).landDue =
      s.setBank (({ s.core.bank with tick := s.core.bank.tick + 1 } : Bank).landP n v (s.core.bank.complements n)) := by
  have hempty : ({ s.core.bank with tick := s.core.bank.tick + 1, pend := [] } : Bank) =
      { s.core.bank with tick := s.core.bank.tick + 1 } := by rw [← hp]
  intro u
  have hu : u.setBank { u.core.bank with tick := u.core.bank.tick + 1 } = s.setBank { s.core.bank with
      tick := s.core.bank.tick + 1,
      pend := [⟨s.core.bank.tick + 1, s.core.bank.seq, .p n v (s.core.bank.complements n), 2, 0, false⟩] } := by
    simp only [u, State.predState, ha, Bank.addPend, hp]; rfl
  rw [hu, State.landDue_single_now s rfl (le_refl _) rfl, State.landOne_p rfl rfl]
  exact congrArg (fun b : Bank => s.setBank (b.landP n v (s.core.bank.complements n))) hempty

/-! ### A drift thread's predicate lands (R35) -/

/-- A thread that is ready again, with the result v in its predicate k. -/
def Thread.landP (t : Thread) (k : Nat) (v : Bool) : Thread :=
  { t.setP k v with busy := false, due := none, eff := .none, waitEv := none }

/-- A thread that waits until a cycle for a result v of its predicate k. -/
def Thread.issueP (t : Thread) (due k : Nat) (v : Bool) : Thread := { t with busy := true, due := some due, eff := .p k v }

/-- The completion puts the result into the predicates as they stood at issue. -/
theorem Thread.landP_issueP (t : Thread) (due k : Nat) (v : Bool) : (t.issueP due k v).landP k v = t.landP k v := by
  unfold Thread.landP Thread.issueP Thread.setP
  split
  · split <;> rfl
  · rfl

/-- R31, R301: a drift predicate after the completion. -/
theorem Thread.landP_pred (t : Thread) {k m : Nat} (v : Bool) (hk : k < 4) (hm : m < 4) :
    (t.landP k v).pred m = if m = 0 then true else if m = k then v else t.pred m := by
  change (t.setP k v).pred m = _
  unfold Thread.pred Thread.setP
  by_cases h0 : k = 0
  · subst h0
    by_cases hm0 : m = 0 <;> simp [hm0]
  · by_cases hm0 : m = 0
    · simp [hm0]
    · simp only [hk, h0, hm, hm0, dite_true, if_false, Vector.getElem_set, eq_comm (a := k)]

/-- R328, R362: a thread's predicate result goes to its predicate after four cycles. -/
theorem State.predState_drift {s : State} {n : Nat} (ha : s.agent = .drift n) (k : Nat) (v : Bool) :
    s.predState k v = s.setCore (s.core.setThread n ((s.core.thread n).issueP (s.core.cycle + 4) k v)) := by
  rw [State.predState, ha]
  exact State.driftIssue_eq ha 4 _

/-- R35: the completion of a predicate operation of a thread of the running bank. -/
theorem State.driftDone_p {s : State} {n k : Nat} {v : Bool} (hn : n < 8) (hb : (s.core.thread n).bank = s.core.curBank)
    (he : (s.core.thread n).eff = .p k v) :
    s.driftDone n = s.setCore (s.core.setThread n ((s.core.thread n).landP k v)) := by
  rw [State.driftDone, State.onBank, if_pos hb]
  simp only [State.asAgent, State.driftApply, State.thread, he, State.threadReady, State.setThread,
    State.setCore, Core.setThread_self _ hn, Core.setThread_setThread, Thread.landP]

/-- R35: a thread's predicate result is in its predicate after four cycles in which no other thread's operation runs. -/
theorem State.predState_driftDue {s : State} {n : Nat} (k : Nat) (v : Bool) (ha : s.agent = .drift n) (hn : n < 8)
    (hb : (s.core.thread n).bank = s.core.curBank) (hidle : ∀ m < 8, m ≠ n → (s.core.thread m).busy = false) :
    let t := s.predState k v
    (t.setCore { t.core with cycle := s.core.cycle + 4 }).driftDue =
      s.setCore { s.core.setThread n ((s.core.thread n).landP k v) with cycle := s.core.cycle + 4 } := by
  rw [State.predState_drift ha]
  dsimp only
  generalize hu : State.setCore _ _ = u
  have hself : u.core.thread n = (s.core.thread n).issueP (s.core.cycle + 4) k v := hu ▸ Core.setThread_self _ hn _
  have hcycle : u.core.cycle = s.core.cycle + 4 := by rw [← hu]; rfl
  have hcur : u.core.curBank = s.core.curBank := by rw [← hu, Core.setThread_frame]; rfl
  have hdone : u.driftDone n =
      s.setCore { s.core.setThread n ((s.core.thread n).landP k v) with cycle := s.core.cycle + 4 } := by
    rw [State.driftDone_p (k := k) (v := v) hn (by rw [hself, hcur]; exact hb) (by rw [hself]; rfl), hself,
      Thread.landP_issueP, ← hu]
    simp only [State.setCore_core, State.setCore_setCore, Core.setThread_cycle, Core.setThread_setThread]
  rw [← hdone]
  refine State.driftDue_only hn (by rw [hself]; rfl) (by rw [hself]; rfl) hcycle.ge fun m hm hne => ⟨?_, ?_⟩
  · rw [← hu]
    exact (congrArg Thread.busy (Core.setThread_other _ hn hm hne _)).trans (hidle m hm hne)
  · rw [hdone]
    exact (congrArg Thread.busy (Core.setThread_other _ hn hm hne _)).trans (hidle m hm hne)

/-! ### The statement -/

/-- Settles O3: the results and refusals by the shared compare and predicate operations, the landing by the only result
in flight. -/
theorem predicateResults : Obligations.PredicateResults := by
  refine ⟨fun o s hr h => ?operations, fun o s hsrc hd => ?compares, fun o s hsrc hd => ?immediates,
    fun o i s n ha => ⟨fun h => ?cmpBad, fun h j hj => ?immBad, fun hg j hj => ?guardBad,
      fun hr => ⟨fun h j hj => ?pairBad, fun h => ?movpBad, fun h => exec_setp_drift_bad hr h⟩⟩,
    fun o s h => ?condition, fun s n k v ha hn hk hb hidle => ?driftLanding, fun s n v ha hp hn => ?primaryLanding⟩
  case operations =>
    have hd : s.agent = .primary ∨ o.d.toNat % 16 < 4 := h.imp_right And.left
    have ha : s.predSrcOk o.a = true := State.predSrcOk_true (h.imp_right fun x => x.2.1)
    have hb : s.predSrcOk o.b = true := State.predSrcOk_true (h.imp_right fun x => x.2.2)
    have hpair (f) : s.predOp o [o.a, o.b] f = _ := State.predOp_next hr hd (by simp [ha, hb])
    rw [exec_pand, exec_por, exec_pxor, exec_pandn, exec_movp, hpair, hpair, hpair, hpair,
      State.predOp_next hr hd (by simp [ha])]
    exact ⟨rfl, rfl, rfl, rfl, rfl⟩
  case compares =>
    intro d x y
    obtain ⟨heq, hne, hlt, hle, hltn, hlen⟩ := scalarCond_eq x y
    have hcmp (c : BitVec 4) (hg : o.g = c) : exec (.cmp o) s = _ := exec_cmp_next c hsrc hd hg
    exact ⟨fun hr => exec_setp_next hr (State.dregsOk_head hsrc) hd, fun h => heq ▸ hcmp 0 h, fun h => hne ▸ hcmp 1 h,
      fun h => hlt ▸ hcmp 2 h, fun h => hle ▸ hcmp 3 h, fun h => hltn ▸ hcmp 4 h, fun h => hlen ▸ hcmp 5 h⟩
  case immediates =>
    intro d x i
    rw [exec_cmpeqi, exec_cmplti, exec_cmplei, exec_cmpltni]
    have hnext (v) : s.compare o.d [o.a] v = _ := State.compare_next hsrc hd
    rw [hnext, hnext, hnext, hnext, Bool.beq_eq_decide_eq, BitVec.slt_eq_decide, BitVec.sle_eq_decide,
      BitVec.ult_eq_decide]
    exact ⟨rfl, rfl, rfl, rfl⟩
  case cmpBad => exact exec_cmp o s ▸ State.compare_drift_bad _ ha h
  case immBad =>
    obtain ⟨v, hv⟩ := exec_compareImm hj
    rw [hv]
    exact State.compare_drift_bad _ ha (h.imp_right fun h => State.dregsOk_drift_false ha List.mem_cons_self h)
  case guardBad =>
    obtain ⟨k, hk⟩ := exec_predOp_guarded hj
    rw [hk, State.guarded_drift_badCode _ ha hg]
  case pairBad =>
    obtain ⟨f, hf⟩ := exec_predPair hj
    rw [hf]
    exact State.predOp_drift_bad _ hr (h.imp_right fun h => by simpa using h)
  case movpBad => exact exec_movp o s ▸ State.predOp_drift_bad _ hr (h.imp_right fun h => ⟨_, List.mem_cons_self, h⟩)
  case condition =>
    obtain ⟨hp, hd⟩ := illegalField_raises_noGuard (s := s) (cmp_condition_illegal h)
    exact ⟨hp, fun n _ => hd n⟩
  case driftLanding =>
    intro t u
    have ht : t = _ := State.predState_drift ha k v
    have hu : u = _ := State.predState_driftDue k v ha hn hb hidle
    have hself (x) : (s.core.setThread n x).thread n = x := Core.setThread_self _ hn x
    have hpred (m) (hm : m < 4) : (u.core.thread n).pred m =
        if m = 0 then true else if m = k then v else (s.core.thread n).pred m := by
      rw [hu]
      exact (congrArg (Thread.pred · m) (hself _)).trans (Thread.landP_pred _ v hk hm)
    refine ⟨ht ▸ Core.setThread_bank _ _ _, ht ▸ congrArg Thread.due (hself _), ?_, hu ▸ congrArg Thread.busy (hself _),
      fun m hm hne => ?_, hu ▸ Core.setThread_bank _ _ _, hu ▸ Core.setThread_store _ _ _, hu ▸ rfl⟩
    · rw [hpred k hk, if_pos rfl]
    · rw [hpred m hm, if_neg hne]
      exact ite_eq_right_iff.mpr fun h0 => h0 ▸ (Thread.pred_zero _).symm
  case primaryLanding =>
    intro u w
    have hw : w = _ := State.predState_landed n v ha hp
    have hc : s.core.bank.complements n = true → 1 ≤ n ∧ n ≤ 7 := by simp [Bank.complements]; omega
    have hpred {m} (hm : m < 16) : w.core.bank.pred (BitVec.ofNat 4 m) = if m = 0 then true
        else if s.core.bank.complements n = true ∧ m = n + 8 then !v else if m = n then v
        else s.core.bank.pred (BitVec.ofNat 4 m) := by
      rw [hw]
      exact Bank.landP_pred _ v _ hn hc hm
    have hframe := Bank.landP_frame { s.core.bank with tick := s.core.bank.tick + 1 } n v (s.core.bank.complements n)
    refine ⟨?_, fun hl h1 h7 => ?_, ?_, ?_, ?_, ?_, hw ▸ rfl, hw ▸ rfl, fun m hm hne h => ?_⟩
    · rw [hpred hn]; simp
    · have : s.core.bank.complements n = true := by simp [Bank.complements, hl, h1, h7]
      rw [hpred (by omega), if_neg (by omega), if_pos ⟨this, rfl⟩]
    iterate 4
      rw [hw, State.setBank_core, hframe]
    · rw [hpred hm]
      have : ¬ (s.core.bank.complements n = true ∧ m = n + 8) := fun ⟨hcompl, h8⟩ => by
        have hl : s.core.bank.loop.active = false := by simp [Bank.complements] at hcompl; exact hcompl.1.1
        simp only [hl, Bool.false_eq_true, false_or] at h
        have := hc hcompl
        omega
      rw [if_neg this, if_neg hne]
      exact ite_eq_right_iff.mpr fun h0 => h0 ▸ rfl

end Sys2Proof.Machine
end

section
/-! The scalar register operations (R317): the result of each for both agents, with the quotients and high products
spelled out. -/

namespace Sys2Proof.Machine

/-! ### High products and quotients -/

/-- R317: the bits above 64 of a product that 128 bits hold are its quotient by 2^64. -/
theorem extract_high_eq_ofInt (z : BitVec 128) : z.extractLsb' 64 64 = BitVec.ofInt 64 (z.toInt / 2 ^ 64) := by
  apply BitVec.eq_of_toNat_eq
  have h := BitVec.toInt_eq_toNat_bmod z
  have hlt := z.isLt
  rw [BitVec.extractLsb'_toNat, BitVec.toNat_ofInt, Nat.shiftRight_eq_div_pow, h, Int.bmod_def]
  norm_num at *
  split <;> omega

/-- R317: MULH is bits 127:64 of the product of the sign-extended operands. -/
theorem mulHigh_eq (x y : Word) :
    mulHigh x y = (x.signExtend 128 * y.signExtend 128).extractLsb' 64 64 := by
  rw [mulHigh, extract_high_eq_ofInt, BitVec.toInt_mul, BitVec.toInt_signExtend_of_le (by decide),
    BitVec.toInt_signExtend_of_le (by decide), Int.bmod_eq_of_le]
  all_goals
    have hx1 := BitVec.le_toInt x
    have hx2 := BitVec.toInt_lt (x := x)
    have hy1 := BitVec.le_toInt y
    have hy2 := BitVec.toInt_lt (x := y)
    norm_num at *
    nlinarith

/-- R317: MULHN is bits 127:64 of the product of the zero-extended operands. -/
theorem mulHighN_eq (x y : Word) : mulHighN x y = (x.setWidth 128 * y.setWidth 128).extractLsb' 64 64 := by
  have hx := x.isLt
  have hy := y.isLt
  have hprod : x.toNat * y.toNat < 2 ^ 128 := by nlinarith
  apply BitVec.eq_of_toNat_eq
  rw [mulHighN, BitVec.extractLsb'_toNat, BitVec.toNat_mul, BitVec.toNat_setWidth_of_le (by decide),
    BitVec.toNat_setWidth_of_le (by decide), Nat.mod_eq_of_lt hprod, Nat.shiftRight_eq_div_pow, BitVec.toNat_ofNat]

/-- R317: DIV rounds toward zero; a zero divisor gives -1. -/
theorem divS_eq (x y : Word) : divS x y = if y = 0 then -1 else BitVec.ofInt 64 (x.toInt.tdiv y.toInt) := by
  unfold divS
  split
  · rfl
  · exact BitVec.eq_of_toInt_eq (by rw [BitVec.toInt_sdiv, BitVec.toInt_ofInt])

/-- R317: DIVN; a zero divisor gives 2^64 - 1. -/
theorem divN_eq (x y : Word) : divN x y = if y = 0 then -1 else BitVec.ofNat 64 (x.toNat / y.toNat) := by
  unfold divN
  split
  · rfl
  · rw [BitVec.udiv_eq, BitVec.udiv_def]

/-! ### The operations as one shared operation -/

/-- R317: a register operation whose fields and destination are allowed completes. -/
theorem State.regOp_next {s : State} {o : SOp} {lat dlat : Nat} {f : Word → Word → Word} (hr : s.runs o.g)
    (hd : s.dregsOk [o.d, o.a, o.b] = true) (hdest : s.destOk o.d = true) :
    s.regOp o lat dlat f = .next (s.scalarResult lat dlat o.d (f (s.rs o.a) (s.rs o.b))) := by
  rw [State.regOp, State.guarded_runs hr, State.scalarOp_next hd hdest]

theorem exec_add (o : SOp) (s : State) : exec (.add o) s = s.regOp o 1 4 (· + ·) := rfl
theorem exec_sub (o : SOp) (s : State) : exec (.sub o) s = s.regOp o 1 4 (· - ·) := rfl
theorem exec_mul (o : SOp) (s : State) : exec (.mul o) s = s.regOp o 3 8 (· * ·) := rfl
theorem exec_min (o : SOp) (s : State) : exec (.min_ o) s = s.regOp o 1 4 fun a b => if b.slt a then b else a := rfl
theorem exec_max (o : SOp) (s : State) : exec (.max_ o) s = s.regOp o 1 4 fun a b => if a.slt b then b else a := rfl
theorem exec_minn (o : SOp) (s : State) : exec (.minn o) s = s.regOp o 1 4 fun a b => if b.ult a then b else a := rfl
theorem exec_maxn (o : SOp) (s : State) : exec (.maxn o) s = s.regOp o 1 4 fun a b => if a.ult b then b else a := rfl
theorem exec_and (o : SOp) (s : State) : exec (.and_ o) s = s.regOp o 1 4 (· &&& ·) := rfl
theorem exec_or (o : SOp) (s : State) : exec (.or_ o) s = s.regOp o 1 4 (· ||| ·) := rfl
theorem exec_xor (o : SOp) (s : State) : exec (.xor_ o) s = s.regOp o 1 4 (· ^^^ ·) := rfl
theorem exec_shl (o : SOp) (s : State) : exec (.shl o) s = s.regOp o 1 4 fun a b => a <<< shiftCount b := rfl
theorem exec_shr (o : SOp) (s : State) : exec (.shr o) s = s.regOp o 1 4 fun a b => a >>> shiftCount b := rfl
theorem exec_sar (o : SOp) (s : State) :
    exec (.sar o) s = s.regOp o 1 4 fun a b => a.sshiftRight (shiftCount b) := rfl
theorem exec_mulh (o : SOp) (s : State) : exec (.mulh o) s = s.regOp o 3 8 mulHigh := rfl
theorem exec_mulhn (o : SOp) (s : State) : exec (.mulhn o) s = s.regOp o 3 8 mulHighN := rfl
theorem exec_div (o : SOp) (s : State) : exec (.div o) s = s.regOp o 20 24 divS := rfl
theorem exec_divn (o : SOp) (s : State) : exec (.divn o) s = s.regOp o 20 24 divN := rfl

/-! ### The statement -/

/-- Settles O1: each operation is the shared register operation, and its function is the one stated. -/
theorem scalarRegisterResults : Obligations.ScalarRegisterResults := by
  intro o s hr hd hdest x y n
  have hn : shiftCount y = n := shiftCount_eq y
  have hop (lat dlat : Nat) (f : Word → Word → Word) : s.regOp o lat dlat f = .next (s.scalarResult lat dlat o.d (f x y)) :=
    State.regOp_next hr hd hdest
  rw [exec_add, exec_sub, exec_mul, exec_min, exec_max, exec_minn, exec_maxn, exec_and, exec_or, exec_xor, exec_shl,
    exec_shr, exec_sar, exec_mulh, exec_mulhn, exec_div, exec_divn]
  simp only [hop, hn, ofInt_max_toInt, ofNat_max_toNat, mulHigh_eq, mulHighN_eq, divS_eq, divN_eq, true_and, and_true]
  rw [min_comm, ofInt_min_toInt, min_comm, ofNat_min_toNat]
  exact ⟨rfl, rfl⟩

end Sys2Proof.Machine
end

section
/-! Control transfers (R18, R23 to R27, R40, R41): what a decision of the running bank or of its lead does, the branches
of both agents, MBR's leaf, loops, LMARK, TASKEND and YIELD. -/

namespace Sys2Proof.Machine

/-! ### Decisions (R41) -/

/-- The decision of a control transfer that the running bank takes by itself. -/
def State.ownStep (s : State) (g : BitVec 4) (target : Word) (count : Nat) (leaf : Option Nat) : GangStep :=
  { at_ := s.core.cycle, pc := s.core.bank.pc, guard := s.core.bank.guard g, target := target, count := count, rows := 0,
    leaf := leaf, irq := false, pre := false }

/-- In a task that runs on one core a control transfer follows its own guard. -/
theorem State.control_alone {s : State} (hgang : s.gang = none) (g : BitVec 4) (target : Word) (count : Nat)
    (leaf : Option Nat) (k : GangStep → State → Out) :
    s.control g target count leaf k =
      if s.core.bank.guard g then k (s.ownStep g target count leaf) s else .next s := by
  simp only [State.control, State.leadStep, hgang]; rfl

/-- R41: a member of a gang takes the decision that stands in its lead's log. -/
theorem State.leadStep_member {s : State} {gang : Gang} {d : GangStep} (hgang : s.gang = some gang)
    (hpos : s.core.bank.pos ≠ 0) (hd : gang.steps[s.core.bank.gstep]? = some d) (own : GangStep) :
    s.leadStep own = (d, s) := by
  simp [State.leadStep, hgang, hpos, List.getD, hd]

theorem State.control_member {s : State} {gang : Gang} {d : GangStep} (hgang : s.gang = some gang)
    (hpos : s.core.bank.pos ≠ 0) (hd : gang.steps[s.core.bank.gstep]? = some d) (g : BitVec 4) (target : Word)
    (count : Nat) (leaf : Option Nat) (k : GangStep → State → Out) :
    s.control g target count leaf k = if d.guard then k d s else .next s := by
  simp only [State.control, State.leadStep_member hgang hpos hd]

/-! ### The primary's branches (R18, R24, R325) -/

/-- The state after a branch's decision: its target is taken after the delay bundle. -/
def State.branchTo (s : State) (target : Word) : State := s.setBank { s.core.bank with newBranch := some target }

/-- R18: directly after a control transfer a branch raises cause 0x01 whatever its guard. -/
theorem State.branch_afterControl {s : State} (h : s.core.bank.prevCtl = true) (g : BitVec 4) (target : Word)
    (fin : State → State) : s.branch g target fin = s.raise 0x01 := if_pos h

/-- R24: in a kernel a branch with a true guard raises cause 0x01. -/
theorem State.branch_kernel {s : State} {g : BitVec 4} (hctl : s.core.bank.prevCtl = false) (hgang : s.gang = none)
    (hg : s.core.bank.guard g = true) (hl : s.core.bank.loop.active = true) (target : Word) (fin : State → State) :
    s.branch g target fin = s.raise 0x01 := by
  rw [State.branch, hctl, State.control_alone hgang, hg, if_pos rfl, hl]; rfl

/-- R18: a branch outside a delay bundle and a kernel. -/
theorem State.branch_next {s : State} {g : BitVec 4} (h : s.controlRuns g) (target : Word) (fin : State → State) :
    s.branch g target fin = .next (fin (s.branchTo target)) := by
  obtain ⟨⟨-, hg⟩, hctl, hl, hgang⟩ := h
  rw [State.branch, hctl, State.control_alone hgang, hg, if_pos rfl, hl]; rfl

/-- R41: a member's branch is its lead's. -/
theorem State.branch_member {s : State} {gang : Gang} {d : GangStep} (hctl : s.core.bank.prevCtl = false)
    (hl : s.core.bank.loop.active = false) (hgang : s.gang = some gang) (hpos : s.core.bank.pos ≠ 0)
    (hd : gang.steps[s.core.bank.gstep]? = some d) (g : BitVec 4) (target : Word) (fin : State → State) :
    s.branch g target fin = .next (if d.guard then fin (s.branchTo d.target) else s) := by
  rw [State.branch, hctl, State.control_member hgang hpos hd, hl]
  cases d.guard <;> rfl

section
variable {s : State} (ha : s.agent = .primary)
include ha

theorem exec_br_primary (o : LImm) :
    exec (.br o) s = s.branch o.g (s.core.bank.pc + 4 * o.imm.signExtend 64) id := by
  change execBr o s = _
  simp only [execBr, State.relTarget, State.here, ha]

theorem exec_call_primary (o : LImm) :
    exec (.call o) s = s.branch o.g (s.core.bank.pc + 4 * o.imm.signExtend 64) fun t =>
      t.result 1 (.sPlain 62 (BitVec.ofNat 64 (s.image.after (s.image.after s.core.bank.pc.toNat)))) := by
  change execCall o s = _
  simp only [execCall, State.relTarget, State.linkAddr, State.here, ha]

theorem exec_bri_primary (o : LReg) :
    exec (.bri o) s = s.branch o.g (s.core.bank.sreg o.a + 4 * o.imm.signExtend 64) id := by
  change execBri o s = _
  simp only [execBri, State.rs, ha]

theorem exec_brb_primary (o : LReg) : exec (.brb o) s = s.branch o.g (s.core.bank.breg o.imm.toNat) id := by
  change execBrb o s = _
  simp only [execBrb, ha]

theorem exec_ret_primary (o : LReg) : exec (.ret o) s = s.branch o.g (s.core.bank.sreg 62) id := by
  change execRet o s = _
  simp only [execRet, ha]

/-! ### LOOP, LMARK, TASKEND, YIELD, TRAP and MBR as decisions -/

theorem exec_loop_primary (o : LReg) :
    exec (.loop o) s = if s.core.bank.prevCtl then s.raise 0x01
      else s.control o.g 0 ((s.core.bank.sreg o.a).toNat % 2 ^ 32) none fun d s =>
        if s.core.bank.loop.active then s.raise 0x01
        else
          let start := s.image.after s.core.bank.pc.toNat
          .next (s.setBank { s.core.bank with
            newLoop := some (loopOf d.count (o.imm.toNat / 256) (o.imm.toNat % 256) (BitVec.ofNat 64 start),
              BitVec.ofNat 64 (s.image.afterN (o.imm.toNat % 256) start)) }) := by
  change execLoop o s = _
  simp only [execLoop, State.rs, ha]

theorem exec_lmark_primary (o : LImm) :
    exec (.lmark o) s = if s.core.bank.prevCtl then s.raise 0x01
      else s.control o.g 0 0 none fun _ s =>
        if s.core.bank.loop.active then s.raise 0x01
        else .next (s.setBank { s.core.bank with
          loopBuf := { first := BitVec.ofNat 64 (s.image.after s.core.bank.pc.toNat), count := o.imm.toNat, valid := true } }) := by
  change execLmark o s = _
  simp only [execLmark, ha]

theorem exec_taskend_primary (o : LImm) :
    exec (.taskend o) s = s.control o.g 0 0 none fun _ s =>
      if s.core.bank.handler || s.core.bank.loop.active then s.raise 0x01
      else .next (s.setBank { s.core.bank with run := .ending, newBranch := none, branch := none }) := by
  change execTaskend o s = _
  simp only [execTaskend, ha]

theorem exec_yield_primary (o : LImm) :
    exec (.yield o) s = if s.core.bank.prevBr then s.raise 0x01
      else s.control o.g 0 (if s.othersReady then 1 else 0) none fun d s =>
        if s.core.bank.handler || s.core.bank.loop.active then s.raise 0x01
        else
          let y := s.setBank { s.core.bank with curYield := true }
          .next (if d.count = 1 then y.startSwitch else y) := by
  change execYield o s = _
  simp only [execYield, ha]

theorem exec_trap_primary (o : XOp) :
    exec (.trap o) s = s.control o.g 0 0 none fun _ s =>
      if s.core.bank.loop.active || s.core.bank.status.guard || s.core.bank.handler || !s.core.bank.rimeFits then
        s.raise 0x01
      else .next (s.trapAfter o.imm.toNat) := by
  change execTrap o s = _
  simp only [execTrap, ha]

theorem exec_mbr_primary (o : XOp) :
    exec (.mbr o) s = if s.core.bank.prevCtl then s.raise 0x01
      else
        let r := s.leadStep (s.mbrDecision o)
        if !r.1.guard then .next (r.2.setBank { r.2.core.bank with isMbr := true, leaf := none })
        else if r.2.core.bank.loop.active then r.2.raise 0x01
        else .next (r.2.setBank { r.2.core.bank with
          isMbr := true, leaf := r.1.leaf, newBranch := some r.1.target }) := by
  change execMbr o s = _
  simp only [execMbr, ha]

end

/-- R26: the decision of an MBR in a task on one core. -/
def State.mbrStep (s : State) (o : XOp) : GangStep :=
  { at_ := s.core.cycle, pc := s.core.bank.pc, guard := s.core.bank.pred o.g,
    target := s.core.bank.breg ((o.imm.extractLsb' 20 3).toNat + s.core.bank.chooseLeaf o), count := 0, rows := 0,
    leaf := some (s.core.bank.chooseLeaf o), irq := false, pre := false }

/-- R26, R41: an MBR outside a delay bundle follows a decision that is its own or its lead's. -/
theorem exec_mbr_decided {s : State} (ha : s.agent = .primary) (hctl : s.core.bank.prevCtl = false) {o : XOp}
    {d : GangStep} (hd : s.leadStep (s.mbrDecision o) = (d, s)) :
    exec (.mbr o) s = if d.guard then
        if s.core.bank.loop.active then s.raise 0x01
        else .next (s.setBank { s.core.bank with isMbr := true, leaf := d.leaf, newBranch := some d.target })
      else .next (s.setBank { s.core.bank with isMbr := true, leaf := none }) := by
  rw [exec_mbr_primary ha, hd, if_neg (Bool.eq_false_iff.mp hctl)]
  cases hg : d.guard <;> simp [hg]

/-- In a task on one core that decision is the MBR's own. -/
theorem State.mbrDecision_alone {s : State} (hgang : s.gang = none) (o : XOp) :
    s.leadStep (s.mbrDecision o) = (s.mbrStep o, s) := by
  simp only [State.mbrDecision, State.leadStep, hgang]; rfl

/-! ### A drift thread's branches (R31, R325) -/

/-- A thread's branch that runs: the thread's next bundle is the target, and it is ready after four cycles. -/
theorem State.driftBranch_runs {s : State} {n : Nat} {g : BitVec 4} {srcs : List (BitVec 6)} {target : State → Word}
    {eff : DriftEff} (hr : s.threadRuns n g) (hn : n < 8) (hsrc : s.dregsOk srcs = true) :
    ∃ t, s.driftBranch g srcs target eff = .next t ∧ (t.core.thread n).next = target s ∧
      (t.core.thread n).due = some (s.core.cycle + 4) ∧ (t.core.thread n).eff = eff ∧ t.core.bank = s.core.bank := by
  rw [State.driftBranch, State.guarded_runs hr.runs, hsrc, State.driftIssue_eq hr.1]
  refine ⟨_, rfl, ?_⟩
  simp [State.setThread, State.thread, hr.1, Core.setThread_self _ hn, Core.setThread_bank]

section
variable {s : State} {n : Nat} (ha : s.agent = .drift n)
include ha

theorem exec_br_drift (o : LImm) :
    exec (.br o) s = s.driftBranch o.g [] (fun s => s.relTarget o.imm) .none := by
  change execBr o s = _
  simp only [execBr, ha]

theorem exec_call_drift (o : LImm) :
    exec (.call o) s = s.driftBranch o.g [] (fun s => s.relTarget o.imm)
      (.d 30 (BitVec.ofNat 64 (s.image.after (s.core.thread n).pc.toNat))) := by
  change execCall o s = _
  simp only [execCall, State.linkAddr, State.here, ha]

theorem exec_bri_drift (o : LReg) :
    exec (.bri o) s = s.driftBranch o.g [o.a] (fun s => s.rs o.a + 4 * o.imm.signExtend 64) .none := by
  change execBri o s = _
  simp only [execBri, ha]

theorem exec_ret_drift (o : LReg) : exec (.ret o) s = s.driftBranch o.g [] (fun s => s.rs 30) .none := by
  change execRet o s = _
  simp only [execRet, ha]

theorem exec_brb_drift (o : LReg) : exec (.brb o) s = s.raise 0x01 := by
  change execBrb o s = _
  simp only [execBrb, ha]

end

/-! ### The statements on branches and decisions -/

/-- Settles O6: the primary's branches by the shared branch, its delay bundle by the bank's advance, and a thread's
branches by the shared drift branch. -/
theorem branches : Obligations.Branches := by
  refine ⟨⟨fun o s h => ?relative, fun o s h => ?indirect⟩, fun b t n hloop hbr hl ht => ?delay,
    fun r o s n hn hreg => ⟨fun hr => ?driftRelative, fun hr => ?driftIndirect⟩⟩
  case relative =>
    rw [exec_br_primary h.1.1, exec_call_primary h.1.1, State.branch_next h, State.branch_next h]
    exact ⟨rfl, rfl⟩
  case indirect =>
    rw [exec_bri_primary h.1.1, exec_brb_primary h.1.1, exec_ret_primary h.1.1, State.branch_next h, State.branch_next h,
      State.branch_next h]
    exact ⟨rfl, rfl, rfl⟩
  case delay => simp [Bank.advance, Bank.loopAfter, Bank.nextPc, hloop, hbr, hl, ht]
  case driftRelative =>
    rw [exec_br_drift hr.1, exec_call_drift hr.1]
    have htarget : s.relTarget o.imm = (s.core.thread n).pc + 4 * o.imm.signExtend 64 := by
      simp only [State.relTarget, State.here, hr.1]
    obtain ⟨t, ht, hnext, hdue, -, hbank⟩ := State.driftBranch_runs (target := fun s => s.relTarget o.imm) (eff := .none)
      hr hn (srcs := []) (by simp [State.dregsOk, hr.1])
    obtain ⟨u, hu, hnext', -, heff, hbank'⟩ := State.driftBranch_runs (target := fun s => s.relTarget o.imm)
      (eff := .d 30 (BitVec.ofNat 64 (s.image.after (s.core.thread n).pc.toNat))) hr hn (srcs := [])
      (by simp [State.dregsOk, hr.1])
    exact ⟨⟨t, ht, hnext.trans htarget, hdue, hbank⟩, u, hu, hnext'.trans htarget, heff, hbank'⟩
  case driftIndirect =>
    rw [exec_bri_drift hr.1, exec_ret_drift hr.1, exec_brb_drift hr.1]
    have hrs (x) : s.rs x = (s.core.thread n).dreg x := by simp only [State.rs, hr.1]
    obtain ⟨t, ht, hnext, -, -, hbank⟩ := State.driftBranch_runs (target := fun s => s.rs r.a + 4 * r.imm.signExtend 64)
      (eff := .none) hr hn (srcs := [r.a]) (by simp [State.dregsOk, hr.1, hreg])
    obtain ⟨u, hu, hnext', -, -, hbank'⟩ := State.driftBranch_runs (target := fun s => s.rs 30) (eff := .none) hr hn
      (srcs := []) (by simp [State.dregsOk, hr.1])
    exact ⟨⟨t, ht, hnext.trans (by rw [hrs]), hbank⟩, ⟨u, hu, hnext'.trans (hrs 30), hbank'⟩, rfl⟩

/-- Settles O7: each control transfer by its decision, its own in a task on one core and the lead's in a gang. -/
theorem controlTransferRules : Obligations.ControlTransferRules := by
  refine ⟨fun o r x s ha => ⟨fun hctl => ?afterControl, fun hctl hgang hl => ⟨fun hg => ?kernelImm, fun hg => ?kernelMbr,
    fun hg => ?kernelReg⟩⟩, fun o r x s gang d ha hctl hl hgang hpos hd => ?member⟩
  case afterControl =>
    rw [exec_br_primary ha, exec_call_primary ha, exec_bri_primary ha, exec_brb_primary ha, exec_ret_primary ha,
      exec_loop_primary ha, exec_lmark_primary ha, exec_mbr_primary ha]
    have hb := State.branch_afterControl hctl
    exact ⟨hb _ _ _, hb _ _ _, hb _ _ _, hb _ _ _, hb _ _ _, if_pos hctl, if_pos hctl, if_pos hctl⟩
  case kernelImm =>
    rw [exec_br_primary ha, exec_call_primary ha, exec_lmark_primary ha, exec_taskend_primary ha, exec_yield_primary ha]
    have hb := State.branch_kernel hctl hgang hg hl
    refine ⟨hb _ _, hb _ _, ?_, ?_, fun hbr => ?_⟩
    · simp [hctl, State.control_alone hgang, hg, hl]
    · simp [State.control_alone hgang, hg, hl]
    · simp [hbr, State.control_alone hgang, hg, hl]
  case kernelMbr =>
    have hguard : (s.mbrStep x).guard = true := hg
    rw [exec_mbr_decided ha hctl (State.mbrDecision_alone hgang x), if_pos hguard, if_pos hl]
  case kernelReg =>
    rw [exec_bri_primary ha, exec_brb_primary ha, exec_ret_primary ha, exec_loop_primary ha]
    have hb := State.branch_kernel hctl hgang hg hl
    refine ⟨hb _ _, hb _ _, hb _ _, ?_⟩
    simp [hctl, State.control_alone hgang, hg, hl]
  case member =>
    intro b u start
    have hbranch := State.branch_member hctl hl hgang hpos hd
    have hcontrol := State.control_member hgang hpos hd
    have hmbr := exec_mbr_decided (o := x) ha hctl (State.leadStep_member hgang hpos hd _)
    refine ⟨fun hg i hi => ?_, fun hg => ?_, fun hg => ?_⟩
    · simp only [List.mem_cons, List.not_mem_nil, or_false] at hi
      obtain rfl | rfl | rfl | rfl | rfl | rfl | rfl | rfl := hi
      · rw [exec_br_primary ha, hbranch, hg]; rfl
      · rw [exec_call_primary ha, hbranch, hg]; rfl
      · rw [exec_lmark_primary ha, hctl, hcontrol, hg]; rfl
      · rw [exec_taskend_primary ha, hcontrol, hg]; rfl
      · rw [exec_bri_primary ha, hbranch, hg]; rfl
      · rw [exec_brb_primary ha, hbranch, hg]; rfl
      · rw [exec_ret_primary ha, hbranch, hg]; rfl
      · rw [exec_loop_primary ha, hctl, hcontrol, hg]; rfl
    · rw [exec_yield_primary ha, exec_trap_primary ha, hmbr, hcontrol, hcontrol, hg]
      exact ⟨fun hbr => by rw [hbr]; rfl, rfl, rfl⟩
    · rw [exec_br_primary ha, exec_bri_primary ha, exec_brb_primary ha, exec_ret_primary ha, exec_call_primary ha,
        exec_loop_primary ha, exec_lmark_primary ha, hmbr, exec_taskend_primary ha, exec_trap_primary ha,
        exec_yield_primary ha, hbranch, hbranch, hbranch, hbranch, hbranch, hcontrol, hcontrol, hcontrol, hcontrol,
        hcontrol, if_neg (Bool.eq_false_iff.mp hctl), if_neg (Bool.eq_false_iff.mp hctl), hg]
      simp only [if_true, hl, Bool.false_eq_true, if_false, Bool.false_or, Bool.or_false]
      refine ⟨rfl, rfl, rfl, rfl, rfl, rfl, rfl, rfl, fun hh => ⟨?_, fun hgd hfit => ?_, fun hbr => ?_⟩⟩
      · exact if_neg (by rw [hh]; exact Bool.false_ne_true)
      · simp only [b] at hgd hh hfit
        simp [hgd, hh, hfit]
      · simp only [b] at hh hbr
        simp [hh, hbr, b]

/-- Settles O8: the decision of an MBR in a task on one core. -/
theorem mbrLeafChosen : Obligations.MbrLeaf := by
  intro o s ha hctl hl hgang b t leaf
  rw [exec_mbr_decided ha hctl (State.mbrDecision_alone hgang o), hl]
  by_cases hg : b.pred o.g = true
  · have hguard : (s.mbrStep o).guard = true := hg
    rw [if_pos hguard, if_pos hg]; rfl
  · have hguard : ¬(s.mbrStep o).guard = true := hg
    rw [if_neg hguard, if_neg hg]

/-! ### Loops (R10, R23, R24, R347) -/

theorem Bank.pred_ofNat (b : Bank) {i : Nat} (h0 : 0 < i) (hi : i < 16) : b.pred (BitVec.ofNat 4 i) = b.p[i] := by
  have hn : (BitVec.ofNat 4 i).toNat = i := by simp; omega
  have hz : BitVec.ofNat 4 i ≠ 0 := by
    intro e; have := congrArg BitVec.toNat e; rw [hn] at this; simp at this; omega
  simp only [Bank.pred, if_neg hz, hn]

/-- R10: the predicates once they have shifted at an iteration boundary. -/
theorem Bank.shiftOn_pred (b : Bank) {i : Nat} (hi : i < 16) :
    b.shiftOn.pred (BitVec.ofNat 4 i) =
      if i < 8 then b.pred (BitVec.ofNat 4 i) else if i = 8 then decide (b.loop.iter < b.loop.trip)
      else if b.loop.iter = 0 then false else b.pred (BitVec.ofNat 4 (i - 1)) := by
  obtain rfl | h0 := Nat.eq_zero_or_pos i
  · rfl
  rw [Bank.pred_ofNat _ h0 hi]
  simp only [Bank.shiftOn, Vector.getElem_ofFn, beq_iff_eq]
  split
  · rw [Bank.pred_ofNat _ h0 hi]; rfl
  · rw [Bank.pred_ofNat _ (by omega) (by omega)]
    simp [show i - 1 < 16 by omega]

/-- R10: at a boundary the predicates shift, the rotation moves and the next iteration starts. -/
theorem Bank.iterate_atLoop {b : Bank} (h : b.atLoop = true) :
    b.iterate = { b.shiftOn with loop := b.loop.begin, atIter := false } := by
  simp only [Bank.iterate, h, if_true]; rfl

theorem Bank.iterate_pred {b : Bank} (h : b.atLoop = true) (n : BitVec 4) : b.iterate.pred n = b.shiftOn.pred n := by
  rw [Bank.iterate_atLoop h]; rfl

/-- The state after a LOOP's decision: the loop governs from the next cycle. -/
def State.loopTo (s : State) (l : LoopState) (after : Word) : State :=
  s.setBank { s.core.bank with newLoop := some (l, after) }

/-- R24, R347: the bank after the bundle of a LOOP. -/
theorem Bank.advance_newLoop {b : Bank} {l : LoopState} {after : Word} (h : b.newLoop = some (l, after)) :
    b.advance.loop = l ∧ b.advance.rotBase = 0 ∧ b.advance.pc = (if l.active then l.start else after) ∧
    (l.active = false → ∀ i, 8 ≤ i → i < 16 → b.advance.pred (BitVec.ofNat 4 i) = false) := by
  simp only [Bank.advance, Bank.loopAfter, Bank.nextPc, h, true_and]
  intro hl i h8 hi
  rw [Bank.pred_ofNat _ (by omega) hi]
  simp [hl, show ¬i < 8 by omega]

/-- Settles O9: the loop that the LOOP leaves for the bank's advance, and the boundary's shift and start. -/
theorem loopKernel : Obligations.LoopKernel := by
  refine ⟨fun o s h => ?start, fun s hs => ⟨_, rfl, ?boundary⟩⟩
  case start =>
    intro b n start
    obtain ⟨⟨ha, hg⟩, hctl, hl, hgang⟩ := h
    rw [exec_loop_primary ha, if_neg (Bool.eq_false_iff.mp hctl), State.control_alone hgang, if_pos hg,
      if_neg (Bool.eq_false_iff.mp hl)]
    let l := loopOf n (o.imm.toNat / 256) (o.imm.toNat % 256) (BitVec.ofNat 64 start)
    let u := s.loopTo l (BitVec.ofNat 64 (s.image.afterN (o.imm.toNat % 256) start))
    refine ⟨u, rfl, by simp [Bank.sameRegs, b, u, State.loopTo], ?_⟩
    intro c
    obtain ⟨hloop, hbase, hpc, hpred⟩ := Bank.advance_newLoop (b := u.core.bank) rfl
    rw [hloop, hpc]
    refine ⟨hbase, rfl, rfl, rfl, rfl, rfl, fun hn => ?_, fun hn => ?_⟩
    · exact ⟨if_neg (Nat.ne_of_gt hn), if_pos (decide_eq_true hn)⟩
    · have hact : decide (0 < n) = false := by simp [hn]
      exact ⟨if_neg (Bool.eq_false_iff.mp hact), hpred hact⟩
  case boundary =>
    intro b c
    have hp {i : Nat} (hi : i < 16) := (Bank.iterate_pred hs (BitVec.ofNat 4 i)).trans (Bank.shiftOn_pred b hi)
    have hc : c = { b.shiftOn with loop := b.loop.begin, atIter := false } := Bank.iterate_atLoop hs
    refine ⟨hp (i := 8) (by omega), fun i hi => ?_, fun h0 => ⟨?_, fun i h9 hi => ?_⟩,
      fun h0 => ⟨fun hr => ?_, fun i h9 hi => ?_⟩, ?_⟩
    · exact (hp (by omega)).trans (if_pos hi)
    · rw [hc]; exact if_pos (beq_iff_eq.mpr h0)
    · exact (hp hi).trans (by simp [h0, show ¬i < 8 by omega, show i ≠ 8 by omega])
    · rw [hc]; simp [Bank.shiftOn, Nat.ne_of_gt h0, Nat.ne_of_gt hr]
    · exact (hp hi).trans (by simp [Nat.ne_of_gt h0, show ¬i < 8 by omega, show i ≠ 8 by omega])
    · rw [hc]; exact ⟨rfl, rfl, fun h => if_pos h, rfl, rfl, rfl⟩

/-- Settles O10. -/
theorem markEndYield : Obligations.MarkEndYield := by
  intro o s h b
  obtain ⟨⟨ha, hg⟩, hctl, hl, hgang⟩ := h
  rw [exec_lmark_primary ha, exec_taskend_primary ha, exec_yield_primary ha, if_neg (Bool.eq_false_iff.mp hctl),
    State.control_alone hgang, State.control_alone hgang, State.control_alone hgang, if_pos hg, if_pos hg, if_pos hg,
    if_neg (Bool.eq_false_iff.mp hl)]
  have hrun (hh : b.handler = false) : ¬(s.core.bank.handler || s.core.bank.loop.active) = true := by
    simp only [b] at hh; rw [hh, hl]; exact Bool.false_ne_true
  refine ⟨rfl, fun hh => if_neg (hrun hh), fun hh hbr => ?_⟩
  rw [if_neg (Bool.eq_false_iff.mp hbr), if_neg (hrun hh)]
  refine ⟨_, rfl, ?_⟩
  cases hr : s.core.otherReady <;> simp [State.ownStep, State.othersReady, hgang, hr, State.startSwitch, b]

end Sys2Proof.Machine
end

section
/-! Guards in a gang (R41, R300): a member's TRAP follows its lead's decision, whatever its own guard says. -/

namespace Sys2Proof.Machine

/-- A gang of two cores whose lead has decided a TRAP with a true guard. -/
def trappingGang : Gang :=
  { id := 0, cores := [0, 1], bank := 0, steps := [{ GangStep.none with guard := true }] }

/-- The task of that gang's second member. -/
def memberTask : BankTask :=
  { task := 0, launch := 0, part := 0, x := 0, y := 0, gang := some 0, member := 1, tret := false, digest := [],
    inUnits := [], outUnits := [], marked := [], pulled := [] }

/-- The second member at that TRAP, in a handler, with p1 false. -/
def memberAtTrap : State :=
  (State.reset.setHub { Hub.clear with gangs := [trappingGang] }).setBank
    { Bank.clear with run := .active, task := some memberTask, pos := 1, handler := true }

/-- A TRAP whose own guard, p1, is false in that member. -/
def guardedTrap : XOp := { d := 0, a := 0, g := 1, sub := 0, imm := 0 }

/-- The member traps with its lead: its own guard is false, and it raises cause 0x01 all the same (R215). -/
theorem exec_trap_memberAtTrap : exec (.trap guardedTrap) memberAtTrap = memberAtTrap.raise 0x01 := by
  rw [exec_trap_primary rfl, State.control_member (gang := trappingGang) (d := { GangStep.none with guard := true })
    rfl (by decide) rfl]
  rfl

/-- Refutes O4: a TRAP is of the system class and neither an MBR nor a DSTOP, yet in a gang it follows the lead's guard
(R41), so a member whose own guard is false traps with its lead. -/
theorem not_guardsAndIllegalFields : ¬ Obligations.GuardsAndIllegalFields := by
  rintro ⟨h, -, -⟩
  have hnext := h (.trap guardedTrap) _ memberAtTrap rfl (by decide) rfl rfl rfl (by decide)
  obtain ⟨t, ht, hrun, -⟩ := State.raise_next memberAtTrap 0x01
  rw [exec_trap_memberAtTrap, ht] at hnext
  rw [Host.Outcome.next.inj hnext] at hrun
  exact absurd hrun (by decide)

end Sys2Proof.Machine
end

section
/-! System registers (R302, R43, R202, R356, R357): what MFSR reads, what MTSR writes, and what user mode refuses. -/

namespace Sys2Proof.Machine

/-! ### MFSR -/

/-- R302: an MFSR whose fields and register its agent may name gives what the register reads as. -/
theorem exec_mfsr_next {o : XOp} {s : State} (hr : s.runs o.g) (hregs : s.dregsOk [o.d, o.a] = true)
    (hdest : s.destOk o.d = true) (hidx : sysIndexed o.imm.toNat = true → s.agent = .primary ∧ s.sup? = true) :
    exec (.mfsr o) s = .next (s.scalarResult 2 4 o.d (s.sysRead o.imm.toNat (s.rs o.a))) := by
  change execMfsr o s = _
  rw [execMfsr, State.guarded_runs hr, hregs, hdest]
  cases hi : sysIndexed o.imm.toNat with
  | false => simp
  | true =>
    obtain ⟨ha, hs⟩ := hidx hi
    simp [State.isDrift, ha, hs]

/-- R231: SVCREQ as the sum of its bits. -/
theorem Hub.svcWord_eq (h : Hub) :
    h.svcWord =
      let spare := (h.cells.toList.filter fun c => c.run == .spare).length
      let cells := decide (spare < h.regs.svcThreshold)
      BitVec.ofNat 64 ((if cells || h.regs.svcRows || h.regs.svcChan || h.regs.svcLanes then 1 else 0) +
        (if cells then 0x100 else 0) + (if h.regs.svcRows then 0x200 else 0) + (if h.regs.svcChan then 0x400 else 0) +
        (if h.regs.svcLanes then 0x800 else 0) + spare % 8 * 2 ^ 16) := by
  simp only [Hub.svcWord]
  generalize decide (_ < h.regs.svcThreshold) = cells
  cases cells <;> cases h.regs.svcRows <;> cases h.regs.svcChan <;> cases h.regs.svcLanes <;> rfl

/-- R227, R228: a register of a machine-check bank, the reserved banks zero. -/
theorem Hub.mcWord_eq (h : Hub) (n r : Nat) :
    h.mcWord n r =
      let m := h.mcBank n
      if 26 ≤ n ∧ n ≤ 30 then 0
      else if r = 0 then
        BitVec.ofNat 64 ((if m.valid then 2 ^ 63 else 0) + (if m.ovf then 2 ^ 62 else 0) + m.sev % 4 * 2 ^ 60 +
          m.src % 32 * 2 ^ 55 + m.unit % 128 * 2 ^ 48 + m.code % 2 ^ 16)
      else if r = 1 then m.addr
      else if r = 2 then BitVec.ofNat 64 (m.count % 2 ^ 32 + m.synd % 2 ^ 16 * 2 ^ 32)
      else BitVec.ofNat 64 ((if m.en then 1 else 0) + if m.notify then 2 else 0) := by
  simp only [Hub.mcWord, mcReserved, Bool.and_eq_true, decide_eq_true_eq]
  match r with
  | 0 | 1 | 2 | k + 3 => rfl

/-- R176: the partition of the running task, or of its core for firmware. -/
theorem State.partition_eq {s : State} {p : Fin 4}
    (hp : (s.core.bank.task.map (·.part)).getD (s.hub.partOfCore s.cur) = p) : s.partition = s.hub.parts[p] := by
  have hpart : s.part = p := by
    rw [← hp, State.part]
    cases s.core.bank.task <;> rfl
  simp [State.partition, hpart]

/-- Settles O11: MFSR gives what the register reads as, and each number's reading by its definition. -/
theorem systemRegisterRead : Obligations.SystemRegisterRead := by
  intro o s hr hregs hdest hidx b r
  have hexec := exec_mfsr_next hr hregs hdest hidx
  have hread {n : Nat} {v : Word} (hv : s.sysRead n (s.rs o.a) = v) : r n v := fun hn => by rw [hexec, hn, hv]
  refine ⟨hread rfl, hread rfl, hread rfl, hread rfl, hread rfl, hread rfl, hread rfl, hread rfl, hread rfl, hread rfl,
    hread rfl, hread rfl, hread rfl, hread rfl, hread rfl, hread rfl, hread rfl, hread rfl, hread rfl, hread rfl,
    hread rfl, hread rfl, hread rfl, fun p hp => ?_, hread (Hub.mcWord_eq _ _ _), hread (Hub.svcWord_eq _), hexec⟩
  have hq := State.partition_eq hp
  exact ⟨hread (congrArg (fun q : Partition => BitVec.ofNat 64 q.audRate) hq), hread (congrArg Partition.audSeed hq),
    hread (congrArg (fun q : Partition => if q.audAct then (1 : Word) else 0) hq),
    hread (congrArg (fun q : Partition => BitVec.ofNat 64 q.qth) hq)⟩

/-! ### MTSR -/

/-- R23, R357: an MTSR of ROTSZ. -/
theorem exec_mtsr_rotsz {o : XOp} {s : State} (hr : s.primaryRuns o.g) (hn : o.imm.toNat = 0x06) :
    exec (.mtsr o) s = match s.core.bank.rotFault (s.rs o.a) with
      | some c => s.raise c
      | none => .next (s.result 2 (.sys 0x06 (s.rs o.a))) := by
  change execMtsr o s = _
  rw [execMtsr, State.primaryOnly_runs hr, hn]
  cases hf : s.core.bank.rotFault (s.rs o.a) <;> simp [mtsrPriv, hf]

/-- R302: an MTSR in supervisor mode of any register but ROTSZ. -/
theorem exec_mtsr_sup {o : XOp} {s : State} (hr : s.primaryRuns o.g) (hs : s.sup? = true) (hn : o.imm.toNat ≠ 0x06) :
    exec (.mtsr o) s = .next (s.result 2 (.sys o.imm.toNat (s.rs o.a))) := by
  change execMtsr o s = _
  rw [execMtsr, State.primaryOnly_runs hr]
  simp [hs, hn]

/-- R302, R202: an MTSR in user mode of any register but ROTSZ. -/
theorem exec_mtsr_user {o : XOp} {s : State} (hr : s.primaryRuns o.g) (hs : s.sup? = false) (hn : o.imm.toNat ≠ 0x06) :
    exec (.mtsr o) s = if mtsrPriv o.imm.toNat then s.raise 0x0C
      else if 0x11 ≤ o.imm.toNat then .next s
      else .next (s.result 2 (.sys (if o.imm.toNat = 0 then 0x100 else o.imm.toNat) (s.rs o.a))) := by
  change execMtsr o s = _
  rw [execMtsr, State.primaryOnly_runs hr]
  simp [hs, hn]

/-- The undo log of guarded mode is all that MTSR's log changes (R222). -/
theorem State.logSys_eq (s : State) (num : Nat) :
    ∃ u, s.logSys num = s.setBank { s.core.bank with sysUndo := u } := by
  unfold State.logSys
  dsimp only
  split
  · split
    · exact ⟨_, rfl⟩
    · exact ⟨_, rfl⟩
  · exact ⟨_, rfl⟩

/-- TFBASE keeps bits 22:7. -/
theorem tfbase_bits (v : Word) : BitVec.ofNat 64 (v.toNat / 128 % 65536 % 65536 * 128) = v &&& 0x7FFF80 := by
  apply BitVec.eq_of_toNat_eq
  rw [BitVec.toNat_ofNat, BitVec.toNat_and, Nat.mod_mod, Nat.mod_eq_of_lt (by omega)]
  apply Nat.eq_of_testBit_eq
  intro i
  have hmask : (0x7FFF80 : Word).toNat = (2 ^ 16 - 1) * 2 ^ 7 := rfl
  rw [hmask, Nat.testBit_and, Nat.testBit_mul_two_pow, Nat.testBit_two_pow_sub_one,
    show (128 : Nat) = 2 ^ 7 from rfl, show (65536 : Nat) = 2 ^ 16 from rfl, Nat.testBit_mul_two_pow,
    Nat.testBit_mod_two_pow, Nat.testBit_div_two_pow]
  by_cases h : 7 ≤ i
  · simp [h, Bool.and_comm]
  · simp [h]

/-- INTEN keeps bits 3:0. -/
theorem inten_bits (v : Word) : (v.setWidth 4).setWidth 64 = v &&& 0xF := by
  apply BitVec.eq_of_toNat_eq
  rw [BitVec.toNat_and]
  simp only [BitVec.toNat_setWidth]
  rw [show (0xF : Word).toNat = 2 ^ 4 - 1 from rfl, Nat.and_two_pow_sub_one_eq_mod]
  omega

/-- Settles O12: MTSR by mode and register, and each register's write where it lands. -/
theorem systemRegisterWrite : Obligations.SystemRegisterWrite := by
  refine ⟨fun o s hr => ?issue, fun s v i => ?land⟩
  case issue =>
    intro v n bad
    refine ⟨fun hn => ?_, exec_mtsr_sup hr, fun hs => ⟨fun hn => ?_, fun hn => ?_, fun hn => ?_⟩⟩
    · rw [exec_mtsr_rotsz hr hn]
      have hbad : (s.core.bank.loop.active || n % 8 ≠ 0 || decide (128 < n)) = true ↔ bad := by
        simp [bad, or_assoc]
      refine ⟨fun hb => ?_, fun hb hvu => ?_, fun hb hvu => ?_⟩
      · rw [Bank.rotFault, if_pos (hbad.mpr hb)]
      · rw [Bank.rotFault, if_neg (mt hbad.mp hb), if_pos hvu]
      · rw [Bank.rotFault, if_neg (mt hbad.mp hb), if_neg (Nat.not_lt.mpr hvu)]
    · rw [exec_mtsr_user hr hs (by omega), hn]; rfl
    · simp only [List.mem_cons, List.not_mem_nil, or_false] at hn
      rw [exec_mtsr_user hr hs (by omega)]
      obtain hn | hn | hn | hn | hn := hn <;> rw [hn] <;> rfl
    · simp only [List.mem_cons, List.not_mem_nil, or_false] at hn
      rw [exec_mtsr_user hr hs (by omega)]
      obtain hn | hn | hn | hn | hn | hn | hn | hn := hn <;> rw [hn] <;> rfl
  case land =>
    intro w part
    have hw (n : Nat) : ∃ u, w n = (s.setBank { s.core.bank with sysUndo := u }).putSys n v := by
      obtain ⟨u, hu⟩ := s.logSys_eq n
      exact ⟨u, congrArg (State.putSys · n v) hu⟩
    choose u hu using hw
    have hread (n : Nat) := congrArg (State.sysRead · n i) (hu n)
    have hbank (n : Nat) := congrArg (·.core.bank) (hu n)
    have hhub (n : Nat) := congrArg State.hub (hu n)
    have hnone (n : Nat) (hs : s.sharedReg n = none) (hp : s.putSys n v = s) : w n = s := by
      change (s.logSys n).putSys n v = s
      simp only [State.logSys, hs, hp]
    refine ⟨(hhub 0x18).trans rfl, (hhub 0x19).trans rfl, (hhub 0x1A).trans rfl, (hhub 0x1C).trans rfl,
      congrArg Bank.status (hbank 0x100), hread 0x08, hread 0x0A, (hread 0x0B).trans (tfbase_bits v),
      (hread 0x0C).trans (inten_bits v), congrArg (·.core.pend) (hu 0x0D), hread 0x0F, hread 0x11, hread 0x12,
      hread 0x13, hread 0x14, congrArg Bank.rotSize (hbank 0x06), congrArg Bank.rotBase (hbank 0x06),
      congrArg Bank.status (hbank 0x00), fun n hn => ?_⟩
    simp only [List.mem_cons, List.not_mem_nil, or_false] at hn
    obtain rfl | rfl | rfl | rfl | rfl | rfl | rfl | rfl | rfl | rfl | rfl | rfl | rfl := hn <;> exact hnone _ rfl rfl

end Sys2Proof.Machine
end

section
/-! What user mode refuses (R202, R302, R317). -/

namespace Sys2Proof.Machine

/-! ### Privileged instructions -/

/-- R202: a supervisor instruction in user mode. -/
theorem State.supOnly_user {s : State} {g : BitVec 4} {k : State → Out} (hr : s.primaryRuns g) (hs : s.sup? = false) :
    s.supOnly g k = s.raise 0x0C := by
  rw [State.supOnly, State.primaryOnly_runs hr, hs]; rfl

theorem exec_supervisor_user {o : XOp} {s : State} (hr : s.primaryRuns o.g) (hs : s.sup? = false) :
    exec (.arm o) s = s.raise 0x0C ∧ exec (.disarm o) s = s.raise 0x0C ∧ exec (.eret o) s = s.raise 0x0C ∧
    exec (.selftest o) s = s.raise 0x0C := by
  change execArm o s = _ ∧ execDisarm o s = _ ∧ execEret o s = _ ∧ execSelftest o s = _
  rw [execArm, execDisarm, execEret, execSelftest]
  simp only [State.supOnly_user hr hs, and_self]

/-- R202: an MFSR of an indexed register in user mode. -/
theorem exec_mfsr_userIndexed {o : XOp} {s : State} (hr : s.primaryRuns o.g) (hs : s.sup? = false)
    (hn : sysIndexed o.imm.toNat = true) : exec (.mfsr o) s = s.raise 0x0C := by
  change execMfsr o s = _
  rw [execMfsr, State.guarded_runs hr.runs, State.dregsOk_primary hr.1]
  simp [State.isDrift, hr.1, hs, hn]

/-! ### Refused destinations -/

section
variable {s : State} (ha : s.agent = .primary) (hs : s.sup? = false)
include ha hs

/-- R317: a register operation to s56 to s59. -/
theorem State.regOp_userDest {o : SOp} {lat dlat : Nat} {f : Word → Word → Word} (hg : s.core.bank.guard o.g = true)
    (h56 : 56 ≤ o.d.toNat) (h59 : o.d.toNat ≤ 59) : s.regOp o lat dlat f = s.raise 0x0C := by
  rw [State.regOp, State.guarded_runs (State.primaryRuns.runs ⟨ha, hg⟩), State.scalarOp_userDest ha hs h56 h59]

theorem State.unaryOp_userDest {o : SOp} {f : Word → Word} (hg : s.core.bank.guard o.g = true)
    (h56 : 56 ≤ o.d.toNat) (h59 : o.d.toNat ≤ 59) : s.unaryOp o f = s.raise 0x0C := by
  rw [State.unaryOp, State.guarded_runs (State.primaryRuns.runs ⟨ha, hg⟩), State.scalarOp_userDest ha hs h56 h59]

theorem exec_sel_userDest {o : SOp} (h56 : 56 ≤ o.d.toNat) (h59 : o.d.toNat ≤ 59) :
    exec (.sel o) s = s.raise 0x0C := by
  change execSel o s = _
  rw [execSel, State.scalarOp_userDest ha hs h56 h59]
  simp [State.isDrift, ha]

/-- R318: an immediate operation to s56 to s59. -/
theorem State.immOp_userDest {o : SImm} {f : Word → Word → Word} (h56 : 56 ≤ o.d.toNat) (h59 : o.d.toNat ≤ 59) :
    s.immOp o f = s.raise 0x0C := State.scalarOp_userDest ha hs h56 h59

end

section
variable {s : State} {x : XOp} (hr : s.primaryRuns x.g) (hs : s.sup? = false) (h56 : 56 ≤ x.d.toNat)
  (h59 : x.d.toNat ≤ 59)
include hr hs h56 h59

theorem exec_mfsr_userDest : exec (.mfsr x) s = s.raise 0x0C := by
  change execMfsr x s = _
  rw [execMfsr, State.guarded_runs hr.runs, State.dregsOk_primary hr.1, State.destOk_user hr.1 hs h56 h59]
  simp [State.isDrift, hr.1]

/-- R319: a long immediate to s56 to s59. -/
theorem exec_long_userDest : exec (.addl x) s = s.raise 0x0C ∧ exec (.movl x) s = s.raise 0x0C ∧
    exec (.movh x) s = s.raise 0x0C := by
  change execAddl x s = _ ∧ execMovl x s = _ ∧ execMovh x s = _
  simp only [execAddl, execMovl, execMovh, State.guarded_runs hr.runs, State.scalarOp_userDest hr.1 hs h56 h59, and_self]

theorem exec_allotment_userDest : exec (.grow x) s = s.raise 0x0C ∧ exec (.shrink x) s = s.raise 0x0C ∧
    exec (.ldt x) s = s.raise 0x0C := by
  change execGrow x s = _ ∧ execShrink x s = _ ∧ execLdt x s = _
  simp only [execGrow, execShrink, execLdt, State.primaryOnly_runs hr, State.destOk_user hr.1 hs h56 h59, Bool.not_false,
    if_true, and_self]

end

section
variable {s : State} {c : COp} (hr : s.primaryRuns c.g) (hs : s.sup? = false) (h56 : 56 ≤ c.data.toNat % 64)
  (h59 : c.data.toNat % 64 ≤ 59)
include hr hs h56 h59

/-- R202: the data register of a C instruction as its destination. -/
theorem State.destOk_dataReg_user : s.destOk (dataReg c) = false := by
  have hd : (dataReg c).toNat = c.data.toNat % 64 := by simp [dataReg]
  exact State.destOk_user hr.1 hs (by omega) (by omega)

theorem exec_access_userDest : exec (.ld c) s = s.raise 0x0C ∧ exec (.atom c) s = s.raise 0x0C := by
  change execLd c s = _ ∧ execAtom c s = _
  simp only [execLd, execAtom, State.guarded_runs hr.runs, State.dregsOk_primary hr.1,
    State.destOk_dataReg_user hr hs h56 h59, Bool.not_true, Bool.not_false, Bool.false_eq_true, if_true, if_false,
    and_self]

theorem exec_flagr_userDest (hcb : s.flagCbOk c = true) : exec (.flagr c) s = s.raise 0x0C := by
  change execFlagr c s = _
  simp only [execFlagr, State.guarded_runs hr.runs, State.dregsOk_primary hr.1, hcb,
    State.destOk_dataReg_user hr hs h56 h59, Bool.not_true, Bool.or_self, Bool.not_false, Bool.false_eq_true, if_true,
    if_false]

theorem exec_engine_userDest : exec (.pin c) s = s.raise 0x0C ∧ exec (.barr c) s = s.raise 0x0C ∧
    exec (.gpost c) s = s.raise 0x0C := by
  change execPin c s = _ ∧ execBarr c s = _ ∧ execGpost c s = _
  simp only [execPin, execBarr, execGpost, State.primaryOnly_runs hr, State.destOk_dataReg_user hr hs h56 h59,
    Bool.not_false, if_true, and_self]

end

/-! ### The statement -/

/-- The code of a cause stands in CAUSE's low byte (R207). -/
theorem causeBits_mod (code : Nat) (h : code < 256) (nested : Bool) :
    (causeBits code none nested 0 0).toNat % 256 = code := by
  cases nested <;> simp [causeBits] <;> omega

/-- Settles O13: the shared check of each kind of instruction. -/
theorem userModePrivilege : Obligations.UserModePrivilege := by
  refine ⟨fun o s hr hs => ?privileged, fun o i s ha hg hs h1 h2 h3 h4 j hj => ?scalar, fun x c s hs =>
    ⟨fun hr h1 h2 j hj => ?long, fun hr h1 h2 => ⟨fun j hj => ?copy, fun hcb => ?flag⟩⟩⟩
  case privileged =>
    refine ⟨?_, fun hn => ?_, fun hn => ?_, exec_supervisor_user hr hs⟩
    · refine ⟨_, rfl, ?_⟩
      simp only [State.agentThread, hr.1, State.setBank_core, State.takeFault_core]
      exact ⟨trivial, rfl, causeBits_mod 0x0C (by decide) _, trivial, trivial⟩
    · simp only [List.mem_cons, List.not_mem_nil, or_false] at hn
      rw [exec_mtsr_user hr hs (by omega), if_pos]
      obtain hn | hn | hn | hn | hn | hn | hn | hn | hn | hn | hn | hn | hn | hn := hn <;> rw [hn] <;> rfl
    · simp only [List.mem_cons, List.not_mem_nil, or_false] at hn
      refine exec_mfsr_userIndexed hr hs ?_
      obtain hn | hn | hn := hn <;> rw [hn] <;> rfl
  case scalar =>
    have hreg {lat dlat f} := State.regOp_userDest (lat := lat) (dlat := dlat) (f := f) ha hs hg h1 h2
    have hone {f} := State.unaryOp_userDest (f := f) ha hs hg h1 h2
    have himm {f} := State.immOp_userDest (f := f) ha hs h3 h4
    have hsel := exec_sel_userDest ha hs h1 h2
    simp only [List.mem_cons, List.not_mem_nil, or_false] at hj
    obtain rfl | rfl | rfl | rfl | rfl | rfl | rfl | rfl | rfl | rfl | rfl | rfl | rfl | rfl | rfl | rfl | rfl | rfl | rfl |
      rfl | rfl | rfl | rfl | rfl | rfl | rfl | rfl | rfl | rfl := hj
    exacts [(hreg : execAdd o s = _), (hreg : execSub o s = _), (hreg : execMul o s = _), (hreg : execMulh o s = _),
      (hreg : execMulhn o s = _), (hreg : execDiv o s = _), (hreg : execDivn o s = _), (hreg : execMin o s = _), (hreg
      : execMax o s = _), (hreg : execMinn o s = _), (hreg : execMaxn o s = _), (hreg : execAnd o s = _), (hreg :
      execOr o s = _), (hreg : execXor o s = _), (hreg : execShl o s = _), (hreg : execShr o s = _), (hreg : execSar o
      s = _), (hone : execClz o s = _), (hone : execPopc o s = _), (hone : execMov o s = _), hsel, (himm : execAddi i
      s = _), (himm : execAndi i s = _), (himm : execOri i s = _), (himm : execXori i s = _), (himm : execShli i s =
      _), (himm : execShri i s = _), (himm : execSari i s = _), (himm : execMovi i s = _)]
  case long =>
    obtain ⟨h3, h4, h5⟩ := exec_long_userDest hr hs h1 h2
    obtain ⟨h6, h7, h8⟩ := exec_allotment_userDest hr hs h1 h2
    simp only [List.mem_cons, List.not_mem_nil, or_false] at hj
    obtain rfl | rfl | rfl | rfl | rfl | rfl | rfl := hj
    exacts [exec_mfsr_userDest hr hs h1 h2, h3, h4, h5, h6, h7, h8]
  case copy =>
    obtain ⟨h3, h4⟩ := exec_access_userDest hr hs h1 h2
    obtain ⟨h5, h6, h7⟩ := exec_engine_userDest hr hs h1 h2
    simp only [List.mem_cons, List.not_mem_nil, or_false] at hj
    obtain rfl | rfl | rfl | rfl | rfl := hj
    exacts [h3, h5, h4, h6, h7]
  case flag =>
    exact exec_flagr_userDest hr hs h1 h2 (by simp [State.flagCbOk, hcb])

end Sys2Proof.Machine
end

section
/-! What acting on another core, a PEND bit and a logged error change (R218, R227 to R229): the layer that the steps of
the hub, the fabric and the guest rest on. -/

namespace Sys2Proof.Machine

/-! ### Maps and memories without an order -/

theorem sget_filter_ne {α : Type} (m : SMap α) {k j : Nat} (h : j ≠ k) : sget (sdel m k) j = sget m j := by
  induction m with
  | nil => rfl
  | cons e m ih =>
    obtain ⟨i, v⟩ := e
    unfold sdel at ih ⊢
    by_cases hi : i = k
    · have hij : i ≠ j := fun e => h (e.symm.trans hi)
      simp [hi, sget, ih, Ne.symm h]
    · simp only [List.filter_cons, bne_iff_ne, ne_eq, hi, not_false_eq_true, if_true, sget, ih]

/-- Entries taken out by their address: every other address reads as before. -/
theorem memByte_filterKeys (m : Mem) (p : Nat → Bool) (a : Nat) :
    memByte (m.filter fun e => p e.1) a = if p a then memByte m a else 0 := by
  induction m with
  | nil => simp [memByte]
  | cons e m ih =>
    obtain ⟨j, v⟩ := e
    by_cases hj : j = a
    · subst hj
      by_cases hp : p j = true <;> simp [hp, memByte, ih]
    · by_cases hp : p j = true <;> simp [hp, memByte, hj, ih]

/-! ### Another core (R28) -/

/-- The core of each number is the same whichever stands in `core`. -/
@[simp] theorem State.focus_coreAt (s : State) (c n : Nat) : (s.focus c).coreAt n = s.coreAt n := by
  unfold State.focus
  split
  · rfl
  · next hc =>
    simp only [State.coreAt]
    by_cases hn : n = c
    · simp [hn]
    · rw [if_neg hn, sget_filter_ne _ hn, sget_sput]
      by_cases h : n = s.cur <;> simp [h]

@[simp] theorem State.coreAt_cur (s : State) : s.coreAt s.cur = s.core := if_pos rfl

@[simp] theorem State.focus_core (s : State) (c : Nat) : (s.focus c).core = s.coreAt c := by
  rw [← State.focus_coreAt s c c]
  conv_rhs => rw [State.coreAt, State.focus_isCur, if_pos rfl]

theorem State.setCore_coreAt (s : State) (k : Core) (n : Nat) :
    (s.setCore k).coreAt n = if n = s.cur then k else s.coreAt n := by
  simp only [State.coreAt, State.setCore_core, State.setCore_cur, State.setCore_others]
  by_cases h : n = s.cur <;> simp [h]

/-- An action that replaces the core it acts on, and no more. -/
def ActsOnCore (f : State → State) : Prop := ∀ t, f t = t.setCore (f t).core

theorem actsOnCore_setCore (g : State → Core) : ActsOnCore fun t => t.setCore (g t) := fun _ => rfl

/-- Acting on one core leaves every other core as it was. -/
theorem State.onCore_coreAt {f : State → State} (hf : ActsOnCore f) (s : State) (c n : Nat) :
    (s.onCore c f).coreAt n = if n = c then (f (s.focus c)).core else s.coreAt n := by
  rw [State.onCore, State.focus_coreAt, hf, State.setCore_coreAt, State.focus_isCur, State.focus_coreAt,
    State.setCore_core]

/-- Acting on one core changes the cores alone. -/
theorem State.onCore_eq {f : State → State} (hf : ActsOnCore f) (s : State) (c : Nat) :
    ∃ k o, s.onCore c f = { s with core := k, others := o } := by
  rw [State.onCore, hf]
  generalize (f (s.focus c)).core = k
  have hfocus (t : State) (n : Nat) : ∃ k o, t.focus n = { t with core := k, others := o, cur := n } := by
    unfold State.focus
    split
    · next h => exact ⟨t.core, t.others, by rw [h]⟩
    · exact ⟨_, _, rfl⟩
  obtain ⟨k₁, o₁, h₁⟩ := hfocus s c
  obtain ⟨k₂, o₂, h₂⟩ := hfocus ((s.focus c).setCore k) s.cur
  refine ⟨k₂, o₂, h₂.trans ?_⟩
  rw [h₁]; rfl

/-- A change of cores, and of what is due, alone: no byte of memory, no register of the hub, no port. -/
def State.ChangesCores (s t : State) : Prop := ∃ k o a, t = { s with core := k, others := o, agenda := a }

theorem State.ChangesCores.refl (s : State) : s.ChangesCores s := ⟨_, _, _, rfl⟩

theorem State.ChangesCores.trans {s t u : State} (h₁ : s.ChangesCores t) (h₂ : t.ChangesCores u) :
    s.ChangesCores u := by
  obtain ⟨k₁, o₁, a₁, rfl⟩ := h₁
  obtain ⟨k, o, a, rfl⟩ := h₂
  exact ⟨k, o, a, rfl⟩

theorem State.changesCores_onCore {f : State → State} (hf : ActsOnCore f) (s : State) (c : Nat) :
    s.ChangesCores (s.onCore c f) := by
  obtain ⟨k, o, h⟩ := State.onCore_eq hf s c
  exact ⟨k, o, _, h⟩

theorem State.changesCores_later (s : State) (ts : List Turn) : s.ChangesCores (s.later ts) := ⟨_, _, _, rfl⟩

/-- Steps that each change cores alone do so one after the other. -/
theorem State.changesCores_foldl {α : Type} {f : State → α → State} (hf : ∀ (s : State) x, s.ChangesCores (f s x)) (xs : List α)
    (s : State) : s.ChangesCores (xs.foldl f s) := by
  induction xs generalizing s with
  | nil => exact .refl s
  | cons x xs ih => exact (hf s x).trans (ih _)

/-! ### PEND and logged errors (R218, R227, R229) -/

/-- A PEND bit changes cores alone. -/
theorem State.setPend_eq (s : State) (c bit : Nat) : ∃ k o, s.setPend c bit = { s with core := k, others := o } := by
  unfold State.setPend
  dsimp only
  split
  · exact ⟨_, _, rfl⟩
  · exact ⟨_, _, rfl⟩

theorem State.setPends_eq (s : State) (cs : List Nat) (bit : Nat) :
    ∃ k o, cs.foldl (fun s c => s.setPend c bit) s = { s with core := k, others := o } := by
  induction cs generalizing s with
  | nil => exact ⟨s.core, s.others, rfl⟩
  | cons c cs ih =>
    obtain ⟨k₁, o₁, h₁⟩ := s.setPend_eq c bit
    obtain ⟨k, o, h⟩ := ih (s.setPend c bit)
    exact ⟨k, o, h.trans (by rw [h₁])⟩

/-- A logged error changes its machine-check bank, and PEND bits of cores. -/
theorem State.logMc_eq (s : State) (n sev src unit code : Nat) (addr : Word) (synd : Nat) (part : Option Nat) :
    ∃ k o, s.logMc n sev src unit code addr synd part =
      { s with hub := s.hub.mcLog n sev src unit code addr synd, core := k, others := o } := by
  unfold State.logMc
  dsimp only
  generalize (if hn : n < 32 then _ else false) = tell
  cases tell
  · exact ⟨_, _, rfl⟩
  · exact State.setPends_eq (s.setHub (s.hub.mcLog n sev src unit code addr synd)) _ 2

@[simp] theorem State.logMc_hub (s : State) (n sev src unit code : Nat) (addr : Word) (synd : Nat) (part : Option Nat) :
    (s.logMc n sev src unit code addr synd part).hub = s.hub.mcLog n sev src unit code addr synd := by
  obtain ⟨k, o, h⟩ := s.logMc_eq n sev src unit code addr synd part
  rw [h]

/-- A machine-check log changes its banks alone. -/
theorem Hub.mcLog_eq (h : Hub) (n sev src unit code : Nat) (addr : Word) (synd : Nat) :
    h.mcLog n sev src unit code addr synd = { h with mc := (h.mcLog n sev src unit code addr synd).mc } := by
  unfold Hub.mcLog
  split
  · split <;> rfl
  · rfl

@[simp] theorem Hub.mcLog_regs (h : Hub) (n sev src unit code : Nat) (addr : Word) (synd : Nat) :
    (h.mcLog n sev src unit code addr synd).regs = h.regs := by rw [Hub.mcLog_eq]

/-- R227: an error logged in a bank that records. -/
theorem Hub.mcLog_mcBank (h : Hub) {n : Nat} (hn : n < 32) (hr : mcReserved n = false) (sev src unit code : Nat)
    (addr : Word) (synd : Nat) :
    (h.mcLog n sev src unit code addr synd).mcBank n = (h.mcBank n).log sev src unit code addr synd := by
  simp [Hub.mcLog, Hub.mcBank, hn, hr]

/-- R227: an enabled bank that holds no error takes the record. -/
theorem McBank.log_free {m : McBank} (he : m.en = true) (hv : m.valid = false) (sev src unit code : Nat) (addr : Word)
    (synd : Nat) :
    (m.log sev src unit code addr synd).valid = true ∧ (m.log sev src unit code addr synd).code = code ∧
    (m.log sev src unit code addr synd).sev = sev := by
  simp [McBank.log, he, hv]

/-! ### Partitions -/

/-- A change of a partition changes no more of the hub. -/
theorem Hub.mapPart_eq (h : Hub) (p : Nat) (f : Partition → Partition) :
    h.mapPart p f = { h with parts := (h.mapPart p f).parts } := by
  unfold Hub.mapPart; split <;> rfl

@[simp] theorem Hub.mapPart_regs (h : Hub) (p : Nat) (f : Partition → Partition) : (h.mapPart p f).regs = h.regs := by
  rw [Hub.mapPart_eq]
@[simp] theorem Hub.mapPart_mc (h : Hub) (p : Nat) (f : Partition → Partition) : (h.mapPart p f).mc = h.mc := by
  rw [Hub.mapPart_eq]

theorem Hub.mapPart_part (h : Hub) {p : Nat} (hp : p < 4) (f : Partition → Partition) (q : Nat) :
    (h.mapPart p f).part q = if q = p then f (h.part p) else h.part q := by
  by_cases hq : q < 4
  · simp only [Hub.mapPart, Hub.part, hp, hq, dite_true, Vector.getElem_set]
    by_cases hqp : q = p
    · subst hqp; simp
    · simp [hqp, Ne.symm hqp]
  · have hqp : q ≠ p := by omega
    simp [Hub.part, hq, hqp]

@[simp] theorem Hub.letRun_regs (h : Hub) (p : Nat) : (h.letRun p).regs = h.regs := Hub.mapPart_regs _ _ _

end Sys2Proof.Machine
end

section
/-! The device (R267 to R272, R237, R238): boot, registers, the report, replicas and heat. -/

namespace Sys2Proof.Machine

/-! ### Boot (R268, R269, R274) -/

/-- R268 step 6: a core gets a supervisor image. -/
def State.giveSup (s : State) (c : Nat) (im : Image) : State := s.onCore c fun t => t.setCore { t.core with sup := im }

/-- R268 step 6: firmware starts in a core. -/
def State.startFirmware (s : State) (c : Nat) (im : Image) : State := s.onCore c fun t => t.setBank (firmwareBank im)

theorem actsOnCore_setBank (g : State → Bank) : ActsOnCore fun t => t.setBank (g t) := fun _ => rfl

theorem State.loadCore_cases (s : State) (c : Nat) :
    ((s.hub.cell (cellOf c)).run = .retired ∧ s.loadCore c = s) ∨
    ((s.hub.cell (cellOf c)).run ≠ .retired ∧ (s.loadCore c = s.giveSup c (s.svc.supOf c) ∨
      s.loadCore c = ((s.giveSup c (s.svc.supOf c)).startFirmware c (s.svc.supOf c)).later [.core c])) := by
  unfold State.loadCore
  dsimp only
  split
  · next h => exact .inl ⟨by simpa using h, rfl⟩
  · next h =>
    refine .inr ⟨by simpa using h, ?_⟩
    split
    · exact .inr rfl
    · exact .inl rfl

/-- R268 step 6: loading a core changes cores and the agenda. -/
theorem State.changesCores_loadCore (s : State) (c : Nat) : s.ChangesCores (s.loadCore c) := by
  have hsup := State.changesCores_onCore (actsOnCore_setCore fun t => { t.core with sup := s.svc.supOf c }) s c
  obtain ⟨-, h⟩ | ⟨-, h | h⟩ := s.loadCore_cases c <;> rw [h]
  · exact .refl s
  · exact hsup
  · exact (hsup.trans (State.changesCores_onCore (actsOnCore_setBank fun _ => _) _ c)).trans (State.changesCores_later _ _)

/-- R268 step 6: a core of a cell that is not retired gets its supervisor image. -/
theorem State.loadCore_sup (s : State) (c n : Nat) :
    ((s.loadCore c).coreAt n).sup =
      if n = c ∧ (s.hub.cell (cellOf c)).run ≠ .retired then s.svc.supOf c else (s.coreAt n).sup := by
  have hsup (n) : ((s.giveSup c (s.svc.supOf c)).coreAt n).sup = if n = c then s.svc.supOf c else (s.coreAt n).sup := by
    rw [State.giveSup, State.onCore_coreAt (actsOnCore_setCore fun t => { t.core with sup := s.svc.supOf c })]
    split <;> rfl
  obtain ⟨hr, h⟩ | ⟨hr, h | h⟩ := s.loadCore_cases c
  · rw [h, if_neg fun h => h.2 hr]
  · rw [h, hsup]; simp [hr]
  · have hfirm : ((((s.giveSup c (s.svc.supOf c)).startFirmware c (s.svc.supOf c)).later [.core c]).coreAt n).sup =
        ((s.giveSup c (s.svc.supOf c)).coreAt n).sup := by
      change ((State.onCore _ c _).coreAt n).sup = _
      rw [State.onCore_coreAt (actsOnCore_setBank fun _ => _)]
      split
      · next hn => rw [hn, State.setBank_core, State.focus_core]
      · rfl
    rw [h, hfirm, hsup]; simp [hr]

theorem State.loadCores_sup (cs : List Nat) (s : State) {n : Nat} (hn : n ∈ cs)
    (hr : (s.hub.cell (cellOf n)).run ≠ .retired) :
    ((cs.foldl State.loadCore s).coreAt n).sup = s.svc.supOf n := by
  induction cs using List.reverseRecOn with
  | nil => simp at hn
  | append_singleton cs c ih =>
    rw [List.foldl_append, List.foldl_cons, List.foldl_nil, State.loadCore_sup]
    obtain ⟨k, o, a, h⟩ := State.changesCores_foldl State.changesCores_loadCore cs s
    have hhub : (cs.foldl State.loadCore s).hub = s.hub := by rw [h]
    have hsvc : (cs.foldl State.loadCore s).svc = s.svc := by rw [h]
    rw [hhub, hsvc]
    by_cases hc : n = c
    · rw [hc] at hr ⊢; rw [if_pos ⟨rfl, hr⟩]
    · rw [if_neg fun h => hc h.1]
      simp only [List.mem_append, List.mem_singleton, hc, or_false] at hn
      exact ih hn

/-! #### The states of a boot -/

/-- R268: the machine as a boot finds it. -/
def State.bootStart (s : State) : State :=
  { State.reset with
    agenda := if s.svc.dirty then [.event .serviceRecordWrite] else [], mem := s.mem, hub := s.hub.boot, svc := s.svc,
    free := s.free, guest := { Guest.clear with present := s.guest.present,
                                                attested := s.guest.present && s.svc.guestOk } }

/-- R268, R269: a boot that halts shows its code. -/
def State.haltedBoot (s : State) (code : Nat) : State := s.setRegs { s.hub.regs with bootCode := code }

/-- R268 step 6: the machine that a boot hands over, before its cores are loaded. -/
def State.bootReady (s : State) : State :=
  let t := s.bootStart.applyMaps.applyCells.applySetup
  (t.setRegs { t.hub.regs with ready := true }).later [.event (.spareSubstitute 0)]

theorem State.boot_early {s : State} (h : s.svc.earlyCode ≠ 0) :
    s.boot = s.bootStart.haltedBoot s.svc.bootCode := if_pos h

theorem State.boot_late {s : State} (h : s.svc.earlyCode = 0) (hc : s.svc.bootCode ≠ 0) :
    s.boot = s.bootStart.applyMaps.applyCells.haltedBoot s.svc.bootCode := by
  unfold State.boot
  dsimp only
  rw [if_neg (not_not.mpr h), if_pos hc]; rfl

theorem Service.earlyCode_of_bootCode {v : Service} (h : v.bootCode = 0) : v.earlyCode = 0 := by
  by_contra he
  rw [Service.bootCode, if_pos he] at h
  exact he h

theorem State.boot_ready {s : State} (hc : s.svc.bootCode = 0) :
    s.boot = (List.range 256).foldl State.loadCore s.bootReady := by
  unfold State.boot
  dsimp only
  rw [if_neg (not_not.mpr (Service.earlyCode_of_bootCode hc)), if_neg (not_not.mpr hc)]; rfl

/-! #### What the boot leaves -/

theorem State.bootStart_fields (s : State) :
    s.bootStart.hub = s.hub.boot ∧ s.bootStart.mem = s.mem ∧ s.bootStart.svc = s.svc ∧ s.bootStart.ops = [] ∧
    s.bootStart.agenda = (if s.svc.dirty then [.event .serviceRecordWrite] else []) := ⟨rfl, rfl, rfl, rfl, rfl⟩

/-- R268 step 4, R274: with HBM lost, memory above it stands. -/
theorem memByte_aboveHbm (m : Mem) (a : Nat) :
    memByte (m.filter fun e => hbmEnd ≤ e.1) a = if hbmEnd ≤ a then memByte m a else 0 := by
  have h := memByte_filterKeys m (fun a => decide (hbmEnd ≤ a)) a
  simpa only [decide_eq_true_eq] using h

/-- R268 step 4: HBM reads zero after the cells are applied, and other memory as before. -/
theorem State.applyCells_memByte (s : State) (a : Nat) :
    memByte s.applyCells.mem a = if hbmEnd ≤ a then memByte s.mem a else 0 := memByte_aboveHbm s.mem a

/-- R268 step 5: the cells by the harvest map and the service record. -/
theorem State.applyCells_cell (s : State) {n : Nat} (hn : n < 64) : s.applyCells.hub.cell n = s.svc.cell n := by
  simp [State.applyCells, Hub.cell, hn]

/-- R268 step 5: a cell's state by the harvest map and the retired cells. -/
theorem Service.cell_run (v : Service) (n : Nat) :
    (n ∈ v.record.retired → (v.cell n).run = .retired) ∧
    (n ∉ v.record.retired → v.harvest.testBit n = true → (v.cell n).run = .enabled ∧ (v.cell n).part = some 0) ∧
    (n ∉ v.record.retired → v.harvest.testBit n = false → (v.cell n).run = .spare) := by
  refine ⟨fun h => ?_, fun h hb => ?_, fun h hb => ?_⟩
  · simp [Service.cell, h]
  · simp [Service.cell, h, hb]
  · simp [Service.cell, h, hb]

/-- R267, R269: a boot that halts. -/
theorem State.boot_halts {s : State} (hc : s.svc.bootCode ≠ 0) :
    s.boot.hub.regs.bootCode = s.svc.bootCode ∧ s.boot.hub.regs.ready = false ∧ s.boot.hub.launches = [] ∧
    s.boot.agenda = (if s.svc.dirty then [.event .serviceRecordWrite] else []) ∧
    (s.svc.earlyCode ≠ 0 → s.boot.mem = s.mem) ∧
    (s.svc.earlyCode = 0 → ∀ a < 0xC000000000, memByte s.boot.mem a = 0) := by
  by_cases he : s.svc.earlyCode = 0
  · rw [State.boot_late he hc]
    refine ⟨rfl, rfl, rfl, rfl, fun h => absurd he h, fun _ a ha => ?_⟩
    exact (State.applyCells_memByte _ a).trans (if_neg (Nat.not_le.mpr ha))
  · rw [State.boot_early he]
    exact ⟨rfl, rfl, rfl, rfl, fun _ => rfl, fun h => absurd h he⟩

/-- R268: a boot that succeeds, but for its cores. -/
theorem State.boot_changesCores {s : State} (hc : s.svc.bootCode = 0) : s.bootReady.ChangesCores s.boot := by
  rw [State.boot_ready hc]
  exact State.changesCores_foldl State.changesCores_loadCore _ _

theorem State.bootReady_memByte (s : State) (a : Nat) :
    memByte s.bootReady.mem a = if hbmEnd ≤ a then memByte s.mem a else 0 :=
  State.applyCells_memByte s.bootStart.applyMaps a

theorem State.bootReady_cell (s : State) {n : Nat} (hn : n < 64) : s.bootReady.hub.cell n = s.svc.cell n :=
  State.applyCells_cell s.bootStart.applyMaps hn

/-- R268 step 6: a core of a cell that is not retired holds its supervisor image after a boot. -/
theorem State.boot_sup {s : State} (hc : s.svc.bootCode = 0) {n q : Nat} (hn : n < 64) (hr : n ∉ s.svc.record.retired)
    (hq : q < 4) : (s.boot.coreAt (4 * n + q)).sup = s.svc.supOf (4 * n + q) := by
  have hcell : cellOf (4 * n + q) = n := by simp only [cellOf]; omega
  rw [State.boot_ready hc, State.loadCores_sup _ _ (List.mem_range.mpr (by omega))]
  · rfl
  · rw [hcell, State.bootReady_cell s hn]
    obtain ⟨-, henabled, hspare⟩ := s.svc.cell_run n
    cases hb : s.svc.harvest.testBit n
    · rw [hspare hr hb]; decide
    · rw [(henabled hr hb).1]; decide

/-! ### The report (R270) -/

/-- Bytes written in a row read back as a part of it. -/
theorem readBytes_writeBytes_slice {m : Mem} (h : Mem.wf m = true) (a : Nat) (xs ys zs : List Byte) :
    readBytes (writeBytes m a (xs ++ ys ++ zs)) (a + xs.length) ys.length = ys := by
  apply List.ext_getElem
  · simp
  · intro i h1 h2
    simp only [readBytes, List.getElem_map, List.getElem_range]
    rw [memByte_writeBytes h, if_pos (by simp only [List.length_append]; omega), List.append_assoc,
      show a + xs.length + i - a = xs.length + i by omega, List.getD_append_right _ _ _ _ (by omega),
      Nat.add_sub_cancel_left, List.getD_append _ _ _ _ h2, List.getD_eq_getElem _ _ h2]

theorem readBytes_memPut_out {m : Mem} (h : Mem.wf m = true) {a x n : Nat} {b : Byte} (hx : a < x) :
    readBytes (memPut m a b) x n = readBytes m x n := by
  simp only [readBytes]
  refine List.map_congr_left fun i _ => ?_
  rw [memByte_memPut h, if_neg (by omega)]

theorem readNat_memPut_out {m : Mem} (h : Mem.wf m = true) {a x n : Nat} {b : Byte} (hx : a < x) :
    readNat (memPut m a b) x n = readNat m x n := by rw [readNat, readBytes_memPut_out h hx, readNat]

/-- A number in a written row reads back. -/
theorem readNat_writeBytes_slice {m : Mem} (h : Mem.wf m = true) (a : Nat) (xs zs : List Byte) (n v : Nat) :
    readNat (writeBytes m a (xs ++ leBytes n v ++ zs)) (a + xs.length) n = v % 256 ^ n := by
  have := readBytes_writeBytes_slice h a xs (leBytes n v) zs
  rw [length_leBytes] at this
  rw [readNat, this, leNat_leBytes]

/-- R270: the report holds its length, and the nonce at byte 16. -/
theorem State.report_eq (s : State) (nonce : BitVec 384) :
    ∃ xs zs, xs.length = 14 ∧ s.report nonce = leBytes 2 368 ++ xs ++ leBytes 48 nonce.toNat ++ zs := by
  let xs := leBytes 1 1 ++ leBytes 1 (if s.guest.present && s.guest.attested then 1 else 0) ++
    leBytes 4 s.svc.fuseVersion ++ leBytes 8 0
  have hpre : leBytes 2 368 ++ xs ++ leBytes 48 nonce.toNat <+: s.report nonce := by
    simp only [xs, State.report, List.append_assoc, List.prefix_append_right_inj, List.prefix_append]
  obtain ⟨zs, hzs⟩ := hpre
  exact ⟨xs, zs, by simp [xs, length_leBytes], hzs.symm⟩

/-- R270: the attestation buffer with the signed report in it. -/
def State.reported (s : State) (nonce : BitVec 384) : Mem :=
  let r := s.report nonce
  writeBytes s.hub.attest 0x40 (r ++ bytesBe 48 (Config.signR r).toNat ++ bytesBe 48 (Config.signS r).toNat)

theorem State.reported_reads {s : State} (h : Mem.wf s.hub.attest = true) (nonce : BitVec 384) :
    readNat (s.reported nonce) 0x40 2 = 368 ∧ readNat (s.reported nonce) 0x50 48 = nonce.toNat := by
  obtain ⟨xs, zs, hlen, hrep⟩ := s.report_eq nonce
  have hnonce : nonce.toNat % 256 ^ 48 = nonce.toNat := Nat.mod_eq_of_lt nonce.isLt
  simp only [State.reported, hrep]
  generalize bytesBe 48 _ = x
  generalize bytesBe 48 _ = y
  constructor
  · have := readNat_writeBytes_slice h 0x40 [] (xs ++ leBytes 48 nonce.toNat ++ zs ++ x ++ y) 2 368
    rw [show 368 % 256 ^ 2 = 368 by decide] at this
    simpa only [List.append_assoc, List.nil_append, List.length_nil, Nat.add_zero] using this
  · have := readNat_writeBytes_slice h 0x40 (leBytes 2 368 ++ xs) (zs ++ x ++ y) 48 nonce.toNat
    rw [List.length_append, length_leBytes, hlen, hnonce] at this
    simpa only [List.append_assoc] using this

theorem exec_attestRequest {s : State} {nonce : BitVec 384} (hreq : memByte s.hub.attest 0x30 = 1) :
    exec (.attestRequest nonce) s = .next (s.setHub { s.hub with attest := memPut (s.reported nonce) 0x30 0 }) :=
  if_neg (not_not.mpr hreq)

/-! ### Ports and replicas (R237, R238) -/

theorem State.mapPort_port (s : State) (p : Nat) (f : Port → Port) (q : Nat) :
    (s.mapPort p f).port q = if q = p then f (s.port p) else s.port q := by
  simp only [State.mapPort, State.port, sget_sput]
  by_cases h : q = p <;> simp [h]

/-- R153: a message to a fabric port waits there. -/
theorem State.sendMessage_port (s : State) {p : Nat} (hp : p < 24) (m : Message) (hm : m.dest = BitVec.ofNat 8 (p + 2)) :
    s.sendMessage m = s.mapPort p fun x => { x with outgoing := x.outgoing ++ [m] } := by
  have hd : m.dest.toNat = p + 2 := by rw [hm, BitVec.toNat_ofNat]; omega
  simp only [State.sendMessage, hd]
  rw [if_neg (by omega), if_neg (by omega), if_pos (by omega), Nat.add_sub_cancel]

/-- The digest message of a port (log entry 47). -/
def digestMessage (digest : Word) (p : Nat) : Message :=
  { tag := 0, dest := BitVec.ofNat 8 (p + 2), payload := digest, rtag := 0, rdest := 0 }

/-- Messages sent to distinct ports: each port of the list gets its own, and nothing else changes. -/
theorem State.sendDigests_port (ps : List Nat) (hps : ∀ p ∈ ps, p < 24) (hnd : ps.Nodup) (s : State) (q : Nat) :
    let t := ps.foldl (fun s p => s.sendMessage (digestMessage s.hub.regs.replDigest p)) s
    t.hub = s.hub ∧ (q ∈ ps → (t.port q).outgoing = (s.port q).outgoing ++ [digestMessage s.hub.regs.replDigest q]) ∧
    (q ∉ ps → t.port q = s.port q) := by
  induction ps generalizing s with
  | nil => simp
  | cons p ps ih =>
    obtain ⟨hp, hps⟩ := List.forall_mem_cons.mp hps
    obtain ⟨hpn, hnd⟩ := List.nodup_cons.mp hnd
    have hsend := s.sendMessage_port hp (digestMessage s.hub.regs.replDigest p) rfl
    obtain ⟨hhub, hin, hout⟩ := ih hps hnd (s.sendMessage (digestMessage s.hub.regs.replDigest p))
    have hsame : (s.sendMessage (digestMessage s.hub.regs.replDigest p)).hub = s.hub := by rw [hsend]; rfl
    have hport := State.mapPort_port s p (fun x => { x with outgoing := x.outgoing ++ [digestMessage s.hub.regs.replDigest p] }) q
    rw [← hsend] at hport
    rw [hsame] at hhub hin
    refine ⟨hhub, fun hq => ?_, fun hq => ?_⟩
    · obtain rfl | hq := List.mem_cons.mp hq
      · rw [if_pos rfl] at hport
        exact (congrArg Port.outgoing ((hout hpn).trans hport))
      · rw [if_neg (fun e : q = p => hpn (e ▸ hq))] at hport
        rw [← hport]; exact hin hq
    · obtain ⟨hne, hq⟩ := not_or.mp (mt List.mem_cons.mpr hq)
      rw [if_neg hne] at hport
      exact (hout hq).trans hport

/-- R237: the partition's queue has halted for a replica step. -/
def State.replHalt (s : State) (p : Nat) : State :=
  let h := s.hub.mapPart p fun x => { x with halted := true }
  (s.setHub h).setRegs { h.regs with replHalted := true, replPart := p }

theorem State.replHalt_hub (s : State) {p : Nat} (hp : p < 4) :
    (s.replHalt p).hub.regs = { s.hub.regs with replHalted := true, replPart := p } ∧
    ((s.replHalt p).hub.part p).halted = true := by
  refine ⟨by simp [State.replHalt], ?_⟩
  change ((s.hub.mapPart p fun x => { x with halted := true }).part p).halted = true
  rw [Hub.mapPart_part _ hp, if_pos rfl]

theorem exec_replicaStep {s : State} {p : Nat} (hon : s.hub.regs.replOn = true) (hh : s.hub.regs.replHalted = false) :
    exec (.replicaStep p) s = .next (s.replHalt p).sendDigest := by
  change execReplicaStep p s = _
  rw [execReplicaStep, hon, hh]; rfl

/-- R237: the step digest goes to the port of every other replica. -/
theorem State.sendDigest_port (s : State) {q : Nat} (hq : q < 24) :
    s.sendDigest.hub = s.hub ∧ (s.hub.regs.replPorts.testBit q = true → (s.sendDigest.port q).outgoing =
      (s.port q).outgoing ++ [digestMessage s.hub.regs.replDigest q]) := by
  obtain ⟨hhub, hin, -⟩ := State.sendDigests_port ((List.range 24).filter fun p => s.hub.regs.replPorts.testBit p)
    (fun p hp => List.mem_range.mp (List.mem_filter.mp hp).1) (List.nodup_range.filter _) s q
  exact ⟨hhub, fun hbit => hin (List.mem_filter.mpr ⟨List.mem_range.mpr hq, hbit⟩)⟩

/-- R238: a comparison of digests in a halted replica. -/
theorem exec_replicaCompare {s : State} {p : Nat} {ds : List Word} (hh : s.hub.regs.replHalted = true)
    (hlen : ds.length + 1 = s.hub.regs.replN) :
    exec (.replicaCompare p ds) s =
      if s.hub.regs.replN < 2 * (1 + (ds.filter fun d => d == s.hub.regs.replDigest).length) then .next s.replResume
      else
        let t := s.logMc 25 2 16 0 0x0050 0 0 (some p)
        .next (if majority s.hub.regs.replN ds then
          t.setHub (t.hub.mapPart s.hub.regs.replPart fun p => { p with quarantined := true })
        else t) := by
  change execReplicaCompare p ds s = _
  rw [execReplicaCompare, if_neg]
  simp [hh, hlen]

/-! ### Heat (R271, R272) -/

/-- The die clocks after a step of one of them. -/
theorem stepped_getD (ds : List Nat) (die i : Nat) (f : Nat → Nat) (hi : i < ds.length) :
    (ds.zipIdx.map fun x => if x.2 = die then f x.1 else x.1).getD i 0 =
      if i = die then f (ds.getD i 0) else ds.getD i 0 := by
  simp [List.getD, hi]

theorem State.heat_dieClock (s : State) (temp : Nat) :
    (95 ≤ temp → (s.heat temp).dieClock = s.dieClock.map (stepClock false)) ∧
    (temp < 90 → (s.heat temp).dieClock = s.dieClock) := by
  refine ⟨fun h => ?_, fun h => ?_⟩
  · simp [State.heat, hotAfter, h]
  · simp [State.heat, hotAfter, show ¬95 ≤ temp by omega, show ¬90 ≤ temp by omega]

theorem State.heat_hub (s : State) (temp : Nat) :
    (s.heat temp).hub = { s.hub with regs := { s.hub.regs with
      thermMax := temp, thermHot := hotAfter s.hub.regs.thermHot temp } } := by
  simp only [State.heat]
  split <;> rfl

/-- R229: once every partition is stopped. -/
theorem State.stopAll_hub (s : State) :
    s.stopAll.hub.regs.fatal = true ∧ (∀ p < 4, (s.stopAll.hub.part p).halted = true) ∧ s.stopAll.hub.mc = s.hub.mc := by
  refine ⟨rfl, fun p hp => ?_, rfl⟩
  simp [State.stopAll, Hub.part, hp]

/-! ### The statement -/

/-- Settles O53: the boot by its three ends, and each other step by what its definition changes. -/
theorem deviceEvents : Obligations.DeviceEvents := by
  intro s r boots
  have hboots (i : Instr) (u : State) (hmem : u.mem = s.mem) (hfatal : u.hub.regs.fatal = r.fatal)
      (hi : exec i s = .next u.boot) : boots i u.svc := by
    refine ⟨fun hc => ⟨_, hi, ?_⟩, fun hc => ⟨_, hi, ?_⟩⟩
    · rw [← hmem]; exact State.boot_halts hc
    · obtain ⟨k, o, a, h⟩ := State.boot_changesCores hc
      have hhub : u.boot.hub = u.bootReady.hub := by rw [h]
      have hm : u.boot.mem = u.bootReady.mem := by rw [h]
      have hops : u.boot.ops = u.bootReady.ops := by rw [h]
      have hsvc : u.boot.svc = u.bootReady.svc := by rw [h]
      rw [hhub, hm, hops, hsvc, ← hfatal]
      refine ⟨rfl, rfl, rfl, rfl, rfl, rfl, rfl, rfl, fun a ha => ?_, fun a ha => ?_, fun n hn => ?_⟩
      · exact (u.bootReady_memByte a).trans (if_neg (Nat.not_le.mpr ha))
      · rw [← hmem]; exact (u.bootReady_memByte a).trans (if_pos ha)
      · rw [u.bootReady_cell hn]
        obtain ⟨hret, hen, hsp⟩ := u.svc.cell_run n
        exact ⟨fun hb hr => hen hr hb, fun hb hr => hsp hr hb, hret, fun hr q hq => State.boot_sup hc hn hr hq⟩
  refine ⟨hboots _ { s with svc := s.svc.load } rfl rfl rfl, hboots _ s rfl rfl rfl, ?powerFailure, fun nonce hreq hwf => ?attest,
    fun x => ?register, fun p hp hon hh => ?step, fun hh => ?resume, fun p ds hh hlen => ?compare, fun hot die => ?hot,
    fun die up hup => ?clock, fun temp ht => ?warm, fun temp ht hen hv => ?trip⟩
  case powerFailure =>
    refine ⟨_, rfl, rfl, rfl, rfl, rfl, fun a ha => ?_, fun a ha => ?_⟩
    · exact (memByte_aboveHbm s.mem a).trans (if_neg (Nat.not_le.mpr ha))
    · exact (memByte_aboveHbm s.mem a).trans (if_pos ha)
  case attest =>
    obtain ⟨hlen, hnonce⟩ := State.reported_reads hwf nonce
    have hw : Mem.wf (s.reported nonce) = true := wf_writeBytes _ _ hwf
    refine ⟨_, exec_attestRequest hreq, ?_, ?_, ?_, ?_, State.setHub_core _ _⟩
    · rw [State.setHub_hub, memByte_memPut hw, if_pos rfl]
    · rw [State.setHub_hub, readNat_memPut_out hw (by decide), hlen]
    · rw [State.setHub_hub, readNat_memPut_out hw (by decide), hnonce]
    · rw [State.setHub_hub]
  case register =>
    refine ⟨⟨_, rfl, rfl⟩, ⟨_, rfl, rfl⟩, fun hx => ⟨_, congrArg Host.Outcome.next (if_pos hx), rfl, rfl⟩, rfl, rfl,
      fun off hoff => ?_⟩
    change execRegisterWrite off x s = _
    simp [execRegisterWrite, hoff]
  case step =>
    obtain ⟨hregs, hhalt⟩ := s.replHalt_hub hp
    have hhub : (s.replHalt p).sendDigest.hub = (s.replHalt p).hub := (State.sendDigest_port _ (q := 0) (by decide)).1
    refine ⟨_, exec_replicaStep hon hh, by rw [hhub]; exact hhalt, by rw [hhub]; exact hregs, fun q hq hbit => ?_⟩
    have hsent := (State.sendDigest_port (s.replHalt p) hq).2
    rw [hregs] at hsent
    exact ⟨_, hsent hbit, rfl⟩
  case resume =>
    refine ⟨_, congrArg Host.Outcome.next (if_pos hh), ?_, rfl⟩
    simp [State.replResume, r]
  case compare =>
    intro same
    rw [exec_replicaCompare hh hlen]
    refine ⟨fun h => ⟨_, if_pos h, ?_, rfl⟩, fun h hen hv => ⟨_, if_neg (Nat.not_lt.mpr h), ?_⟩⟩
    · simp [State.replResume]
    · have hmc := Hub.mcLog_mcBank s.hub (n := 25) (by decide) rfl 2 16 0 0x0050 0 0
      obtain ⟨hvalid, hcode, hsev⟩ := McBank.log_free hen hv 2 16 0 0x0050 0 0
      rw [← hmc] at hvalid hcode hsev
      by_cases hmaj : majority s.hub.regs.replN ds = true
      · rw [if_pos hmaj]
        refine ⟨by simp [r], ?_, ?_, ?_, fun _ hp => ?_, fun hn => absurd (hmaj.symm.trans hn) nofun⟩
        · rw [State.setHub_hub, State.logMc_hub, Hub.mapPart_eq]; exact hvalid
        · rw [State.setHub_hub, State.logMc_hub, Hub.mapPart_eq]; exact hcode
        · rw [State.setHub_hub, State.logMc_hub, Hub.mapPart_eq]; exact hsev
        · rw [State.setHub_hub, Hub.mapPart_part _ hp, if_pos rfl]
      · rw [if_neg hmaj, State.logMc_hub]
        exact ⟨Hub.mcLog_regs .., hvalid, hcode, hsev, fun h => absurd h hmaj, fun _ => Hub.mcLog_parts ..⟩
  case hot =>
    change execClockThrottle die true s = _
    rw [execClockThrottle, hot]; rfl
  case clock =>
    have hgo : ¬(up && s.hub.regs.thermHot) = true := by
      simp only [r] at hup
      cases up <;> simp_all
    refine ⟨_, if_neg hgo, by simp, fun i hi => ?_⟩
    exact stepped_getD s.dieClock die i (stepClock up) hi
  case warm =>
    refine ⟨_, congrArg Host.Outcome.next (if_pos ht), ?_, (s.heat_dieClock _).1, (s.heat_dieClock _).2⟩
    rw [State.heat_hub]; rfl
  case trip =>
    let u := (s.heat temp.toNat).logMc 16 3 16 0 0x00F1 0 0 none
    have hsens : s.sensor temp.toNat = u.stopAll := if_neg (Nat.not_lt.mpr ht)
    obtain ⟨hfatal, hhalt, hmc⟩ := u.stopAll_hub
    obtain ⟨hvalid, hcode, hsev⟩ := McBank.log_free hen hv 3 16 0 0x00F1 0 0
    have hbank : u.stopAll.hub.mcBank 16 = (s.hub.mcBank 16).log 3 16 0 0x00F1 0 0 := by
      have hheat : (s.heat temp.toNat).hub.mcBank 16 = s.hub.mcBank 16 := by rw [State.heat_hub]; rfl
      rw [← hheat, ← Hub.mcLog_mcBank _ (by decide) rfl, ← State.logMc_hub _ _ _ _ _ _ _ _ none]
      simp only [Hub.mcBank, hmc, u]
    refine ⟨u.stopAll, ?_, ?_, hfatal, hhalt, ?_⟩
    · exact (if_neg (Nat.not_lt.mpr ht)).trans (congrArg Host.Outcome.next hsens)
    · exact congrArg Host.Outcome.next hsens
    · rw [hbank]; exact ⟨hvalid, hcode, hsev⟩

end Sys2Proof.Machine
end

section
/-! Reset and the first boot (R268), and the words the spec assembles (R293 to R314). -/

namespace Sys2Proof.Machine

/-- Settles O57: fixed words, decoded. -/
theorem decodeWordsOfSpec : Obligations.DecodeWords := by
  unfold Obligations.DecodeWords
  decide

/-- R142: every component of every clock is 0 at reset. -/
theorem State.reset_vclk (c : Nat) : State.reset.vclk c = 0 := by
  change BitVec.ofNat 64 ((List.replicate 18 0).getD c 0) = 0
  have h : (List.replicate 18 0).getD c 0 = 0 := by
    rw [List.getD, List.getElem?_replicate]; split <;> rfl
  rw [h]; rfl

/-- R268, R269: the image that flash holds boots (log entry 8). -/
theorem State.reset_boots : State.reset.svc.load.bootCode = 0 := by decide +kernel

/-- The state that the power-on boot of a reset machine starts from. -/
def State.poweredOn : State := { State.reset with agenda := [], svc := State.reset.svc.load }

/-- R268: the first step is the boot. -/
theorem step_reset : step State.reset = .next State.poweredOn.boot := rfl

/-- R268: what the first boot leaves in the hub. -/
theorem State.poweredOn_hub : State.poweredOn.boot.hub = State.poweredOn.bootReady.hub := by
  obtain ⟨k, o, a, h⟩ := State.boot_changesCores (s := State.poweredOn) State.reset_boots
  rw [h]

/-- Settles O60: the reset state field by field, and the boot by what it leaves. -/
theorem resetState : Obligations.ResetState := by
  refine ⟨by decide, ⟨rfl, rfl, rfl⟩, ⟨rfl, rfl, rfl⟩, by decide, by decide, State.reset_vclk, by decide, by decide +kernel,
    by decide +kernel, fun _ => rfl, _, step_reset, ?_⟩
  have hword : State.poweredOn.boot.regWord 0x1000 = State.poweredOn.bootReady.regWord 0x1000 :=
    congrArg Hub.svcWord State.poweredOn_hub
  rw [hword, State.poweredOn_hub]
  refine ⟨rfl, rfl, rfl, by decide +kernel, fun n hn => ?_⟩
  rw [State.poweredOn.bootReady_cell hn]
  obtain ⟨-, henabled, hspare⟩ := State.poweredOn.svc.cell_run n
  exact ⟨henabled List.not_mem_nil, hspare List.not_mem_nil⟩

end Sys2Proof.Machine
end

section
/-! What the caches, a write to global memory and a message leave as it was (R100 to R106, R122, R152 to R154): the bank,
the window and the threads of the core that acts. -/

namespace Sys2Proof.Machine

/-! ### The caches (R100 to R106) -/

/-- Lines move between the caches, and no value changes. -/
def State.ChangesCaches (s t : State) : Prop :=
  ∃ w d o x y, t = { s with core := { s.core with ways := w, dcache := d }, others := o, l2 := x, llc := y }

theorem State.ChangesCaches.refl (s : State) : s.ChangesCaches s := ⟨_, _, _, _, _, rfl⟩

theorem State.ChangesCaches.trans {s t u : State} (h₁ : s.ChangesCaches t) (h₂ : t.ChangesCaches u) :
    s.ChangesCaches u := by
  obtain ⟨w₁, d₁, o₁, x₁, y₁, rfl⟩ := h₁
  obtain ⟨w, d, o, x, y, rfl⟩ := h₂
  exact ⟨w, d, o, x, y, rfl⟩

theorem State.changesCaches_foldl {α : Type} {f : State → α → State} (hf : ∀ (s : State) x, s.ChangesCaches (f s x))
    (xs : List α) (s : State) : s.ChangesCaches (xs.foldl f s) := by
  induction xs generalizing s with
  | nil => exact .refl s
  | cons x xs ih => exact (hf s x).trans (ih _)

/-- What a level passes on moves lines only, where the next level does. -/
theorem changesCaches_passOn {s t : State} {next : State → CacheLine → State}
    (hn : ∀ (u : State) l, u.ChangesCaches (next u l)) (h : s.ChangesCaches t) (old new : List CacheLine) (miss : Bool)
    (l : CacheLine) : s.ChangesCaches (passOn t next old new miss l) := by
  unfold passOn
  refine State.ChangesCaches.trans ?_ (State.changesCaches_foldl hn _ _)
  split
  · exact h.trans (hn t l)
  · exact h

theorem State.changesCaches_touchLlc (s : State) (l : CacheLine) : s.ChangesCaches (s.touchLlc l) := by
  unfold State.touchLlc
  split
  · exact .refl s
  · exact ⟨_, _, _, _, _, rfl⟩

theorem State.changesCaches_fillL2 (s : State) (die : Nat) (l : CacheLine) : s.ChangesCaches (s.fillL2 die l) := by
  unfold State.fillL2
  exact changesCaches_passOn State.changesCaches_touchLlc ⟨_, _, _, _, _, rfl⟩ _ _ _ _

theorem State.changesCaches_touchL2 (s : State) (die pa hint : Nat) (dirty : BitVec 2) :
    s.ChangesCaches (s.touchL2 die pa hint dirty) := s.changesCaches_fillL2 _ _

theorem State.changesCaches_fillWays (s : State) (l : CacheLine) : s.ChangesCaches (s.fillWays l) := by
  unfold State.fillWays
  exact changesCaches_passOn (fun u l => u.changesCaches_fillL2 _ l) ⟨_, _, _, _, _, rfl⟩ _ _ _ _

theorem State.changesCaches_touchWays (s : State) (pa hint : Nat) : s.ChangesCaches (s.touchWays pa hint) := by
  unfold State.touchWays
  exact State.ChangesCaches.trans ⟨_, _, _, _, _, rfl⟩ (State.changesCaches_fillWays _ _)

theorem State.changesCaches_touchDrift (s : State) (pa hint : Nat) (dirty : Bool) :
    s.ChangesCaches (s.touchDrift pa hint dirty) := by
  unfold State.touchDrift
  exact changesCaches_passOn State.changesCaches_fillWays ⟨_, _, _, _, _, rfl⟩ _ _ _ _

theorem State.changesCaches_evictWays (s : State) : s.ChangesCaches s.evictWays := by
  unfold State.evictWays
  exact changesCaches_passOn (fun u l => u.changesCaches_fillL2 _ l) ⟨_, _, _, _, _, rfl⟩ _ _ _ _

theorem State.changesCaches_touchHome (s : State) (pa len hint : Nat) (write : Bool) :
    s.ChangesCaches (s.touchHome pa len hint write) :=
  State.changesCaches_foldl (fun s _ => s.changesCaches_touchLlc _) _ _

theorem State.changesCaches_disown (s : State) (lines : List Nat) (own : Bool) : s.ChangesCaches (s.disown lines own) := by
  cases own
  · exact ⟨_, _, _, _, _, rfl⟩
  · exact ⟨_, _, _, _, _, rfl⟩

/-! ### Writes to global memory (R122, R142) -/

/-- A write to physical memory writes its bytes, and beyond them changes caches and clocks alone. -/
theorem State.putFrom_eq (s : State) (src pa : Nat) (bytes : List Byte) :
    ∃ t c, (s.putMem pa bytes).ChangesCaches t ∧ s.putFrom src pa bytes = { t with clocks := c } := by
  have hd := (s.putMem pa bytes).changesCaches_disown (linesOf pa bytes.length) (decide (4 ≤ src))
  unfold State.putFrom State.carry
  split
  · exact ⟨_, _, hd, rfl⟩
  · exact ⟨_, _, hd, rfl⟩

section
variable (s : State) (src pa : Nat) (bytes : List Byte)

@[simp] theorem State.putFrom_mem : (s.putFrom src pa bytes).mem = writeBytes s.mem pa bytes := by
  obtain ⟨t, c, ⟨w, d, o, x, y, rfl⟩, h⟩ := s.putFrom_eq src pa bytes
  rw [h]; rfl
@[simp] theorem State.putFrom_hub : (s.putFrom src pa bytes).hub = s.hub := by
  obtain ⟨t, c, ⟨w, d, o, x, y, rfl⟩, h⟩ := s.putFrom_eq src pa bytes
  rw [h]; rfl
@[simp] theorem State.putFrom_agenda : (s.putFrom src pa bytes).agenda = s.agenda := by
  obtain ⟨t, c, ⟨w, d, o, x, y, rfl⟩, h⟩ := s.putFrom_eq src pa bytes
  rw [h]; rfl
@[simp] theorem State.putFrom_ports : (s.putFrom src pa bytes).ports = s.ports := by
  obtain ⟨t, c, ⟨w, d, o, x, y, rfl⟩, h⟩ := s.putFrom_eq src pa bytes
  rw [h]; rfl
@[simp] theorem State.putFrom_ops : (s.putFrom src pa bytes).ops = s.ops := by
  obtain ⟨t, c, ⟨w, d, o, x, y, rfl⟩, h⟩ := s.putFrom_eq src pa bytes
  rw [h]; rfl
@[simp] theorem State.putFrom_guest : (s.putFrom src pa bytes).guest = s.guest := by
  obtain ⟨t, c, ⟨w, d, o, x, y, rfl⟩, h⟩ := s.putFrom_eq src pa bytes
  rw [h]; rfl
@[simp] theorem State.putFrom_ord : (s.putFrom src pa bytes).ord = s.ord := by
  obtain ⟨t, c, ⟨w, d, o, x, y, rfl⟩, h⟩ := s.putFrom_eq src pa bytes
  rw [h]; rfl
@[simp] theorem State.putFrom_svc : (s.putFrom src pa bytes).svc = s.svc := by
  obtain ⟨t, c, ⟨w, d, o, x, y, rfl⟩, h⟩ := s.putFrom_eq src pa bytes
  rw [h]; rfl

end

/-! ### The registers of a bank -/

namespace Bank.sameRegs

theorem refl (b : Bank) : b.sameRegs b := by simp [Bank.sameRegs]

theorem trans {a b c : Bank} (h₁ : a.sameRegs b) (h₂ : b.sameRegs c) : a.sameRegs c := by
  simp only [Bank.sameRegs] at h₁ h₂ ⊢
  simp only [h₁, h₂, and_self]

theorem symm {a b : Bank} (h : a.sameRegs b) : b.sameRegs a := by
  simp only [Bank.sameRegs] at h ⊢
  simp only [h, and_self]

end Bank.sameRegs

theorem Bank.sameRegs_addPend (b : Bank) (lat : Nat) (e : Eff) (unit : Nat) (flags : BitVec 3) :
    (b.addPend lat e unit flags).sameRegs b := Bank.sameRegs.refl b

theorem Bank.sameRegs_claim (b : Bank) (t : Nat) (ls : List Nat) : (b.claim t ls).sameRegs b := Bank.sameRegs.refl b

/-! ### The core that acts -/

/-- The core that acts keeps its banks, its window and its threads: only cached lines and PEND bits of it may change. -/
def State.KeepsCore (s t : State) : Prop :=
  t.cur = s.cur ∧ t.agent = s.agent ∧ ∃ w d p, t.core = { s.core with ways := w, dcache := d, pend := p }

namespace State.KeepsCore

theorem refl (s : State) : s.KeepsCore s := ⟨rfl, rfl, _, _, _, rfl⟩

theorem trans {s t u : State} (h₁ : s.KeepsCore t) (h₂ : t.KeepsCore u) : s.KeepsCore u := by
  obtain ⟨hc₁, ha₁, w₁, d₁, p₁, h₁⟩ := h₁
  obtain ⟨hc, ha, w, d, p, h⟩ := h₂
  exact ⟨hc.trans hc₁, ha.trans ha₁, w, d, p, by rw [h, h₁]⟩

variable {s t : State} (h : s.KeepsCore t)
include h

theorem bank : t.core.bank = s.core.bank := by obtain ⟨-, -, w, d, p, h⟩ := h; rw [h]
theorem store : t.core.store = s.core.store := by obtain ⟨-, -, w, d, p, h⟩ := h; rw [h]
theorem curBank : t.core.curBank = s.core.curBank := by obtain ⟨-, -, w, d, p, h⟩ := h; rw [h]
theorem hubq : t.core.hubq = s.core.hubq := by obtain ⟨-, -, w, d, p, h⟩ := h; rw [h]

end State.KeepsCore

/-- A change that leaves `core`, `cur` and the agent as they are keeps the core. -/
theorem State.keepsCore_of_eq {s t : State} (hc : t.cur = s.cur) (ha : t.agent = s.agent) (h : t.core = s.core) :
    s.KeepsCore t := ⟨hc, ha, _, _, _, h⟩

theorem State.ChangesCaches.keepsCore {s t : State} (h : s.ChangesCaches t) : s.KeepsCore t := by
  obtain ⟨w, d, o, x, y, rfl⟩ := h
  exact ⟨rfl, rfl, w, d, _, rfl⟩

theorem State.keepsCore_foldl {α : Type} {f : State → α → State} (hf : ∀ (s : State) x, s.KeepsCore (f s x))
    (xs : List α) (s : State) : s.KeepsCore (xs.foldl f s) := by
  induction xs generalizing s with
  | nil => exact .refl s
  | cons x xs ih => exact (hf s x).trans (ih _)

theorem State.keepsCore_putFrom (s : State) (src pa : Nat) (bytes : List Byte) :
    s.KeepsCore (s.putFrom src pa bytes) := by
  obtain ⟨t, c, ht, h⟩ := s.putFrom_eq src pa bytes
  rw [h]
  exact (keepsCore_of_eq rfl rfl rfl).trans (ht.keepsCore.trans (keepsCore_of_eq rfl rfl rfl))

theorem State.keepsCore_setPend (s : State) (c bit : Nat) : s.KeepsCore (s.setPend c bit) := by
  unfold State.setPend
  dsimp only
  split
  · exact ⟨rfl, rfl, _, _, _, rfl⟩
  · exact ⟨rfl, rfl, _, _, _, rfl⟩

theorem State.keepsCore_logMc (s : State) (n sev src unit code : Nat) (addr : Word) (synd : Nat) (part : Option Nat) :
    s.KeepsCore (s.logMc n sev src unit code addr synd part) := by
  unfold State.logMc
  dsimp only
  generalize (if hn : n < 32 then _ else false) = tell
  cases tell
  · exact ⟨rfl, rfl, _, _, _, rfl⟩
  · refine State.KeepsCore.trans ?_ (State.keepsCore_foldl (fun s c => s.keepsCore_setPend c 2) _ _)
    exact ⟨rfl, rfl, _, _, _, rfl⟩

theorem State.keepsCore_logErrorFor (s : State) (part addr : Nat) : s.KeepsCore (s.logErrorFor part addr) :=
  s.keepsCore_logMc ..

theorem State.keepsCore_setHub (s : State) (h : Hub) : s.KeepsCore (s.setHub h) := keepsCore_of_eq rfl rfl rfl

theorem State.keepsCore_later (s : State) (ts : List Turn) : s.KeepsCore (s.later ts) := keepsCore_of_eq rfl rfl rfl

theorem State.keepsCore_graphFault (s : State) (launch cause addr : Nat) : s.KeepsCore (s.graphFault launch cause addr) :=
  keepsCore_of_eq rfl rfl rfl

/-! ### Messages (R152 to R154, R246) -/

theorem State.keepsCore_hubRelease (s : State) (scope : Nat) : s.KeepsCore (s.hubRelease scope) := by
  exact keepsCore_of_eq rfl rfl rfl

theorem State.keepsCore_hostRing (s : State) (m : Message) : s.KeepsCore (s.hostRing m) := by
  unfold State.hostRing
  dsimp only
  split
  · exact keepsCore_of_eq rfl rfl rfl
  · split
    · exact State.KeepsCore.trans (t := s.setRegs _) (keepsCore_of_eq rfl rfl rfl) (State.keepsCore_logMc ..)
    · exact (s.keepsCore_putFrom _ _ _).trans (State.KeepsCore.trans (t := State.setRegs _ _)
        (keepsCore_of_eq rfl rfl rfl) (State.keepsCore_hubRelease _ _))

theorem State.keepsCore_sendMessage (s : State) (m : Message) : s.KeepsCore (s.sendMessage m) := by
  unfold State.sendMessage
  dsimp only
  split
  · exact keepsCore_of_eq rfl rfl rfl
  · split
    · exact s.keepsCore_hostRing m
    · split
      · exact keepsCore_of_eq rfl rfl rfl
      · exact .refl s

/-- A message changes no arming slot. -/
theorem State.sendMessage_slots (s : State) (m : Message) : (s.sendMessage m).hub.slots = s.hub.slots := by
  have hlog (u : State) (pa : Nat) : (u.logMc 16 2 16 0 0x0020 (BitVec.ofNat 64 pa) 0 none).hub.slots = u.hub.slots := by
    rw [State.logMc_hub, Hub.mcLog_eq]
  unfold State.sendMessage
  dsimp only
  split
  · rfl
  · split
    · unfold State.hostRing
      dsimp only
      split
      · rfl
      · split
        · exact hlog _ _
        · simp [State.hubRelease, State.setRegs]
    · split <;> rfl

theorem State.errorReply_slots (s : State) (m : Message) : (s.errorReply m).hub.slots = s.hub.slots := by
  unfold State.errorReply
  split
  · rfl
  · exact s.sendMessage_slots _

theorem State.keepsCore_errorReply (s : State) (m : Message) : s.KeepsCore (s.errorReply m) := by
  unfold State.errorReply
  split
  · exact .refl s
  · exact s.keepsCore_sendMessage _

/-! ### Held writes (R140) -/

theorem State.keepsCore_xrouteArrive (s : State) (src pa rbuf tag : Nat) :
    s.KeepsCore (s.xrouteArrive src pa rbuf tag) := by
  unfold State.xrouteArrive
  dsimp only
  split
  · exact (s.keepsCore_putFrom _ _ _).trans (State.keepsCore_sendMessage _ _)
  · exact s.keepsCore_putFrom _ _ _

theorem State.keepsCore_sendAdd (s : State) (id hint : Nat) (pa : Option Nat) : s.KeepsCore (s.sendAdd id hint pa) := by
  unfold State.sendAdd
  cases pa with
  | none => exact keepsCore_of_eq rfl rfl rfl
  | some p =>
    have hput := (s.changesCaches_touchWays p hint).keepsCore.trans
      (State.keepsCore_putFrom _ (dieOf s.cur) p (atomOn s.mem p 0 1 0))
    dsimp only
    generalize (s.touchWays p hint).putFrom _ _ _ = u at hput ⊢
    exact hput.trans (keepsCore_of_eq rfl rfl rfl)

/-- R140: outside guarded mode a write leaves the core at once. -/
theorem State.globalOut_unguarded {s : State} (hg : s.core.bank.status.guard = false) (pa : Nat) (w : HeldWrite) :
    s.globalOut pa w = s.sendWrite w := by simp [State.globalOut, hg]

/-- R140: in guarded mode a write that the hold buffer has room for waits there. -/
theorem State.globalOut_guarded {s : State} (hg : s.core.bank.status.guard = true) {w : HeldWrite}
    (hroom : (s.core.bank.holding w).heldLines.length ≤ 256) (pa : Nat) :
    s.globalOut pa w = s.setBank (s.core.bank.holding w) := by
  simp [State.globalOut, hg, Nat.not_lt.mpr hroom]

theorem State.keepsCore_routeOut (s : State) (port : Nat) (op : Option Nat) (back : Nat × Nat) (r : Route) :
    s.KeepsCore (s.routeOut port op back r) := keepsCore_of_eq rfl rfl rfl

/-- A held write that leaves the core. -/
theorem State.keepsCore_sendWrite (s : State) (w : HeldWrite) : s.KeepsCore (s.sendWrite w) := by
  unfold State.sendWrite
  cases w with
  | write pa bytes => exact s.keepsCore_putFrom _ _ _
  | release scope => exact keepsCore_of_eq rfl rfl rfl
  | atom pa op x cmp => exact s.keepsCore_putFrom _ _ _
  | cond launch c sub v => exact keepsCore_of_eq rfl rfl rfl
  | arrive pa rbuf tag => exact s.keepsCore_xrouteArrive _ _ _ _
  | barr op hint pa => exact s.keepsCore_sendAdd _ _ _
  | window c a launch bytes => exact keepsCore_of_eq rfl rfl rfl
  | route port op r =>
    dsimp only
    split
    · exact keepsCore_of_eq rfl rfl rfl
    · exact s.keepsCore_routeOut _ _ _ _

end Sys2Proof.Machine
end

section
/-! Allotments, checkpoints, generators, self-tests, arming, tensor descriptors and drift threads (R29, R92, R108, R151,
R221, R232, R333). -/

namespace Sys2Proof.Machine

/-! ### GROW and SHRINK (R29, R340) -/

/-- R28: the units a bank has: vector units, or tiles. -/
def Bank.units (b : Bank) (tiles : Bool) : Nat := if tiles then b.at_ else b.vu

/-- R28: the units that no bank of the core has. -/
def Core.freeUnits (c : Core) (tiles : Bool) : Nat :=
  if tiles then 8 - c.bank.at_ - c.other.at_ else 24 - c.bank.vu - c.other.vu

theorem exec_grow {o : XOp} {s : State} (hr : s.primaryRuns o.g) (hd : s.destOk o.d = true) :
    let tiles := decide (o.sub = 1)
    exec (.grow o) s =
      if s.core.bank.units tiles + o.imm.toNat ≤ (if tiles then 8 else 12) ∧ o.imm.toNat ≤ s.core.freeUnits tiles then
        .next ((s.result 1 (.s o.d.toNat 0)).result 1 (.allot tiles (s.core.bank.units tiles + o.imm.toNat)))
      else .next (s.result 1 (.s o.d.toNat 1)) := by
  intro tiles
  change execGrow o s = _
  simp only [execGrow, State.primaryOnly_runs hr, hd, Bool.not_true, Bool.false_eq_true, if_false, Bool.and_eq_true,
    decide_eq_true_eq]
  rfl

theorem exec_shrink {o : XOp} {s : State} (hr : s.primaryRuns o.g) (hd : s.destOk o.d = true) :
    let tiles := decide (o.sub = 1)
    let left := s.core.bank.units tiles - o.imm.toNat
    exec (.shrink o) s =
      if s.core.bank.units tiles < o.imm.toNat ∨ (tiles = false ∧ 32 * left < s.core.bank.rotSize) then s.raise 0x02
      else if s.core.bank.targets tiles (if tiles then left else 32 * left) then s.raise 0x22
      else .next ((s.result 1 (.s o.d.toNat (BitVec.ofNat 64 left))).result 1 (.allot tiles left)) := by
  intro tiles left
  change execShrink o s = _
  simp only [execShrink, State.primaryOnly_runs hr, hd, Bool.or_eq_true,
    Bool.and_eq_true, decide_eq_true_eq, Bool.not_eq_true']
  rfl

theorem sget_filterKeys {α : Type} (m : SMap α) (p : Nat → Bool) (k : Nat) :
    sget (m.filter fun e => p e.1) k = if p k then sget m k else none := by
  induction m with
  | nil => simp [sget]
  | cons e m ih =>
    obtain ⟨j, v⟩ := e
    by_cases hj : j = k
    · subst hj
      by_cases hp : p j = true <;> simp [hp, sget, ih]
    · by_cases hp : p j = true <;> simp [hp, sget, hj, ih]

/-- R29: registers after a new allotment: those it keeps stand, and every other reads zero with tag NONE. -/
theorem Bank.setAllot_vreg (b : Bank) (n r : Nat) :
    (b.setAllot false n).vreg r = if r < 32 * n ∧ r < 32 * b.vu then b.vreg r else { bits := 0, tag := 0 } := by
  have h := sget_filterKeys b.v (fun k => decide (k < 32 * min n b.vu)) r
  have hlt : r < 32 * min n b.vu ↔ r < 32 * n ∧ r < 32 * b.vu := by omega
  simp only [decide_eq_true_eq, hlt] at h
  simp only [Bank.setAllot, Bank.vreg, Bool.false_eq_true, if_false, h]
  split <;> rfl

theorem Bank.setAllot_tile (b : Bank) (n r : Nat) :
    (b.setAllot true n).tile r = if r < n ∧ r < b.at_ then b.tile r else { tag := 0, rows := [] } := by
  have h := sget_filterKeys b.acc (fun k => decide (k < min n b.at_)) r
  have hlt : r < min n b.at_ ↔ r < n ∧ r < b.at_ := by omega
  simp only [decide_eq_true_eq, hlt] at h
  simp only [Bank.setAllot, Bank.tile, if_true, h]
  split <;> rfl

/-! ### CKPT (R221, R326) -/

/-- R140: the held writes leave the core, and its registers and window stand. -/
theorem State.keepsCore_sendHeld (s : State) :
    (s.setBank { s.core.bank with heldWrites := [] }).KeepsCore s.sendHeld :=
  State.keepsCore_foldl State.keepsCore_sendWrite _ _

/-- The barriers with their pending waits armed. -/
theorem armWaits_bank (b : Bank) (ns : List Nat) :
    ∃ cbs, ns.foldl (fun b n => b.setCb n { b.cb n with count := (b.cb n).count + (b.cb n).waits, waits := 0 }) b =
      { b with cbs := cbs } := by
  induction ns generalizing b with
  | nil => exact ⟨_, rfl⟩
  | cons n ns ih =>
    have hset : ∃ cbs, b.setCb n { b.cb n with count := (b.cb n).count + (b.cb n).waits, waits := 0 } =
        { b with cbs := cbs } := by
      unfold Bank.setCb
      split
      · exact ⟨_, rfl⟩
      · exact ⟨_, rfl⟩
    obtain ⟨c₁, h₁⟩ := hset
    obtain ⟨cbs, h⟩ := ih (b.setCb n { b.cb n with count := (b.cb n).count + (b.cb n).waits, waits := 0 })
    exact ⟨cbs, by rw [List.foldl_cons, h, h₁]⟩

theorem State.armWaits_eq (s : State) : ∃ cbs, s.armWaits = s.setBank { s.core.bank with cbs := cbs } := by
  obtain ⟨cbs, h⟩ := armWaits_bank s.core.bank (List.range 8)
  exact ⟨cbs, congrArg s.setBank h⟩

/-- R221: what a checkpoint leaves of the bank. -/
theorem State.checkpoint_bank (s : State) :
    ∃ cbs, s.checkpoint.core.bank = { s.core.bank with
      heldWrites := [], cbs := cbs, undo := [], sysUndo := [], bundles := 0, curCkpt := true } ∧
    s.checkpoint.core.store = s.core.store := by
  have hk := s.keepsCore_sendHeld
  obtain ⟨cbs, h⟩ := s.sendHeld.armWaits_eq
  refine ⟨cbs, ?_, ?_⟩
  · simp only [State.checkpoint, h, State.setBank_core, hk.bank]
  · simp only [State.checkpoint, h, State.setBank_core, hk.store]

theorem exec_ckpt {o : XOp} {s : State} (hr : s.primaryRuns o.g) :
    exec (.ckpt o) s = if s.core.bank.status.guard then if s.core.bank.quiet then .next s.checkpoint else s.raise 0x21
      else .next s := by
  change execCkpt o s = _
  rw [execCkpt, State.primaryOnly_runs hr]
  cases hg : s.core.bank.status.guard <;> cases hq : s.core.bank.quiet <;> simp [hg, hq]

/-! ### GENSET and SELFTEST (R93, R232) -/

theorem exec_genset {o : XOp} {s : State} (hr : s.primaryRuns o.g) :
    let v := s.rs o.a + o.imm.signExtend 64
    exec (.genset o) s = if (o.sub = 0 ∧ v.toNat % 8 = 7) ∨ (o.sub = 7 ∧ v.toNat % 4 = 3) then s.raise 0x01
      else .next (s.result 1 (.gen o.d.toNat o.sub.toNat v)) := by
  intro v
  change execGenset o s = _
  simp only [execGenset, State.primaryOnly_runs hr, Bool.or_eq_true, Bool.and_eq_true, beq_iff_eq]
  rfl

theorem landOne_gen_gen (s : State) {d : Nat} (hd : d < 8) (fld : Nat) (v : Word) (m : Nat) (hm : m < 8) :
    (s.landOne { due := 0, seq := 0, eff := .gen d fld v, unit := 4, flags := 0 }).core.bank.gen m =
      if m = d then (s.core.bank.gen d).put fld v else s.core.bank.gen m := by
  simp only [State.landOne, hd, dite_true, State.setBank_core, Bank.gen, hm, Vector.getElem_set]
  by_cases h : m = d
  · simp [h]
  · simp [h, Ne.symm h]

theorem State.supOnly_runs {s : State} {g : BitVec 4} {k : State → Out} (hr : s.primaryRuns g) (hs : s.sup? = true) :
    s.supOnly g k = k s := by
  rw [State.supOnly, State.primaryOnly_runs hr, hs]; rfl

theorem exec_selftest {o : XOp} {s : State} (hr : s.primaryRuns o.g) (hs : s.sup? = true) :
    let n := (s.rs o.a).toNat % 64
    let u := s.result 1 (.s o.d.toNat (BitVec.ofNat 64 (s.selftestCode n)))
    exec (.selftest o) s = .next (if s.selftestCode n = 0 then u.startTest n o.imm.toNat (some s.cur) else u) := by
  intro n u
  change execSelftest o s = _
  rw [execSelftest, State.supOnly_runs hr hs]; rfl

theorem Hub.mapCell_cell (h : Hub) {n : Nat} (hn : n < 64) (f : Cell → Cell) (m : Nat) :
    (h.mapCell n f).cell m = if m = n then f (h.cell n) else h.cell m := by
  by_cases hm : m < 64
  · simp only [Hub.mapCell, Hub.cell, hn, hm, dite_true, Vector.getElem_set]
    by_cases hmn : m = n
    · subst hmn; simp
    · simp [hmn, Ne.symm hmn]
  · have hmn : m ≠ n := by omega
    simp [Hub.cell, hm, hmn]

/-- Settles O16: each instruction by its cases, and what their results leave where they land. -/
theorem allotmentCheckpointGenerator : Obligations.AllotmentCheckpointGenerator := by
  refine ⟨fun o s hr hd hsub => ?allot, fun s n r => ?land, fun o s hr => ?ckpt, fun o s hr => ?genset⟩
  case allot =>
    intro c n tiles have_ free
    rw [exec_grow hr hd, exec_shrink hr hd]
    have htiles : o.sub = 0 ↔ decide (o.sub = 1) = false := by
      obtain h | h := hsub <;> rw [h] <;> decide
    rw [htiles]
    refine ⟨fun h1 h2 => if_pos ⟨h1, h2⟩, fun h => if_neg ?_, fun h1 h2 h3 => ?_, fun h => if_pos h, fun h1 h2 h3 => ?_⟩
    · rintro ⟨h1, h2⟩
      exact h.elim (Nat.not_lt.mpr h1) (Nat.not_lt.mpr h2)
    · have hle : ¬(c.bank.units tiles < n ∨ (tiles = false ∧ 32 * (have_ - n) < c.bank.rotSize)) := by
        rintro (h | ⟨ht, h⟩)
        · exact Nat.not_lt.mpr h1 h
        · exact Nat.not_lt.mpr (h2 ht) h
      exact (if_neg hle).trans (if_neg (Bool.eq_false_iff.mp h3))
    · have hle : ¬(c.bank.units tiles < n ∨ (tiles = false ∧ 32 * (have_ - n) < c.bank.rotSize)) := by
        rintro (h | ⟨ht, h⟩)
        · exact Nat.not_lt.mpr h1 h
        · exact Nat.not_lt.mpr (h2 ht) h
      exact (if_neg hle).trans (if_pos h3)
  case land =>
    exact ⟨rfl, rfl, Bank.setAllot_vreg _ _ _, Bank.setAllot_tile _ _ _, rfl, rfl, rfl, rfl⟩
  case ckpt =>
    rw [exec_ckpt hr]
    refine ⟨fun hg => ?_, fun hg hq => ?_, fun hg hq => ?_⟩
    · rw [hg]; rfl
    · obtain ⟨cbs, hb, hstore⟩ := s.checkpoint_bank
      rw [if_pos hg, if_pos hq]
      refine ⟨_, rfl, ?_⟩
      rw [hb]
      exact ⟨rfl, rfl, rfl, by simp [Bank.sameRegs], hstore⟩
    · rw [if_pos hg, hq]; rfl
  case genset =>
    intro v
    rw [exec_genset hr]
    refine ⟨fun h => if_pos h, fun h1 h2 => ⟨if_neg ?_, fun hd => ?_⟩, fun hs => ?_⟩
    · rintro (⟨ha, hb⟩ | ⟨ha, hb⟩)
      · exact h1 ha hb
      · exact h2 ha hb
    · intro w
      refine ⟨?_, fun m hm hne => ?_⟩
      · exact (landOne_gen_gen s hd _ v _ hd).trans (if_pos rfl)
      · exact (landOne_gen_gen s hd _ v m hm).trans (if_neg hne)
    · intro n code
      refine ⟨_, exec_selftest hr hs, ?_, fun hc => ?_, fun hc => ?_⟩
      · split <;> rfl
      · rw [if_pos hc]
        change ((Hub.mapCell _ n _).cell n).testing = _
        rw [Hub.mapCell_cell _ (Nat.mod_lt _ (by decide)), if_pos rfl]
      · rw [if_neg hc]; rfl

end Sys2Proof.Machine
end

section
/-! Arming, tensor descriptors, task words and drift threads (R32, R108, R151, R161, R166, R235, R333). -/

namespace Sys2Proof.Machine

/-! ### DSTART and DSTOP (R32, R333) -/

/-- R32: the thread that a DSTART leaves: its registers 0 at its first start in the task. -/
def State.startedThread (s : State) (n : Nat) (imm : BitVec 32) : Thread :=
  let id := match s.core.bank.task with
    | some k => k.task + 1
    | none => 0
  let t := s.core.thread n
  let t := if t.bank = s.core.curBank && t.task = id then t else { Thread.clear with task := id }
  let pc := s.core.bank.pc + 4 * imm.signExtend 64
  { t with pc := pc, next := pc, byBranch := true, running := true, bank := s.core.curBank, task := id,
           sup := s.core.bank.status.sup, busy := true, due := some (s.core.cycle + 2), eff := .none, waitEv := none }

theorem exec_dstart {o : XOp} {s : State} (hr : s.primaryRuns o.g) :
    exec (.dstart o) s =
      if s.core.bank.status.guard then s.raise 0x01
      else if (s.core.thread o.d.toNat).running || (s.core.thread o.d.toNat).busy then s.raise 0x0D
      else .next (s.setCore (s.core.setThread o.d.toNat (s.startedThread o.d.toNat o.imm))) := by
  change execDstart o s = _
  rw [execDstart, State.primaryOnly_runs hr]; rfl

theorem Thread.clear_regs : (∀ i, Thread.clear.dreg i = 0) ∧ ∀ i, 1 ≤ i → Thread.clear.pred i = false := by
  refine ⟨fun i => ?_, fun i hi => ?_⟩
  · simp [Thread.dreg, Thread.clear]
  · simp only [Thread.pred, Thread.clear]
    rw [if_neg (by omega)]
    split
    · rw [Vector.getElem_set_ne _ _ (by omega)]; simp
    · rfl

/-- R32: a thread that has not yet run in the task starts with its registers 0. -/
theorem State.startedThread_first {s : State} {n : Nat} {imm : BitVec 32} {k : BankTask} (hk : s.core.bank.task = some k)
    (hne : (s.core.thread n).task ≠ k.task + 1) :
    (∀ i, (s.startedThread n imm).dreg i = 0) ∧ ∀ i, 1 ≤ i → (s.startedThread n imm).pred i = false := by
  have h : (s.startedThread n imm).d = Thread.clear.d ∧ (s.startedThread n imm).p = Thread.clear.p := by
    simp [State.startedThread, hk, hne]
  obtain ⟨hd, hp⟩ := h
  refine ⟨fun i => ?_, fun i hi => ?_⟩
  · rw [← Thread.clear_regs.1 i, Thread.dreg, hd]; rfl
  · rw [← Thread.clear_regs.2 i hi, Thread.pred, hp]; rfl

/-- R32: a thread that the task has started before keeps its registers. -/
theorem State.startedThread_again {s : State} {n : Nat} {imm : BitVec 32} {k : BankTask} (hk : s.core.bank.task = some k)
    (he : (s.core.thread n).task = k.task + 1) (hb : (s.core.thread n).bank = s.core.curBank) :
    (s.startedThread n imm).d = (s.core.thread n).d ∧ (s.startedThread n imm).p = (s.core.thread n).p := by
  simp [State.startedThread, hk, he, hb]

/-- Settles O19: the started thread field by field, and the refusals. -/
theorem driftStartStop : Obligations.DriftStartStop := by
  intro o s hd n
  refine ⟨fun hr hg hrun hbusy => ?start, fun hr hg hrun => ?running, fun ha => ?primary, fun hr hg => ?guarded,
    fun m ha => ?drift, fun m hm hr => ?stop⟩
  case start =>
    have hexec := exec_dstart hr
    rw [hg, hrun, hbusy] at hexec
    have hself := Core.setThread_self s.core hd (s.startedThread n o.imm)
    refine ⟨_, hexec, Core.setThread_bank .., ?_⟩
    rw [State.setCore_core, hself]
    refine ⟨rfl, rfl, rfl, fun k hk hne => State.startedThread_first hk hne,
      fun k hk he hb => State.startedThread_again hk he hb, rfl, fun m hm hne => ?_⟩
    exact Core.setThread_other s.core hd hm hne _
  case running =>
    rw [exec_dstart hr, hg, hrun]; rfl
  case primary =>
    change execDstop o s = _
    rw [execDstop, ha]
  case guarded =>
    rw [exec_dstart hr, if_pos hg]
  case drift =>
    change execDstart o s = _
    rw [execDstart, State.primaryOnly_drift ha]
  case stop =>
    have hexec : exec (.dstop o) s = .next (s.setThread { s.thread with running := false, busy := false }) := by
      change execDstop o s = _
      have ha := hr.1
      rw [execDstop, ha]
      exact State.guarded_runs hr.runs
    refine ⟨_, hexec, ?_⟩
    simp [State.setThread, State.thread, hr.1, Core.setThread_self _ hm, Core.setThread_bank]

/-! ### Tensor descriptors (R108) -/

/-- R108: the rules of a descriptor, one by one. -/
def DescriptorOk (bs : List Byte) : Prop :=
  let f := field bs
  1 ≤ f 0 1 ∧ f 0 1 ≤ 5 ∧ 1 ≤ f 1 1 ∧ f 1 1 ≤ 12 ∧ f 2 1 ≤ 1 ∧ f 3 1 ≤ 1 ∧ f 4 4 = 0 ∧ f 38 2 = 0 ∧
    f 48 16 = 0 ∧ (∀ d < 5, 1 ≤ f (8 + 4 * d) 4 ∧ ∃ k < 16, f (28 + 2 * d) 2 = 2 ^ k) ∧
    (∀ d < 5, f 0 1 ≤ d → f (8 + 4 * d) 4 = 1) ∧
    f 28 2 * f 30 2 * f 32 2 * f 34 2 * f 36 2 * (tagWidth (BitVec.ofNat 4 (f 1 1)) / 8) = 65536 ∧ f 40 8 % 8 = 0

/-- R108: the tensor that a descriptor's fields say. -/
def describedTensor (bs : List Byte) : Tensor :=
  { rank := field bs 0 1, fmt := BitVec.ofNat 4 (field bs 1 1), layout := field bs 2 1, edge := field bs 3 1,
    ext := (List.range 5).map fun d => field bs (8 + 4 * d) 4,
    tile := (List.range 5).map fun d => field bs (28 + 2 * d) 2, ttb := BitVec.ofNat 64 (field bs 40 8) }

/-- R108: the rules of a descriptor as the decoder tests them. -/
theorem tensorOf_cases (bs : List Byte) :
    (DescriptorOk bs ∧ tensorOf bs = some (describedTensor bs)) ∨ (¬DescriptorOk bs ∧ tensorOf bs = none) := by
  have hext (x : Nat) (hx : x < 5) :
      (List.map (fun d => field bs (8 + 4 * d) 4) (List.range 5)).getD x 0 = field bs (8 + 4 * x) 4 := by
    simp [List.getD, hx]
  have hprod : (List.map (fun d => field bs (28 + 2 * d) 2) (List.range 5)).foldl (· * ·) 1 =
      field bs 28 2 * field bs 30 2 * field bs 32 2 * field bs 34 2 * field bs 36 2 := by
    simp [List.range_succ]
  unfold tensorOf
  dsimp only
  split
  · next h =>
    simp only [Bool.and_eq_true, decide_eq_true_eq, zeroBytes, beq_iff_eq, List.all_eq_true, List.mem_map,
      forall_exists_index, and_imp, forall_apply_eq_imp_iff₂, List.mem_range, List.any_eq_true, Bool.or_eq_true, hprod,
      and_assoc] at h
    obtain ⟨h1, h2, h3, h4, h5, h6, h7, h8, h9, h10, h11, h12, h13, h14⟩ := h
    refine .inl ⟨⟨h1, h2, h3, h4, h5, h6, h7, h8, h9, fun d hd => ⟨h10 d hd, h11 d hd⟩, fun d hd hle => ?_, h13, h14⟩, rfl⟩
    rw [← hext d hd]
    exact (h12 d hd).resolve_left (Nat.not_lt.mpr hle)
  · next h =>
    refine .inr ⟨fun hok => h ?_, rfl⟩
    obtain ⟨h1, h2, h3, h4, h5, h6, h7, h8, h9, h10, h12, h13, h14⟩ := hok
    simp only [Bool.and_eq_true, decide_eq_true_eq, zeroBytes, beq_iff_eq, List.all_eq_true, List.mem_map,
      forall_exists_index, and_imp, forall_apply_eq_imp_iff₂, List.mem_range, List.any_eq_true, Bool.or_eq_true, hprod,
      and_assoc]
    refine ⟨h1, h2, h3, h4, h5, h6, h7, h8, h9, fun d hd => (h10 d hd).1, fun d hd => (h10 d hd).2, fun d hd => ?_, h13, h14⟩
    rw [hext d hd]
    exact (Nat.lt_or_ge d _).imp_right (h12 d hd)

/-! ### Captured blocks and ports (R99, R353) -/

/-- A block of 64 bytes, aligned to them, lies in one line. -/
theorem linesOf_block {a : Nat} (ha : a % 64 = 0) : linesOf a 64 = [a / 128] := by
  have h : (a + 64 - 1) / 128 - a / 128 + 1 = 1 := by omega
  simp only [linesOf, h]
  rfl

theorem checkSteps13_aligned {user : Bool} {a len al : Nat} (h : checkSteps13 user a len al = none) : a % al = 0 := by
  by_contra hal
  simp only [checkSteps13] at h
  split at h
  · simp at h
  · split at h
    · simp at h
    · simp at h

theorem State.checkLocal_aligned {s : State} {a len al : Nat} (h : s.checkLocal a len al = none) : a % al = 0 := by
  apply checkSteps13_aligned (user := !s.sup?) (len := len)
  simp only [State.checkLocal] at h
  split at h
  · simp at h
  · assumption

theorem State.block_aligned {s : State} {a len al : Nat} {bs : List Byte} (h : s.block a len al = .ok bs) : a % al = 0 := by
  apply State.checkLocal_aligned (s := s) (len := len)
  simp only [State.block] at h
  split at h
  · simp at h
  · assumption

/-- R353: the primary's capture of a block claims its ports. -/
theorem State.captured_ok {s : State} (ha : s.agent = .primary) {a len al : Nat} {bs : List Byte}
    (h : s.block a len al = .ok bs) (k : List Byte → State → Out) : s.captured a len al k = k bs (s.claimNow a len) := by
  simp only [State.captured, h, State.claimBlock, ha]

/-! ### ARM, DISARM and LDT (R151, R109) -/

theorem exec_arm {o : XOp} {s : State} {bs : List Byte} (hr : s.primaryRuns o.g) (hs : s.sup? = true)
    (hb : s.block (s.rs o.a).toNat 64 64 = .ok bs) :
    let u := s.claimNow (s.rs o.a).toNat 64
    exec (.arm o) s = if 4 ≤ s.core.hubq.length then .next (u.result 1 (.s o.d.toNat 1))
      else .next (((u.setCore { u.core with
        hubq := s.core.hubq ++ [.arm o.imm.toNat bs ((s.rs o.a).toNat + 56) s.core.curBank] }).result 1
          (.s o.d.toNat 0)).later [.event (.armResult s.cur)]) := by
  intro u
  change execArm o s = _
  rw [execArm, State.supOnly_runs hr hs, State.captured_ok hr.1 hb]; rfl

theorem exec_disarm {o : XOp} {s : State} (hr : s.primaryRuns o.g) (hs : s.sup? = true) :
    exec (.disarm o) s = if 4 ≤ s.core.hubq.length then .next (s.result 1 (.s o.d.toNat 1))
      else .next ((s.result 1 (.s o.d.toNat 0)).disarmSlot o.imm.toNat) := by
  change execDisarm o s = _
  rw [execDisarm, State.supOnly_runs hr hs]; rfl

theorem exec_ldt {o : XOp} {s : State} {bs : List Byte} (hr : s.primaryRuns o.g) (hd : s.destOk o.d = true)
    (hb : s.block (s.rs o.a).toNat 64 64 = .ok bs) :
    let u := s.claimNow (s.rs o.a).toNat 64
    exec (.ldt o) s = match tensorOf bs with
      | none => .next (u.result 1 (.s o.d.toNat 1))
      | some t => .next ((u.result 1 (.s o.d.toNat 0)).result 1 (.ldt o.imm.toNat t)) := by
  intro u
  change execLdt o s = _
  simp only [execLdt, State.primaryOnly_runs hr, hd, State.captured_ok hr.1 hb]
  rfl

theorem errorReplies_slots (ms : List Message) (s : State) : (ms.foldl State.errorReply s).hub.slots = s.hub.slots := by
  induction ms generalizing s with
  | nil => rfl
  | cons m ms ih => exact (ih _).trans (s.errorReply_slots m)

/-- R151, R153: the disarmed slot. -/
theorem State.disarmSlot_slot (s : State) (n : Nat) :
    (s.disarmSlot n).hub.slot n = { s.hub.slot n with armed := false, queued := [] } := by
  have h (u : State) : ((s.hub.slot n).queued.foldl State.errorReply u).hub.slot n = u.hub.slot n := by
    simp only [Hub.slot, errorReplies_slots]
  refine (h _).trans ?_
  simp [Hub.slot, Hub.setSlot, sget_sput]

theorem State.keepsCore_disarmSlot (s : State) (n : Nat) : s.KeepsCore (s.disarmSlot n) := by
  refine State.KeepsCore.trans ?_ (State.keepsCore_foldl State.keepsCore_errorReply _ _)
  exact State.keepsCore_of_eq rfl rfl rfl

/-- Settles O17: the descriptors by their rules, and each instruction on a captured block. -/
theorem armDisarmLdt : Obligations.ArmDisarmLdt := by
  refine ⟨fun bs => ?descriptor, fun o s bs hr hs hb => ?ops⟩
  case descriptor =>
    intro f rank ok
    obtain ⟨hok, ht⟩ | ⟨hok, ht⟩ := tensorOf_cases bs
    · refine ⟨by rw [ht]; exact iff_of_true rfl hok, fun t h => ?_⟩
      rw [ht] at h
      rw [← Option.some.inj h]
      refine ⟨rfl, rfl, rfl, rfl, rfl, fun d hd => ?_⟩
      simp [describedTensor, List.getD, hd, f]
    · refine ⟨by rw [ht]; exact iff_of_false nofun hok, fun t h => ?_⟩
      rw [ht] at h
      exact absurd h nofun
  case ops =>
    intro u
    have hq : s.core.hubq.length < 4 → ¬4 ≤ s.core.hubq.length := Nat.not_le.mpr
    refine ⟨?_, fun h => ⟨_, (exec_arm hr hs hb).trans (if_neg (hq h)), rfl, rfl, ?_⟩,
      fun h => ⟨(exec_arm hr hs hb).trans (if_pos h), (exec_disarm hr hs).trans (if_pos h)⟩,
      fun h => ⟨_, (exec_disarm hr hs).trans (if_neg (hq h)), ?_⟩, fun hd d ht => ?_, fun hd ht => ?_⟩
    · have hlines := linesOf_block (State.block_aligned hb)
      simp only [u, State.claimNow, State.setBank_core, Bank.claim, hlines, List.map_cons, List.map_nil]
    · exact (Bank.sameRegs_addPend _ _ _ _ _).trans (Bank.sameRegs_claim _ _ _)
    · have hk := (s.result 1 (.s o.d.toNat 0)).keepsCore_disarmSlot o.imm.toNat
      rw [hk.bank, State.disarmSlot_slot]
      exact ⟨rfl, Bank.sameRegs_addPend _ _ _ _ _, rfl, rfl⟩
    · rw [exec_ldt hr hd hb, ht]
    · rw [exec_ldt hr hd hb, ht]

end Sys2Proof.Machine
end

section
/-! Task words (R126, R140, R161, R166, R235): releases, CONDW, DIGEST and TRET. -/

namespace Sys2Proof.Machine

/-! ### Releases (R126) -/

theorem sameFlight_refl (ps : List Pend) : sameFlight ps ps := by
  induction ps with
  | nil => trivial
  | cons p ps ih => exact ⟨rfl, rfl, rfl, fun _ => rfl, ih⟩

theorem sameFlight_trans {ps qs rs : List Pend} (h₁ : sameFlight ps qs) (h₂ : sameFlight qs rs) : sameFlight ps rs := by
  induction ps generalizing qs rs with
  | nil =>
    cases qs with
    | nil => exact h₂
    | cons q qs => exact h₁.elim
  | cons p ps ih =>
    cases qs with
    | nil => exact h₁.elim
    | cons q qs =>
      cases rs with
      | nil => exact h₂.elim
      | cons r rs =>
        obtain ⟨hd₁, hs₁, hw₁, he₁, h₁⟩ := h₁
        obtain ⟨hd₂, hs₂, hw₂, he₂, h₂⟩ := h₂
        exact ⟨hd₂.trans hd₁, hs₂.trans hs₁, hw₂.trans hw₁,
          fun h => (he₂ (hw₁.trans h)).trans (he₁ h), ih h₁ h₂⟩

theorem sameFlight_map (f : Pend → Pend) (hf : ∀ e, (f e).due = e.due ∧ (f e).seq = e.seq ∧
    (f e).eff.isWrite = e.eff.isWrite ∧ (e.eff.isWrite = false → f e = e)) (ps : List Pend) : sameFlight ps (ps.map f) := by
  induction ps with
  | nil => trivial
  | cons p ps ih =>
    obtain ⟨h1, h2, h3, h4⟩ := hf p
    exact ⟨h1, h2, h3, h4, ih⟩

/-- An ATOM that has performed for the others of its core is in flight as it was (R122). -/
theorem Core.fixAtom_flight (c : Core) (e : Pend) :
    (c.fixAtom e).due = e.due ∧ (c.fixAtom e).seq = e.seq ∧ (c.fixAtom e).eff.isWrite = e.eff.isWrite := by
  unfold Core.fixAtom
  split
  · next h => exact ⟨rfl, rfl, by rw [h]; rfl⟩
  · exact ⟨rfl, rfl, rfl⟩

/-- R126: what a published core's results in flight are. -/
theorem Core.publish_flight (c : Core) (upto : Nat) : sameFlight c.bank.pend (c.publish upto).bank.pend := by
  refine sameFlight_map _ (fun e => ?_) _
  obtain ⟨hd, hs, hw⟩ := c.fixAtom_flight e
  split
  · next h =>
    simp only [Bool.and_eq_true] at h
    exact ⟨hd, hs, hw, fun hf => absurd (h.1.symm.trans hf) nofun⟩
  · exact ⟨rfl, rfl, rfl, fun _ => rfl⟩

theorem Core.publish_sameRegs (c : Core) (upto : Nat) : (c.publish upto).bank.sameRegs c.bank := Bank.sameRegs.refl _

/-- A state whose bank keeps its registers and its results in flight, and whose task stands. -/
def State.KeepsFlight (s t : State) : Prop :=
  t.agent = s.agent ∧ t.core.bank.sameRegs s.core.bank ∧ sameFlight s.core.bank.pend t.core.bank.pend

theorem State.KeepsFlight.refl (s : State) : s.KeepsFlight s := ⟨rfl, .refl _, sameFlight_refl _⟩

theorem State.KeepsFlight.trans {s t u : State} (h₁ : s.KeepsFlight t) (h₂ : t.KeepsFlight u) : s.KeepsFlight u :=
  ⟨h₂.1.trans h₁.1, h₂.2.1.trans h₁.2.1, sameFlight_trans h₁.2.2 h₂.2.2⟩

theorem State.KeepsCore.keepsFlight {s t : State} (h : s.KeepsCore t) : s.KeepsFlight t := by
  refine ⟨h.2.1, ?_, ?_⟩
  · rw [h.bank]; exact .refl _
  · rw [h.bank]; exact sameFlight_refl _

/-- R126, R136: a release of the primary. -/
theorem State.keepsFlight_releaseHere {s : State} (ha : s.agent = .primary) (sc : Nat) :
    s.KeepsFlight (s.releaseHere sc) ∧ (s.releaseHere sc).core.bank.task = s.core.bank.task := by
  have hrel : s.KeepsFlight (s.release sc) ∧ (s.release sc).core.bank.task = s.core.bank.task := by
    obtain h | ⟨-, -, h⟩ := s.release_cases sc <;> rw [h]
    · exact ⟨.refl s, rfl⟩
    · exact ⟨⟨rfl, Bank.sameRegs.refl s.core.bank, sameFlight_refl _⟩, rfl⟩
  rw [State.releaseHere_primary ha]
  refine ⟨hrel.1.trans ⟨rfl, Core.publish_sameRegs _ _, Core.publish_flight _ _⟩, hrel.2⟩

/-! ### CONDW (R166, R329) -/

theorem exec_condw {o : XOp} {s : State} {k : BankTask} (hr : s.primaryRuns o.g) (hk : s.core.bank.task = some k)
    (hrerun : s.isRerun = false) :
    exec (.condw o) s = .next ((s.releaseHere 3).globalOut 0 (.cond k.launch o.imm.toNat o.sub.toNat (s.rs o.a))) := by
  change execCondw o s = _
  simp only [execCondw, State.primaryOnly_runs hr, hk, hrerun]
  rfl

/-- R166: the forms of the update. -/
theorem condUpdate_max (old v : Word) : condUpdate 3 old v = BitVec.ofNat 64 (max old.toNat v.toNat) := by
  simp only [condUpdate, BitVec.ult, decide_eq_true_eq]
  by_cases h : old.toNat < v.toNat
  · rw [if_pos h, max_eq_right h.le, BitVec.ofNat_toNat, BitVec.setWidth_eq]
  · rw [if_neg h, max_eq_left (Nat.not_lt.mp h), BitVec.ofNat_toNat, BitVec.setWidth_eq]

theorem Launch.setWord_word (l : Launch) {c : Nat} (hc : c < 16) (v : Word) {d : Nat} (hd : d < 16) :
    (l.setWord c v).word d = if d = c then v else l.word d := by
  simp only [Launch.setWord, Launch.word, hc, hd, dite_true, Vector.getElem_set]
  by_cases h : d = c
  · simp [h]
  · simp [h, Ne.symm h]

/-- A launch changed by number, its number kept. -/
theorem Hub.mapLaunch_launch? (h : Hub) (id : Nat) (f : Launch → Launch) (hf : ∀ l, (f l).id = l.id) (j : Nat) :
    (h.mapLaunch id f).launch? j = (h.launch? j).map fun l => if j = id then f l else l := by
  simp only [Hub.mapLaunch, Hub.launch?]
  induction h.launches with
  | nil => rfl
  | cons l ls ih =>
    simp only [List.map_cons, List.find?_cons]
    have hid : (if l.id = id then f l else l).id = l.id := by split <;> simp [hf]
    rw [hid]
    cases hb : l.id == j with
    | true => simp [beq_iff_eq.mp hb]
    | false => exact ih

theorem Launch.setWord_id (l : Launch) (c : Nat) (v : Word) : (l.setWord c v).id = l.id := by
  unfold Launch.setWord; split <;> rfl

/-- R126, R136: a release of the primary outside guarded mode. -/
theorem State.releaseHere_unguarded {s : State} (ha : s.agent = .primary) (hg : s.core.bank.status.guard = false)
    (sc : Nat) : s.releaseHere sc = (s.releaseNow sc).setCore (s.core.publish s.core.bank.seq) := by
  have hrel : s.release sc = s.releaseNow sc := by simp [State.release, hg]
  rw [State.releaseHere_primary ha, hrel]; rfl

/-- R140: a release in guarded mode waits. -/
theorem State.releaseHere_guarded {s : State} (ha : s.agent = .primary) (hg : s.core.bank.status.guard = true) {sc : Nat}
    (hsc : 1 ≤ sc) :
    s.releaseHere sc = (s.setBank (s.core.bank.holding (.release sc))).setCore
      ((s.setBank (s.core.bank.holding (.release sc))).core.publish s.core.bank.seq) := by
  have hrel : s.release sc = s.setBank (s.core.bank.holding (.release sc)) := by
    simp [State.release, hg, hsc, Bank.holding]
  rw [State.releaseHere_primary ha, hrel]; rfl

/-- R140: a release and a condition word need no line of the hold buffer. -/
theorem Bank.heldLines_noLine {b c : Bank} {ws : List HeldWrite} (hc : c.heldWrites = b.heldWrites ++ ws)
    (h : ∀ w ∈ ws, w.lines = []) : c.heldLines = b.heldLines := by
  have hws : ws.flatMap HeldWrite.lines = [] := List.flatMap_eq_nil_iff.mpr h
  simp only [Bank.heldLines, hc, List.flatMap_append, hws, List.append_nil]

/-! ### The walk of a graph keeps the core (R164) -/

theorem State.keepsCore_enterNode (s : State) (launch br n : Nat) : s.KeepsCore (s.enterNode launch br n) := by
  unfold State.enterNode
  dsimp only
  split
  · exact keepsCore_of_eq rfl rfl rfl
  · split
    · exact keepsCore_of_eq rfl rfl rfl
    · split
      · exact keepsCore_of_eq rfl rfl rfl
      · exact (s.keepsCore_setHub _).trans ((State.keepsCore_logErrorFor _ _ _).trans (State.keepsCore_graphFault _ _ _ _))
      · split
        · exact keepsCore_of_eq rfl rfl rfl
        · exact keepsCore_of_eq rfl rfl rfl

theorem State.keepsCore_retryBranch (s : State) (l : Launch) (b : Branch) : s.KeepsCore (s.retryBranch l b) := by
  unfold State.retryBranch
  split
  · split
    · exact keepsCore_of_eq rfl rfl rfl
    · exact s.keepsCore_enterNode _ _ _
  · exact .refl s

theorem State.keepsCore_wake (s : State) (launch : Nat) : s.KeepsCore (s.wake launch) := by
  unfold State.wake
  split
  · exact .refl s
  · exact (State.keepsCore_foldl (fun s b => s.keepsCore_retryBranch _ b) _ s).trans (keepsCore_of_eq rfl rfl rfl)

theorem State.keepsCore_checkRetire (s : State) (id : Nat) : s.KeepsCore (s.checkRetire id) := by
  have hgo (h : Hub) (l : Nat) (p : Prop) [Decidable p] : s.KeepsCore (if p then s else (s.setHub h).wake l) := by
    split
    · exact .refl s
    · exact (s.keepsCore_setHub _).trans (State.keepsCore_wake _ _)
  unfold State.checkRetire
  split
  · exact .refl s
  · exact hgo _ _ _

/-! ### TRET (R161) -/

/-- R161: the running task stands, but for its marked outputs, its digest and its TRET. -/
def State.HasTask (s : State) (k : BankTask) : Prop :=
  s.agent = .primary ∧ ∃ m, s.core.bank.task = some { k with marked := m }

theorem State.markOutput_keeps {s : State} {k : BankTask} (h : s.HasTask k) (u : Nat) :
    s.KeepsFlight (s.markOutput u) ∧ (s.markOutput u).HasTask k := by
  obtain ⟨ha, m, hk⟩ := h
  unfold State.markOutput
  rw [hk]
  dsimp only
  obtain ⟨hf, ht⟩ := State.keepsFlight_releaseHere
    (s := s.setBank { s.core.bank with task := some { k with marked := m ++ [u] } }) ha 3
  refine ⟨?_, ?_, m ++ [u], ?_⟩
  · exact State.KeepsFlight.trans (t := s.setBank _) ⟨rfl, .refl s.core.bank, sameFlight_refl _⟩ hf
  · exact hf.1.trans ha
  · exact ht

theorem State.markOutputs_keep {s : State} {k : BankTask} (h : s.HasTask k) (us : List Nat) :
    s.KeepsFlight (us.foldl (fun s u => s.markOutput u) s) ∧ (us.foldl (fun s u => s.markOutput u) s).HasTask k := by
  induction us generalizing s with
  | nil => exact ⟨.refl s, h⟩
  | cons u us ih =>
    obtain ⟨hf, ht⟩ := State.markOutput_keeps h u
    obtain ⟨hf', ht'⟩ := ih ht
    exact ⟨hf.trans hf', ht'⟩

/-- R161: a TRET keeps the registers and the results in flight, and the task has issued it. -/
theorem State.tret_keeps {s : State} {k : BankTask} (ha : s.agent = .primary) (hk : s.core.bank.task = some k) :
    s.KeepsFlight s.tret ∧ (s.tret.core.bank.task.any fun x => x.tret) = true := by
  obtain ⟨hf, ha', m, ht⟩ := State.markOutputs_keep (s := s) (k := k) ⟨ha, k.marked, hk⟩
    (k.outUnits.filter fun u => !(k.marked.contains u))
  unfold State.tret
  rw [hk]
  dsimp only
  generalize (k.outUnits.filter fun u => !(k.marked.contains u)).foldl (fun s u => s.markOutput u) s = t at hf ha' ht
  obtain ⟨hf₂, ht₂⟩ := State.keepsFlight_releaseHere ha' 3
  rw [ht₂, ht]
  dsimp only
  generalize hu : (t.releaseHere 3).setBank _ = u
  have hkeep : (t.releaseHere 3).KeepsFlight u ∧ (u.core.bank.task.any fun x => x.tret) = true := by
    rw [← hu]
    exact ⟨⟨rfl, .refl (t.releaseHere 3).core.bank, sameFlight_refl _⟩, rfl⟩
  have hend := (u.keepsCore_setHub (u.hub.mapTask k.task fun x =>
    { x with trets := x.trets ++ [k.member], folds := x.folds ++ [(k.member, k.digest)] })).trans
      (State.keepsCore_checkRetire _ k.task)
  refine ⟨(hf.trans hf₂).trans (hkeep.1.trans ?_), ?_⟩
  · rw [← hu] at hend ⊢
    exact hend.keepsFlight
  · rw [← hu] at hend hkeep ⊢
    rw [hend.bank]
    exact hkeep.2

/-- Settles O18: each word by its cases, with the releases and the walk that they lead to. -/
theorem taskWords : Obligations.TaskWords := by
  refine ⟨fun old v => ⟨rfl, rfl, rfl, condUpdate_max old v⟩, fun o s k l hr hk => ⟨fun hg hrerun hl hc => ?condw,
    fun hg hrerun hheld => ?held, fun ht hgang => ?solo, fun g ht hgang => ?gang, fun ht => ?tret, fun ht => ?after⟩⟩
  case condw =>
    refine ⟨_, exec_condw hr hk hrerun, ?_⟩
    have hg' : (s.releaseHere 3).core.bank.status.guard = false := by
      rw [State.releaseHere_unguarded hr.1 hg]; exact hg
    rw [State.globalOut_unguarded hg', State.releaseHere_unguarded hr.1 hg]
    have hag : s.agentThread = none := by rw [State.agentThread, hr.1]
    have hlaunch := Hub.mapLaunch_launch? s.hub k.launch
      (fun l => l.setWord o.imm.toNat (condUpdate o.sub.toNat (l.word o.imm.toNat) (s.rs o.a)))
      (fun l => Launch.setWord_id _ _ _) k.launch
    rw [hl, Option.map_some, if_pos rfl] at hlaunch
    refine ⟨rfl, congrArg (fun t => s.ord ++ [OrdEvent.release s.cur t 3]) hag, rfl, _, hlaunch, ?_, fun c hc' hne => ?_⟩
    · rw [Launch.setWord_word _ hc _ hc, if_pos rfl]
    · rw [Launch.setWord_word _ hc _ hc', if_neg hne]
  case held =>
    let w : HeldWrite := .cond k.launch o.imm.toNat o.sub.toNat (s.rs o.a)
    have hrel := State.releaseHere_guarded hr.1 hg (sc := 3) (by decide)
    have hg' : (s.releaseHere 3).core.bank.status.guard = true := by rw [hrel]; exact hg
    have hws : ((s.releaseHere 3).core.bank.holding w).heldWrites = s.core.bank.heldWrites ++ [.release 3, w] := by
      rw [hrel]; exact List.append_assoc _ _ _
    have hlines : ((s.releaseHere 3).core.bank.holding w).heldLines = s.core.bank.heldLines :=
      Bank.heldLines_noLine hws (by simp [w, HeldWrite.lines])
    have hroom : ((s.releaseHere 3).core.bank.holding w).heldLines.length ≤ 256 := by rw [hlines]; exact hheld
    have hexec := exec_condw hr hk hrerun
    rw [State.globalOut_guarded hg' hroom] at hexec
    refine ⟨_, hexec, ?_, ?_, ?_, hws⟩
    · rw [hrel, State.setBank_hub, State.setCore_hub, State.setBank_hub]
    · rw [hrel, State.setBank_mem, State.setCore_mem, State.setBank_mem]
    · rw [hrel, State.setBank_ord, State.setCore_ord, State.setBank_ord]
  case solo =>
    change execDigest o s = _
    simp [execDigest, State.primaryOnly_runs hr, hk, ht, hgang]
  case gang =>
    change execDigest o s = _
    simp [execDigest, State.primaryOnly_runs hr, hk, ht, hgang]
  case tret =>
    have hexec : exec (.tret o) s = .next s.tret := by
      change execTret o s = _
      simp [execTret, State.primaryOnly_runs hr, hk, ht]
    obtain ⟨⟨-, hregs, hflight⟩, htret⟩ := State.tret_keeps hr.1 hk
    exact ⟨_, hexec, htret, hregs, hflight⟩
  case after =>
    change execDigest o s = _ ∧ execTret o s = _
    simp [execDigest, execTret, State.primaryOnly_runs hr, hk, ht]

end Sys2Proof.Machine
end

section
/-! PROOFS. A step runs the decoded instruction. -/

namespace Sys2Proof.Machine

/-! ### What the words of one instruction decode to -/

theorem classOf_or_start (w : IWord) : classOf (w ||| 0x80000000) = classOf w := bitsOf_or_start w (by omega)

/-- R289, R304: the words of one well-formed instruction, the first with its bundle-start bit, are a bundle of it alone. -/
theorem decodeBundle_one {i : Instr} {w w1 : IWord} {ws : List IWord} (hi : WellFormed i)
    (h : encode i = some [w] ∧ ws = [w ||| 0x80000000] ∨ encode i = some [w, w1] ∧ ws = [w ||| 0x80000000, w1]) :
    decodeBundle 16 ws = [((classOf w).toNat, .ok i)] := by
  rcases h with ⟨he, rfl⟩ | ⟨he, rfl⟩
  · obtain ⟨hk, hd⟩ := roundTrip.1 i _ true he hi
    simp only [List.headD_cons, List.length_singleton] at hk
    simp only [if_true, List.headD_cons] at hd
    simp only [decodeBundle, classOf_or_start, hk]
    exact congrArg (fun r => [((classOf w).toNat, r)]) hd
  · obtain ⟨hk, hd⟩ := roundTrip.1 i _ true he hi
    simp only [List.headD_cons, List.length_cons, List.length_nil] at hk
    simp only [if_true, List.headD_cons] at hd
    simp only [decodeBundle, classOf_or_start, hk]
    exact congrArg (fun r => [((classOf w).toNat, r)]) hd

/-! ### The turn of a bank that is free to issue -/

/-- R13, R304: the running bank of a core issues its next bundle: nothing holds it and nothing is taken before it. -/
def State.freeToIssue (s : State) : Prop :=
  s.agent = .primary ∧ s.core.switching = none ∧ s.core.bank.run = .active ∧ s.core.bank.stall = 0 ∧ s.gang = none ∧
  s.resumeDue = false ∧ s.preemptDue = false ∧ s.interruptDue = false ∧ s.core.bank.kernel = none

theorem setBank_self (s : State) : s.setBank s.core.bank = s := rfl

/-- A turn of a bank that is free to issue lands what is due, passes the iteration boundary and issues. -/
theorem coreTurn_free {s : State} (h : s.freeToIssue) : s.coreTurn = s.land_.boundary.issue := by
  obtain ⟨hag, hsw, hrun, hst, hg, hres, hpre, hirq, hker⟩ := h
  have hs : { s with agent := .primary } = s := by cases s; cases hag; rfl
  have hlead : s.isLead = true := by simp [State.isLead, hg]
  have hopen : s.openStep = s := by simp [State.openStep, hg]
  have henter : s.setBank s.core.bank.enterKernel = s := by
    rw [show s.core.bank.enterKernel = s.core.bank by simp [Bank.enterKernel, hker], setBank_self]
  simp only [State.coreTurn, hs, hsw, State.bankTurn, hrun, State.activeTurn, hst, State.gangSkew, State.gangLets, hg,
    hres, hopen, State.preemptNow, State.interruptNow, hlead, hpre, hirq, henter, if_true, Nat.lt_irrefl, if_false,
    Bool.false_and, Bool.not_true, Bool.false_eq_true]

/-- The step of a bank that is free to issue, with an empty agenda. -/
theorem step_free {s : State} (ha : s.agenda = []) (hf : s.hub.regs.fatal = false) (h : s.freeToIssue) :
    step s = s.land_.boundary.issue := by
  simp only [step, ha, hf, Bool.false_eq_true, if_false, coreTurn_free h]

section
variable {u : State} {ws : List IWord} {xs : Bundle} {next : Nat} (hw : u.core.bank.waitPc = none)
  (hf : u.image.fetch u.core.bank.pc.toNat u.core.bank.byBranch = .ok (ws, next)) (hx : decodeBundle 16 ws = xs)
include hw hf hx

/-- R291: a bundle that fails its checks stops on the state before it. -/
theorem issue_stops {c : Nat}
    (h : (u.setBank (u.core.bank.begin_ (BitVec.ofNat 64 next) xs (u.bundleLeaf xs))).bundleFault xs = some c) :
    u.issue = .next (u.bundleStops (Raised.of c)) := by
  simp only [State.issue, hw, State.issueBundle, hf, hx, h]

/-- The instructions of a bundle that passes its checks run in a bank that does not rerun. -/
theorem issue_runs (hr : u.core.bank.rerun = none)
    (h : (u.setBank (u.core.bank.begin_ (BitVec.ofNat 64 next) xs (u.bundleLeaf xs))).bundleFault xs = none) :
    u.issue = (u.setBank (u.core.bank.begin_ (BitVec.ofNat 64 next) xs (u.bundleLeaf xs))).runBundle u xs := by
  simp only [State.issue, hw, State.issueBundle, hf, hx, h, hr]
end

/-! ### The members of a bundle -/

/-- R304: the members of a bundle as decoded. -/
def bundleOf (is : List (Nat × Instr)) : Bundle := is.map fun x => (x.1, .ok x.2)

/-- The number of members of class k of a list of members. -/
def classCount (is : List (Nat × Instr)) (k : Nat) : Nat := (is.filter fun x => x.1 == k).length

/-- A member that is no CPYW and no TRAP, and an ERET only where it stands alone, is exec of it. -/
theorem runOne_plain {i : Instr} {alone : Bool} (s : State) (hc : isCpyw i = false) (ht : isTrap i = false)
    (he : isEret i = false ∨ alone = true) : runOne (.ok i) alone s = exec i s := by
  have : (isEret i && !alone) = false := by rcases he with h | h <;> simp [h]
  simp only [runOne, hc, ht, this, Bool.false_and, Bool.false_eq_true, if_false]

/-- R304: members that run in order without a raised cause leave what comes after them to run on their state, counted on. -/
theorem runAll_append {alone : Bool} {is js : List (Nat × Instr)} {n v c : Nat} {s t : State}
    (hp : ∀ x ∈ is, isCpyw x.2 = false ∧ isTrap x.2 = false ∧ isEret x.2 = false) (h : execInOrder is n v c s t) :
    runAll alone (bundleOf (is ++ js)) n v c s =
      runAll alone (bundleOf js) (n + is.length) (v + classCount is 2) (c + classCount is 4) t := by
  induction is generalizing n v c s with
  | nil => obtain rfl := h; rfl
  | cons x xs ih =>
    obtain ⟨u, hu, hraised, hrest⟩ := h
    obtain ⟨hc, ht, he⟩ := hp x (by simp)
    have hstep : runAll alone (bundleOf (x :: xs ++ js)) n v c s = runAll alone (bundleOf (xs ++ js)) (n + 1)
        (if x.1 = 2 then v + 1 else v) (if x.1 = 4 then c + 1 else c) u := by
      simp only [bundleOf, List.cons_append, List.map_cons, runAll, runOne_plain _ hc ht (.inl he), hu, hraised,
        Option.isSome_none, Bool.false_eq_true, if_false]
    have hcount (k a : Nat) : (if x.1 = k then a + 1 else a) + classCount xs k = a + classCount (x :: xs) k := by
      by_cases hk : x.1 = k <;> simp [classCount, hk, Nat.add_assoc, Nat.add_comm 1]
    rw [hstep, ih (fun y hy => hp y (List.mem_cons_of_mem x hy)) hrest, hcount, hcount,
      show n + 1 + xs.length = n + (x :: xs).length by simp only [List.length_cons]; omega]

/-- After members that raise no cause none stands. -/
theorem execInOrder_raised {is : List (Nat × Instr)} {n v c : Nat} {s t : State} (h : execInOrder is n v c s t)
    (hs : s.core.bank.raised = none) : t.core.bank.raised = none := by
  induction is generalizing n v c s with
  | nil => obtain rfl := h; exact hs
  | cons x xs ih => obtain ⟨u, -, hu, hrest⟩ := h; exact ih hrest hu

theorem legal_bundleOf (is : List (Nat × Instr)) : (bundleOf is).legal = is.map (·.2) := by
  simp only [Bundle.legal, bundleOf, List.filterMap_map, Function.comp_def]
  exact congrFun List.filterMap_eq_map' is

/-- No member is a TRAP and none a CPYW: nothing is left after the members. -/
theorem runBundle_plain {xs : Bundle} {s s0 t : State} (ht : xs.legal.find? isTrap = none)
    (hc : xs.legal.filter isCpyw = []) (h : runAll (decide (xs.length = 1)) xs 0 0 0 s = .next t) :
    s.runBundle s0 xs = .next (match t.core.bank.raised with
      | some r => s0.bundleStops r
      | none => t.finish (s.emptySlots xs)) := by
  rw [State.runBundle, h]
  cases hr : t.core.bank.raised with
  | some r => simp only [hr]
  | none => simp only [hr, ht, State.armTrap, hc, runWaits]

theorem not_isTrap_legal {is : List (Nat × Instr)} (h : ∀ x ∈ is, isTrap x.2 = false) :
    (bundleOf is).legal.find? isTrap = none := by
  rw [legal_bundleOf, List.find?_eq_none, List.forall_mem_map]
  exact fun x hx => Bool.eq_false_iff.mp (h x hx)

theorem not_isCpyw_legal {is : List (Nat × Instr)} (h : ∀ x ∈ is, isCpyw x.2 = false) :
    (bundleOf is).legal.filter isCpyw = [] := by
  rw [legal_bundleOf, List.filter_eq_nil_iff, List.forall_mem_map]
  exact fun x hx => Bool.eq_false_iff.mp (h x hx)

/-- A member that raises a cause ends the run of the members. -/
theorem runAll_raised {alone : Bool} {y : Nat × Instr} {zs : List (Nat × Instr)} {n v c : Nat} {t w : State} {r : Raised}
    (hp : isCpyw y.2 = false ∧ isTrap y.2 = false ∧ isEret y.2 = false)
    (h : exec y.2 (t.setBank { t.core.bank with sub := n, vslot := v, cslot := c }) = .next w)
    (hr : w.core.bank.raised = some r) : runAll alone (bundleOf (y :: zs)) n v c t = .next w := by
  obtain ⟨hc, ht, he⟩ := hp
  simp only [bundleOf, List.map_cons, runAll, runOne_plain _ hc ht (.inl he), h, hr, Option.isSome_some, if_true]

/-! ### Drift turns -/

/-- R31: a turn of a thread that fetches a legal instruction is exec of it. -/
theorem driftTurn_runs {s : State} {n k after : Nat} {i : Instr} {t : State}
    (h : State.driftNext { s with agent := .drift n } n = .run k (.ok i) after)
    (ht : exec i (State.setThread { s with agent := .drift n }
      { State.thread { s with agent := .drift n } with next := BitVec.ofNat 64 after, byBranch := false }) = .next t) :
    s.driftTurn n = .next (t.driftOver n) := by
  simp only [State.driftTurn, h, State.driftRun, ht]

/-- Settles O56, clause by clause: the agenda's turns by the definition, a bundle by the run of its members in word
order, a thread's turn by what it fetches. -/
theorem stepRunsDecoded : Obligations.StepRunsDecoded := by
  refine ⟨fun s i ts ha hf => ⟨fun hw => ?_, fun c hw => ?_⟩, fun s c ts ha hf hc => ?_, ?_, ?_, ?_⟩
  · simp only [step, ha, State.turn, hf, Bool.false_and, Bool.false_eq_true, if_false, hw]
  · simp only [step, ha, State.turn, hf, Bool.false_and, Bool.false_eq_true, if_false, hw]
  · simp only [step, ha, State.turn, hf, Bool.false_eq_true, if_false, if_neg (Nat.not_le.mpr hc)]
  · intro s i w w1 ws next ha hf hag hsw hrun hst hg hres hpre hirq hker u b hw hr hfetch henc hi xs v hbf hnc hnt t ht
    have hd := decodeBundle_one hi henc
    have hall : runAll (decide (xs.length = 1)) xs 0 0 0 v = .next t := by
      simp only [runAll, runOne_plain (alone := true) _ hnc hnt (.inr rfl), xs, List.length_singleton, decide_true, ht,
        ite_self]
    exact (step_free ha hf ⟨hag, hsw, hrun, hst, hg, hres, hpre, hirq, hker⟩).trans
      ((issue_runs hw hfetch hd hr hbf).trans
        (runBundle_plain (not_isTrap_legal (is := [((classOf w).toNat, i)]) (by simpa using hnt))
          (not_isCpyw_legal (is := [((classOf w).toNat, i)]) (by simpa using hnc)) hall))
  · intro s ws next is ha hf hag hsw hrun hst hg hres hpre hirq hker u b hw hr hfetch xs hd v
    have hstep := step_free ha hf ⟨hag, hsw, hrun, hst, hg, hres, hpre, hirq, hker⟩
    refine ⟨fun c hc => hstep.trans (issue_stops hw hfetch hd hc), fun hbf hp => ?_⟩
    have hissue := hstep.trans (issue_runs hw hfetch hd hr hbf)
    have htrap := not_isTrap_legal fun x hx => (hp x hx).2.1
    have hcpyw := not_isCpyw_legal fun x hx => (hp x hx).1
    refine ⟨fun t ht => ?_, fun ys y zs t w r his ht hy hraised => ?_⟩
    · have hall := runAll_append (alone := decide (xs.length = 1)) (js := []) hp ht
      rw [List.append_nil] at hall
      refine (hissue.trans (runBundle_plain htrap hcpyw hall)).trans ?_
      rw [execInOrder_raised ht rfl]
    · subst his
      have hfirst := runAll_append (alone := decide (xs.length = 1)) (js := y :: zs) (fun x hx => hp x (by simp [hx])) ht
      simp only [Nat.zero_add] at hfirst
      have hall := hfirst.trans (runAll_raised (hp y (by simp)) hy hraised)
      refine (hissue.trans (runBundle_plain htrap hcpyw hall)).trans ?_
      rw [hraised]
  · intro s n k after i ts ha d hd t ht
    simp only [step, ha, State.turn]
    exact driftTurn_runs hd ht

end Sys2Proof.Machine
end

section
/-! PROOFS. The integer lanes of the vector arithmetic and shifts. -/

namespace Sys2Proof.Machine

/-! ### Lane functions of the integer tags -/

theorem VIn.lane_lt (i : VIn) (n l : Nat) : i.lane n l < 2 ^ tagWidth i.tag := laneAt_lt _ _ _

/-- The wrap of an integer that is a natural number modulo 2^w. -/
theorem wrapTo_eq {w : Nat} {v : Int} {n : Nat} (h : v % (2 ^ w : Int) = (n : Int) % (2 ^ w : Int)) :
    wrapTo w v = n % 2 ^ w := by
  rw [wrapTo, h]
  exact_mod_cast Int.toNat_natCast (n % 2 ^ w)

section
variable {t : Tag} (hf : tagFloat t = false)
include hf

theorem laneAdd_int (r : Rnd) (a b : Nat) : laneAdd t r a b = (a + b) % 2 ^ tagWidth t := by simp [laneAdd, hf]

theorem laneMul_int (r : Rnd) (a b : Nat) : laneMul t r a b = a * b % 2 ^ tagWidth t := by simp [laneMul, hf]

theorem laneSub_int (r : Rnd) {a b : Nat} (hb : b < 2 ^ tagWidth t) :
    laneSub t r a b = (a + 2 ^ tagWidth t - b) % 2 ^ tagWidth t := by
  simp only [laneSub, hf, Bool.false_eq_true, if_false]
  refine wrapTo_eq ?_
  rw [show ((a + 2 ^ tagWidth t - b : Nat) : Int) = (a : Int) - b + 2 ^ tagWidth t by
    rw [Nat.cast_sub (by omega)]; push_cast; ring, Int.add_emod_right]

theorem laneMin_int (a b : Nat) : laneMin t a b = if laneInt t a ≤ laneInt t b then a else b := by
  simp only [laneMin, hf, Bool.false_eq_true, if_false, ← not_lt, ite_not]

theorem laneMax_int (a b : Nat) : laneMax t a b = if laneInt t b ≤ laneInt t a then a else b := by
  simp only [laneMax, hf, Bool.false_eq_true, if_false, ← not_lt, ite_not]
end

section
variable {t : Tag} (hn : tagFmt t = none)
include hn

theorem laneNeg_int {x : Nat} (hx : x < 2 ^ tagWidth t) : laneNeg t x = (2 ^ tagWidth t - x) % 2 ^ tagWidth t := by
  simp only [laneNeg, hn]
  refine wrapTo_eq ?_
  rw [Nat.cast_sub hx.le, Nat.cast_pow, Nat.cast_ofNat, Int.sub_eq_add_neg, Int.add_comm, Int.add_emod_right]

/-- R382: the magnitude of an integer lane: a signed lane whose top bit is set is negated. -/
theorem laneAbs_int (hw : 0 < tagWidth t) {x : Nat} (hx : x < 2 ^ tagWidth t) :
    laneAbs t x % 2 ^ tagWidth t =
      (if tagSigned t = true ∧ 2 ^ (tagWidth t - 1) ≤ x then 2 ^ tagWidth t - x else x) % 2 ^ tagWidth t := by
  simp only [laneAbs, hn]
  by_cases hs : tagSigned t = true
  · have hhalf : 2 ^ tagWidth t = 2 * 2 ^ (tagWidth t - 1) := by
      rw [← pow_succ', Nat.sub_add_cancel hw]
    have hint : laneInt t x = if 2 ^ (tagWidth t - 1) ≤ x then (x : Int) - (2 ^ tagWidth t : Nat) else x := by
      rw [laneInt, if_pos hs, signedOf, BitVec.toInt_ofNat', Int.bmod_def,
        Int.emod_eq_of_lt (Int.natCast_nonneg x) (Int.ofNat_lt.mpr hx)]
      split <;> split <;> omega
    rw [if_pos hs, wrapTo_eq rfl, Nat.mod_mod, hint]
    split
    · rw [if_pos ⟨hs, ‹_›⟩, show ((x : Int) - (2 ^ tagWidth t : Nat)).natAbs = 2 ^ tagWidth t - x by omega]
    · rw [if_neg (fun h => absurd h.2 ‹_›), Int.natAbs_natCast]
  · rw [if_neg hs, if_neg (fun h => hs h.1)]
end

/-! ### Instructions on integer lanes -/

/-- Lanes of the same value at the tag's width are the same lanes. -/
theorem State.vGives.congr {s : State} {i : Instr} {o : VOp} {n lat : Nat} {t : Tag} {k : VBits} {f g : Nat → Nat}
    (h : s.vGives i o n lat t k f) (hfg : ∀ l < tagLanes t, f l % 2 ^ tagWidth t = g l % 2 ^ tagWidth t) :
    s.vGives i o n lat t k g := by
  obtain ⟨bits, hi, hl⟩ := h
  exact ⟨bits, hi, fun l hl' => (hl l hl').trans (hfg l hl')⟩

/-- R54: tags that agree on one that the instruction accepts, MASK apart. -/
theorem VIn.ok_of {i : VIn} {accept : Tag → Bool} (ha : i.agree = true) (ht : accept i.tag = true) (hm : i.tag ≠ 13) :
    i.ok accept = true := by
  rw [VIn.ok, ha, ht, beq_false_of_ne hm, Bool.and_false]
  rfl

/-- Settles O20, by the lane function of each instruction on an integer tag. -/
theorem vectorIntegerLanes : Obligations.VectorIntegerLanes := by
  intro o s
  refine ⟨fun h ht ha hk => ?_, fun h ht ha hk => ?_⟩
  · obtain ⟨hw, -, hm, hf, -⟩ := tagInt_width ht
    have hint : (s.vIn o 2).ok tagInt = true := VIn.ok_of ha ht hm
    have harith : (s.vIn o 2).ok tagArith = true := VIn.ok_of ha (by simp [tagArith, ht]) hm
    have gives {lat : Nat} {accept : Tag → Bool} {f : Tag → Nat → Nat → Nat} {i : Instr}
        (hi : exec i s = s.v2 o lat accept f) (hok : (s.vIn o 2).ok accept = true) :=
      State.v2_gives hi h hw hok hk
    refine ⟨?_, ?_, ?_, ?_, ?_, ?_, ?_, ?_⟩
    · refine (gives (f := fun t => laneAdd t (rndOf o.rnd)) rfl harith).congr fun l _ => ?_
      simp only [laneAdd_int hf, Nat.mod_mod]
    · refine (gives (f := fun t => laneSub t (rndOf o.rnd)) rfl harith).congr fun l _ => ?_
      simp only [laneSub_int hf _ (VIn.lane_lt _ _ _), Nat.mod_mod]
    · refine (gives (f := fun t => laneMul t (rndOf o.rnd)) rfl harith).congr fun l _ => ?_
      simp only [laneMul_int hf, Nat.mod_mod]
    · exact (gives (f := laneMin) rfl harith).congr fun l _ => congrArg (· % _) (laneMin_int hf _ _)
    · exact (gives (f := laneMax) rfl harith).congr fun l _ => congrArg (· % _) (laneMax_int hf _ _)
    · exact (gives (f := fun t a b => a * 2 ^ (b % tagWidth t) % 2 ^ tagWidth t) rfl hint).congr
        fun l _ => Nat.mod_mod _ _
    · exact gives (f := fun t a b => a / 2 ^ (b % tagWidth t)) rfl hint
    · exact gives (f := fun t a b => laneSar (tagWidth t) a (b % tagWidth t)) rfl hint
  · obtain ⟨hw, -, hm, -, hn⟩ := tagInt_width ht
    have harith : (s.vIn o 1).ok tagArith = true := VIn.ok_of ha (by simp [tagArith, ht]) hm
    refine ⟨?_, ?_⟩
    · refine (State.v1_gives (f := laneNeg) rfl h hw harith hk).congr fun l _ => ?_
      simp only [laneNeg_int hn (VIn.lane_lt _ _ _), Nat.mod_mod]
    · exact (State.v1_gives (f := laneAbs) rfl h hw harith hk).congr fun l _ =>
        laneAbs_int hn hw (VIn.lane_lt _ _ _)

end Sys2Proof.Machine
end

section
/-! PROOFS. The floating lanes: exact results rounded once. -/

namespace Sys2Proof.Machine

/-! ### Rounding to an integral value (R398) -/

/-- R57: a mode rounds a quotient q with remainder rem of a division by d up in magnitude. -/
def Rnd.roundsUp (r : Rnd) (neg : Bool) (d q rem : Nat) : Prop :=
  match r with
  | .rne => d < 2 * rem ∨ (2 * rem = d ∧ q % 2 = 1)
  | .rtz => False
  | .rdn => neg = true ∧ rem ≠ 0
  | .rup => neg = false ∧ rem ≠ 0

section
variable {r : Rnd} {neg : Bool} {m : Nat} {e : Int} (he : e < 0)
include he

theorem roundScaled_up (h : r.roundsUp neg (2 ^ (-e).toNat) (m / 2 ^ (-e).toNat) (m % 2 ^ (-e).toNat)) :
    roundScaled r neg m e = m / 2 ^ (-e).toNat + 1 := by
  rw [roundScaled, if_neg (by omega)]
  cases r with
  | rtz => exact h.elim
  | rne | rdn | rup => exact if_pos (by simpa [Rnd.roundsUp] using h)

theorem roundScaled_down (h : ¬r.roundsUp neg (2 ^ (-e).toNat) (m / 2 ^ (-e).toNat) (m % 2 ^ (-e).toNat)) :
    roundScaled r neg m e = m / 2 ^ (-e).toNat := by
  rw [roundScaled, if_neg (by omega)]
  cases r with
  | rtz => exact if_neg Bool.false_ne_true
  | rne | rdn | rup => exact if_neg (by simpa [Rnd.roundsUp] using h)
end

/-- R398: the integral value of a code by its value. -/
theorem integralF_cases (f : FFmt) (r : Rnd) (x : Nat) :
    (decodeF f x = .nan → integralF f r x = f.nanCode) ∧ (∀ neg, decodeF f x = .inf neg → integralF f r x = x) ∧
    ∀ neg m e, decodeF f x = .fin neg m e → (0 ≤ e → integralF f r x = x) ∧
      (e < 0 → integralF f r x = encodeF f r false (.fin neg (roundScaled r neg m e) 0)) := by
  refine ⟨fun h => ?_, fun neg h => ?_, fun neg m e h => ⟨fun he => ?_, fun he => ?_⟩⟩
  · simp only [integralF, h]
  · simp only [integralF, h]
  · simp only [integralF, h, if_pos he]
  · simp only [integralF, h, if_neg (not_le.mpr he), encodeF]

/-! ### Lane functions of the floating tags -/

/-- A floating tag is no mask and has a width. -/
theorem tagFloat_width {t : Tag} (h : tagFloat t = true) : 0 < tagWidth t ∧ t ≠ 13 ∧ tagArith t = true := by
  revert t; decide

section
variable {t : Tag} {f : FFmt} (hf : tagFmt t = some f)
include hf

theorem floatOp_fmt (r : Rnd) (g : FVal → FVal → FVal) (a b : Nat) :
    floatOp t r g a b = encodeF f r false (g (decodeF f a) (decodeF f b)) := by simp only [floatOp, hf]

theorem laneFma_fmt (r : Rnd) (np nc : Bool) (a b c : Nat) :
    laneFma t r np nc a b c = encodeF f r false (FVal.add r
      (if np then ((decodeF f a).mul (decodeF f b)).neg else (decodeF f a).mul (decodeF f b))
      (if nc then (decodeF f c).neg else decodeF f c)) := by simp only [laneFma, hf]

theorem laneAbs_fmt (x : Nat) : laneAbs t x = if decodeF f x = .nan then f.nanCode else x % 2 ^ f.signPos := by
  simp only [laneAbs, hf]
  cases decodeF f x <;> simp

theorem laneNeg_fmt (x : Nat) :
    laneNeg t x = if decodeF f x = .nan then f.nanCode else (x + 2 ^ f.signPos) % 2 ^ (f.signPos + 1) := by
  simp only [laneNeg, hf]
  cases decodeF f x <;> simp
end

/-- The lane function of an arithmetic instruction on a floating tag. -/
theorem floatLane {t : Tag} {f : FFmt} (ht : tagFloat t = true) (hf : tagFmt t = some f) (r : Rnd)
    (g : FVal → FVal → FVal) (other : Nat) (a b : Nat) :
    (if tagFloat t then floatOp t r g a b else other) = encodeF f r false (g (decodeF f a) (decodeF f b)) :=
  (if_pos ht).trans (floatOp_fmt hf r g a b)

/-- Settles O21: VRND's rounding by the sign of the exponent, and the lane function of each instruction on a floating
tag. -/
theorem vectorFloatLanes : Obligations.VectorFloatLanes := by
  refine ⟨fun f r x => ?_, fun o s f => ⟨fun n hn h hf ht ha hk => ?_, fun h hf ht ha hk => ?_⟩⟩
  · obtain ⟨hnan, hinf, hfin⟩ := integralF_cases f r x
    refine ⟨hnan, hinf, fun neg m e h => ⟨(hfin neg m e h).1, fun he => ⟨fun hup => ?_, fun hdown => ?_⟩⟩⟩
    · rw [(hfin neg m e h).2 he, roundScaled_up he hup]
    · rw [(hfin neg m e h).2 he, roundScaled_down he hdown]
  · obtain ⟨hw, hm, har⟩ := tagFloat_width ht
    refine ⟨?_, ?_⟩
    · rintro rfl
      have gives {lat : Nat} {g : Tag → Nat → Nat → Nat} {i : Instr} (hi : exec i s = s.v2 o lat tagArith g) :=
        State.v2_gives hi h hw (VIn.ok_of ha har hm) hk
      exact ⟨(gives (g := fun t => laneAdd t (rndOf o.rnd)) rfl).congr fun l _ => congrArg (· % _) (floatLane ht hf ..),
        (gives (g := fun t => laneSub t (rndOf o.rnd)) rfl).congr fun l _ => congrArg (· % _) (floatLane ht hf ..),
        (gives (g := fun t => laneMul t (rndOf o.rnd)) rfl).congr fun l _ => congrArg (· % _) (floatLane ht hf ..),
        (gives (g := laneMin) rfl).congr fun l _ => congrArg (· % _) (floatLane ht hf ..),
        (gives (g := laneMax) rfl).congr fun l _ => congrArg (· % _) (floatLane ht hf ..)⟩
    · rintro rfl
      have gives {np nc : Bool} {i : Instr}
          (hi : exec i s = s.v3 o 4 tagFloat fun t => laneFma t (rndOf o.rnd) np nc) :=
        (State.v3_gives hi h hw (VIn.ok_of ha ht hm) hk).congr
          fun l _ => congrArg (· % _) (laneFma_fmt hf (rndOf o.rnd) np nc _ _ _)
      exact ⟨gives (np := false) (nc := false) rfl, gives (np := false) (nc := true) rfl, gives (np := true) (nc := false) rfl⟩
  · obtain ⟨hw, hm, har⟩ := tagFloat_width ht
    refine ⟨?_, ?_, ?_⟩
    · refine (State.v1_gives (f := fun t x => match tagFmt t with
        | some f => integralF f (rndOf o.rnd) x
        | none => x) rfl h hw (VIn.ok_of ha ht hm) hk).congr fun l _ => ?_
      simp only [hf]
    · exact (State.v1_gives (f := laneAbs) rfl h hw (VIn.ok_of ha har hm) hk).congr
        fun l _ => congrArg (· % _) (laneAbs_fmt hf _)
    · exact (State.v1_gives (f := laneNeg) rfl h hw (VIn.ok_of ha har hm) hk).congr
        fun l _ => congrArg (· % _) (laneNeg_fmt hf _)

end Sys2Proof.Machine
end

section
/-! PROOFS. The bitwise, move, select, tag and generator vector instructions. -/

namespace Sys2Proof.Machine

/-! ### Lanes of a result built from a list -/

/-- A lane of a result of tag t built from lanes. -/
theorem laneAt_ofLanes_tag {t : Tag} (xs : List Nat) {l : Nat} (hl : l < tagLanes t) :
    laneAt (tagWidth t) (ofLanes (tagWidth t) xs) l = xs.getD l 0 % 2 ^ tagWidth t := by
  have hw : 0 < tagWidth t := by
    by_contra h
    rw [tagLanes, if_pos (Nat.eq_zero_of_not_pos h)] at hl
    exact absurd hl (Nat.not_lt_zero l)
  rw [tagLanes_eq hw] at hl
  exact laneAt_ofLanes _ hw (tagWidth_dvd t hw) xs l hl

/-- The same of lanes that a function of their number gives. -/
theorem laneAt_ofLanes_range {t : Tag} (f : Nat → Nat) {n l : Nat} (hl : l < tagLanes t) (hn : l < n) :
    laneAt (tagWidth t) (ofLanes (tagWidth t) ((List.range n).map f)) l = f l % 2 ^ tagWidth t := by
  rw [laneAt_ofLanes_tag _ hl]
  simp [List.getD, hn]

theorem tagAny_width {t : Tag} (h : tagAny t = true) : 0 < tagWidth t := by revert t; decide

theorem VIn.ok_accept {i : VIn} {accept : Tag → Bool} (h : i.ok accept = true) : accept i.tag = true := by
  simp only [VIn.ok, Bool.and_eq_true] at h
  exact h.1.2

/-- An instruction that reads no source holds none. -/
theorem State.vHeld_zero (s : State) (o : VOp) : s.vHeld o 0 = s := rfl

theorem State.vIn_zero_lost (s : State) (o : VOp) : (s.vIn o 0).lost = false := rfl

/-! ### The instructions -/

section
variable {s : State} {o : VOp}

/-- R384: a bitwise instruction completes with the function of its sources. -/
theorem State.vlogic_next (f : VBits → VBits → VBits) (h : s.vReady o 2 0) (ht : (s.vIn o 2).ok tagAny = true)
    (hk : kmOk o.km (s.vIn o 2).tag (s.vIn o 2).tag = true) :
    s.vlogic o f = .next ((s.vHeld o 2).vput 2 o (s.vIn o 2).tag (f ((s.vIn o 2).x 0) ((s.vIn o 2).x 1))
      (s.core.bank.mask o.km) (s.vLost o 2)) := by
  rw [State.vlogic, State.vlanes_next (out := id) h hk ht]
  rfl

theorem vmov_next (h : s.vReady o 1 0) (ht : (s.vIn o 1).ok tagAny = true)
    (hk : kmOk o.km (s.vIn o 1).tag (s.vIn o 1).tag = true) :
    exec (.vmov o) s = .next ((s.vHeld o 1).vput 2 o (s.vIn o 1).tag ((s.vIn o 1).x 0) (s.core.bank.mask o.km)
      (s.vLost o 1)) := by
  change execVmov o s = _
  rw [execVmov, State.vlanes_next (out := id) h hk ht]
  rfl

theorem vbcast_gives (h : s.vReady o 1 0) (ht : (s.vIn o 1).ok tagAny = true)
    (hk : kmOk o.km (s.vIn o 1).tag (s.vIn o 1).tag = true) :
    s.vGives (.vbcast o) o 1 2 (s.vIn o 1).tag (s.core.bank.mask o.km) fun _ => (s.vIn o 1).lane 0 0 := by
  refine ⟨ofLanes (tagWidth (s.vIn o 1).tag) (List.replicate (tagLanes (s.vIn o 1).tag) ((s.vIn o 1).lane 0 0)), ?_,
    fun l hl => ?_⟩
  · change execVbcast o s = _
    rw [execVbcast, State.vlanes_next (out := id) h hk ht]
    rfl
  · rw [laneAt_ofLanes_tag _ hl]
    simp [List.getD, hl]

theorem viota_next (h : s.vReady o 0 0) :
    exec (.viota o) s = .next (s.vput 2 o 11 (ofLanes 32 (List.range 64)) (s.core.bank.mask o.km) 0) := by
  change execViota o s = _
  rw [execViota, State.vrun_next h rfl rfl]
  rfl

theorem vsel_gives (h : s.vReady o 2 0) (ht : (s.vIn o 2).ok tagAny = true)
    (hk : (s.vIn o 2).tag = 13 → o.km = 0) :
    s.vGives (.vsel o) o 2 2 (s.vIn o 2).tag (BitVec.allOnes 2048) fun l =>
      if (s.core.bank.mask o.km).getLsbD l then (s.vIn o 2).lane 0 l else (s.vIn o 2).lane 1 l := by
  have hkm : ((s.vIn o 2).tag != 13 || o.km == 0) = true := by
    rw [Bool.or_eq_true, bne_iff_ne, beq_iff_eq]
    exact (em _).symm.imp id hk
  refine ⟨mergeBits (tagWidth (s.vIn o 2).tag) (s.core.bank.mask o.km) ((s.vIn o 2).x 0) ((s.vIn o 2).x 1), ?_,
    fun l hl => ?_⟩
  · change execVsel o s = _
    rw [execVsel, State.vrun_next h hkm ht, State.vHeld_mask]
    rfl
  · have hw := tagAny_width (VIn.ok_accept ht)
    exact laneAt_ofLanes_range _ hl (by rwa [tagLanes_eq hw] at hl)

theorem vtag_next (h : s.vReady o 1 0) (ht : ¬((s.vIn o 1).scalar = true ∧ (s.vIn o 1).tag = 13)) :
    exec (.vtag o) s = .next ((s.vHeld o 1).vput 3 o (o.c.setWidth 4) ((s.vIn o 1).x 0) (BitVec.allOnes 2048)
      (s.vLost o 1)) := by
  change execVtag o s = _
  rw [execVtag, State.vrun_next h rfl
    (by rw [Bool.not_eq_true', ← Bool.not_eq_true, Bool.and_eq_true, beq_iff_eq]; exact ht)]
  rfl

/-- R97: the lanes of a generator, elements of a row from a column on or of a column from a row on. -/
def State.genLanes (s : State) (o : VOp) (l : Nat) : Nat :=
  let g := s.core.bank.gen (o.c.toNat % 8)
  let row := (s.bcastVal o.a).toNat % 2 ^ 32
  let col := (s.bcastVal o.b).toNat % 2 ^ 32
  if 8 ≤ o.c.toNat then genElem g s.streamKey (col + l) row else genElem g s.streamKey row (col + l)

theorem vgen_next (h : s.vReady o 0 0) :
    let t := genTag (s.core.bank.gen (o.c.toNat % 8))
    exec (.vgen o) s = .next (s.vput 6 o t (ofLanes (tagWidth t) ((List.range (tagLanes t)).map (s.genLanes o)))
      (s.core.bank.mask o.km) 0) := by
  intro t
  change execVgen o s = _
  rw [execVgen, State.vrun_next h rfl rfl]
  rfl
end

/-- Settles O22, one instruction a clause. -/
theorem vectorLogicMovesGenerator : Obligations.VectorLogicMovesGenerator := by
  refine ⟨fun o s => ⟨fun h ht hk => ?_, fun h ht hk => ?_, fun h => ?_, fun h ht hk => vsel_gives h ht hk,
    fun h ht => vtag_next h ht⟩, fun o s h => ?_⟩
  · exact ⟨State.vlogic_next _ h ht hk, State.vlogic_next _ h ht hk, State.vlogic_next _ h ht hk⟩
  · exact ⟨vmov_next h ht hk, vbcast_gives h ht hk⟩
  · refine ⟨_, viota_next h, fun l hl => ?_⟩
    rw [laneAt_ofLanes 32 (by decide) (by decide) _ l hl]
    simp [List.getD, hl]
    omega
  · exact ⟨_, vgen_next h, fun l hl => laneAt_ofLanes_range _ hl hl⟩

end Sys2Proof.Machine
end

section
/-! PROOFS. Vector compares, classes, counts, hash and lane permutations. -/

namespace Sys2Proof.Machine

/-! ### Lanes of a result -/

theorem tagLanes_pos {t : Tag} {l : Nat} (hl : l < tagLanes t) : 0 < tagWidth t := by
  by_contra h
  rw [tagLanes, if_pos (Nat.eq_zero_of_not_pos h)] at hl
  exact absurd hl (Nat.not_lt_zero l)

/-- An instruction whose result is built from a list of lanes. -/
theorem State.vGives.of_lanes {s : State} {i : Instr} {o : VOp} {n lat : Nat} {t : Tag} {k : VBits} {f : Nat → Nat}
    {xs : List Nat}
    (h : exec i s = .next ((s.vHeld o n).vput lat o t (ofLanes (tagWidth t) xs) k (s.vLost o n)))
    (hl : ∀ l < tagLanes t, xs.getD l 0 = f l) : s.vGives i o n lat t k f :=
  ⟨_, h, fun l hl' => by rw [laneAt_ofLanes_tag _ hl', hl l hl']⟩

/-! ### VCMP's mask -/

/-- A V instruction without a vector destination, whose mask and tags its entry accepts, finishes. -/
theorem State.vrun_reads {s : State} {o : VOp} {n more : Nat} {km tags : VIn → Bool} {fin : VIn → State → State}
    (h : s.vReads o n) (h1 : km (s.vIn o n) = true) (h2 : tags (s.vIn o n) = true) :
    s.vrun o n more false km tags fin = .next (fin (s.vIn o n) (s.vHeld o n)) := by
  obtain ⟨⟨ha, hg⟩, hs, hl, hm⟩ := h
  simp only [State.vIn] at h1 h2 hl hm
  have hm' : (o.km != 0 && (s.core.bank.vread s.core.bank.vslot (vfields o n)).anyMask) = false := by
    rcases hm with h | h <;> simp [h]
  have hl' : ((s.core.bank.vread s.core.bank.vslot (vfields o n)).lost && s.core.bank.status.debug) = false := by
    rcases hl with h | h <;> simp [h]
  simp only [State.vrun, State.primaryOnly, ha, hg, if_true, hs, h1, h2, hm', hl', Bool.not_true, Bool.false_and,
    Bool.or_false, Bool.false_eq_true, if_false]
  rfl

theorem testBit_bitsNat (xs : List Bool) (l : Nat) : (bitsNat xs).testBit l = xs.getD l false := by
  induction xs generalizing l with
  | nil => simp [bitsNat]
  | cons x xs ih =>
    cases l with
    | zero => cases x <;> simp [bitsNat, Nat.testBit_zero, Nat.add_mod]
    | succ l => rw [Nat.testBit_succ, List.getD_cons_succ, ← ih l]; congr 1; rw [bitsNat]; split <;> omega

/-- A bit of a mask built from tests, within the register. -/
theorem getLsbD_laneTest (xs : List Bool) {l : Nat} (hl : l < 2048) : (laneTest xs).getLsbD l = xs.getD l false := by
  rw [laneTest, BitVec.getLsbD_ofNat, decide_eq_true hl, Bool.true_and, testBit_bitsNat]

/-- R387: the bit of a lane in VCMP's mask is its test. -/
theorem getLsbD_laneCmp {w : Nat} (f : Nat → Nat → Bool) (a b : VBits) {l : Nat} (hl : l < 2048 / w) :
    (laneTest (List.zipWith f (lanesOf w a) (lanesOf w b))).getLsbD l = f (laneAt w a l) (laneAt w b l) := by
  rw [getLsbD_laneTest _ (lt_of_lt_of_le hl (Nat.div_le_self _ _))]
  simp [List.getD, lanesOf, hl]

section
variable {s : State} {o : VOp}

theorem vcmp_next (h : s.vReads o 2) (ht : (s.vIn o 2).ok tagArith = true)
    (hk : kmOk o.km (s.vIn o 2).tag (s.vIn o 2).tag = true) :
    ∃ bits, exec (.vcmp o) s = .next ((s.vHeld o 2).setBank ((s.vHeld o 2).core.bank.addPend 2
        (.k o.vd.toNat bits (s.core.bank.mask o.km) (2048 / tagWidth (s.vIn o 2).tag)) 4 (s.vLost o 2))) ∧
      ∀ l < 2048 / tagWidth (s.vIn o 2).tag,
        bits.getLsbD l = laneCmp (s.vIn o 2).tag o.c.toNat ((s.vIn o 2).lane 0 l) ((s.vIn o 2).lane 1 l) := by
  refine ⟨_, ?_, fun l hl => getLsbD_laneCmp (laneCmp (s.vIn o 2).tag o.c.toNat) ((s.vIn o 2).x 0)
    ((s.vIn o 2).x 1) hl⟩
  change execVcmp o s = _
  rw [execVcmp, State.vrun_reads h hk ht]
  simp only [State.vHeld_mask]
  rfl

/-! ### VCLASS, VPOPC and VHASH -/

theorem vclass_gives (h : s.vReady o 1 0) (ht : (s.vIn o 1).ok tagFloat = true)
    (hk : kmOk o.km (s.vIn o 1).tag (if (s.vIn o 1).tag = 1 then 11 else 10) = true) :
    s.vGives (.vclass o) o 1 3 (if (s.vIn o 1).tag = 1 then 11 else 10) (s.core.bank.mask o.km)
      fun l => laneClass (s.vIn o 1).tag ((s.vIn o 1).lane 0 l) := by
  have tags : ∀ t : Tag, tagFloat t = true →
      (if t == 1 then (11 : Tag) else if t == 2 then 10 else t) = (if t = 1 then 11 else 10) ∧
      tagWidth (if t = 1 then 11 else 10) = tagWidth t ∧ tagLanes (if t = 1 then 11 else 10) = tagLanes t := by decide
  obtain ⟨hout, hwidth, hlanes⟩ := tags _ (VIn.ok_accept ht)
  have hk' := hk
  rw [← hout] at hk'
  refine ⟨map1 (s.vIn o 1).tag (laneClass (s.vIn o 1).tag) ((s.vIn o 1).x 0), ?_, fun l hl => ?_⟩
  · change execVclass o s = _
    rw [execVclass, State.vlanes_next (out := fun t => if t == 1 then 11 else if t == 2 then 10 else t) h hk' ht, hout]
    rfl
  · rw [hlanes] at hl
    rw [hwidth]
    exact map1_lane (tagFloat_width (VIn.ok_accept ht)).1 _ _ l hl

/-- R190: what VPOPC gives for a tag that it accepts. -/
theorem vpopc_next (h : s.vReady o 1 0) (ht : (s.vIn o 1).ok (fun t => tagInt t || t == 13) = true)
    (hk : kmOk o.km (s.vIn o 1).tag (if (s.vIn o 1).tag == 13 then 11 else (s.vIn o 1).tag) = true) :
    exec (.vpopc o) s = .next ((s.vHeld o 1).vput 3 o (if (s.vIn o 1).tag == 13 then 11 else (s.vIn o 1).tag)
      (if (s.vIn o 1).tag == 13 then BitVec.ofNat 2048 (popCount ((s.vIn o 1).x 0).toNat 2048)
        else map1 (s.vIn o 1).tag (fun x => popCount x (tagWidth (s.vIn o 1).tag)) ((s.vIn o 1).x 0))
      (s.core.bank.mask o.km) (s.vLost o 1)) := by
  change execVpopc o s = _
  rw [execVpopc, State.vlanes_next (out := fun t => if t == 13 then 11 else t) h hk ht]
  cases (s.vIn o 1).tag == 13 <;> rfl

theorem VIn.ok_mono {i : VIn} {f g : Tag → Bool} (h : i.ok f = true) (hfg : ∀ t, f t = true → g t = true) :
    i.ok g = true := by
  simp only [VIn.ok, Bool.and_eq_true] at h ⊢
  exact ⟨⟨h.1.1, hfg _ h.1.2⟩, h.2⟩

theorem vpopc_int (h : s.vReady o 1 0) (ht : (s.vIn o 1).ok tagInt = true)
    (hk : kmOk o.km (s.vIn o 1).tag (s.vIn o 1).tag = true) :
    s.vGives (.vpopc o) o 1 3 (s.vIn o 1).tag (s.core.bank.mask o.km)
      fun l => popCount ((s.vIn o 1).lane 0 l) (tagWidth (s.vIn o 1).tag) := by
  obtain ⟨hw, -, hm, -⟩ := tagInt_width (VIn.ok_accept ht)
  have h13 : ((s.vIn o 1).tag == 13) = false := beq_false_of_ne hm
  have hnext := vpopc_next h (VIn.ok_mono ht fun t h => by simp [h]) (by rw [h13]; exact hk)
  rw [h13] at hnext
  exact ⟨_, hnext, fun l hl => map1_lane hw _ _ l hl⟩

theorem vpopc_mask (h : s.vReady o 1 0) (ht : (s.vIn o 1).ok (· == 13) = true) (hk : o.km = 0) :
    exec (.vpopc o) s = .next ((s.vHeld o 1).vput 3 o 11
      (BitVec.ofNat 2048 (popCount ((s.vIn o 1).x 0).toNat 2048)) (s.core.bank.mask o.km) (s.vLost o 1)) := by
  have h13 : ((s.vIn o 1).tag == 13) = true := VIn.ok_accept (accept := (· == 13)) ht
  have hnext := vpopc_next h (VIn.ok_mono ht fun t h => by rw [h, Bool.or_true]) (by simp [kmOk, hk])
  rw [h13] at hnext
  exact hnext

/-! ### Permutations (R396) -/

theorem bcastVal_bcast {f : BitVec 10} {n : BitVec 6} (h : vsrc f = .bcast n.toNat) :
    s.bcastVal f = s.core.bank.sreg n := by
  simp only [State.bcastVal, h, Bank.sregN, BitVec.ofNat_toNat, BitVec.setWidth_eq]

theorem vperm_gives (h : s.vReady o 2 0) (hk : kmOk o.km ((s.vIn o 2).tagOf 0) ((s.vIn o 2).tagOf 0) = true)
    (hd : tagData ((s.vIn o 2).tagOf 0) = true) (hne : (s.vIn o 2).tagOf 0 ≠ 12)
    (hb : (s.vIn o 2).isPlain 1 = true ∨
      (tagNat ((s.vIn o 2).tagOf 1) = true ∧ tagWidth ((s.vIn o 2).tagOf 1) = tagWidth ((s.vIn o 2).tagOf 0))) :
    let i := s.vIn o 2
    let w := tagWidth (i.tagOf 0)
    s.vGives (.vperm o) o 2 4 (i.tagOf 0) (s.core.bank.mask o.km)
      fun l => if laneAt w (i.x 1) l < 2048 / w then laneAt w (i.x 0) (laneAt w (i.x 1) l) else 0 := by
  intro i w
  have htags : (tagData (i.tagOf 0) && i.tagOf 0 != 12 &&
      (i.isPlain 1 || (tagNat (i.tagOf 1) && tagWidth (i.tagOf 1) == tagWidth (i.tagOf 0)))) = true := by
    simp only [Bool.and_eq_true, bne_iff_ne, Bool.or_eq_true, beq_iff_eq]
    exact ⟨⟨hd, hne⟩, hb⟩
  refine State.vGives.of_lanes (xs := (lanesOf w (i.x 1)).map fun n => if n < 2048 / w then laneAt w (i.x 0) n else 0)
    ?_ fun l hl => ?_
  · change execVperm o s = _
    rw [execVperm, State.vrun_next h hk htags, State.vHeld_mask]
    rfl
  · simp [lanesOf, lt_of_lt_of_eq hl (tagLanes_eq (tagLanes_pos hl)), w]

/-- R396: a source beside a broadcast: VSLIDE moves its lanes by the scalar's signed low word. -/
theorem vslide_gives {n : BitVec 6} (h : s.vReady o 2 0) (hb : vsrc o.b = .bcast n.toNat)
    (hk : kmOk o.km (s.vIn o 2).tag (s.vIn o 2).tag = true) (ha : (s.vIn o 2).agree = true)
    (ht : tagAny (s.vIn o 2).tag = true) :
    let i := s.vIn o 2
    let w := tagWidth i.tag
    let c := ((s.core.bank.sreg n).setWidth 32).toInt
    s.vGives (.vslide o) o 2 4 i.tag (s.core.bank.mask o.km)
      fun l => if 0 ≤ l + c ∧ l + c < (2048 / w : Nat) then i.lane 0 (l + c).toNat else 0 := by
  intro i w c
  refine State.vGives.of_lanes (xs := (List.range (2048 / w)).map fun (l : Nat) =>
    let k := (l : Int) + c
    if 0 ≤ k && k < (2048 / w : Nat) then laneAt w (i.x 0) k.toNat else 0) ?_ fun l hl => ?_
  · change execVslide o s = _
    rw [execVslide, State.vrun_next h hk (by rw [ha, ht]; rfl), State.vHeld_mask, bcastVal_bcast hb]
    rfl
  · simp [lt_of_lt_of_eq hl (tagLanes_eq (tagLanes_pos hl)), w, VIn.lane]

theorem vmovs_gives {n : BitVec 6} (h : s.vReady o 2 0) (hb : vsrc o.b = .bcast n.toNat)
    (hk : kmOk o.km (s.vIn o 2).tag (s.vIn o 2).tag = true) (ha : (s.vIn o 2).agree = true)
    (ht : tagData (s.vIn o 2).tag = true) :
    s.vGives (.vmovs o) o 2 4 (s.vIn o 2).tag (s.core.bank.mask o.km)
      fun l => if l = 0 then (s.core.bank.sreg n).toNat else (s.vIn o 2).lane 0 (l - 1) := by
  refine State.vGives.of_lanes (xs := (s.core.bank.sreg n).toNat ::
    (lanesOf (tagWidth (s.vIn o 2).tag) ((s.vIn o 2).x 0)).dropLast) ?_ fun l hl => ?_
  · change execVmovs o s = _
    rw [execVmovs, State.vrun_next h hk (by rw [ha, ht]; rfl), State.vHeld_mask, bcastVal_bcast hb]
    rfl
  · have hl' := lt_of_lt_of_eq hl (tagLanes_eq (tagLanes_pos hl))
    cases l with
    | zero => rfl
    | succ l =>
      rw [List.getD_cons_succ, if_neg (Nat.succ_ne_zero l)]
      simp [List.getD, lanesOf, show l < 2048 / tagWidth (s.vIn o 2).tag - 1 by omega, VIn.lane]

end

/-! ### Tests, classes, counts and the hash, written out -/

/-- The numeric order of two integers as values. -/
theorem ofIntScaled_lt (x y : Int) : (ofIntScaled x 0).lt (ofIntScaled y 0) = decide (x < y) := by
  have signed : ∀ v : Int, signedAt (decide (v < 0)) v.natAbs 0 (min 0 0) = v := by
    intro v
    simp only [signedAt, decide_eq_true_eq, min_self, sub_self, Int.toNat_zero, pow_zero, mul_one]
    split <;> omega
  simp only [FVal.lt, ofIntScaled, signed]

theorem ofIntScaled_eq (x y : Int) : (ofIntScaled x 0).eq (ofIntScaled y 0) = decide (x = y) := by
  have h : (ofIntScaled x 0).eq (ofIntScaled y 0) =
      (!(ofIntScaled x 0).lt (ofIntScaled y 0) && !(ofIntScaled y 0).lt (ofIntScaled x 0)) := rfl
  rw [h, ofIntScaled_lt, ofIntScaled_lt, ← decide_not, ← decide_not, ← Bool.decide_and]
  exact decide_eq_decide.mpr (by omega)

theorem ofIntScaled_ne_nan (x : Int) : (ofIntScaled x 0 == .nan) = false := rfl

/-- R311: the eight tests on integer lanes. -/
theorem laneCmp_int {t : Tag} (ht : tagInt t = true) (a b : Nat) :
    laneCmp t 0 a b = decide (laneInt t a = laneInt t b) ∧ laneCmp t 1 a b = decide (laneInt t a ≠ laneInt t b) ∧
    laneCmp t 2 a b = decide (laneInt t a < laneInt t b) ∧ laneCmp t 3 a b = decide (laneInt t a ≤ laneInt t b) ∧
    laneCmp t 4 a b = decide (laneInt t b < laneInt t a) ∧ laneCmp t 5 a b = decide (laneInt t b ≤ laneInt t a) ∧
    laneCmp t 6 a b = false ∧ laneCmp t 7 a b = true := by
  obtain ⟨-, -, -, hf, -⟩ := tagInt_width ht
  simp only [laneCmp, hf, Bool.false_eq_true, if_false, ofIntScaled_lt, ofIntScaled_eq, ofIntScaled_ne_nan,
    Bool.or_false, Bool.not_false, Bool.true_and, ← decide_not, not_lt, ne_eq, and_self]

theorem FVal.eq_of_ne_nan {x y : FVal} (hx : x ≠ .nan) (hy : y ≠ .nan) : x.eq y = (!x.lt y && !y.lt x) := by
  cases x <;> cases y <;> first | rfl | exact absurd rfl hx | exact absurd rfl hy

theorem FVal.lt_nan {x y : FVal} (h : x = .nan ∨ y = .nan) : x.lt y = false ∧ y.lt x = false ∧ x.eq y = false := by
  rcases h with rfl | rfl
  · cases y <;> exact ⟨rfl, rfl, rfl⟩
  · cases x <;> exact ⟨rfl, rfl, rfl⟩

section
variable {t : Tag} {f : FFmt} (ht : tagFloat t = true) (hf : tagFmt t = some f) (a b : Nat)
include ht hf

/-- R311: the eight tests on floating lanes, one of them NaN. -/
theorem laneCmp_nan (h : decodeF f a = .nan ∨ decodeF f b = .nan) :
    laneCmp t 1 a b = true ∧ laneCmp t 6 a b = true ∧ ∀ c ∈ [0, 2, 3, 4, 5, 7], laneCmp t c a b = false := by
  obtain ⟨hlt, hgt, heq⟩ := FVal.lt_nan h
  have hun : (decodeF f a == .nan || decodeF f b == .nan) = true := by simpa using h
  simp [laneCmp, ht, elemValue, hf, hlt, hgt, heq, hun]

/-- R311: the eight tests on floating lanes, none of them NaN. -/
theorem laneCmp_num (ha : decodeF f a ≠ .nan) (hb : decodeF f b ≠ .nan) :
    let x := decodeF f a
    let y := decodeF f b
    laneCmp t 0 a b = (!x.lt y && !y.lt x) ∧ laneCmp t 1 a b = (x.lt y || y.lt x) ∧
    laneCmp t 2 a b = x.lt y ∧ laneCmp t 3 a b = (!y.lt x) ∧ laneCmp t 4 a b = y.lt x ∧
    laneCmp t 5 a b = (!x.lt y) ∧ laneCmp t 6 a b = false ∧ laneCmp t 7 a b = true := by
  simp [laneCmp, ht, elemValue, hf, FVal.eq_of_ne_nan ha hb, ha, hb]
end

/-- R386: the class bit of a floating code from its magnitude: 2^fb fractions an exponent. -/
theorem laneClass_fmt {t : Tag} {f : FFmt} (hf : tagFmt t = some f) {x inf : Nat} (hinf : f.infCode = some inf)
    (hmax : inf = f.maxCode + 1) :
    let mag := x % 2 ^ f.signPos
    let neg := x / 2 ^ f.signPos % 2 = 1
    laneClass t x = if inf < mag then 256
      else if inf ≤ mag then (if neg then 1 else 128)
      else if mag / 2 ^ f.fbits = 0 ∧ mag % 2 ^ f.fbits = 0 then (if neg then 8 else 16)
      else if mag / 2 ^ f.fbits = 0 then (if neg then 4 else 32)
      else if neg then 2 else 64 := by
  intro mag neg
  have hpos : 0 < 2 ^ f.fbits := by positivity
  have hfr : mag % 2 ^ f.fbits < 2 ^ f.fbits := Nat.mod_lt _ hpos
  simp only [laneClass, hf, decodeF]
  by_cases hle : mag ≤ f.maxCode
  · rw [if_pos hle, if_neg (show ¬inf < mag by omega), if_neg (show ¬inf ≤ mag by omega)]
    by_cases hex : mag / 2 ^ f.fbits = 0
    · rw [if_pos hex]
      simp only [hex, true_and, if_true, beq_iff_eq]
      rw [if_pos hfr]
    · rw [if_neg hex]
      simp only [hex, false_and, if_false, Nat.not_lt.mpr (Nat.le_add_right _ _), beq_iff_eq]
      rw [if_neg (show ¬(2 ^ f.fbits + mag % 2 ^ f.fbits = 0) by omega)]
  · rw [if_neg hle, hinf]
    by_cases heq : mag = inf
    · simp [mag, neg] at heq ⊢
      simp [heq]
    · have : inf < mag := by omega
      rw [if_neg fun h => heq (Option.some.inj h).symm, if_pos this]

/-- R386: the class bit by the sign, the exponent field and the fraction field of a code of F32 or BF16. -/
theorem laneClass_fields {t : Tag} {x : Nat} (ht : tagFloat t = true) (hx : x < 2 ^ tagWidth t) :
    let frac := x % 2 ^ (tagWidth t - 9)
    let exp := x / 2 ^ (tagWidth t - 9) % 256
    let neg := 2 ^ (tagWidth t - 1) ≤ x
    laneClass t x = if exp = 255 ∧ frac ≠ 0 then 256
      else if exp = 255 then (if neg then 1 else 128)
      else if exp = 0 ∧ frac = 0 then (if neg then 8 else 16)
      else if exp = 0 then (if neg then 4 else 32)
      else if neg then 2 else 64 := by
  intro frac exp neg
  rcases (Bool.or_eq_true _ _).mp ht with h | h
  · obtain rfl := eq_of_beq h
    change x < 2 ^ 32 at hx
    have hnan : 0x7F800000 < x % 2 ^ 31 ↔ x / 2 ^ 23 % 256 = 255 ∧ x % 2 ^ 23 ≠ 0 := by omega
    have hinf : 0x7F800000 ≤ x % 2 ^ 31 ↔ x / 2 ^ 23 % 256 = 255 := by omega
    have hexp : x % 2 ^ 31 / 2 ^ 23 = x / 2 ^ 23 % 256 := by omega
    have hfrac : x % 2 ^ 31 % 2 ^ 23 = x % 2 ^ 23 := by omega
    have hneg : x / 2 ^ 31 % 2 = 1 ↔ 2 ^ 31 ≤ x := by omega
    simp only [laneClass_fmt (t := 1) (f := .f32) rfl rfl rfl, show FFmt.f32.signPos = 31 from rfl, FFmt.fbits, hnan, hinf, hexp,
      hfrac, hneg, exp, frac, neg, show tagWidth 1 = 32 from rfl, Nat.reduceSub]
  · obtain rfl := eq_of_beq h
    change x < 2 ^ 16 at hx
    have hnan : 0x7F80 < x % 2 ^ 15 ↔ x / 2 ^ 7 % 256 = 255 ∧ x % 2 ^ 7 ≠ 0 := by omega
    have hinf : 0x7F80 ≤ x % 2 ^ 15 ↔ x / 2 ^ 7 % 256 = 255 := by omega
    have hexp : x % 2 ^ 15 / 2 ^ 7 = x / 2 ^ 7 % 256 := by omega
    have hfrac : x % 2 ^ 15 % 2 ^ 7 = x % 2 ^ 7 := by omega
    have hneg : x / 2 ^ 15 % 2 = 1 ↔ 2 ^ 15 ≤ x := by omega
    simp only [laneClass_fmt (t := 2) (f := .bf16) rfl rfl rfl, show FFmt.bf16.signPos = 15 from rfl, FFmt.fbits, hnan, hinf,
      hexp, hfrac, hneg, exp, frac, neg, show tagWidth 2 = 16 from rfl, Nat.reduceSub]

theorem popCount_filter (x w : Nat) : popCount x w = ((List.range w).filter fun i => x.testBit i).length := by
  induction w with
  | zero => rfl
  | succ n ih =>
    rw [popCount, List.range_succ, List.filter_append, List.length_append, ih]
    cases h : x.testBit n <;> simp [h]

/-- R94: one multiplying step of the hash on a 64-bit word. -/
theorem toNat_hashStep (h c : Word) (k : Nat) :
    ((h ^^^ (h >>> k)) * c).toNat = (h.toNat ^^^ (h.toNat >>> k)) * c.toNat % 2 ^ 64 := by
  rw [BitVec.toNat_mul, BitVec.toNat_xor, BitVec.toNat_ushiftRight]

/-- R94, R395: VHASH on 64-bit words. -/
theorem laneHash_words {a b : Nat} (ha : a < 2 ^ 32) (hb : b < 2 ^ 32) :
    let h0 : Word := BitVec.ofNat 64 (a * 2 ^ 32 + b)
    let h1 : Word := (h0 ^^^ (h0 >>> 30)) * 0xBF58476D1CE4E5B9
    let h2 : Word := (h1 ^^^ (h1 >>> 27)) * 0x94D049BB133111EB
    laneHash a b = (h2 ^^^ (h2 >>> 31)).toNat / 2 ^ 32 := by
  have h0 : (BitVec.ofNat 64 (a * 2 ^ 32 + b)).toNat = a * 2 ^ 32 + b := by
    rw [BitVec.toNat_ofNat]
    exact Nat.mod_eq_of_lt (by omega)
  simp only [laneHash, mix64, BitVec.toNat_xor, BitVec.toNat_ushiftRight, toNat_hashStep, h0, BitVec.reduceToNat]

/-- Settles O23, one instruction or test a clause. -/
theorem vectorTestsPermutes : Obligations.VectorTestsPermutes :=
  ⟨fun _ _ => ⟨vcmp_next, vclass_gives, vpopc_int, vpopc_mask, fun h ht hk =>
      State.v2_gives (f := fun _ => laneHash) rfl h
        (by rcases (Bool.or_eq_true _ _).mp (VIn.ok_accept ht) with h | h <;> rw [eq_of_beq h] <;> decide) ht hk⟩,
    fun _ _ h => ⟨vperm_gives h, fun _ hb hk ha ht =>
      ⟨vslide_gives h hb hk ha ht, fun hd => vmovs_gives h hb hk ha hd⟩⟩,
    fun _ a b ht _ _ => laneCmp_int ht a b,
    fun _ _ a b ht hf => ⟨laneCmp_nan ht hf a b, laneCmp_num ht hf a b⟩,
    fun _ _ => laneClass_fields, popCount_filter, fun _ _ => laneHash_words⟩

end Sys2Proof.Machine
end

section
/-! PROOFS. The checks of a vector instruction in their order. -/

namespace Sys2Proof.Machine

/-! ### The checks of `vrun` (R54, R376) -/

/-- R301: a source that is read, or a destination, lies beyond the allotment. -/
def State.vBeyond (s : State) (o : VOp) (n more : Nat) : Prop :=
  (∃ f ∈ [o.a, o.b, o.c].take n, s.core.bank.srcIn f = false) ∨
    (o.w = false ∧ ∃ i ≤ more, s.core.bank.vregIn (o.vd.toNat + i) = false)

theorem vfields_all (o : VOp) (n : Nat) (p : BitVec 10 → Bool) :
    ((vfields o n).all fun f => p f.1) = (([o.a, o.b, o.c].take n).all p) := by
  rw [vfields, show [o.a, o.b, o.c] = [(o.a, o.ha), (o.b, o.hb), (o.c, o.hc)].map Prod.fst from rfl, ← List.map_take,
    List.all_map]
  rfl

section
variable {s : State} {o : VOp} {n more : Nat} {km tags : VIn → Bool} {fin : VIn → State → State}

/-- The test of the register numbers. -/
theorem State.vBeyond_iff : s.vBeyond o n more ↔
    (!((vfields o n).all fun f => s.core.bank.srcIn f.1) ||
      (true && !o.w && !((List.range (more + 1)).all fun i => s.core.bank.vregIn (o.vd.toNat + i)))) = true := by
  rw [vfields_all]
  simp only [State.vBeyond, Bool.or_eq_true, Bool.not_eq_true', List.all_eq_false, Bool.true_and, Bool.and_eq_true,
    List.mem_range, Nat.lt_succ_iff, Bool.not_eq_true]

/-- R53: the mask rules fail: the entry's own, or a mask other than k0 beside a MASK source. -/
def State.vMasked (s : State) (o : VOp) (n : Nat) (km : VIn → Bool) : Prop :=
  km (s.vIn o n) = false ∨ (o.km ≠ 0 ∧ (s.vIn o n).anyMask = true)

theorem State.vMasked_iff :
    s.vMasked o n km ↔ ((o.km != 0 && (s.vIn o n).anyMask) || !(km (s.vIn o n))) = true := by
  simp only [State.vMasked, Bool.or_eq_true, Bool.and_eq_true, bne_iff_ne, Bool.not_eq_true', or_comm]

/-- R54, R304, R376: the checks of a V instruction in their order. -/
theorem State.vrun_checks (hr : s.primaryRuns o.g) :
    (s.vBeyond o n more → s.vrun o n more true km tags fin = s.raise 0x02) ∧
    (¬s.vBeyond o n more → s.vMasked o n km → s.vrun o n more true km tags fin = s.raise 0x01) ∧
    (¬s.vBeyond o n more → ¬s.vMasked o n km → tags (s.vIn o n) = false →
      s.vrun o n more true km tags fin = s.raise 0x05) ∧
    (¬s.vBeyond o n more → ¬s.vMasked o n km → tags (s.vIn o n) = true → (s.vIn o n).lost = true →
      s.core.bank.status.debug = true → s.vrun o n more true km tags fin = s.raise 0x09) := by
  rw [State.vrun, State.primaryOnly_runs hr, State.vBeyond_iff, State.vMasked_iff]
  refine ⟨fun hb => if_pos hb, fun hb hm => (if_neg hb).trans (if_pos hm), fun hb hm ht => ?_,
    fun hb hm ht hl hd => ?_⟩
  · exact (if_neg hb).trans ((if_neg hm).trans (if_pos (congrArg not ht)))
  · exact (if_neg hb).trans ((if_neg hm).trans
      ((if_neg (by rw [Bool.not_eq_true']; exact fun h => Bool.false_ne_true (h.symm.trans ht))).trans
        (if_pos ((Bool.and_eq_true _ _).mpr ⟨hl, hd⟩))))
end

/-! ### The lane-wise instructions by their form -/

/-- The lane-wise V instructions by the sources they read, the tags they accept and the tag they give. -/
def vectorForms (o : VOp) : List (Nat × (Tag → Bool) × (Tag → Tag) × List Instr) :=
  [(2, tagArith, id, [.vadd o, .vsub o, .vmul o, .vmin o, .vmax o]),
   (2, tagInt, id, [.vshl o, .vshr o, .vsar o]), (2, tagAny, id, [.vand o, .vor o, .vxor o]),
   (3, tagFloat, id, [.vfma o, .vfms o, .vfnma o]), (1, tagArith, id, [.vabs o, .vneg o]),
   (1, tagAny, id, [.vmov o, .vbcast o]), (1, tagFloat, id, [.vrnd o]),
   (1, (· == 1), fun _ => 1, [.vrcp o, .vrsq o, .vexp2 o, .vlog2 o])]

section
variable {s : State} {o : VOp} {lat : Nat} {accept : Tag → Bool} {j : Instr}

theorem State.v1_lanes {g : Tag → Nat → Nat} (h : exec j s = s.v1 o lat accept g) :
    ∃ lat f, exec j s = s.vlanes o 1 lat accept id f := by
  rw [h, State.v1]
  exact ⟨_, _, rfl⟩

theorem State.v1F_lanes {g : Nat → Nat} (h : exec j s = s.v1F o g) :
    ∃ lat f, exec j s = s.vlanes o 1 lat (· == 1) (fun _ => 1) f := by
  rw [h, State.v1F]
  exact ⟨_, _, rfl⟩

theorem State.v2_lanes {g : Tag → Nat → Nat → Nat} (h : exec j s = s.v2 o lat accept g) :
    ∃ lat f, exec j s = s.vlanes o 2 lat accept id f := by
  rw [h, State.v2]
  exact ⟨_, _, rfl⟩

theorem State.v3_lanes {g : Tag → Nat → Nat → Nat → Nat} (h : exec j s = s.v3 o lat accept g) :
    ∃ lat f, exec j s = s.vlanes o 3 lat accept id f := by
  rw [h, State.v3]
  exact ⟨_, _, rfl⟩

theorem State.vlogic_lanes {g : VBits → VBits → VBits} (h : exec j s = s.vlogic o g) :
    ∃ lat f, exec j s = s.vlanes o 2 lat tagAny id f := by
  rw [h, State.vlogic]
  exact ⟨_, _, rfl⟩
end

/-- Each of them is `vlanes` of its form. -/
theorem exec_vectorForm {o : VOp} {x : Nat × (Tag → Bool) × (Tag → Tag) × List Instr} (hx : x ∈ vectorForms o)
    {j : Instr} (hj : j ∈ x.2.2.2) (s : State) : ∃ lat f, exec j s = s.vlanes o x.1 lat x.2.1 x.2.2.1 f := by
  simp only [vectorForms, List.mem_cons, List.not_mem_nil, or_false] at hx
  rcases hx with rfl | rfl | rfl | rfl | rfl | rfl | rfl | rfl <;>
    simp only [List.mem_cons, List.not_mem_nil, or_false] at hj
  · rcases hj with rfl | rfl | rfl | rfl | rfl
    · exact State.v2_lanes (g := fun t => laneAdd t (rndOf o.rnd)) rfl
    · exact State.v2_lanes (g := fun t => laneSub t (rndOf o.rnd)) rfl
    · exact State.v2_lanes (g := fun t => laneMul t (rndOf o.rnd)) rfl
    · exact State.v2_lanes (g := laneMin) rfl
    · exact State.v2_lanes (g := laneMax) rfl
  · rcases hj with rfl | rfl | rfl
    · exact State.v2_lanes (g := fun t a b => a * 2 ^ (b % tagWidth t) % 2 ^ tagWidth t) rfl
    · exact State.v2_lanes (g := fun t a b => a / 2 ^ (b % tagWidth t)) rfl
    · exact State.v2_lanes (g := fun t a b => laneSar (tagWidth t) a (b % tagWidth t)) rfl
  · rcases hj with rfl | rfl | rfl
    · exact State.vlogic_lanes (g := (· &&& ·)) rfl
    · exact State.vlogic_lanes (g := (· ||| ·)) rfl
    · exact State.vlogic_lanes (g := (· ^^^ ·)) rfl
  · rcases hj with rfl | rfl | rfl
    · exact State.v3_lanes (g := fun t => laneFma t (rndOf o.rnd) false false) rfl
    · exact State.v3_lanes (g := fun t => laneFma t (rndOf o.rnd) false true) rfl
    · exact State.v3_lanes (g := fun t => laneFma t (rndOf o.rnd) true false) rfl
  · rcases hj with rfl | rfl
    · exact State.v1_lanes (g := laneAbs) rfl
    · exact State.v1_lanes (g := laneNeg) rfl
  · rcases hj with rfl | rfl
    · change ∃ lat f, execVmov o s = _
      rw [execVmov]
      exact ⟨_, _, rfl⟩
    · change ∃ lat f, execVbcast o s = _
      rw [execVbcast]
      exact ⟨_, _, rfl⟩
  · obtain rfl := hj
    exact State.v1_lanes (g := fun t x => match tagFmt t with
        | some f => integralF f (rndOf o.rnd) x
        | none => x) rfl
  · rcases hj with rfl | rfl | rfl | rfl
    · exact State.v1F_lanes (g := vrcpF) rfl
    · exact State.v1F_lanes (g := vrsqF) rfl
    · exact State.v1F_lanes (g := vexp2F) rfl
    · exact State.v1F_lanes (g := vlog2F) rfl

theorem State.vrun_drift {s : State} {o : VOp} {n more m : Nat} {vdest : Bool} {km tags : VIn → Bool}
    {fin : VIn → State → State} (ha : s.agent = .drift m) : s.vrun o n more vdest km tags fin = s.raise 0x01 :=
  State.primaryOnly_drift ha

/-- R54: tags are refused that disagree, that the entry does not accept, or a scalar beside a MASK source. -/
theorem VIn.ok_iff (i : VIn) (accept : Tag → Bool) :
    i.ok accept = true ↔ ¬(i.agree = false ∨ accept i.tag = false ∨ (i.scalar = true ∧ i.tag = 13)) := by
  cases ha : i.agree <;> cases ht : accept i.tag <;> cases hs : i.scalar <;> simp [VIn.ok, ha, ht, hs]

theorem State.vBeyond_one (s : State) (o : VOp) (n : Nat) : s.vBeyond o n 0 ↔
    (∃ f ∈ [o.a, o.b, o.c].take n, s.core.bank.srcIn f = false) ∨
      (o.w = false ∧ s.core.bank.vregIn o.vd.toNat = false) := by
  simp only [State.vBeyond, Nat.le_zero, exists_eq_left, Nat.add_zero]

/-- R53, R185: a selection under a mask that its entry refuses. -/
theorem State.vselect_masked {s : State} {o : VOp} {more : Nat} {fin : VIn → State → State} (hr : s.primaryRuns o.g)
    (hm : s.vMasked o 1 fun i => kmOk o.km i.tag 11) (ha : s.core.bank.srcIn o.a = true)
    (hd : o.w = false → ∀ i ≤ more, s.core.bank.vregIn (o.vd.toNat + i) = true) : s.vselect o more fin = s.raise 0x01 := by
  refine (State.vrun_checks hr).2.1 ?_ hm
  rintro (⟨f, hf, hb⟩ | ⟨hw, i, hi, hb⟩)
  · obtain rfl := List.mem_singleton.mp hf
    exact Bool.false_ne_true (hb.symm.trans ha)
  · exact Bool.false_ne_true (hb.symm.trans (hd hw i hi))

/-- Settles O27, by the checks of `vrun`. -/
theorem vectorChecks : Obligations.VectorChecks := by
  refine fun o s => ⟨fun n ha => ⟨fun x hx j hj => ?_, ?_, ?_⟩,
    fun hr x hx j hj => ?_, fun hr hm ha hd => ?_⟩
  · obtain ⟨lat, f, hj⟩ := exec_vectorForm hx hj s
    exact hj.trans (State.vrun_drift ha)
  · change execVsort o s = _
    rw [execVsort, State.vselect]
    exact State.vrun_drift ha
  · change execVqnt o s = _
    exact State.primaryOnly_drift ha
  · obtain ⟨lat, f, hexec⟩ := exec_vectorForm hx hj s
    obtain ⟨hbeyond, hmasked, hrefused, hlost⟩ := State.vrun_checks (n := x.1) (more := 0)
      (km := fun i => kmOk o.km i.tag (x.2.2.1 i.tag)) (tags := fun i => i.ok x.2.1)
      (fin := fun i s => s.vput lat o (x.2.2.1 i.tag) (f i (s.core.bank.mask o.km)).1 (s.core.bank.mask o.km)
        (flagBits (f i (s.core.bank.mask o.km)).2 false i.lost)) hr
    simp only [State.vBeyond_one] at hbeyond hmasked hrefused hlost
    rw [hexec]
    exact ⟨hbeyond, hmasked,
      fun hb hm ht => hrefused hb hm (Bool.eq_false_iff.mpr fun h => (VIn.ok_iff _ _).mp h ht),
      fun hb hm ht => hlost hb hm ((VIn.ok_iff _ _).mpr ht)⟩
  · refine ⟨?_, ?_, ?_⟩
    · change execVsort o s = _
      exact State.vselect_masked hr hm ha fun hw i hi => hd hw i (by omega)
    · change execVtopk o s = _
      exact State.vselect_masked hr hm ha hd
    · change execVcomp o s = _
      exact State.vselect_masked hr hm ha hd

end Sys2Proof.Machine
end

section
/-! PROOFS. A vector result lands. -/

namespace Sys2Proof.Machine

theorem vreg_setV_same (b : Bank) (n : Nat) (r : VReg) : (b.setV n r).vreg n = r := by
  rw [Bank.vreg, Bank.setV, sget_sput, if_pos rfl, Option.getD_some]

theorem vreg_setV_other (b : Bank) {n m : Nat} (r : VReg) (h : m ≠ n) : (b.setV n r).vreg m = b.vreg m := by
  rw [Bank.vreg, Bank.setV, sget_sput, if_neg h]; rfl

theorem vreg_latchIn (b : Bank) (u : Nat) (x : VReg) (n : Nat) : (b.latchIn u x).vreg n = b.vreg n := by
  unfold Bank.latchIn; split <;> rfl

/-- The bank once a vector result of a V instruction in slot 0 has landed at its tick. -/
theorem vput_lands {s : State} {o : VOp} {lat : Nat} {t : Tag} {bits k : VBits} (hp : s.core.bank.pend = [])
    (hv : s.core.bank.vslot = 0) :
    let b := s.core.bank
    let u := s.vput lat o t bits k 0
    let m := laneMask (tagWidth t) k
    let c : Bank := { b with tick := b.tick + lat, pend := [] }
    (u.setBank { u.core.bank with tick := b.tick + lat }).landDue.core.bank =
      if o.w then c.latchIn 0 { bits := bits &&& m, tag := t }
      else (c.setV (b.phys o.vd.toNat) (mergedV (b.vreg (b.phys o.vd.toNat)) t bits m)).latchIn 0
        (mergedV (b.vreg (b.phys o.vd.toNat)) t bits m) := by
  intro b u m c
  let e : Eff := if o.w then .vlatch t (bits &&& m) else .v (b.phys o.vd.toNat) t bits m
  have hpend : u.core.bank.pend = [⟨b.tick + lat, b.seq, e, b.vslot, 0, false⟩] := by
    simp only [u, State.vput, State.setBank_core, Bank.addPend, b, hp, List.nil_append, m, e]
  rw [State.landDue_single_now (b := { u.core.bank with tick := b.tick + lat }) u hpend le_rfl rfl]
  cases hw : o.w with
  | true => simp only [State.landOne, e, hw, if_true, State.setBank_core, hv, b]; rfl
  | false => simp only [State.landOne, e, hw, Bool.false_eq_true, if_false, State.setBank_core, hv, b]; rfl

/-- Settles O28, by the bank that the landing leaves. -/
theorem vectorResultLands : Obligations.VectorResultLands := by
  intro o s lat t bits k hp hv b m d u w
  have hw : w = _ := vput_lands (o := o) (lat := lat) (t := t) (bits := bits) (k := k) hp hv
  cases hlatch : o.w with
  | true =>
    rw [hlatch, if_pos rfl] at hw
    rw [hw]
    exact ⟨fun h => absurd h.symm Bool.false_ne_true, fun _ => ⟨rfl, rfl, rfl⟩, rfl, rfl, rfl, rfl, rfl⟩
  | false =>
    rw [hlatch, if_neg Bool.false_ne_true] at hw
    rw [hw]
    simp only [vreg_latchIn]
    refine ⟨fun _ => ⟨fun j hj => ?_, ?_, ?_, rfl, rfl, fun n hn => ?_⟩, fun h => absurd h Bool.false_ne_true, rfl, rfl,
      rfl, rfl, rfl⟩
    · rw [vreg_setV_same]
      exact mergedV_bit _ _ _ _ j
    · rw [vreg_setV_same]
      rfl
    · rw [vreg_setV_same]
      rfl
    · rw [vreg_setV_other _ _ hn]
      rfl

end Sys2Proof.Machine
end

section
/-! PROOFS. The frame of the V and M instructions at their issue. -/

namespace Sys2Proof.Machine

/-! ### What stands at an issue -/

/-- The registers of the bank, its barriers, the core's window and planes, and global memory stand. -/
structure State.KeepsAtIssue (s t : State) : Prop where
  regs : t.core.bank.sameRegs s.core.bank
  store : t.core.store = s.core.store
  mem : t.mem = s.mem
  cbs : t.core.bank.cbs = s.core.bank.cbs
  planes : t.core.planes = s.core.planes

namespace State.KeepsAtIssue

theorem refl (s : State) : s.KeepsAtIssue s := ⟨Bank.sameRegs.refl _, rfl, rfl, rfl, rfl⟩

theorem trans {s t u : State} (h₁ : s.KeepsAtIssue t) (h₂ : t.KeepsAtIssue u) : s.KeepsAtIssue u :=
  ⟨h₂.regs.trans h₁.regs, h₂.store.trans h₁.store, h₂.mem.trans h₁.mem, h₂.cbs.trans h₁.cbs, h₂.planes.trans h₁.planes⟩

/-- A bank with the same registers and barriers. -/
theorem bank {s : State} {b : Bank} (h : b.sameRegs s.core.bank) (hc : b.cbs = s.core.bank.cbs) :
    s.KeepsAtIssue (s.setBank b) := ⟨h, rfl, rfl, hc, rfl⟩

end State.KeepsAtIssue

/-- The next state that an instruction answers keeps what stands at an issue. -/
def State.OutKeeps (s : State) (o : Out) : Prop := ∀ t, o = .next t → s.KeepsAtIssue t

namespace State

theorem outKeeps_next {s t : State} (h : s.KeepsAtIssue t) : s.OutKeeps (.next t) := by
  rintro u ⟨⟩
  exact h

theorem OutKeeps.trans {s t : State} {o : Out} (h : s.KeepsAtIssue t) (ho : t.OutKeeps o) : s.OutKeeps o :=
  fun u hu => h.trans (ho u hu)

theorem outKeeps_ite {s : State} {p : Prop} [Decidable p] {a b : Out} (ha : s.OutKeeps a) (hb : s.OutKeeps b) :
    s.OutKeeps (if p then a else b) := by
  split
  · exact ha
  · exact hb

/-- A raised cause stops the bank and changes none of its registers. -/
theorem outKeeps_raise (s : State) (c : Nat) : s.OutKeeps (s.raise c) := by
  refine outKeeps_next ⟨?_, ?_, (s.takeFault_frame _).1, ?_, ?_⟩
  · rw [State.setBank_core, State.takeFault_core]
    exact Bank.sameRegs.refl _
  · rw [State.setBank_core, State.takeFault_core]
  · rw [State.setBank_core, State.takeFault_core]
  · rw [State.setBank_core, State.takeFault_core]

theorem outKeeps_primaryOnly {s : State} {g : BitVec 4} {k : State → Out} (h : s.OutKeeps (k s)) :
    s.OutKeeps (s.primaryOnly g k) := by
  rw [State.primaryOnly]
  split
  · exact outKeeps_ite h (outKeeps_next (.refl s))
  · exact outKeeps_raise s _

/-- A result put in flight. -/
theorem keepsAtIssue_addPend (s : State) (lat : Nat) (e : Eff) (unit : Nat) (flags : BitVec 3) :
    s.KeepsAtIssue (s.setBank (s.core.bank.addPend lat e unit flags)) :=
  .bank (Bank.sameRegs_addPend _ _ _ _ _) rfl

theorem keepsAtIssue_vput (s : State) (lat : Nat) (o : VOp) (t : Tag) (bits k : VBits) (flags : BitVec 3) :
    s.KeepsAtIssue (s.vput lat o t bits k flags) := keepsAtIssue_addPend _ _ _ _ _

theorem keepsAtIssue_vputMore (s : State) (lat n : Nat) (t : Tag) (bits : VBits) :
    s.KeepsAtIssue (s.vputMore lat n t bits) := keepsAtIssue_addPend _ _ _ _ _

theorem keepsAtIssue_putList (s : State) (lat : Nat) (o : VOp) (t : Tag) (xs : List (Nat × Nat)) (lost : Bool) :
    s.KeepsAtIssue (s.putList lat o t xs lost) :=
  (keepsAtIssue_vput _ _ _ _ _ _ _).trans (keepsAtIssue_vputMore _ _ _ _ _)

end State

/-- Holding sources changes held values alone. -/
theorem Bank.holdAll_keeps (b : Bank) (u : Nat) (fs : List (BitVec 10 × Bool)) (xs : List VReg) :
    (b.holdAll u fs xs).sameRegs b ∧ (b.holdAll u fs xs).cbs = b.cbs := by
  have hold (b : Bank) (pos : Nat) (f : BitVec 10) (h : Bool) (r : VReg) :
      (b.hold u pos f h r).sameRegs b ∧ (b.hold u pos f h r).cbs = b.cbs := by
    unfold Bank.hold
    split
    · exact ⟨.refl b, rfl⟩
    · dsimp only
      split <;> exact ⟨.refl b, rfl⟩
  unfold Bank.holdAll
  generalize ((fs.zip xs).mapIdx fun i x => (i, x)) = ys
  induction ys generalizing b with
  | nil => exact ⟨.refl b, rfl⟩
  | cons y ys ih =>
    rw [List.foldl_cons]
    have h := hold b y.1 y.2.1.1 y.2.1.2 y.2.2
    exact ⟨(ih _).1.trans h.1, (ih _).2.trans h.2⟩

namespace State

variable {s : State} {o : VOp}

/-- R376: a V instruction whose end puts results in flight. -/
theorem outKeeps_vrun {n more : Nat} {vdest : Bool} {km tags : VIn → Bool} {fin : VIn → State → State}
    (h : ∀ (i : VIn) (u : State), u.KeepsAtIssue (fin i u)) : s.OutKeeps (s.vrun o n more vdest km tags fin) := by
  refine outKeeps_primaryOnly (outKeeps_ite (outKeeps_raise s _) (outKeeps_ite (outKeeps_raise s _)
    (outKeeps_ite (outKeeps_raise s _) (outKeeps_ite (outKeeps_raise s _) (outKeeps_next ?_)))))
  have hold := s.core.bank.holdAll_keeps s.core.bank.vslot (vfields o n) (s.vIn o n).xs
  exact (KeepsAtIssue.bank hold.1 hold.2).trans (h _ _)

theorem outKeeps_vlanes {n lat : Nat} {accept : Tag → Bool} {out : Tag → Tag} {f : VIn → VBits → VBits × Bool} :
    s.OutKeeps (s.vlanes o n lat accept out f) := outKeeps_vrun fun _ _ => keepsAtIssue_vput _ _ _ _ _ _ _

theorem outKeeps_v1 {lat : Nat} {accept : Tag → Bool} {f : Tag → Nat → Nat} : s.OutKeeps (s.v1 o lat accept f) :=
  outKeeps_vlanes

theorem outKeeps_v1F {f : Nat → Nat} : s.OutKeeps (s.v1F o f) := outKeeps_vlanes

theorem outKeeps_v2 {lat : Nat} {accept : Tag → Bool} {f : Tag → Nat → Nat → Nat} :
    s.OutKeeps (s.v2 o lat accept f) := outKeeps_vlanes

theorem outKeeps_v3 {lat : Nat} {accept : Tag → Bool} {f : Tag → Nat → Nat → Nat → Nat} :
    s.OutKeeps (s.v3 o lat accept f) := outKeeps_vlanes

theorem outKeeps_vlogic {f : VBits → VBits → VBits} : s.OutKeeps (s.vlogic o f) := outKeeps_vlanes

theorem outKeeps_vreduce {ident : Tag → Nat} {f : Tag → Nat → Nat → Nat} : s.OutKeeps (s.vreduce o ident f) :=
  outKeeps_vrun fun _ _ => keepsAtIssue_vput _ _ _ _ _ _ _

end State

theorem outKeeps_vqnt (s : State) (o : VOp) : s.OutKeeps (execVqnt o s) :=
  State.outKeeps_primaryOnly (State.outKeeps_ite (State.outKeeps_raise s _) (State.outKeeps_ite (State.outKeeps_raise s _)
    (State.outKeeps_next ((State.keepsAtIssue_vput _ _ _ _ _ _ _).trans (State.keepsAtIssue_vputMore _ _ _ _ _)))))

theorem outKeeps_vmergek (s : State) (o : VOp) : s.OutKeeps (execVmergek o s) :=
  State.outKeeps_primaryOnly (State.outKeeps_ite (State.outKeeps_raise s _) (State.outKeeps_ite (State.outKeeps_raise s _)
    (State.outKeeps_next (State.keepsAtIssue_putList _ _ _ _ _ _))))

/-- R376: every V instruction, by its form. -/
theorem outKeeps_vector {op : Nat} {o : VOp} {i : Instr} (h : instrOfV op o = some i) (s : State) :
    s.OutKeeps (exec i s) := by
  unfold instrOfV at h
  split at h <;> cases h
  · exact (State.outKeeps_v2 : s.OutKeeps (execVadd o s))
  · exact (State.outKeeps_v2 : s.OutKeeps (execVsub o s))
  · exact (State.outKeeps_v2 : s.OutKeeps (execVmul o s))
  · exact (State.outKeeps_v3 : s.OutKeeps (execVfma o s))
  · exact (State.outKeeps_v3 : s.OutKeeps (execVfms o s))
  · exact (State.outKeeps_v3 : s.OutKeeps (execVfnma o s))
  · exact (State.outKeeps_v2 : s.OutKeeps (execVmin o s))
  · exact (State.outKeeps_v2 : s.OutKeeps (execVmax o s))
  · exact (State.outKeeps_v1 : s.OutKeeps (execVabs o s))
  · exact (State.outKeeps_v1 : s.OutKeeps (execVneg o s))
  · exact (State.outKeeps_vlogic : s.OutKeeps (execVand o s))
  · exact (State.outKeeps_vlogic : s.OutKeeps (execVor o s))
  · exact (State.outKeeps_vlogic : s.OutKeeps (execVxor o s))
  · exact (State.outKeeps_v2 : s.OutKeeps (execVshl o s))
  · exact (State.outKeeps_v2 : s.OutKeeps (execVshr o s))
  · exact (State.outKeeps_v2 : s.OutKeeps (execVsar o s))
  · exact (State.outKeeps_vrun fun _ _ => State.keepsAtIssue_addPend _ _ _ _ _ : s.OutKeeps (execVcmp o s))
  · exact (State.outKeeps_vrun fun _ _ => State.keepsAtIssue_vput _ _ _ _ _ _ _ : s.OutKeeps (execVsel o s))
  · exact (State.outKeeps_vlanes : s.OutKeeps (execVmov o s))
  · exact (State.outKeeps_vlanes : s.OutKeeps (execVbcast o s))
  · exact (State.outKeeps_vrun fun _ _ => State.keepsAtIssue_vput _ _ _ _ _ _ _ : s.OutKeeps (execViota o s))
  · exact (State.outKeeps_vrun fun _ _ => State.keepsAtIssue_vput _ _ _ _ _ _ _ : s.OutKeeps (execVperm o s))
  · change s.OutKeeps (execVslide o s)
    rw [execVslide]
    exact State.outKeeps_vrun fun _ _ => State.keepsAtIssue_vput _ _ _ _ _ _ _
  · change s.OutKeeps (execVcvt o s)
    rw [execVcvt]
    exact State.outKeeps_vlanes
  · exact (outKeeps_vqnt s o : s.OutKeeps (execVqnt o s))
  · change s.OutKeeps (execVdqnt o s)
    rw [execVdqnt]
    exact State.outKeeps_vrun fun _ _ =>
        (((State.keepsAtIssue_vput _ _ _ _ _ _ _).trans (State.keepsAtIssue_vputMore _ _ _ _ _)).trans
        (State.keepsAtIssue_vputMore _ _ _ _ _)).trans (State.keepsAtIssue_vputMore _ _ _ _ _)
  · exact (State.outKeeps_vrun fun _ _ => State.keepsAtIssue_vput _ _ _ _ _ _ _ : s.OutKeeps (execVscl o s))
  · exact (State.outKeeps_v1F : s.OutKeeps (execVrcp o s))
  · exact (State.outKeeps_v1F : s.OutKeeps (execVrsq o s))
  · exact (State.outKeeps_v1F : s.OutKeeps (execVexp2 o s))
  · exact (State.outKeeps_v1F : s.OutKeeps (execVlog2 o s))
  · exact (State.outKeeps_vreduce : s.OutKeeps (execVrsum o s))
  · exact (State.outKeeps_vreduce : s.OutKeeps (execVrmax o s))
  · exact (State.outKeeps_vreduce : s.OutKeeps (execVrmin o s))
  · exact (State.outKeeps_vrun fun _ _ => State.keepsAtIssue_vput _ _ _ _ _ _ _ : s.OutKeeps (execVscan o s))
  · change s.OutKeeps (execVsort o s)
    rw [execVsort, State.vselect]
    exact State.outKeeps_vrun fun _ _ => State.keepsAtIssue_putList _ _ _ _ _ _
  · change s.OutKeeps (execVtopk o s)
    rw [execVtopk, State.vselect]
    exact State.outKeeps_vrun fun _ _ =>
        (State.keepsAtIssue_putList _ _ _ _ _ _).trans (State.keepsAtIssue_vputMore _ _ _ _ _)
  · exact (outKeeps_vmergek s o : s.OutKeeps (execVmergek o s))
  · change s.OutKeeps (execVcomp o s)
    rw [execVcomp, State.vselect]
    exact State.outKeeps_vrun fun _ _ =>
        (State.keepsAtIssue_putList _ _ _ _ _ _).trans (State.keepsAtIssue_vputMore _ _ _ _ _)
  · change s.OutKeeps (execVpopc o s)
    rw [execVpopc]
    exact State.outKeeps_vlanes
  · change s.OutKeeps (execVmovs o s)
    rw [execVmovs]
    exact State.outKeeps_vrun fun _ _ => State.keepsAtIssue_vput _ _ _ _ _ _ _
  · exact (State.outKeeps_v2 : s.OutKeeps (execVhash o s))
  · exact (State.outKeeps_vrun fun _ _ => State.keepsAtIssue_vput _ _ _ _ _ _ _ : s.OutKeeps (execVgen o s))
  · exact (State.outKeeps_vlanes : s.OutKeeps (execVclass o s))
  · exact (State.outKeeps_v1 : s.OutKeeps (execVrnd o s))
  · exact (State.outKeeps_vrun fun _ _ => State.keepsAtIssue_vput _ _ _ _ _ _ _ : s.OutKeeps (execVtag o s))

/-! ### The matrix instructions -/

theorem State.keepsAtIssue_logUndo (s : State) (ls : List Nat) : s.KeepsAtIssue (s.logUndo ls) :=
  .bank (Bank.sameRegs.refl _) rfl

theorem State.keepsAtIssue_leadRows (s : State) (own : Nat) : s.KeepsAtIssue (s.leadRows own).2 := by
  unfold State.leadRows
  split
  · exact .refl s
  · split <;> exact ⟨Bank.sameRegs.refl _, rfl, rfl, rfl, rfl⟩

/-- Steps that change no register and no barrier, one after the other. -/
theorem foldl_keeps {α : Type} {f : Bank → α → Bank} {b₀ b : Bank} (xs : List α)
    (h : ∀ b x, (f b x).sameRegs b ∧ (f b x).cbs = b.cbs) (hb : b.sameRegs b₀ ∧ b.cbs = b₀.cbs) :
    (xs.foldl f b).sameRegs b₀ ∧ (xs.foldl f b).cbs = b₀.cbs := by
  induction xs generalizing b with
  | nil => exact hb
  | cons x xs ih => exact ih ⟨(h b x).1.trans hb.1, (h b x).2.trans hb.2⟩

/-- Claims of ports and tracked reads change no register and no barrier. -/
theorem Bank.reads_keeps (b : Bank) (t first n : Nat) : (b.reads t first n).sameRegs b ∧ (b.reads t first n).cbs = b.cbs :=
  ⟨.refl b, rfl⟩

theorem Bank.claim_keeps (b : Bank) (t : Nat) (ls : List Nat) : (b.claim t ls).sameRegs b ∧ (b.claim t ls).cbs = b.cbs :=
  ⟨.refl b, rfl⟩

/-- Reads, and further ones under a condition. -/
theorem Bank.readsIf_keeps (b : Bank) {p : Prop} [Decidable p] (t first n t' first' n' : Nat) :
    (if p then (b.reads t first n).reads t' first' n' else b.reads t first n).sameRegs b ∧
      (if p then (b.reads t first n).reads t' first' n' else b.reads t first n).cbs = b.cbs := by
  have h := b.reads_keeps t first n
  have h' := (b.reads t first n).reads_keeps t' first' n'
  split
  · exact ⟨h'.1.trans h.1, h'.2.trans h.2⟩
  · exact h

theorem Bank.streamReads_keeps (b : Bank) (np code base m : Nat) :
    (b.streamReads np code base m).sameRegs b ∧ (b.streamReads np code base m).cbs = b.cbs := by
  unfold Bank.streamReads
  exact foldl_keeps _ (fun b i => b.readsIf_keeps _ _ _ _ _ _) ⟨.refl b, rfl⟩

/-- The engines' queues and busy times are no registers. -/
theorem keepsAtIssue_loader {s : State} {b : Bank} {l : Option Loader} {n : Nat}
    (h : b.sameRegs s.core.bank ∧ b.cbs = s.core.bank.cbs) :
    s.KeepsAtIssue (s.setBank { b with loader := l, loadBusy := n }) := .bank h.1 h.2

theorem keepsAtIssue_streams {s : State} {b : Bank} {xs : List Stream} {n : Nat} {us : List (Nat × Nat)}
    (h : b.sameRegs s.core.bank ∧ b.cbs = s.core.bank.cbs) :
    s.KeepsAtIssue (s.setBank { b with streams := xs, streamBusy := n, planeUse := us }) := .bank h.1 h.2

theorem keepsAtIssue_epis {s : State} {b : Bank} {xs : List Epi} {n : Nat} {hs : List (Nat × Nat)}
    (h : b.sameRegs s.core.bank ∧ b.cbs = s.core.bank.cbs) :
    s.KeepsAtIssue (s.setBank { b with epis := xs, epiBusy := n, holds := hs }) := .bank h.1 h.2

theorem outKeeps_mldw (s : State) (o : MOp) : s.OutKeeps (execMldw o s) := by
  refine State.outKeeps_primaryOnly (State.outKeeps_ite (State.outKeeps_raise s _)
    (State.outKeeps_ite (State.outKeeps_raise s _) ?_))
  dsimp only
  split
  · exact State.outKeeps_raise s _
  · refine State.outKeeps_ite (State.outKeeps_raise s _) (State.outKeeps_ite (State.outKeeps_raise s _)
      (State.outKeeps_next ?_))
    refine keepsAtIssue_loader ?_
    split
    · exact ⟨.refl _, rfl⟩
    · exact foldl_keeps _ (fun b i => b.readsIf_keeps _ _ _ _ _ _) ⟨.refl _, rfl⟩

theorem outKeeps_mflip (s : State) (o : MOp) : s.OutKeeps (execMflip o s) :=
  State.outKeeps_primaryOnly (State.outKeeps_ite (State.outKeeps_raise s _)
    (State.outKeeps_next (State.keepsAtIssue_addPend _ _ _ _ _)))

theorem outKeeps_stream (s : State) (o : MOp) (zero : Bool) : s.OutKeeps (s.stream o zero) := by
  refine State.outKeeps_primaryOnly (State.outKeeps_ite (State.outKeeps_raise s _)
    (State.outKeeps_ite (State.outKeeps_next (.refl s)) (State.outKeeps_ite (State.outKeeps_raise s _)
      (State.outKeeps_ite (State.outKeeps_raise s _) (State.outKeeps_ite (State.outKeeps_raise s _) ?_)))))
  dsimp only
  split
  · exact State.outKeeps_raise s _
  · refine State.outKeeps_ite (State.outKeeps_raise s _) (State.outKeeps_ite (State.outKeeps_raise s _)
      (State.outKeeps_next ?_))
    refine keepsAtIssue_streams ?_
    split
    · exact s.core.bank.streamReads_keeps _ _ _ _
    · exact ⟨.refl _, rfl⟩

theorem outKeeps_mbnd (s : State) (o : MOp) : s.OutKeeps (execMbnd o s) :=
  State.outKeeps_primaryOnly (State.outKeeps_next (State.keepsAtIssue_addPend _ _ _ _ _))

theorem outKeeps_mepi (s : State) (o : MOp) : s.OutKeeps (execMepi o s) := by
  refine State.outKeeps_primaryOnly (State.outKeeps_ite (State.outKeeps_raise s _)
    (State.outKeeps_ite (State.outKeeps_next (.refl s)) (State.outKeeps_ite (State.outKeeps_raise s _)
      (State.outKeeps_ite (State.outKeeps_raise s _) (State.outKeeps_ite (State.outKeeps_raise s _) ?_)))))
  dsimp only
  split
  · exact State.outKeeps_raise s _
  · refine State.outKeeps_ite (State.outKeeps_raise s _) (State.outKeeps_ite (State.outKeeps_raise s _)
      (State.outKeeps_ite (State.outKeeps_raise s _) (State.outKeeps_next ?_)))
    refine .trans (State.keepsAtIssue_logUndo s _) (keepsAtIssue_epis ?_)
    refine foldl_keeps _ (fun b i => b.claim_keeps _ _) ?_
    split
    · exact Bank.claim_keeps _ _ _
    · exact ⟨.refl _, rfl⟩

theorem outKeeps_mrda (s : State) (o : MOp) : s.OutKeeps (execMrda o s) :=
  State.outKeeps_primaryOnly (State.outKeeps_ite (State.outKeeps_raise s _)
    (State.outKeeps_next (State.keepsAtIssue_addPend _ _ _ _ _)))

theorem outKeeps_mwra (s : State) (o : MOp) : s.OutKeeps (execMwra o s) :=
  State.outKeeps_primaryOnly (State.outKeeps_ite (State.outKeeps_raise s _) (State.outKeeps_ite (State.outKeeps_raise s _)
    (State.outKeeps_ite (State.outKeeps_raise s _) (State.outKeeps_next (State.keepsAtIssue_addPend _ _ _ _ _)))))

theorem outKeeps_mzero (s : State) (o : MOp) : s.OutKeeps (execMzero o s) :=
  State.outKeeps_primaryOnly (State.outKeeps_ite (State.outKeeps_raise s _) (State.outKeeps_ite (State.outKeeps_raise s _)
    (State.outKeeps_next (State.keepsAtIssue_addPend _ _ _ _ _))))

theorem outKeeps_mred (s : State) (o : MOp) : s.OutKeeps (execMred o s) := by
  refine State.outKeeps_primaryOnly (State.outKeeps_ite (State.outKeeps_raise s _)
    (.trans (s.keepsAtIssue_leadRows (s.rowCount o)) ?_))
  refine State.outKeeps_ite (State.outKeeps_raise _ _) (State.outKeeps_ite (State.outKeeps_next (.refl _)) ?_)
  split
  · exact State.outKeeps_raise _ _
  · exact State.outKeeps_ite (State.outKeeps_raise _ _) (State.outKeeps_ite (State.outKeeps_raise _ _)
      (State.outKeeps_next (.bank (Bank.sameRegs.refl _) rfl)))

/-- R77, R81: every M instruction. -/
theorem outKeeps_matrix {op : Nat} {o : MOp} {i : Instr} (h : instrOfM op o = some i) (s : State) :
    s.OutKeeps (exec i s) := by
  unfold instrOfM at h
  split at h <;> cases h
  · exact outKeeps_mldw s o
  · exact outKeeps_mflip s o
  · exact (outKeeps_stream s o false : s.OutKeeps (execMmul o s))
  · exact (outKeeps_stream s o true : s.OutKeeps (execMmulz o s))
  · exact outKeeps_mbnd s o
  · exact outKeeps_mepi s o
  · exact outKeeps_mrda s o
  · exact outKeeps_mwra s o
  · exact outKeeps_mzero s o
  · exact outKeeps_mred s o

/-! ### The class of an instruction's words -/

/-- The class field of the words of a format. -/
def Encoded.class : Encoded → BitVec 3
  | .nop _ | .s _ _ | .sImm _ _ => 0
  | .l _ _ => 5
  | .x _ _ => 1
  | .v _ _ => 2
  | .m _ _ => 3
  | .c _ _ => 4

theorem Encoded.classOf_words (f : Encoded) : classOf (f.words.headD 0) = f.class := by
  cases f with
  | nop a => exact classOf_eq (packS_fields _ _).1
  | s op o => exact classOf_eq (packS_fields _ _).1
  | sImm op o => exact classOf_eq (packSImm_fields _ _).1
  | l op o => exact classOf_eq (packLImm_fields _ _).1
  | x op o => exact classOf_eq (packX_fields _ _).1
  | v op o => exact classOf_eq (packV_fields _ _).1
  | m op o => exact classOf_eq (packM_fields _ _).1
  | c op o => exact classOf_eq (packC_fields _ _).1

/-- An instruction with words has the format of their class. -/
theorem exists_encoded_class {i : Instr} {ws : List IWord} {k : BitVec 3} (h : encode i = some ws)
    (hk : classOf (ws.headD 0) = k) : ∃ f : Encoded, f.class = k ∧ f.instr? = some i := by
  obtain ⟨f, hf, hi⟩ := exists_encoded h
  obtain rfl : ws = f.words := Option.some.inj (h.symm.trans hf)
  exact ⟨f, f.classOf_words.symm.trans hk, hi⟩

/-- Settles O29: each V and M instruction keeps what stands at its issue. -/
theorem vectorMatrixFrame : Obligations.VectorMatrixFrame := by
  refine ⟨fun i ws s t h hk ht => ?_, fun i ws s t h hk ht => ?_⟩
  · obtain ⟨f, hf, hi⟩ := exists_encoded_class h hk
    cases f with
    | v op o =>
      have hkeep := outKeeps_vector hi s t ht
      exact ⟨hkeep.regs, hkeep.store, hkeep.mem, hkeep.cbs, hkeep.planes⟩
    | nop | s | sImm | l | x | m | c => simp [Encoded.class] at hf
  · obtain ⟨f, hf, hi⟩ := exists_encoded_class h hk
    cases f with
    | m op o =>
      have hkeep := outKeeps_matrix hi s t ht
      exact ⟨hkeep.regs, hkeep.store, hkeep.mem, hkeep.cbs⟩
    | nop | s | sImm | l | x | v | c => simp [Encoded.class] at hf

end Sys2Proof.Machine
end

section
/-! PROOFS. The selections rank by the total order. -/

namespace Sys2Proof.Machine

/-! ### The total order as a linear key (R184) -/

/-- The rational number that a finite value stands for. -/
def FVal.ratOf (neg : Bool) (m : Nat) (e : Int) : ℚ := (if neg then -(m : ℚ) else m) * 2 ^ e

/-- The place of a value in the numeric order, NaN below all: a level, and the number at level 0. -/
def FVal.key : FVal → ℤ ×ₗ ℚ
  | .nan => toLex (-2, 0)
  | .inf true => toLex (-1, 0)
  | .fin neg m e => toLex (0, FVal.ratOf neg m e)
  | .inf false => toLex (1, 0)

/-- A significand brought to a smaller exponent stands for the same number. -/
theorem signedAt_ratOf (neg : Bool) (m : Nat) {e lo : Int} (h : lo ≤ e) :
    (signedAt neg m e lo : ℚ) * 2 ^ lo = FVal.ratOf neg m e := by
  have hpow : (2 : ℚ) ^ e = 2 ^ (e - lo).toNat * 2 ^ lo := by
    rw [← zpow_natCast, Int.toNat_of_nonneg (by omega), ← zpow_add₀ (by norm_num)]
    congr 1
    omega
  cases neg <;> simp [signedAt, FVal.ratOf, hpow, mul_assoc]

/-- Finite values compare as their numbers. -/
theorem FVal.lt_fin (a : Bool) (m : Nat) (e : Int) (b : Bool) (n : Nat) (g : Int) :
    (FVal.fin a m e).lt (.fin b n g) = true ↔ FVal.ratOf a m e < FVal.ratOf b n g := by
  have hpos : (0 : ℚ) < 2 ^ Min.min e g := by positivity
  rw [FVal.lt, decide_eq_true_eq, ← signedAt_ratOf a m (min_le_left e g), ← signedAt_ratOf b n (min_le_right e g),
    mul_lt_mul_iff_of_pos_right hpos, Int.cast_lt]

/-- Values that are not NaN compare as their keys. -/
theorem FVal.lt_iff_key {x y : FVal} (hx : x ≠ .nan) (hy : y ≠ .nan) : x.lt y = true ↔ x.key < y.key := by
  match x, y with
  | .nan, _ => exact absurd rfl hx
  | _, .nan => exact absurd rfl hy
  | .fin a m e, .fin b n g => simp [FVal.lt_fin, FVal.key, Prod.Lex.toLex_lt_toLex]
  | .inf a, .inf b => cases a <;> cases b <;> simp [FVal.lt, FVal.key, Prod.Lex.toLex_lt_toLex]
  | .inf a, .fin b n g => cases a <;> simp [FVal.lt, FVal.key, Prod.Lex.toLex_lt_toLex]
  | .fin a m e, .inf b => cases b <;> simp [FVal.lt, FVal.key, Prod.Lex.toLex_lt_toLex]

theorem FVal.nan_lt_key {y : FVal} (hy : y ≠ .nan) : FVal.key .nan < y.key := by
  match y with
  | .nan => exact absurd rfl hy
  | .fin b n g => simp [FVal.key, Prod.Lex.toLex_lt_toLex]
  | .inf b => cases b <;> simp [FVal.key, Prod.Lex.toLex_lt_toLex]

/-- The place of a lane's value under a tag. -/
def valueKey (t : Tag) (x : Nat) : ℤ ×ₗ ℚ := if t = 1 then (decodeF .f32 x).key else toLex (0, (laneInt t x : ℚ))

theorem valueAbove_iff (t : Tag) (a b : Nat) : valueAbove t a b = true ↔ valueKey t b < valueKey t a := by
  by_cases ht : t = 1
  · subst ht
    have hval : valueAbove 1 a b = match decodeF .f32 a, decodeF .f32 b with
        | .nan, _ => false
        | _, .nan => true
        | x, y => y.lt x := rfl
    rw [hval, valueKey, valueKey, if_pos rfl, if_pos rfl]
    generalize decodeF .f32 a = x
    generalize decodeF .f32 b = y
    match x, y with
    | .nan, .nan => simp
    | .nan, .inf _ | .nan, .fin _ _ _ => simpa using (FVal.nan_lt_key (by simp)).le
    | .inf _, .nan | .fin _ _ _, .nan => simpa using FVal.nan_lt_key (by simp)
    | .inf _, .inf _ | .inf _, .fin _ _ _ | .fin _ _ _, .inf _ | .fin _ _ _, .fin _ _ _ =>
      exact FVal.lt_iff_key (by simp) (by simp)
  · rw [valueAbove, if_neg (by simpa using ht), valueKey, valueKey, if_neg ht, if_neg ht]
    simp [Prod.Lex.toLex_lt_toLex]

/-- The place of an entry in the order of R184: larger values first, then smaller indexes, empty entries last. -/
def rankKey (t : Tag) (e : Nat × Nat) : WithTop ((ℤ ×ₗ ℚ)ᵒᵈ ×ₗ ℕ) :=
  if e.2 = emptyIndex then ⊤ else (toLex (OrderDual.toDual (valueKey t e.1), e.2) : (ℤ ×ₗ ℚ)ᵒᵈ ×ₗ ℕ)

/-- R184: the order of entries is that of their keys. -/
theorem entryAbove_iff (t : Tag) (a b : Nat × Nat) : entryAbove t a b = true ↔ rankKey t a < rankKey t b := by
  unfold entryAbove rankKey
  by_cases ha : a.2 = emptyIndex
  · simp [ha]
  · by_cases hb : b.2 = emptyIndex
    · simp [ha, hb]
    · rw [if_neg ha, if_neg hb, if_neg ha, if_neg hb, WithTop.coe_lt_coe, Prod.Lex.toLex_lt_toLex]
      simp only [Bool.or_eq_true, Bool.and_eq_true, Bool.not_eq_true', decide_eq_true_eq, valueAbove_iff,
        OrderDual.toDual_lt_toDual, OrderDual.toDual_inj, ← Bool.not_eq_true, not_lt]
      constructor
      · rintro (h | ⟨hle, hlt⟩)
        · exact .inl h
        · exact hle.lt_or_eq.imp id fun h => ⟨h.symm, hlt⟩
      · rintro (h | ⟨heq, hlt⟩)
        · exact .inl h
        · exact .inr ⟨heq.ge, hlt⟩

/-! ### Sorting by rank -/

theorem insertRank_perm (t : Tag) (x : Nat × Nat) (ys : List (Nat × Nat)) : (insertRank t x ys).Perm (x :: ys) := by
  induction ys with
  | nil => rfl
  | cons y ys ih =>
    rw [insertRank]
    split
    · rfl
    · exact (ih.cons y).trans (.swap x y ys)

/-- Entries of which none ranks above one before it. -/
def Ranked (t : Tag) (xs : List (Nat × Nat)) : Prop := xs.Pairwise fun a b => rankKey t a ≤ rankKey t b

theorem Ranked.insertRank {t : Tag} {xs : List (Nat × Nat)} (h : Ranked t xs) (x : Nat × Nat) :
    Ranked t (insertRank t x xs) := by
  induction xs with
  | nil => exact List.pairwise_singleton _ _
  | cons y ys ih =>
    obtain ⟨hy, hys⟩ := List.pairwise_cons.mp h
    rw [Machine.insertRank]
    split
    · rename_i habove
      have hlt := (entryAbove_iff t x y).mp habove
      refine List.pairwise_cons.mpr ⟨fun z hz => ?_, h⟩
      rcases List.mem_cons.mp hz with rfl | hz
      · exact hlt.le
      · exact hlt.le.trans (hy z hz)
    · rename_i habove
      have hle := not_lt.mp fun hlt => habove ((entryAbove_iff t x y).mpr hlt)
      refine List.pairwise_cons.mpr ⟨fun z hz => ?_, ih hys⟩
      rcases List.mem_cons.mp ((insertRank_perm t x ys).mem_iff.mp hz) with rfl | hz
      · exact hle
      · exact hy z hz

/-- R184: the entries in the order of their ranks are the same entries, each ranked. -/
theorem rankSort_spec (t : Tag) (xs : List (Nat × Nat)) : (rankSort t xs).Perm xs ∧ Ranked t (rankSort t xs) := by
  have key : ∀ (xs s : List (Nat × Nat)), Ranked t s →
      (xs.foldl (fun s x => insertRank t x s) s).Perm (s ++ xs) ∧
        Ranked t (xs.foldl (fun s x => insertRank t x s) s) := by
    intro xs
    induction xs with
    | nil => intro s hs; rw [List.append_nil]; exact ⟨.refl s, hs⟩
    | cons x xs ih =>
      intro s hs
      obtain ⟨hp, hr⟩ := ih (insertRank t x s) (hs.insertRank x)
      exact ⟨hp.trans (((insertRank_perm t x s).append_right xs).trans List.perm_middle.symm), hr⟩
  exact key xs [] List.Pairwise.nil

/-- Of neighbours in ranked entries the later one does not rank above the earlier one. -/
theorem Ranked.neighbours {t : Tag} {xs : List (Nat × Nat)} (h : Ranked t xs) {j : Nat} (hj : j + 1 < xs.length) :
    entryAbove t (xs.getD (j + 1) (0, 0)) (xs.getD j (0, 0)) = false := by
  rw [List.getD_eq_getElem _ _ hj, List.getD_eq_getElem _ _ (by omega), ← Bool.not_eq_true, entryAbove_iff, not_lt]
  exact List.pairwise_iff_getElem.mp h j (j + 1) _ hj (Nat.lt_succ_self j)

/-! ### The instructions -/

section
variable {s : State} {o : VOp}

/-- R53: the ranked tags have as many lanes as the indexes, so every mask is legal. -/
theorem kmOk_ranked {t : Tag} (h : tagRanked t = true) (km : BitVec 3) : kmOk km t 11 = true := by
  have : ∀ t : Tag, tagRanked t = true → (t != 13 && (11 : Tag) != 13 && tagLanes t == tagLanes 11) = true := by decide
  rw [kmOk, this t h, Bool.or_true]

theorem State.vselect_next {more : Nat} {fin : VIn → State → State} (h : s.vReady o 1 more)
    (ht : (s.vIn o 1).ok tagRanked = true) : s.vselect o more fin = .next (fin (s.vIn o 1) (s.vHeld o 1)) :=
  State.vrun_next h (kmOk_ranked (VIn.ok_accept ht) _) ht

theorem vsort_next (h : s.vReady o 1 1) (ht : (s.vIn o 1).ok tagRanked = true) :
    exec (.vsort o) s = .next ((s.vHeld o 1).putList 10 o (s.vIn o 1).tag (rankSort (s.vIn o 1).tag (candEntries
      (candLanes (s.core.bank.mask o.km) ((s.vIn o 1).x 0) ((s.bcastVal o.b).toNat % 2 ^ 32)))) (s.vIn o 1).lost) := by
  change execVsort o s = _
  rw [execVsort, State.vselect_next h ht, State.vHeld_mask]

theorem vtopk_next (h : s.vReady o 1 2) (ht : (s.vIn o 1).ok tagRanked = true) :
    let i := s.vIn o 1
    let cs := candLanes (s.core.bank.mask o.km) (i.x 0) ((s.bcastVal o.c).toNat % 2 ^ 32)
    let sel := (rankSort i.tag (candEntries cs)).take ((s.bcastVal o.b).toNat % 2 ^ 32)
    exec (.vtopk o) s = .next (((s.vHeld o 1).putList 12 o i.tag sel i.lost).vputMore 12 (o.vd.toNat + 2) i.tag
      (ofLanes 32 [lanesSum i.tag cs fun n => sel.any fun e => e.2 == n,
        lanesSum i.tag cs fun n => !(sel.any fun e => e.2 == n)])) := by
  change execVtopk o s = _
  rw [execVtopk, State.vselect_next h ht, State.vHeld_mask]

theorem vcomp_next (h : s.vReady o 1 2) (ht : (s.vIn o 1).ok tagRanked = true) :
    let i := s.vIn o 1
    let sel := (candEntries (candLanes (s.core.bank.mask o.km) (i.x 0) ((s.bcastVal o.c).toNat % 2 ^ 32))).filter
      fun e => valueAbove i.tag e.1 ((s.bcastVal o.b).toNat % 2 ^ 32)
    exec (.vcomp o) s = .next (((s.vHeld o 1).putList 6 o i.tag sel i.lost).vputMore 6 (o.vd.toNat + 2) 11
      (ofLanes 32 [sel.length])) := by
  change execVcomp o s = _
  rw [execVcomp, State.vselect_next h ht, State.vHeld_mask]

/-- A lane of a register of 64 lanes. -/
theorem laneAt_ofLanes_64 (xs : List Nat) {l : Nat} (hl : l < 64) :
    laneAt 32 (ofLanes 32 xs) l = xs.getD l 0 % 2 ^ 32 := laneAt_ofLanes 32 (by decide) (by decide) xs l hl
end

/-- Settles O26: the ranking by its linear key, and each selection by what it puts in flight. -/
theorem vectorSelections : Obligations.VectorSelections := by
  refine fun o s => ⟨fun h ht => ?_, fun h ht => ⟨⟨_, vtopk_next h ht, ?_, ?_, fun l hl hl' => ?_⟩,
    _, vcomp_next h ht, rfl⟩, fun hr => ?_⟩
  · obtain ⟨hp, hr⟩ := rankSort_spec (s.vIn o 1).tag (candEntries (candLanes (s.core.bank.mask o.km) ((s.vIn o 1).x 0)
      ((s.bcastVal o.b).toNat % 2 ^ 32)))
    exact ⟨_, vsort_next h ht, hp, fun j hj => hr.neighbours hj⟩
  · exact laneAt_ofLanes_64 _ (by decide)
  · exact laneAt_ofLanes_64 _ (by decide)
  · rw [laneAt_ofLanes_64 _ hl', List.getD_eq_default _ _ (by simpa using hl)]
    rfl
  · intro b a c ha0 ha1 hb0 hb1 hd0 hd1 hrank hc0 ha1t hc1t
    change execVmergek o s = _
    have hin : (!(b.vregIn o.a.toNat) || !(b.vregIn (o.a.toNat + 1)) || !(b.vregIn o.b.toNat) ||
        !(b.vregIn (o.b.toNat + 1)) || !(b.vregIn o.vd.toNat) || !(b.vregIn (o.vd.toNat + 1))) = false := by
      rw [ha0, ha1, hb0, hb1, hd0, hd1]
      rfl
    have htags : (!(tagRanked (a 0).tag) || (c 0).tag != (a 0).tag || (a 1).tag != 11 || (c 1).tag != 11) = false := by
      rw [hrank, hc0, ha1t, hc1t, bne_self_eq_false]
      rfl
    rw [execVmergek, State.primaryOnly_runs hr]
    exact (if_neg (Bool.eq_false_iff.mp hin)).trans (if_neg (Bool.eq_false_iff.mp htags))

end Sys2Proof.Machine
end

section
/-! PROOFS. Conversions, quantisation, dequantisation and scaling. -/

namespace Sys2Proof.Machine

/-! ### Integer conversions (R58, R59) -/

/-- The range of an integer tag. -/
theorem intRange_eq (t : Tag) : intRange t =
    ((if tagSigned t then -(2 ^ (tagWidth t - 1)) else 0 : Int),
      (if tagSigned t then 2 ^ (tagWidth t - 1) - 1 else 2 ^ tagWidth t - 1 : Int)) := by
  unfold intRange
  cases tagSigned t <;> simp

/-- A finite value converted to an integer tag: rounded, clamped, and wrapped to the lane. -/
theorem convertElem_fin {src dst : Tag} (hd : tagInt dst = true) {x : Nat} {neg : Bool} {m : Nat} {e : Int} (r : Rnd)
    (h : elemValue src x = .fin neg m e) :
    convertElem src x dst r = (wrapTo (tagWidth dst) (clampTo dst (roundInt r neg m e)), false) := by
  obtain ⟨-, -, -, -, hn⟩ := tagInt_width hd
  have h5 : (dst == 5) = false := by clear hn; revert dst; decide
  simp only [convertElem, hn, h5, h, Bool.false_eq_true, if_false]

theorem convertElem_inf {src dst : Tag} (hd : tagInt dst = true) {x : Nat} {neg : Bool} (r : Rnd)
    (h : elemValue src x = .inf neg) :
    convertElem src x dst r = (wrapTo (tagWidth dst) (if neg then (intRange dst).1 else (intRange dst).2), false) := by
  obtain ⟨-, -, -, -, hn⟩ := tagInt_width hd
  have h5 : (dst == 5) = false := by clear hn; revert dst; decide
  simp only [convertElem, hn, h5, h, Bool.false_eq_true, if_false]

theorem convertElem_nan {src dst : Tag} (hd : tagInt dst = true) {x : Nat} (r : Rnd) (h : elemValue src x = .nan) :
    convertElem src x dst r = (0, true) := by
  obtain ⟨-, -, -, -, hn⟩ := tagInt_width hd
  have h5 : (dst == 5) = false := by clear hn; revert dst; decide
  simp only [convertElem, hn, h5, h, Bool.false_eq_true, if_false]

theorem elemValue_fmt {t : Tag} {f : FFmt} (h : tagFmt t = some f) (x : Nat) : elemValue t x = decodeF f x := by
  simp only [elemValue, h]

/-- An integer needs no rounding. -/
theorem roundInt_zero (r : Rnd) (neg : Bool) (m : Nat) : roundInt r neg m 0 = if neg then -(m : Int) else m := by
  simp [roundInt, roundScaled]

/-- The value of a lane of an integer tag, and its rounding, which is itself. -/
theorem elemValue_int {t : Tag} (ht : tagInt t = true) {x : Nat} (hx : x < 2 ^ tagWidth t) :
    ∃ neg m, elemValue t x = .fin neg m 0 ∧ ∀ r, roundInt r neg m 0 = laneInt t x := by
  obtain ⟨-, -, -, -, hn⟩ := tagInt_width ht
  have h5 : (t == 5) = false := by clear hx hn; revert t; decide
  cases hs : tagSigned t with
  | true =>
    refine ⟨decide (signedOf (tagWidth t) x < 0), (signedOf (tagWidth t) x).natAbs, ?_, fun r => ?_⟩
    · simp only [elemValue, hn, h5, hs, Bool.false_eq_true, if_false, if_true, ofIntScaled]
    · rw [roundInt_zero, laneInt, hs, if_pos rfl]
      by_cases hneg : signedOf (tagWidth t) x < 0
      · rw [if_pos (decide_eq_true hneg)]; omega
      · rw [if_neg (by simpa using hneg)]; omega
  | false =>
    refine ⟨false, x, ?_, fun r => ?_⟩
    · simp only [elemValue, hn, h5, hs, Bool.false_eq_true, if_false, Nat.mod_eq_of_lt hx]
    · rw [roundInt_zero, laneInt, hs]
      rfl

/-! ### Dequantised elements (R391) -/

theorem dequantElem_nan {t : Tag} {f : FFmt} (hf : tagFmt t = some f) {code x : Nat}
    (h : decodeF f x = .nan ∨ code = 255) : dequantElem t code x = 0x7FC00000 := by
  rw [dequantElem, elemValue_fmt hf]
  rcases h with h | rfl
  · rw [h]
  · cases decodeF f x <;> rfl

theorem dequantElem_inf {t : Tag} {f : FFmt} (hf : tagFmt t = some f) {code x : Nat} (hc : code ≠ 255) {neg : Bool}
    (h : decodeF f x = .inf neg) : dequantElem t code x = if neg then 0xFF800000 else 0x7F800000 := by
  rw [dequantElem, elemValue_fmt hf, h]
  simp only [if_neg hc]
  cases neg <;> rfl

theorem dequantElem_fin {t : Tag} {f : FFmt} (hf : tagFmt t = some f) {code x : Nat} (hc : code ≠ 255) {neg : Bool}
    {m : Nat} {e : Int} (h : decodeF f x = .fin neg m e) :
    dequantElem t code x = encodeF .f32 .rtz true (.fin neg m (e + code - 127)) := by
  rw [dequantElem, elemValue_fmt hf, h]
  simp only [if_neg hc, FVal.scale, Int.add_sub_assoc]

/-! ### The scale code of a block (R195) -/

/-- A finite code of a format, by its magnitude field: the fraction of the smallest exponent, or a leading one. -/
theorem decodeF_fin {f : FFmt} {x : Nat} {neg : Bool} {m : Nat} {e : Int} (h : decodeF f x = .fin neg m e) :
    let mag := x % 2 ^ f.signPos
    mag ≤ f.maxCode ∧
    (mag < 2 ^ f.fbits ∧ m = mag ∧ e = 1 - (f.bias : Int) - f.fbits ∨
      2 ^ f.fbits ≤ mag ∧ m = 2 ^ f.fbits + mag % 2 ^ f.fbits ∧
        e = ((mag / 2 ^ f.fbits : Nat) : Int) - f.bias - f.fbits) := by
  intro mag
  have hpos : 0 < 2 ^ f.fbits := by positivity
  simp only [decodeF] at h
  split at h
  · rename_i hle
    refine ⟨hle, ?_⟩
    split at h
    · rename_i hex
      obtain ⟨-, rfl, rfl⟩ := FVal.fin.inj h
      have hlt : mag < 2 ^ f.fbits := (Nat.div_eq_zero_iff_lt hpos).mp hex
      exact .inl ⟨hlt, Nat.mod_eq_of_lt hlt, rfl⟩
    · rename_i hex
      obtain ⟨-, rfl, rfl⟩ := FVal.fin.inj h
      exact .inr ⟨not_lt.mp fun hlt => hex (Nat.div_eq_of_lt hlt), rfl, rfl⟩
  · split at h <;> cases h

/-- A magnitude code in units of the format's smallest value. -/
def FFmt.units (f : FFmt) (mag : Nat) : Nat :=
  if mag < 2 ^ f.fbits then mag else (2 ^ f.fbits + mag % 2 ^ f.fbits) * 2 ^ (mag / 2 ^ f.fbits - 1)

/-- A larger code stands for a larger value. -/
theorem FFmt.units_mono (f : FFmt) {a b : Nat} (h : a ≤ b) : f.units a ≤ f.units b := by
  unfold FFmt.units
  generalize hF : 2 ^ f.fbits = F
  have hpos : 0 < F := hF ▸ by positivity
  by_cases hb : b < F
  · rw [if_pos hb, if_pos (lt_of_le_of_lt h hb)]
    exact h
  · rw [if_neg hb]
    by_cases ha : a < F
    · rw [if_pos ha]
      calc a ≤ F + b % F := by omega
        _ ≤ (F + b % F) * 2 ^ (b / F - 1) := Nat.le_mul_of_pos_right _ (by positivity)
    · rw [if_neg ha]
      have hq : a / F ≤ b / F := Nat.div_le_div_right h
      have hqa : 1 ≤ a / F := (Nat.one_le_div_iff hpos).mpr (not_lt.mp ha)
      rcases hq.eq_or_lt with heq | hlt
      · have hr : a % F ≤ b % F := by
          have ha' := Nat.div_add_mod a F
          have hb' := Nat.div_add_mod b F
          rw [heq] at ha'
          omega
        rw [heq]
        exact Nat.mul_le_mul_right _ (by omega)
      · calc (F + a % F) * 2 ^ (a / F - 1) ≤ (2 * F) * 2 ^ (a / F - 1) :=
              Nat.mul_le_mul_right _ (by have := Nat.mod_lt a hpos; omega)
          _ = F * 2 ^ (a / F - 1 + 1) := by rw [pow_succ]; ring
          _ ≤ F * 2 ^ (b / F - 1) := Nat.mul_le_mul_left _ (Nat.pow_le_pow_right (by decide) (by omega))
          _ ≤ (F + b % F) * 2 ^ (b / F - 1) := Nat.mul_le_mul_right _ (by omega)

/-- The magnitude of a finite code is its units of the format's smallest value. -/
theorem ratOf_units {f : FFmt} {x : Nat} {neg : Bool} {m : Nat} {e : Int} (h : decodeF f x = .fin neg m e) :
    FVal.ratOf false m e = f.units (x % 2 ^ f.signPos) * 2 ^ (1 - (f.bias : Int) - f.fbits) := by
  have hpos : 0 < 2 ^ f.fbits := by positivity
  obtain ⟨-, ⟨hlt, rfl, rfl⟩ | ⟨hle, rfl, rfl⟩⟩ := decodeF_fin h
  · simp only [FVal.ratOf, FFmt.units, if_pos hlt, Bool.false_eq_true, if_false]
  · have hq : 1 ≤ x % 2 ^ f.signPos / 2 ^ f.fbits := (Nat.one_le_div_iff hpos).mpr hle
    simp only [FVal.ratOf, FFmt.units, if_neg (not_lt.mpr hle), Bool.false_eq_true, if_false]
    rw [Nat.cast_mul, Nat.cast_pow, Nat.cast_ofNat, mul_assoc, ← zpow_natCast, ← zpow_add₀ (by norm_num)]
    congr 2
    omega

/-- A finite code is zero exactly with its magnitude field. -/
theorem decodeF_fin_zero {f : FFmt} {x : Nat} {neg : Bool} {m : Nat} {e : Int} (h : decodeF f x = .fin neg m e) :
    m = 0 ↔ x % 2 ^ f.signPos = 0 := by
  have hpos : 0 < 2 ^ f.fbits := by positivity
  obtain ⟨-, ⟨hlt, rfl, rfl⟩ | ⟨hle, rfl, rfl⟩⟩ := decodeF_fin h
  · exact Iff.rfl
  · omega

/-- The code without its sign stands for the magnitude. -/
theorem decodeF_magnitude {f : FFmt} {x : Nat} {neg : Bool} {m : Nat} {e : Int} (h : decodeF f x = .fin neg m e) :
    decodeF f (x % 2 ^ f.signPos) = .fin false m e := by
  have hlt : x % 2 ^ f.signPos < 2 ^ f.signPos := Nat.mod_lt _ (by positivity)
  simp only [decodeF, Nat.mod_mod, Nat.div_eq_of_lt hlt] at h ⊢
  split at h
  · rename_i hle
    rw [if_pos hle]
    split at h
    · rename_i hex
      rw [if_pos hex]
      obtain ⟨-, hm, he⟩ := FVal.fin.inj h
      rw [hm, he]; rfl
    · rename_i hex
      rw [if_neg hex]
      obtain ⟨-, hm, he⟩ := FVal.fin.inj h
      rw [hm, he]; rfl
  · split at h <;> cases h

/-- The value is finite. -/
def FVal.isFin : FVal → Bool
  | .fin _ _ _ => true
  | _ => false

theorem FVal.isFin_iff (v : FVal) : v.isFin = true ↔ ∃ neg m e, v = .fin neg m e := by
  cases v <;> simp [FVal.isFin]

/-- A running maximum bounds what it has seen, and is the start or one of them. -/
theorem foldl_max_spec (xs : List Nat) (a : Nat) :
    a ≤ xs.foldl max a ∧ (∀ x ∈ xs, x ≤ xs.foldl max a) ∧ (xs.foldl max a = a ∨ xs.foldl max a ∈ xs) := by
  induction xs generalizing a with
  | nil => exact ⟨le_rfl, by simp, .inl rfl⟩
  | cons y ys ih =>
    obtain ⟨hle, hall, hone⟩ := ih (max a y)
    refine ⟨(le_max_left a y).trans hle, fun x hx => ?_, ?_⟩
    · rcases List.mem_cons.mp hx with rfl | hx
      · exact (le_max_right a x).trans hle
      · exact hall x hx
    · rcases hone with h | h
      · rcases max_choice a y with hm | hm
        · exact .inl (h.trans hm)
        · exact .inr (List.mem_cons.mpr (.inl (h.trans hm)))
      · exact .inr (List.mem_cons_of_mem y h)

section
variable {t : Tag} {f : FFmt} (hf : tagFmt t = some f)
include hf

/-- R195: the block's largest magnitude is the maximum of the finite ones. -/
theorem blockMax_eq (xs : List Nat) :
    blockMax t xs = ((xs.filter fun x => (decodeF f x).isFin).map (· % 2 ^ f.signPos)).foldl max 0 := by
  unfold blockMax
  generalize 0 = a
  induction xs generalizing a with
  | nil => rfl
  | cons y ys ih =>
    rw [List.foldl_cons, ih, elemValue_fmt hf, laneAbs_fmt hf]
    cases hy : decodeF f y <;> simp [hy, FVal.isFin]

/-- The largest finite magnitude of a block: none is larger, and it is one of them or 0. -/
theorem blockMax_spec (xs : List Nat) :
    (∀ x ∈ xs, ∀ neg m e, decodeF f x = .fin neg m e → x % 2 ^ f.signPos ≤ blockMax t xs) ∧
    (blockMax t xs = 0 ∨ ∃ x ∈ xs, ∃ neg m e, decodeF f x = .fin neg m e ∧ blockMax t xs = x % 2 ^ f.signPos) := by
  obtain ⟨-, hall, hone⟩ := foldl_max_spec ((xs.filter fun x => (decodeF f x).isFin).map (· % 2 ^ f.signPos)) 0
  rw [blockMax_eq hf]
  refine ⟨fun x hx neg m e h => hall _ ?_, hone.imp id fun h => ?_⟩
  · exact List.mem_map.mpr ⟨x, List.mem_filter.mpr ⟨hx, (FVal.isFin_iff _).mpr ⟨neg, m, e, h⟩⟩, rfl⟩
  · obtain ⟨x, hx, heq⟩ := List.mem_map.mp h
    obtain ⟨hx, hfin⟩ := List.mem_filter.mp hx
    obtain ⟨neg, m, e, h⟩ := (FVal.isFin_iff _).mp hfin
    exact ⟨x, hx, neg, m, e, h, heq.symm⟩

/-- R195: the binary logarithm of a finite code, rounded down, from bounds on its magnitude. -/
theorem floorLog2_eq {x : Nat} {neg : Bool} {m : Nat} {e k : Int} (h : decodeF f x = .fin neg m e)
    (hlo : (2 : ℚ) ^ k ≤ FVal.ratOf false m e) (hhi : FVal.ratOf false m e < 2 ^ (k + 1)) :
    floorLog2 t (x % 2 ^ f.signPos) = k := by
  have two : (1 : ℚ) < 2 := by norm_num
  have hm : m ≠ 0 := by
    rintro rfl
    have : (0 : ℚ) < 2 ^ k := by positivity
    simp [FVal.ratOf] at hlo
    linarith
  have hval : FVal.ratOf false m e = m * 2 ^ e := by simp [FVal.ratOf]
  have hle : (2 : ℚ) ^ ((Nat.log2 m : Int) + e) ≤ m * 2 ^ e := by
    rw [zpow_add₀ (by norm_num), zpow_natCast]
    exact mul_le_mul_of_nonneg_right (by exact_mod_cast Nat.log2_self_le hm) (by positivity)
  have hlt : (m * 2 ^ e : ℚ) < 2 ^ ((Nat.log2 m : Int) + 1 + e) := by
    rw [zpow_add₀ (by norm_num)]
    exact mul_lt_mul_of_pos_right (by exact_mod_cast Nat.lt_log2_self) (by positivity)
  rw [hval] at hlo hhi
  have h1 := (zpow_lt_zpow_iff_right₀ two).mp (hle.trans_lt hhi)
  have h2 := (zpow_lt_zpow_iff_right₀ two).mp (hlo.trans_lt hlt)
  rw [floorLog2, elemValue_fmt hf, decodeF_magnitude h]
  show (Nat.log2 m : Int) + e = k
  omega

/-- R195: a block with no finite value but zeros has the scale code 0. -/
theorem scaleCode_zero {xs : List Nat} (h : ∀ x ∈ xs, ∀ neg m e, decodeF f x = .fin neg m e → m = 0) :
    scaleCode t xs = 0 := by
  refine if_pos ?_
  rcases (blockMax_spec hf xs).2 with h0 | ⟨x, hx, neg, m, e, hfin, heq⟩
  · exact h0
  · rw [heq, ← decodeF_fin_zero hfin]
    exact h x hx neg m e hfin

/-- R195: the scale code of a block whose largest finite magnitude lies between 2^k and 2^(k+1). -/
theorem scaleCode_eq {xs : List Nat} {k : Int}
    (hhi : ∀ x ∈ xs, ∀ neg m e, decodeF f x = .fin neg m e → FVal.ratOf false m e < 2 ^ (k + 1))
    (hlo : ∃ x ∈ xs, ∃ neg m e, decodeF f x = .fin neg m e ∧ 2 ^ k ≤ FVal.ratOf false m e) :
    (scaleCode t xs : Int) = max 0 (min 254 (k - 8 + 127)) := by
  obtain ⟨y, hy, negy, my, ey, hfiny, hloy⟩ := hlo
  have hpos : (0 : ℚ) < 2 ^ k := by positivity
  obtain ⟨hall, hone⟩ := blockMax_spec hf xs
  have hya := hall y hy negy my ey hfiny
  have hne : blockMax t xs ≠ 0 := by
    intro h0
    have hzero : y % 2 ^ f.signPos = 0 := by omega
    rw [(decodeF_fin_zero hfiny).mpr hzero] at hloy
    simp [FVal.ratOf] at hloy
    linarith
  obtain ⟨x, hx, neg, m, e, hfin, heq⟩ := hone.resolve_left hne
  have hge : (2 : ℚ) ^ k ≤ FVal.ratOf false m e := by
    refine hloy.trans ?_
    rw [ratOf_units hfiny, ratOf_units hfin]
    refine mul_le_mul_of_nonneg_right ?_ (by positivity)
    exact_mod_cast f.units_mono (heq ▸ hya)
  have hlog := floorLog2_eq hf hfin hge (hhi x hx neg m e hfin)
  have hcode : scaleCode t xs = (max 0 (min (floorLog2 t (blockMax t xs) - 8 + 127) 254)).toNat := if_neg hne
  rw [hcode, heq, hlog, min_comm]
  exact Int.toNat_of_nonneg (le_max_left _ _)
end

theorem scaleCode_lt (t : Tag) (xs : List Nat) : scaleCode t xs < 256 := by
  unfold scaleCode
  dsimp only
  split <;> omega

/-! ### The lanes of a quantisation (R195) -/

/-- The elements of block b. -/
def blockOf (xs : List Nat) (b : Nat) : List Nat := (xs.drop (32 * b)).take 32

section
variable {xs : List Nat} {n b : Nat} (hlen : xs.length = 32 * n) (hb : b < n)
include hlen hb

theorem length_blockOf : (blockOf xs b).length = 32 := by
  rw [blockOf, List.length_take, List.length_drop]
  omega

theorem getElem?_blockOf {e : Nat} (he : e < 32) : (blockOf xs b)[e]? = some (xs.getD (32 * b + e) 0) := by
  rw [blockOf, List.getElem?_take, if_pos he, List.getElem?_drop, List.getD_eq_getElem _ _ (by omega),
    List.getElem?_eq_getElem]

theorem mem_blockOf {x : Nat} : x ∈ blockOf xs b ↔ ∃ e < 32, x = xs.getD (32 * b + e) 0 := by
  rw [List.mem_iff_getElem?]
  constructor
  · rintro ⟨e, he⟩
    have he32 : e < 32 := by
      have := (List.getElem?_eq_some_iff.mp he).1
      rwa [length_blockOf hlen hb] at this
    exact ⟨e, he32, Option.some.inj (he.symm.trans (getElem?_blockOf hlen hb he32))⟩
  · rintro ⟨e, he, rfl⟩
    exact ⟨e, getElem?_blockOf hlen hb he⟩
end

/-- An element of blocks of 32 elements, one after the other. -/
theorem getD_flatMap_blocks {h : Nat → List Nat} {n e : Nat} (hlen : ∀ b < n, (h b).length = 32) (he : e < 32 * n) :
    ((List.range n).flatMap h).getD e 0 = (h (e / 32)).getD (e % 32) 0 := by
  induction n with
  | zero => omega
  | succ n ih =>
    have hfront : ((List.range n).flatMap h).length = 32 * n := by
      rw [List.length_flatMap, List.map_congr_left (g := fun _ => 32) fun b hb =>
        hlen b (Nat.lt_succ_of_lt (List.mem_range.mp hb))]
      simp [Nat.mul_comm]
    rw [List.range_succ, List.flatMap_append, List.flatMap_singleton]
    by_cases hlt : e < 32 * n
    · rw [List.getD_append _ _ _ _ (by rwa [hfront])]
      exact ih (fun b hb => hlen b (by omega)) hlt
    · rw [List.getD_append_right _ _ _ _ (by rw [hfront]; omega), hfront, show e / 32 = n by omega,
        show e % 32 = e - 32 * n by omega]

/-- Lists of 32 n elements in chunks of 32. -/
theorem chunks_eq (n : Nat) (xs : List Nat) (hlen : xs.length = 32 * n) :
    chunks 32 n xs = (List.range n).map (blockOf xs) := by
  induction n generalizing xs with
  | zero => rfl
  | succ n ih =>
    have hne : xs.isEmpty = false := by
      rw [List.isEmpty_eq_false_iff, ← List.length_pos_iff]; omega
    rw [chunks, hne, List.range_succ_eq_map, List.map_cons, List.map_map, ih _ (by rw [List.length_drop]; omega)]
    refine congrArg₂ List.cons (by simp [blockOf]) (List.map_congr_left fun b _ => ?_)
    simp [blockOf, List.drop_drop, Nat.mul_add, Nat.add_comm]

section
variable {t : Tag} {f : FFmt} {r : Rnd} {xs : List Nat} (hlen : xs.length = 256)
include hlen

theorem quantize_scale {b : Nat} (hb : b < 8) : laneAt 8 (quantize t r xs).2 b = scaleCode t (blockOf xs b) := by
  have : laneAt 8 (quantize t r xs).2 b = ((chunks 32 8 xs).map (scaleCode t)).getD b 0 % 2 ^ 8 :=
    laneAt_ofLanes 8 (by decide) (by decide) _ b (by omega)
  rw [this, chunks_eq 8 xs hlen, List.map_map]
  simp [List.getD, hb, Nat.mod_eq_of_lt (scaleCode_lt t _)]

theorem quantize_scale_fill {b : Nat} (hb : 8 ≤ b) (hb' : b < 256) : laneAt 8 (quantize t r xs).2 b = 0 := by
  have : laneAt 8 (quantize t r xs).2 b = ((chunks 32 8 xs).map (scaleCode t)).getD b 0 % 2 ^ 8 :=
    laneAt_ofLanes 8 (by decide) (by decide) _ b (by omega)
  rw [this, chunks_eq 8 xs hlen, List.getD_eq_default _ _ (by simpa using hb)]
  rfl

/-- R195: each element is scaled by its block's code and rounded. -/
theorem quantize_elem {e : Nat} (he : e < 256) : laneAt 8 (quantize t r xs).1 e =
    quantElem t r (laneAt 8 (quantize t r xs).2 (e / 32)) (xs.getD e 0) % 256 := by
  have hblock : e / 32 < 8 := by omega
  have : laneAt 8 (quantize t r xs).1 e =
      ((chunks 32 8 xs).flatMap fun b => b.map (quantElem t r (scaleCode t b))).getD e 0 % 2 ^ 8 :=
    laneAt_ofLanes 8 (by decide) (by decide) _ e (by omega)
  rw [this, quantize_scale hlen hblock, chunks_eq 8 xs hlen, List.flatMap_map,
    getD_flatMap_blocks (fun b hb => by rw [List.length_map, length_blockOf hlen hb]) he]
  rw [List.getD, List.getElem?_map, getElem?_blockOf hlen hblock (Nat.mod_lt e (by decide)), Nat.div_add_mod]
  rfl

end

/-! ### The instructions -/

section
variable {s : State} {o : VOp}

theorem vcvt_next (h : s.vReady o 1 0) (ht : (s.vIn o 1).ok tagData = true)
    (hk : kmOk o.km (s.vIn o 1).tag (o.c.setWidth 4) = true) :
    let r := convertLanes (s.vIn o 1).tag (o.c.setWidth 4) (rndOf o.rnd) ((s.vIn o 1).x 0) (s.core.bank.mask o.km)
    exec (.vcvt o) s = .next ((s.vHeld o 1).vput 3 o (o.c.setWidth 4) r.1 (s.core.bank.mask o.km)
      (flagBits r.2 false (s.vIn o 1).lost)) := by
  intro r
  change execVcvt o s = _
  rw [execVcvt, State.vlanes_next (out := fun _ => o.c.setWidth 4) h hk ht]

theorem convertLanes_lane (src dst : Tag) (r : Rnd) (a k : VBits) {l : Nat}
    (hl : l < min (tagLanes src) (tagLanes dst)) : laneAt (tagWidth dst) (convertLanes src dst r a k).1 l =
      (convertElem src (laneAt (tagWidth src) a l) dst r).1 % 2 ^ tagWidth dst := by
  simp only [convertLanes]
  rw [laneAt_ofLanes_tag _ (lt_of_lt_of_le hl (min_le_right _ _))]
  simp only [List.getD, List.getElem?_map, List.getElem?_range hl, Option.map_some, Option.getD_some]

theorem vscl_gives (h : s.vReady o 2 0) (ht : tagFloat ((s.vIn o 2).tagOf 0) = true)
    (hk : kmOk o.km ((s.vIn o 2).tagOf 0) ((s.vIn o 2).tagOf 0) = true)
    (hb : (s.vIn o 2).isPlain 1 = true ∨ (s.vIn o 2).tagOf 1 = if (s.vIn o 2).tagOf 0 = 1 then 8 else 7) :
    let i := s.vIn o 2
    let ty := i.tagOf 0
    s.vGives (.vscl o) o 2 3 ty (s.core.bank.mask o.km)
      fun l => laneScale ty (rndOf o.rnd) (laneAt (tagWidth ty) (i.x 0) l) (laneAt (tagWidth ty) (i.x 1) l) := by
  intro i ty
  have htags : (tagFloat ty && (i.isPlain 1 || i.tagOf 1 == (if ty == 1 then 8 else 7))) = true := by
    simp only [ht, Bool.true_and, Bool.or_eq_true, beq_iff_eq, ty, i]
    exact hb
  refine ⟨map2 ty (laneScale ty (rndOf o.rnd)) (i.x 0) (i.x 1), ?_, fun l hl => map2_lane (tagFloat_width ht).1 _ _ _ l hl⟩
  change execVscl o s = _
  rw [execVscl, State.vrun_next h hk htags, State.vHeld_mask]
  rfl

/-- R391: the elements that VDQNT writes. -/
def VIn.dequant (i : VIn) (e : Nat) : Nat := dequantElem (i.tagOf 0) (laneAt 8 (i.x 1) (e / 32)) (laneAt 8 (i.x 0) e)

/-- R391: the n-th of the four registers of F32 elements. -/
def VIn.dequantPart (i : VIn) (n : Nat) : VBits :=
  ofLanes 32 ((((List.range 256).map i.dequant).drop (64 * n)).take 64)

theorem VIn.dequantPart_lane (i : VIn) {n l : Nat} (hn : n < 4) (hl : l < 64) :
    laneAt 32 (i.dequantPart n) l = i.dequant (64 * n + l) % 2 ^ 32 := by
  rw [VIn.dequantPart, laneAt_ofLanes_64 _ hl, List.getD, List.getElem?_take, if_pos hl, List.getElem?_drop,
    List.getElem?_map, List.getElem?_range (by omega)]
  rfl

theorem vdqnt_next (h : s.vReady o 2 3) (ha : (s.vIn o 2).isPlain 0 = false) (hb : (s.vIn o 2).isPlain 1 = false)
    (ht : (s.vIn o 2).tagOf 0 = 3 ∨ (s.vIn o 2).tagOf 0 = 4) (hs : (s.vIn o 2).tagOf 1 = 9) :
    let y := (s.vIn o 2).dequantPart
    exec (.vdqnt o) s = .next (((((s.vHeld o 2).vput 3 o 1 (y 0) (BitVec.allOnes 2048) (s.vLost o 2)).vputMore 3
      (o.vd.toNat + 1) 1 (y 1)).vputMore 3 (o.vd.toNat + 2) 1 (y 2)).vputMore 3 (o.vd.toNat + 3) 1 (y 3)) := by
  intro y
  have htags : (!((s.vIn o 2).isPlain 0) && ((s.vIn o 2).tagOf 0 == 3 || (s.vIn o 2).tagOf 0 == 4) &&
      !((s.vIn o 2).isPlain 1) && (s.vIn o 2).tagOf 1 == 9) = true := by
    rw [ha, hb, hs]
    rcases ht with ht | ht <;> rw [ht] <;> rfl
  change execVdqnt o s = _
  rw [execVdqnt, State.vrun_next h rfl htags]
  rfl

theorem vqnt_next (hr : s.primaryRuns o.g) :
    let b := s.core.bank
    let ty := (b.vreg (b.phys o.a.toNat)).tag
    let n := if ty = 2 then 2 else 4
    let regs := b.group o.a n
    b.vregIn o.vd.toNat = true → b.vregIn (o.vd.toNat + 1) = true → (∀ j < n, b.vregIn (o.a.toNat + j) = true) →
    tagFloat ty = true → (∀ r ∈ regs, r.tag = ty) →
    let q := quantize ty (rndOf o.rnd) (regs.flatMap fun r => lanesOf (tagWidth ty) r.bits)
    exec (.vqnt o) s =
      .next ((s.vput 3 o 3 q.1 (BitVec.allOnes 2048) 0).vputMore 3 (o.vd.toNat + 1) 9 q.2) := by
  intro b ty n regs hd0 hd1 ha ht hregs q
  have hn : (if ty == 2 then 2 else 4) = n := by simp only [beq_iff_eq, n]
  have hin : (!(b.vregIn o.vd.toNat) || !(b.vregIn (o.vd.toNat + 1)) || !(b.vregIn o.a.toNat) ||
      !((List.range n).all fun i => b.vregIn (o.a.toNat + i))) = false := by
    have hall : ((List.range n).all fun i => b.vregIn (o.a.toNat + i)) = true :=
      List.all_eq_true.mpr fun i hi => ha i (List.mem_range.mp hi)
    have hpos : 0 < n := by simp only [n]; split <;> decide
    rw [hd0, hd1, show b.vregIn o.a.toNat = true from ha 0 hpos, hall]
    rfl
  have htags : (!(tagFloat ty) || !(regs.all fun r => r.tag == ty)) = false := by
    have hall : (regs.all fun r => r.tag == ty) = true := List.all_eq_true.mpr fun r hr => beq_iff_eq.mpr (hregs r hr)
    rw [ht, hall]
    rfl
  change execVqnt o s = _
  rw [execVqnt, State.primaryOnly_runs hr]
  dsimp only
  rw [hn]
  exact (if_neg (Bool.eq_false_iff.mp hin)).trans (if_neg (Bool.eq_false_iff.mp htags))
end

/-- R195: a bound on the largest magnitude, as the statement compares values. -/
theorem lt_pow_iff (m : Nat) (g k : Int) :
    (FVal.fin false m g).lt (.fin false 1 k) = true ↔ FVal.ratOf false m g < 2 ^ k := by
  rw [FVal.lt_fin]
  simp [FVal.ratOf]

/-- Settles O24: the conversions element by element, the scale code by the magnitudes of its block, and each
instruction. -/
theorem vectorConversions : Obligations.VectorConversions := by
  refine ⟨fun src dst r x hd => ⟨fun hs hx => ?_, fun f hf => ⟨fun h => ?_, fun neg h => ?_⟩⟩, fun t f r x n ht hf => ?_,
    fun t f code x ht hf => ⟨dequantElem_nan hf, fun hc neg => dequantElem_inf hf hc,
      fun hc neg m e => dequantElem_fin hf hc⟩,
    fun t f r xs ht hf hlen => ⟨fun e he => ?_, fun b hb hb' => quantize_scale_fill hlen hb hb', fun b hb => ⟨fun h => ?_,
      fun k hhi hlo => ?_⟩⟩,
    fun o s => ⟨fun h ht hk hw => ⟨vcvt_next h ht hk, fun l hl => convertLanes_lane _ _ _ _ _ hl⟩,
      fun h ht hk hb => vscl_gives h ht hk hb, fun h ha hb ht hs => ?_, vqnt_next⟩⟩
  · obtain ⟨neg, m, hval, hround⟩ := elemValue_int hs hx
    rw [convertElem_fin hd r hval, hround, wrapTo, clampTo, intRange_eq]
    rfl
  · exact convertElem_nan hd r ((elemValue_fmt hf x).trans h)
  · rw [convertElem_inf hd r ((elemValue_fmt hf x).trans h), wrapTo, intRange_eq]
  · simp only [laneScale, hf, signedOf]
  · rw [quantize_elem hlen he, quantElem, elemValue_fmt hf]
  · rw [quantize_scale hlen hb]
    refine scaleCode_zero hf fun x hx neg m g hfin => ?_
    obtain ⟨e, he, rfl⟩ := (mem_blockOf hlen hb).mp hx
    exact h e he neg m g hfin
  · rw [quantize_scale hlen hb]
    obtain ⟨e, he, neg, m, g, hfin, hge⟩ := hlo
    refine scaleCode_eq hf (fun x hx neg m g hfin => ?_) ⟨_, (mem_blockOf hlen hb).mpr ⟨e, he, rfl⟩, neg, m, g, hfin, ?_⟩
    · obtain ⟨e, he, rfl⟩ := (mem_blockOf hlen hb).mp hx
      exact (lt_pow_iff m g (k + 1)).mp (hhi e he neg m g hfin)
    · exact not_lt.mp fun hlt => Bool.false_ne_true (hge.symm.trans ((lt_pow_iff m g k).mpr hlt))
  · exact ⟨(s.vIn o 2).dequantPart, vdqnt_next h ha hb ht hs, fun n hn l hl => VIn.dequantPart_lane _ hn hl⟩

end Sys2Proof.Machine
end

section
/-! PROOFS. Reduction trees, the scan and the elementary functions. -/

namespace Sys2Proof.Machine

/-! ### The tree of R66 -/

theorem length_pairUp {α : Type} (f : α → α → α) (n : Nat) (xs : List α) (h : xs.length = 2 * n) :
    (pairUp f xs).length = n := by
  induction n generalizing xs with
  | zero => rw [List.length_eq_zero_iff.mp h]; rfl
  | succ n ih =>
    match xs, h with
    | a :: b :: xs, h =>
      rw [pairUp, List.length_cons, ih xs (by simp only [List.length_cons] at h; omega)]

/-- A level of the tree keeps the sum. -/
theorem sum_pairUp {M n : Nat} {f : Nat → Nat → Nat} (hf : ∀ a b, f a b % M = (a + b) % M) (xs : List Nat)
    (h : xs.length = 2 * n) : (pairUp f xs).sum % M = xs.sum % M := by
  induction n generalizing xs with
  | zero => rw [List.length_eq_zero_iff.mp h]; rfl
  | succ n ih =>
    match xs, h with
    | a :: b :: xs, h =>
      have hxs := ih xs (by simp only [List.length_cons] at h; omega)
      rw [pairUp, List.sum_cons, List.sum_cons, List.sum_cons, ← Nat.add_assoc, Nat.add_mod, hf, hxs, ← Nat.add_mod]

/-- R66: a tree of sums over 2^n lanes is their sum. -/
theorem treeReduce_sum {M : Nat} {f : Nat → Nat → Nat} (hf : ∀ a b, f a b % M = (a + b) % M) (n : Nat) (xs : List Nat)
    (h : xs.length = 2 ^ n) : treeReduce f 0 n xs % M = xs.sum % M := by
  induction n generalizing xs with
  | zero =>
    obtain ⟨x, rfl⟩ := List.length_eq_one_iff.mp h
    simp [treeReduce]
  | succ n ih =>
    have h2 : xs.length = 2 * 2 ^ n := by rw [h, pow_succ, Nat.mul_comm]
    rw [treeReduce, ih _ (length_pairUp f _ xs h2), sum_pairUp hf xs h2]

/-- The lanes of a tag with arithmetic are a power of two. -/
theorem tagArith_lanes {t : Tag} (h : tagArith t = true) : 2048 / tagWidth t = 2 ^ Nat.log2 (2048 / tagWidth t) := by
  revert t; decide

theorem length_reduceLanes (t : Tag) (k a : VBits) (e : Nat) : (reduceLanes t k a e).length = 2048 / tagWidth t := by
  simp [reduceLanes, lanesOf]

/-- The lanes that enter a reduction, by their number. -/
theorem reduceLanes_eq (t : Tag) (k a : VBits) (e : Nat) : reduceLanes t k a e =
    (List.range (2048 / tagWidth t)).map fun l => if k.getLsbD l then laneAt (tagWidth t) a l else e := by
  refine List.ext_getElem? fun l => ?_
  simp only [reduceLanes, lanesOf, List.getElem?_mapIdx, List.getElem?_map]
  by_cases hl : l < 2048 / tagWidth t <;> simp [hl]

/-! ### The reductions -/

section
variable {s : State} {o : VOp}

/-- R66, R397: a reduction writes its tree to lane 0 and 0 to every other lane. -/
theorem State.vreduce_gives {i : Instr} {ident : Tag → Nat} {f : Tag → Nat → Nat → Nat}
    (hi : exec i s = s.vreduce o ident f) (h : s.vReady o 1 0) (ht : (s.vIn o 1).ok tagArith = true)
    (hk : kmOk o.km (s.vIn o 1).tag (s.vIn o 1).tag = true) :
    let t := (s.vIn o 1).tag
    s.vGives i o 1 6 t (BitVec.allOnes 2048) fun l =>
      if l = 0 then treeReduce (f t) 0 (Nat.log2 (2048 / tagWidth t))
        (reduceLanes t (s.core.bank.mask o.km) ((s.vIn o 1).x 0) (ident t)) else 0 := by
  intro t
  refine State.vGives.of_lanes (xs := [treeReduce (f t) 0 (Nat.log2 (2048 / tagWidth t))
    (reduceLanes t (s.core.bank.mask o.km) ((s.vIn o 1).x 0) (ident t))]) ?_ fun l _ => ?_
  · rw [hi, State.vreduce, State.vrun_next h hk ht, State.vHeld_mask]
    simp only [length_reduceLanes]
    rfl
  · cases l <;> rfl

theorem vscan_gives (h : s.vReady o 1 0) (ht : (s.vIn o 1).ok tagArith = true)
    (hk : kmOk o.km (s.vIn o 1).tag (s.vIn o 1).tag = true) :
    let t := (s.vIn o 1).tag
    s.vGives (.vscan o) o 1 8 t (BitVec.allOnes 2048) fun l =>
      ((scanSweep (laneAdd t (rndOf o.rnd)) (Nat.log2 (2048 / tagWidth t))
        (reduceLanes t (s.core.bank.mask o.km) ((s.vIn o 1).x 0) 0)).map (canonNan t)).getD l 0 := by
  intro t
  refine State.vGives.of_lanes (xs := (scanSweep (laneAdd t (rndOf o.rnd)) (Nat.log2 (2048 / tagWidth t))
    (reduceLanes t (s.core.bank.mask o.km) ((s.vIn o 1).x 0) 0)).map (canonNan t)) ?_ fun l _ => rfl
  change execVscan o s = _
  rw [execVscan, State.vrun_next h hk ht, State.vHeld_mask]
  simp only [length_reduceLanes]
  rfl

/-- R397: the lane of VRSUM on an integer tag is the sum of the enabled lanes modulo the lane. -/
theorem vrsum_int {t : Tag} (ht : tagInt t = true) (r : Rnd) (k a : VBits) :
    treeReduce (laneAdd t r) 0 (Nat.log2 (2048 / tagWidth t)) (reduceLanes t k a 0) % 2 ^ tagWidth t =
      ((List.range (2048 / tagWidth t)).map fun j => if k.getLsbD j then laneAt (tagWidth t) a j else 0).sum %
        2 ^ tagWidth t := by
  obtain ⟨-, -, -, hf, -⟩ := tagInt_width ht
  have hpow := tagArith_lanes (t := t) (by rw [tagArith, ht, Bool.or_true])
  rw [treeReduce_sum (fun a b => by rw [laneAdd_int hf, Nat.mod_mod]) _ _ ((length_reduceLanes t k a 0).trans hpow),
    reduceLanes_eq]

/-- R392: an elementary function on F32 lanes. -/
theorem State.v1F_gives {i : Instr} {f : Nat → Nat} (hi : exec i s = s.v1F o f) (h : s.vReady o 1 0)
    (ht : (s.vIn o 1).tag = 1) (ha : (s.vIn o 1).agree = true) :
    s.vGives i o 1 8 1 (s.core.bank.mask o.km) fun l => f ((s.vIn o 1).lane 0 l) := by
  have hk : kmOk o.km (s.vIn o 1).tag 1 = true := by
    rw [ht, kmOk, show ((1 : Tag) != 13 && (1 : Tag) != 13 && tagLanes 1 == tagLanes 1) = true from by decide,
      Bool.or_true]
  have hok : (s.vIn o 1).ok (· == 1) = true := by
    rw [VIn.ok, ha, ht, Bool.and_eq_true]
    exact ⟨rfl, by cases (s.vIn o 1).scalar <;> rfl⟩
  refine ⟨map1 (s.vIn o 1).tag f ((s.vIn o 1).x 0), ?_, fun l hl => ?_⟩
  · rw [hi, State.v1F, State.vlanes_next (out := fun _ => 1) h hk hok]
    rfl
  · have := map1_lane (t := (s.vIn o 1).tag) (by rw [ht]; decide) f ((s.vIn o 1).x 0) l (by rwa [ht])
    simp only [VIn.lane]
    rw [ht] at this ⊢
    exact this
end

/-! ### The elementary functions (R68) -/

/-- R68: the functions of 0 and -0. -/
theorem elementary_zero : ∀ x ∈ [0, 0x80000000], vrcpF x = x + 0x7F800000 ∧ vrsqF x = x + 0x7F800000 ∧
    vexp2F x = 0x3F800000 ∧ vlog2F x = 0xFF800000 := by decide +kernel

/-- R68: 2^n and the logarithm of 2^n for an integer n that is not negative. -/
theorem elementary_exact : ∀ n < 128,
    vexp2F (encodeF .f32 .rne false (.fin false n 0)) = encodeF .f32 .rne false (.fin false 1 n) ∧
    vlog2F (encodeF .f32 .rne false (.fin false 1 n)) = encodeF .f32 .rne false (.fin false n 0) := by decide +kernel

/-- R68: the same for a negative one, down to the smallest subnormal. -/
theorem elementary_exact_neg : ∀ n < 150, 1 ≤ n →
    vexp2F (encodeF .f32 .rne false (.fin true n 0)) = encodeF .f32 .rne false (.fin false 1 (-n)) ∧
    vlog2F (encodeF .f32 .rne false (.fin false 1 (-n))) = encodeF .f32 .rne false (.fin true n 0) := by decide +kernel

/-- Settles O25: the tree's sum by induction over its levels, R68's table by the branches of each function, and the
exact powers by evaluation. -/
theorem vectorReductionsElementary : Obligations.VectorReductionsElementary := by
  refine ⟨fun o s h ht hk => ⟨State.vreduce_gives (ident := fun _ => 0) (f := fun t => laneAdd t (rndOf o.rnd)) rfl h ht hk, fun hint => ?_,
      State.vreduce_gives (ident := fun t => extremeIdent t true) (f := laneMax) rfl h ht hk, State.vreduce_gives (ident := fun t => extremeIdent t false) (f := laneMin) rfl h ht hk,
      vscan_gives h ht hk⟩,
    fun o s h ht ha => ⟨State.v1F_gives (f := vrcpF) rfl h ht ha, State.v1F_gives (f := vrsqF) rfl h ht ha,
      State.v1F_gives (f := vexp2F) rfl h ht ha, State.v1F_gives (f := vlog2F) rfl h ht ha⟩,
    fun x hx => ⟨fun h => ?_, fun h => ?_, fun h => ?_, fun h => ?_, fun m e h hm => ?_⟩,
    elementary_exact, fun n hn hn' => elementary_exact_neg n hn' hn⟩
  · refine (State.vreduce_gives (ident := fun _ => 0) (f := fun t => laneAdd t (rndOf o.rnd)) rfl h ht hk).congr fun l _ => ?_
    by_cases hl : l = 0
    · simp only [if_pos hl]
      exact vrsum_int hint _ _ _
    · simp only [if_neg hl]
  · simp only [vrcpF, vrsqF, vexp2F, vlog2F, h, FFmt.nanCode, and_self]
  · simp [vrcpF, vrsqF, vexp2F, vlog2F, h, signBit]
  · simp [vrcpF, vrsqF, vexp2F, vlog2F, h, signBit, FFmt.nanCode, FFmt.signPos, FFmt.ebits, FFmt.fbits]
  · exact elementary_zero x (by simp only [List.mem_cons, List.not_mem_nil, or_false]; omega)
  · simp [vrsqF, vlog2F, h, hm.ne', FFmt.nanCode]

end Sys2Proof.Machine
end

section
/-! PROOFS. Accumulator rows and tiles; the matrix instructions that move a row, clear a tile or flip planes. -/

namespace Sys2Proof.Machine

/-! ### Accumulator rows -/

/-- Lane l of packed lanes is the l-th of them. -/
theorem packLanes_lane (w : Nat) (xs : List Nat) (l : Nat) :
    packLanes w xs / 2 ^ (w * l) % 2 ^ w = xs.getD l 0 % 2 ^ w := by
  induction xs generalizing l with
  | nil => simp [packLanes]
  | cons x xs ih =>
    cases l with
    | zero => simp [packLanes, Nat.add_mul_mod_self_left]
    | succ l =>
      have hstep : packLanes w (x :: xs) / 2 ^ (w * (l + 1)) = packLanes w xs / 2 ^ (w * l) := by
        rw [Nat.mul_succ, Nat.pow_add, Nat.mul_comm (2 ^ (w * l)), ← Nat.div_div_eq_div_mul, packLanes,
          Nat.add_mul_div_left _ _ (by positivity), Nat.div_eq_of_lt (Nat.mod_lt _ (by positivity)), Nat.zero_add]
      rw [hstep, ih, List.getD_cons_succ]

theorem accCol_lt (r : AccRow) (j : Nat) : accCol r j < 2 ^ 32 := Nat.mod_lt _ (by positivity)

theorem accCol_zero (j : Nat) : accCol 0 j = 0 := by
  change (0#8192).toNat / _ % _ = 0
  rw [BitVec.toNat_zero, Nat.zero_div, Nat.zero_mod]

/-- R74: column j of a row built of columns. -/
theorem accCol_accOf (xs : List Nat) {j : Nat} (h : j < 256) : accCol (accOf xs) j = xs.getD j 0 % 2 ^ 32 := by
  rw [← packLanes_lane, accCol, accOf, BitVec.toNat_ofNat]
  obtain ⟨c, hc⟩ := Nat.exists_eq_add_of_le (show 32 * j + 32 ≤ 8192 by omega)
  rw [hc, Nat.add_assoc, Nat.pow_add, Nat.mod_mul_right_div_self, Nat.pow_add, Nat.mod_mul_right_mod]

theorem accCol_accOf_range {n j : Nat} (f : Nat → Nat) (h : j < n) (h256 : j < 256) :
    accCol (accOf ((List.range n).map f)) j = f j % 2 ^ 32 := by
  rw [accCol_accOf _ h256, List.getD_eq_getElem?_getD, List.getElem?_map, List.getElem?_range h]
  rfl

/-- R85: MWRA's segment in a row. -/
theorem accCol_putSeg (r : AccRow) (g : Nat) (bits : VBits) {j : Nat} (h : j < 256) :
    accCol (putSeg r g bits) j = if j / 64 = g then laneAt 32 bits (j % 64) else accCol r j := by
  rw [putSeg, accCol_accOf_range _ h h]
  split
  · exact Nat.mod_eq_of_lt (laneAt_lt _ _ _)
  · exact Nat.mod_eq_of_lt (accCol_lt _ _)

/-! ### Tiles -/

theorem tile_sput_same {b : Bank} {a : Nat} {t : Tile} : ({ b with acc := sput b.acc a t } : Bank).tile a = t := by
  rw [Bank.tile, sget_sput, if_pos rfl, Option.getD_some]

theorem tile_sput_other {b : Bank} {a c : Nat} {t : Tile} (h : c ≠ a) :
    ({ b with acc := sput b.acc a t } : Bank).tile c = b.tile c := by
  rw [Bank.tile, sget_sput, if_neg h]; rfl

theorem putRow_tile_other {b : Bank} {a c r : Nat} {v : AccRow} {tag : Option Tag} (h : c ≠ a) :
    (b.putRow a r v tag).tile c = b.tile c := tile_sput_other h

theorem putRow_tag {b : Bank} {a r : Nat} {v : AccRow} {tag : Option Tag} :
    ((b.putRow a r v tag).tile a).tag = tag.getD (b.tile a).tag := by rw [Bank.putRow, tile_sput_same]

theorem putRow_row {b : Bank} {a r : Nat} {v : AccRow} {tag : Option Tag} (q : Nat) :
    ((b.putRow a r v tag).tile a).row q = if q = r then v else (b.tile a).row q := by
  rw [Bank.putRow, tile_sput_same, Tile.row, sget_sput]
  split <;> rfl

/-! ### The instructions -/

section
variable {s : State} {o : MOp} (h : s.primaryRuns o.g)
include h

theorem exec_mrda_runs (ha : o.acc.toNat < s.core.bank.at_) (hv : s.core.bank.vregIn (o.line.toNat % 512) = true) :
    exec (.mrda o) s = .next (s.setBank (s.core.bank.addPend 6
      (.v (s.core.bank.phys (o.line.toNat % 512)) (s.core.bank.tile o.acc.toNat).tag
        (segBits ((s.core.bank.tile o.acc.toNat).row (s.rowOf o)) (o.mode.toNat % 4)) (BitVec.allOnes 2048)) 3 0)) := by
  change execMrda o s = _
  rw [execMrda, State.primaryOnly_runs h]
  exact if_neg (by simp [hv, ha])

theorem exec_mwra_runs (ha : o.acc.toNat < s.core.bank.at_) (hv : s.core.bank.vregIn (o.line.toNat % 512) = true)
    (ht : (s.core.bank.vreg (s.core.bank.phys (o.line.toNat % 512))).tag = (s.core.bank.tile o.acc.toNat).tag)
    (hh : s.core.bank.tileHeld o.acc.toNat (s.core.bank.tick + 6) = false) :
    exec (.mwra o) s = .next (s.result 6 (.seg o.acc.toNat (s.rowOf o) (o.mode.toNat % 4)
      (s.core.bank.vreg (s.core.bank.phys (o.line.toNat % 512))).bits)) := by
  change execMwra o s = _
  rw [execMwra, State.primaryOnly_runs h]
  exact (if_neg (by simp [hv, ha])).trans ((if_neg (by simp [ht])).trans (if_neg (Bool.eq_false_iff.mp hh)))

theorem exec_mwra_tag (ha : o.acc.toNat < s.core.bank.at_) (hv : s.core.bank.vregIn (o.line.toNat % 512) = true)
    (ht : (s.core.bank.vreg (s.core.bank.phys (o.line.toNat % 512))).tag ≠ (s.core.bank.tile o.acc.toNat).tag) :
    exec (.mwra o) s = s.raise 0x05 := by
  change execMwra o s = _
  rw [execMwra, State.primaryOnly_runs h]
  exact (if_neg (by simp [hv, ha])).trans (if_pos (by simpa using ht))

theorem exec_mzero_runs (ha : o.acc.toNat < s.core.bank.at_)
    (hh : s.core.bank.tileHeld o.acc.toNat (s.core.bank.tick + 8) = false) :
    exec (.mzero o) s = .next (s.result 8 (.tileZero o.acc.toNat (if o.mode = 1 then 8 else 1))) := by
  change execMzero o s = _
  rw [execMzero, State.primaryOnly_runs h]
  exact (if_neg (Nat.not_le.mpr ha)).trans (if_neg (Bool.eq_false_iff.mp hh))

theorem exec_mbnd_runs : exec (.mbnd o) s = .next (s.result 1 (.rowb (min (s.rowCount o) 128))) := by
  change execMbnd o s = _
  rw [execMbnd, State.primaryOnly_runs h]

theorem exec_mflip_runs :
    exec (.mflip o) s =
      if s.core.bank.loadingPlane (o.plane != 1 || s.core.planes.paired) (o.plane != 0 || s.core.planes.paired) then
        s.raise 0x0A
      else .next (s.result 1 (.flip (o.plane != 1 || s.core.planes.paired) (o.plane != 0 || s.core.planes.paired))) := by
  change execMflip o s = _
  rw [execMflip, State.primaryOnly_runs h]

/-- R77: a tile beyond the allotment. -/
theorem exec_tile_beyond (ha : s.core.bank.at_ ≤ o.acc.toNat) :
    exec (.mrda o) s = s.raise 0x02 ∧ exec (.mwra o) s = s.raise 0x02 ∧ exec (.mzero o) s = s.raise 0x02 := by
  refine ⟨?_, ?_, ?_⟩
  · change execMrda o s = _
    rw [execMrda, State.primaryOnly_runs h]
    exact if_pos (by simp [ha])
  · change execMwra o s = _
    rw [execMwra, State.primaryOnly_runs h]
    exact if_pos (by simp [ha])
  · change execMzero o s = _
    rw [execMzero, State.primaryOnly_runs h]
    exact if_pos ha

end

/-- R85: the segment that MWRA lands. -/
theorem landOne_seg (s : State) (a r g u : Nat) (bits : VBits) :
    (s.landOne { due := 0, seq := 0, eff := .seg a r g bits, unit := u, flags := 0 }).core.bank =
      s.core.bank.putRow a r (putSeg ((s.core.bank.tile a).row r) g bits) none := rfl

theorem landOne_tileZero (s : State) (a u : Nat) (tag : Tag) :
    (s.landOne { due := 0, seq := 0, eff := .tileZero a tag, unit := u, flags := 0 }).core.bank =
      { s.core.bank with acc := sput s.core.bank.acc a { tag := tag, rows := [] } } := rfl

theorem landOne_flip (s : State) (u : Nat) (wa wb : Bool) :
    (s.landOne { due := 0, seq := 0, eff := .flip wa wb, unit := u, flags := 0 }).core.planes =
      s.core.planes.flip wa wb := rfl

/-- Settles O30: each instruction at its issue, and each of its results as it lands. -/
theorem matrixMoves : Obligations.MatrixMoves := by
  refine ⟨fun o s h => ?_, fun s a r g bits tag wa wb hg => ?_⟩
  · intro b acc v seg
    refine ⟨fun ha hv => ⟨exec_mrda_runs h ha hv, exec_mwra_runs h ha hv, exec_mwra_tag h ha hv⟩, exec_mzero_runs h,
      exec_mbnd_runs h, ?_, exec_tile_beyond h⟩
    intro wa wb
    have hflip : exec (.mflip o) s =
        if b.loadingPlane wa wb then s.raise 0x0A else .next (s.result 1 (.flip wa wb)) := by
      have hne (c : BitVec 2) : (o.plane != c) = decide (o.plane ≠ c) := by by_cases hc : o.plane = c <;> simp [hc]
      simp only [exec_mflip_runs h, hne, b, wa, wb]
    exact ⟨fun hl => hflip.trans (if_neg (Bool.eq_false_iff.mp hl)), fun hl => hflip.trans (if_pos hl)⟩
  · intro land x z f p
    have hx : x = _ := landOne_seg s a r g 4 bits
    have hz : z = _ := landOne_tileZero s a 4 tag
    have hf : f = _ := landOne_flip s 4 wa wb
    rw [hx, hz, hf]
    refine ⟨fun j hj => ?_, putRow_tag, fun q hq => ?_, fun c hc => putRow_tile_other hc, fun q => ?_, ?_,
      fun c hc => tile_sput_other hc, rfl, rfl, rfl, rfl⟩
    · rw [putRow_row, if_pos rfl]
      exact accCol_putSeg _ g bits hj
    · rw [putRow_row, if_neg hq]
    · rw [tile_sput_same]
      rfl
    · rw [tile_sput_same]

end Sys2Proof.Machine
end

section
/-! PROOFS. The lines that a range of the window names, and the checks of a stream in their order. -/

namespace Sys2Proof.Machine

/-! ### The checks of lines (R99 steps 4 and 5) -/

theorem bits_ne_zero_iff {w : Nat} (x : BitVec w) : x ≠ 0 ↔ ∃ l < w, x.getLsbD l = true := by
  constructor
  · intro h
    by_contra hn
    push Not at hn
    exact h (BitVec.eq_of_getLsbD_eq fun l hl => by rw [Bool.eq_false_iff.mpr (hn l hl)]; simp)
  · rintro ⟨l, -, hl⟩ rfl
    simp at hl

theorem getLsbD_lineMask (first n l : Nat) :
    (lineMask first n).getLsbD l = (decide (l < 65536) && (decide (first ≤ l) && decide (l < first + n))) := by
  rw [lineMask, BitVec.getLsbD_ofNat, Nat.testBit_mul_two_pow, Nat.testBit_two_pow_sub_one]
  by_cases h : first ≤ l
  · simp only [h, show (l - first < n) = (l < first + n) from propext (by omega)]
  · simp only [h, decide_false, Bool.false_and]

/-- A line of the range is pinned by neither bank. -/
def lineUnpinned (own other : BitVec 65536) (first n : Nat) : Prop :=
  ∃ l, l < 65536 ∧ first ≤ l ∧ l < first + n ∧ own.getLsbD l = false ∧ other.getLsbD l = false

/-- A line of the range is not pinned by the running bank. -/
def lineForeign (own : BitVec 65536) (first n : Nat) : Prop :=
  ∃ l, l < 65536 ∧ first ≤ l ∧ l < first + n ∧ own.getLsbD l = false

theorem lineUnpinned.foreign {own other : BitVec 65536} {first n : Nat} (h : lineUnpinned own other first n) :
    lineForeign own first n := by
  obtain ⟨l, hl, h1, h2, h3, -⟩ := h
  exact ⟨l, hl, h1, h2, h3⟩

theorem lineUnpinned_iff (own other : BitVec 65536) (first n : Nat) :
    lineMask first n &&& ~~~(own ||| other) ≠ 0 ↔ lineUnpinned own other first n := by
  rw [bits_ne_zero_iff]
  refine exists_congr fun l => ?_
  rw [BitVec.getLsbD_and, getLsbD_lineMask, BitVec.getLsbD_not, BitVec.getLsbD_or]
  cases own.getLsbD l <;> cases other.getLsbD l <;> simp +contextual [and_assoc]

theorem lineForeign_iff (own : BitVec 65536) (first n : Nat) :
    lineMask first n &&& ~~~own ≠ 0 ↔ lineForeign own first n := by
  rw [bits_ne_zero_iff]
  refine exists_congr fun l => ?_
  rw [BitVec.getLsbD_and, getLsbD_lineMask, BitVec.getLsbD_not]
  cases own.getLsbD l <;> simp +contextual [and_assoc]

theorem checkLines_unpinned {own other : BitVec 65536} {first n : Nat} (h : lineUnpinned own other first n) :
    checkLines own other first n = some 0x06 := if_pos ((lineUnpinned_iff _ _ _ _).mpr h)

theorem checkLines_other {own other : BitVec 65536} {first n : Nat} (h : ¬lineUnpinned own other first n)
    (ho : lineForeign own first n) : checkLines own other first n = some 0x0D :=
  (if_neg (mt (lineUnpinned_iff _ _ _ _).mp h)).trans (if_pos ((lineForeign_iff _ _ _).mpr ho))

theorem checkLines_own {own other : BitVec 65536} {first n : Nat} (h : ¬lineForeign own first n) :
    checkLines own other first n = none :=
  (if_neg (mt (lineUnpinned_iff _ _ _ _).mp fun hu => h hu.foreign)).trans (if_neg (mt (lineForeign_iff _ _ _).mp h))

/-- A check of lines passes or raises 0x06 or 0x0D. -/
theorem checkLines_cases (own other : BitVec 65536) (first n : Nat) :
    checkLines own other first n = none ∨ checkLines own other first n = some 0x06 ∨
      checkLines own other first n = some 0x0D := by
  by_cases hf : lineForeign own first n
  · by_cases hu : lineUnpinned own other first n
    · exact .inr (.inl (checkLines_unpinned hu))
    · exact .inr (.inr (checkLines_other hu hf))
  · exact .inl (checkLines_own hf)

theorem linesOk_cases (s : State) (first n : Nat) :
    s.linesOk first n = none ∨ s.linesOk first n = some 0x06 ∨ s.linesOk first n = some 0x0D := by
  unfold State.linesOk
  split
  · exact .inr (.inl rfl)
  · exact checkLines_cases _ _ _ _

theorem linesOk_outside {s : State} {first n : Nat} (h : 65536 < first + n) : s.linesOk first n = some 0x06 := if_pos h

theorem linesOk_inside {s : State} {first n : Nat} (h : first + n ≤ 65536) :
    s.linesOk first n = checkLines s.core.bank.pins s.core.other.pins first n := if_neg (Nat.not_lt.mpr h)

theorem linesOk_own {s : State} {first n : Nat} (h : first + n ≤ 65536)
    (hp : ∀ l, first ≤ l → l < first + n → s.core.bank.pins.getLsbD l = true) : s.linesOk first n = none := by
  rw [linesOk_inside h]
  refine checkLines_own ?_
  rintro ⟨l, -, h1, h2, h3⟩
  exact absurd ((hp l h1 h2).symm.trans h3) (Bool.false_ne_true ·.symm)

theorem linesOk_unpinned {s : State} {first n l : Nat} (h1 : first ≤ l) (h2 : l < first + n)
    (ho : s.core.bank.pins.getLsbD l = false) (hx : s.core.other.pins.getLsbD l = false) :
    s.linesOk first n = some 0x06 := by
  by_cases h : first + n ≤ 65536
  · rw [linesOk_inside h]
    exact checkLines_unpinned ⟨l, by omega, h1, h2, ho, hx⟩
  · exact linesOk_outside (by omega)

theorem linesOk_other {s : State} {first n l : Nat} (h : first + n ≤ 65536) (h1 : first ≤ l) (h2 : l < first + n)
    (ho : s.core.bank.pins.getLsbD l = false)
    (hall : ∀ l, first ≤ l → l < first + n → s.core.bank.pins.getLsbD l = true ∨ s.core.other.pins.getLsbD l = true) :
    s.linesOk first n = some 0x0D := by
  rw [linesOk_inside h]
  refine checkLines_other ?_ ⟨l, by omega, h1, h2, ho⟩
  rintro ⟨k, -, h3, h4, h5, h6⟩
  cases hall k h3 h4 with
  | inl hk => exact absurd (hk.symm.trans h5) (Bool.false_ne_true ·.symm)
  | inr hk => exact absurd (hk.symm.trans h6) (Bool.false_ne_true ·.symm)

/-! ### A stream's checks -/

/-- The lines of a stream's activations and of their scales. -/
def State.streamLines (s : State) (o : MOp) : Nat :=
  s.rowCount o * actLines o.mode.toNat + if o.mode.toNat = 5 ∨ o.mode.toNat = 6 then (s.rowCount o + 31) / 32 else 0

/-- R77: the planes, the profile, the generator and the tile's tag of a stream fit. -/
def State.streamFits (s : State) (o : MOp) (zero : Bool) : Prop :=
  let p := s.core.planes
  (o.plane = 0 ∨ o.plane = 1 ∨ p.waF.code = p.wbF.code) ∧
    pairOk o.np.toNat ((if o.plane = 1 then p.wbF.code else p.waF.code).getD 99) o.mode.toNat = true ∧
    s.genFits o = true ∧ (zero = false → (s.core.bank.tile o.acc.toNat).tag = profileTag o.np.toNat)

/-- The stream that an issue captures. -/
def State.newStream (s : State) (o : MOp) (zero : Bool) : Stream :=
  { seq := s.core.bank.seq, issue := s.core.bank.tick, acc := o.acc.toNat, np := o.np.toNat, code := o.mode.toNat,
    base := o.line.toNat, rows := s.rowCount o, zero := zero, gen := s.genOf o, sel := o.plane.toNat,
    rowb := s.core.bank.rowb, wa := s.core.planes.waF, wb := s.core.planes.wbF, next := 0, old := 0, act := [], scl := [] }

/-- The tick after the last step of a stream that issues now. -/
def State.streamEnd (s : State) (o : MOp) : Nat :=
  s.core.bank.tick + (if o.np.toNat = 5 then 6 * s.rowCount o else s.rowCount o) - 1 + 1

/-- The bank once a stream has claimed the ports of its lines. -/
def State.streamBank (s : State) (o : MOp) : Bank :=
  if (s.genOf o).isNone then s.core.bank.streamReads o.np.toNat o.mode.toNat o.line.toNat (s.rowCount o)
  else s.core.bank

/-- The state with a stream started. -/
def State.streamStart (s : State) (o : MOp) (zero : Bool) : State :=
  let b := s.streamBank o
  s.setBank { b with
    streams := b.streams ++ [s.newStream o zero], streamBusy := s.streamEnd o,
    planeUse := b.planeUse ++ s.core.planes.bind (o.plane != 1 || o.mode.toNat == 4) (o.plane != 0 || o.mode.toNat == 4)
      (s.core.bank.tick + (if o.np.toNat = 5 then 6 * s.rowCount o else s.rowCount o) - 1) }

theorem genOf_isNone (s : State) (o : MOp) : (s.genOf o).isNone = !o.useGen := by
  unfold State.genOf
  cases o.useGen <;> rfl

/-- The model's check of codes and tags. -/
theorem streamFits_iff (s : State) (o : MOp) (zero : Bool) :
    ((o.plane != 1 && o.plane != 0 && s.core.planes.waF.code != s.core.planes.wbF.code) ||
      !(pairOk o.np.toNat ((if o.plane != 1 then s.core.planes.waF.code else s.core.planes.wbF.code).getD 99)
        o.mode.toNat) || !(s.genFits o) ||
      (!zero && (s.core.bank.tile o.acc.toNat).tag != profileTag o.np.toNat)) = false ↔ s.streamFits o zero := by
  have hwc : (if o.plane != 1 then s.core.planes.waF.code else s.core.planes.wbF.code) =
      if o.plane = 1 then s.core.planes.wbF.code else s.core.planes.waF.code := by
    by_cases h : o.plane = 1 <;> simp [h]
  rw [hwc]
  simp only [State.streamFits, Bool.or_eq_false_iff, Bool.and_eq_false_iff, Bool.not_eq_false', bne_eq_false_iff_eq]
  cases zero <;> simp only [true_or, Bool.false_eq_true, Bool.true_eq_false, false_or, true_implies, false_implies,
    and_assoc] <;> tauto

section
variable {s : State} {o : MOp} {zero : Bool}

/-- The stream's checks after its tile and its codes. -/
theorem stream_fits (h : s.primaryRuns o.g) (h1 : 1 ≤ s.rowCount o) (h128 : s.rowCount o ≤ 128)
    (ha : o.acc.toNat < s.core.bank.at_) (hf : s.streamFits o zero) :
    s.stream o zero =
      if (s.genOf o).isNone && o.line.toNat % actLines o.mode.toNat ≠ 0 then s.raise 0x08
      else match (if (s.genOf o).isNone then s.linesOk o.line.toNat (s.streamLines o) else none) with
        | some c => s.raise c
        | none =>
          if s.core.bank.tileHeld o.acc.toNat (s.core.bank.tick + 40) then s.raise 0x0A
          else if s.core.bank.tick < s.core.bank.streamBusy then s.raise 0x04
          else .next (s.streamStart o zero) := by
  rw [State.stream, State.primaryOnly_runs h]
  exact (if_neg (by omega)).trans ((if_neg (by omega)).trans ((if_neg (by omega)).trans
    ((if_neg (Bool.eq_false_iff.mp ((streamFits_iff s o zero).mpr hf))).trans rfl)))

theorem stream_tile (h : s.primaryRuns o.g) (h1 : 1 ≤ s.rowCount o) (h128 : s.rowCount o ≤ 128)
    (ha : s.core.bank.at_ ≤ o.acc.toNat) : s.stream o zero = s.raise 0x02 := by
  rw [State.stream, State.primaryOnly_runs h]
  exact (if_neg (by omega)).trans ((if_neg (by omega)).trans (if_pos ha))

theorem stream_unfit (h : s.primaryRuns o.g) (h1 : 1 ≤ s.rowCount o) (h128 : s.rowCount o ≤ 128)
    (ha : o.acc.toNat < s.core.bank.at_) (hf : ¬s.streamFits o zero) : s.stream o zero = s.raise 0x05 := by
  rw [State.stream, State.primaryOnly_runs h]
  exact (if_neg (by omega)).trans ((if_neg (by omega)).trans ((if_neg (by omega)).trans
    (if_pos (Bool.eq_true_of_not_eq_false (mt (streamFits_iff s o zero).mp hf)))))

section
variable (h : s.primaryRuns o.g) (h1 : 1 ≤ s.rowCount o) (h128 : s.rowCount o ≤ 128)
  (ha : o.acc.toNat < s.core.bank.at_) (hf : s.streamFits o zero)
include h h1 h128 ha hf

theorem stream_misaligned (hg : o.useGen = false) (hl : o.line.toNat % actLines o.mode.toNat ≠ 0) :
    s.stream o zero = s.raise 0x08 := by
  rw [stream_fits h h1 h128 ha hf, genOf_isNone, hg]
  exact if_pos (by simpa using hl)

/-- An aligned stream of lines by what its lines answer. -/
theorem stream_lines {c : Nat} (hg : o.useGen = false) (hl : o.line.toNat % actLines o.mode.toNat = 0)
    (hc : s.linesOk o.line.toNat (s.streamLines o) = some c) : s.stream o zero = s.raise c := by
  rw [stream_fits h h1 h128 ha hf, genOf_isNone, hg, hc]
  exact if_neg (by simp [hl])

/-- A stream whose lines pass, or of a generator. -/
theorem stream_passes
    (hp : o.useGen = false → o.line.toNat % actLines o.mode.toNat = 0 ∧ s.linesOk o.line.toNat (s.streamLines o) = none) :
    s.stream o zero =
      if s.core.bank.tileHeld o.acc.toNat (s.core.bank.tick + 40) then s.raise 0x0A
      else if s.core.bank.tick < s.core.bank.streamBusy then s.raise 0x04
      else .next (s.streamStart o zero) := by
  rw [stream_fits h h1 h128 ha hf, genOf_isNone]
  cases hg : o.useGen with
  | true => rfl
  | false =>
    obtain ⟨hl, hn⟩ := hp hg
    rw [hn]
    exact if_neg (by simp [hl])

end

/-- The two instructions are the one operation. -/
theorem exec_stream (s : State) (o : MOp) (zero : Bool) :
    exec (if zero then .mmulz o else .mmul o) s = s.stream o zero := by cases zero <;> rfl

end

/-- R96: a generator of the code that the mode field names. -/
theorem genFits_iff (s : State) (o : MOp) :
    s.genFits o = true ↔ (o.useGen = true → genCode (s.core.bank.gen o.gen.toNat) = o.mode.toNat) := by
  unfold State.genFits State.genOf
  cases o.useGen <;> simp

/-- Settles O35: the checks one after the other. -/
theorem matrixCheckOrder : Obligations.MatrixCheckOrder := by
  intro o s zero h h1 h128 i b p code np lines first wc fits passes
  have hi : exec i s = s.stream o zero := exec_stream s o zero
  have hfits : fits ↔ s.streamFits o zero := by
    simp only [fits, State.streamFits, genFits_iff, wc, p, np, code, b]
  have hnone (hp : passes) : o.useGen = false →
      o.line.toNat % actLines o.mode.toNat = 0 ∧ s.linesOk o.line.toNat (s.streamLines o) = none := by
    intro hg
    obtain ⟨hal, hin, hown⟩ := hp hg
    exact ⟨hal, linesOk_own hin hown⟩
  rw [hi]
  refine ⟨stream_tile h h1 h128, fun ha hf => stream_unfit h h1 h128 ha (mt hfits.mpr hf), fun ha hf => ?_⟩
  have hf := hfits.mp hf
  refine ⟨stream_misaligned h h1 h128 ha hf, fun hg hl hx => ?_, fun hg hl hin hall hx => ?_, fun hp hh => ?_,
    fun hp hh hb => ?_⟩
  · refine stream_lines h h1 h128 ha hf hg hl ?_
    rcases hx with hx | ⟨l, hl1, hl2, ho, hx⟩
    · exact linesOk_outside hx
    · exact linesOk_unpinned hl1 hl2 ho hx
  · obtain ⟨l, hl1, hl2, ho⟩ := hx
    exact stream_lines h h1 h128 ha hf hg hl (linesOk_other hin hl1 hl2 ho hall)
  · rw [stream_passes h h1 h128 ha hf (hnone hp)]
    exact if_pos hh
  · rw [stream_passes h h1 h128 ha hf (hnone hp)]
    exact (if_neg (Bool.eq_false_iff.mp hh)).trans (if_pos hb)

end Sys2Proof.Machine
end

section
/-! PROOFS. Streams: their start, their steps, and the sums of the profiles. -/

namespace Sys2Proof.Machine

/-! ### The start -/

/-- A bank with more claims of ports and tracked reads than another one. -/
def Bank.Claims (b c : Bank) : Prop := c = { b with claims := c.claims, tracked := c.tracked }

theorem Bank.Claims.refl (b : Bank) : b.Claims b := rfl

theorem Bank.Claims.reads {b c : Bank} (h : b.Claims c) (t first n : Nat) : b.Claims (c.reads t first n) := by
  rw [Bank.Claims] at h ⊢
  rw [h]
  rfl

theorem Bank.Claims.claim {b c : Bank} (h : b.Claims c) (t : Nat) (ls : List Nat) : b.Claims (c.claim t ls) := by
  rw [Bank.Claims] at h ⊢
  rw [h]
  rfl

theorem Bank.Claims.foldl {α : Type} {f : Bank → α → Bank} {b c : Bank} (xs : List α)
    (hf : ∀ c x, b.Claims c → b.Claims (f c x)) (h : b.Claims c) : b.Claims (xs.foldl f c) := by
  induction xs generalizing c with
  | nil => exact h
  | cons x xs ih => exact ih (hf c x h)

theorem Bank.Claims.ite {b c d : Bank} {p : Prop} [Decidable p] (hc : b.Claims c) (hd : b.Claims d) :
    b.Claims (if p then c else d) := by
  split
  · exact hc
  · exact hd

theorem Bank.Claims.sameRegs {b c : Bank} (h : b.Claims c) : c.sameRegs b := by
  rw [Bank.Claims] at h
  rw [h]
  exact Bank.sameRegs.refl b

theorem Bank.claims_streamReads (b : Bank) (np code base m : Nat) : b.Claims (b.streamReads np code base m) :=
  Bank.Claims.foldl _ (fun _ _ h => .ite ((h.reads _ _ _).reads _ _ _) (h.reads _ _ _)) (.refl b)

theorem State.claims_streamBank (s : State) (o : MOp) : s.core.bank.Claims (s.streamBank o) :=
  .ite (Bank.claims_streamReads _ _ _ _ _) (.refl _)

theorem State.streamStart_bank (s : State) (o : MOp) (zero : Bool) :
    (s.streamStart o zero).core.bank.streams = s.core.bank.streams ++ [s.newStream o zero] ∧
      (s.streamStart o zero).core.bank.streamBusy = s.streamEnd o ∧
      (s.streamStart o zero).core.bank.sameRegs s.core.bank := by
  have hb : s.streamBank o = _ := s.claims_streamBank o
  rw [State.streamStart, hb]
  exact ⟨rfl, rfl, Bank.sameRegs.refl _⟩

theorem stream_empty {s : State} {o : MOp} {zero : Bool} (h : s.primaryRuns o.g) (hm : s.rowCount o = 0) :
    s.stream o zero = .next s := by
  rw [State.stream, State.primaryOnly_runs h]
  exact (if_neg (by omega)).trans (if_pos hm)

theorem stream_tooLong {s : State} {o : MOp} {zero : Bool} (h : s.primaryRuns o.g) (hm : 128 < s.rowCount o) :
    s.stream o zero = s.raise 0x01 := by
  rw [State.stream, State.primaryOnly_runs h]
  exact if_pos hm

/-! ### A step -/

/-- R81: one row of a stream of a profile other than NP5. -/
theorem Stream.value_col (st : Stream) (i pass : Nat) (act : List Nat) (scl : List Byte) (old : AccRow) (h : st.np ≠ 5)
    {j : Nat} (hj : j < profileCols st.np) :
    accCol (st.value i pass act scl old).1 j =
      (profileElem st.np (((if st.useWa i then st.wa else st.wb).code).getD 0) st.code (st.dot i j act scl)
        (accCol old j)).1 % 2 ^ 32 := by
  have h256 : profileCols st.np ≤ 256 := by
    unfold profileCols
    split <;> omega
  simp only [Stream.value, h, if_false, List.map_map, Function.comp_def]
  exact accCol_accOf_range _ hj (by omega)

/-- R81, R82: the row that a stream of a profile other than NP5 reads at its tick. -/
theorem streamTick_row (b : Bank) (m : Mem) (st : Stream) {i : Nat} (hnp : st.np ≠ 5) (hi : i < st.rows)
    (hn : st.next ≤ i) (ht : b.tick = st.issue + i) :
    let old : AccRow := if st.zero then 0 else (b.tile st.acc).row i
    let v := st.value i 0 (st.readAct m i) (st.readScl m i) old
    streamTick b m st =
      ({ st with next := i + 1, old := old, act := st.readAct m i, scl := st.readScl m i },
        [{ due := st.issue + 40 + i, seq := st.seq,
           eff := .accRow st.acc i (if st.zero then 256 else profileCols st.np) v.1
             (if st.zero && i == 0 then some (profileTag st.np) else none), unit := 4, flags := if v.2 then 2 else 0 }]) := by
  intro old v
  have hsub : b.tick - st.issue = i := by omega
  rw [streamTick]
  refine (if_neg ?_).trans ?_
  · simp only [Stream.steps, if_neg hnp, Bool.or_eq_true, decide_eq_true_eq]
    omega
  · simp only [hsub, if_neg hnp, ne_eq, not_true, if_false, old, v]

/-! ### The profiles' sums (R63) -/

theorem length_chunks {α : Type} (n fuel k : Nat) (xs : List α) (hn : 0 < n) (hk : k ≤ fuel) (hlen : xs.length = n * k) :
    (chunks n fuel xs).length = k := by
  induction k generalizing fuel xs with
  | zero =>
    obtain rfl : xs = [] := List.length_eq_zero_iff.mp hlen
    cases fuel <;> rfl
  | succ k ih =>
    obtain ⟨f, rfl⟩ := Nat.exists_eq_add_of_le' (Nat.le_trans (Nat.le_add_left 1 k) hk)
    have hne : xs.isEmpty = false := by
      rw [List.isEmpty_eq_false_iff, ← List.length_pos_iff, hlen]
      positivity
    rw [chunks, hne]
    refine congrArg (· + 1) (ih f _ (by omega) ?_)
    rw [List.length_drop, hlen, Nat.mul_succ, Nat.add_sub_cancel]

section
variable {d : DotIn} (hw : d.w.length = 128) (ha : d.a.length = 128)
include hw ha

theorem length_groupVals {n k : Nat} (off wc ac : Nat) (hn : 0 < n) (hk : n * k = 128) (hk128 : k ≤ 128) :
    (groupVals n off wc ac d).length = k := by
  simp only [groupVals, List.length_map, List.length_range]
  refine length_chunks n 128 k _ hn hk128 ?_
  rw [List.length_zip, hw, ha, hk]
  rfl

theorem zip_eq_range : List.zip d.w d.a = (List.range 128).map fun k => (d.w.getD k 0, d.a.getD k 0) := by
  refine List.ext_getElem (by simp [hw, ha]) fun k h₁ h₂ => ?_
  rw [List.length_zip, hw, ha, Nat.min_self] at h₁
  simp [hw, ha, h₁]

/-- NP4's exact sum. -/
theorem dotSum_eq :
    (List.zip d.w d.a).foldl (fun (s : Int) p => s + signedOf 8 p.1 * signedOf 8 p.2) 0 =
      ((List.range 128).map fun k => signedOf 8 (d.w.getD k 0) * signedOf 8 (d.a.getD k 0)).sum := by
  rw [zip_eq_range hw ha, List.foldl_map, List.sum_eq_foldl, List.foldl_map]

end

theorem groupTree_four {gs : List Nat} (h : gs.length = 4) :
    groupTree 2 gs = addRne (addRne (gs.getD 0 0) (gs.getD 1 0)) (addRne (gs.getD 2 0) (gs.getD 3 0)) :=
  match gs, h with
  | [_, _, _, _], _ => rfl

theorem groupTree_eight {gs : List Nat} (h : gs.length = 8) :
    groupTree 3 gs = addRne
      (addRne (addRne (gs.getD 0 0) (gs.getD 1 0)) (addRne (gs.getD 2 0) (gs.getD 3 0)))
      (addRne (addRne (gs.getD 4 0) (gs.getD 5 0)) (addRne (gs.getD 6 0) (gs.getD 7 0))) :=
  match gs, h with
  | [_, _, _, _, _, _, _, _], _ => rfl

theorem bne_eq_decide_ne (v c : Int) : (v != c) = decide (c ≠ v) := by
  by_cases h : v = c
  · simp [h]
  · simp [h, Ne.symm h]

theorem clampTo_i32 (v : Int) : clampTo 8 v = max (-(2 ^ 31)) (min (2 ^ 31 - 1) v) := by
  rw [clampTo, intRange_eq]
  rfl

/-- Settles O31: the checks passed, one step, and the sum of each profile. -/
theorem matrixStreams : Obligations.MatrixStreams := by
  refine ⟨fun o s zero h => ?_, fun b m st i hnp hi hn ht => ?_, fun wc ac old d hw ha => ?_⟩
  · intro i b p m code np acc wc
    have hi : exec i s = s.stream o zero := exec_stream s o zero
    rw [hi]
    refine ⟨stream_empty h, stream_tooLong h, fun h1 h128 hacc hplane hpair htag hgen hline hheld hbusy => ?_⟩
    have hrun := stream_passes h h1 h128 hacc ⟨hplane, hpair, hgen, htag⟩ hline
    obtain ⟨hstreams, hend, hregs⟩ := s.streamStart_bank o zero
    refine ⟨s.streamStart o zero, s.newStream o zero,
      hrun.trans ((if_neg (Bool.eq_false_iff.mp hheld)).trans (if_neg (Nat.not_lt.mpr hbusy))), hstreams, rfl, rfl, rfl,
      rfl, rfl, rfl, rfl, rfl, rfl, rfl, rfl, rfl, rfl, hend.trans ?_, hregs, rfl, rfl⟩
    have : 1 ≤ s.rowCount o := h1
    simp only [State.streamEnd, np, m, b]
    split <;> omega
  · have hrow := streamTick_row b m st hnp hi hn ht
    rw [hrow]
    refine ⟨rfl, _, rfl, rfl, rfl, _, _, _, rfl, rfl, rfl, fun j hj => ?_⟩
    rw [Stream.value_col st i 0 _ _ _ hnp hj]
    cases st.zero with
    | true => simp only [if_true, accCol_zero]
    | false => rfl
  · intro add four sum v c
    have h4 (off wc ac : Nat) := groupTree_four (length_groupVals hw ha (n := 32) (k := 4) off wc ac (by decide) rfl (by decide))
    have h8 := groupTree_eight (length_groupVals hw ha (n := 16) (k := 8) 42 3 3 (by decide) rfl (by decide))
    refine ⟨?_, ?_, ?_, ?_⟩
    · rw [profileElem, h4]
      rfl
    · rw [profileElem, h4]
      rfl
    · rw [profileElem, h8]
      rfl
    · rw [profileElem, dotSum_eq hw ha, clampTo_i32]
      exact congrArg (Prod.mk _) (bne_eq_decide_ne v c)

end Sys2Proof.Machine
end

section
/-! PROOFS. The load of a shadow plane. -/

namespace Sys2Proof.Machine

/-! ### The start -/

/-- The lines of an MLDW. -/
def loadLines (o : MOp) : Nat := 128 * weightLines o.mode.toNat + if codeScaled o.mode.toNat then 8 else 0

/-- The load that an issue captures. -/
def State.newLoader (s : State) (o : MOp) : Loader :=
  { seq := s.core.bank.seq, issue := s.core.bank.tick, plane := o.plane.toNat, code := o.mode.toNat, base := o.line.toNat,
    gen := s.genOf o, wa := [], wb := [], scales := [], next := 0 }

/-- R90: no issued stream reads a plane. -/
theorem streams_eq_false {b : Bank} {id : Nat} (h : ∀ u ∈ b.planeUse, u.1 = id → u.2 < b.tick) :
    b.streams_ id = false := by
  refine List.any_eq_false.mpr fun u hu => ?_
  simp only [Bool.and_eq_true, beq_iff_eq, decide_eq_true_eq, not_and, not_le]
  exact h u hu

/-- R90: the shadow planes that a load fills are read by no stream. -/
theorem shadow_unread {s : State} {plane code : Nat}
    (h : ∀ u ∈ s.core.bank.planeUse, ((fills plane code).1 = true ∧ u.1 = s.core.planes.waS.id) ∨
      ((fills plane code).2 = true ∧ u.1 = s.core.planes.wbS.id) → u.2 < s.core.bank.tick) :
    ((fills plane code).1 && s.core.bank.streams_ s.core.planes.waS.id ||
      (fills plane code).2 && s.core.bank.streams_ s.core.planes.wbS.id) = false := by
  rw [Bool.or_eq_false_iff]
  constructor
  · cases hf : (fills plane code).1 with
    | false => rfl
    | true => exact streams_eq_false fun u hu hid => h u hu (.inl ⟨hf, hid⟩)
  · cases hf : (fills plane code).2 with
    | false => rfl
    | true => exact streams_eq_false fun u hu hid => h u hu (.inr ⟨hf, hid⟩)

/-- The reads of an MLDW's lines. -/
def Bank.loadReads (b : Bank) (o : MOp) : Bank :=
  (List.range 64).foldl (fun b c =>
    let b := b.reads (b.tick + c) (o.line.toNat + 2 * c * weightLines o.mode.toNat) (2 * weightLines o.mode.toNat)
    if codeScaled o.mode.toNat && decide (c < 8) then
      b.reads (b.tick + c) (o.line.toNat + 128 * weightLines o.mode.toNat + c) 1
    else b) b

theorem Bank.claims_loadReads (b : Bank) (o : MOp) : b.Claims (b.loadReads o) :=
  Bank.Claims.foldl _ (fun _ _ h => .ite ((h.reads _ _ _).reads _ _ _) (h.reads _ _ _)) (.refl b)

/-- The state with a load started. -/
def State.loadStart (s : State) (o : MOp) : State :=
  let b := if (s.genOf o).isSome then s.core.bank else s.core.bank.loadReads o
  s.setBank { b with loader := some (s.newLoader o), loadBusy := b.tick + 64 }

theorem State.loadStart_bank (s : State) (o : MOp) :
    (s.loadStart o).core.bank.loader = some (s.newLoader o) ∧
      (s.loadStart o).core.bank.loadBusy = s.core.bank.tick + 64 ∧
      (s.loadStart o).core.bank.sameRegs s.core.bank := by
  have hb : s.core.bank.Claims (if (s.genOf o).isSome then s.core.bank else s.core.bank.loadReads o) :=
    .ite (.refl _) (Bank.claims_loadReads _ _)
  rw [Bank.Claims] at hb
  rw [State.loadStart, hb]
  exact ⟨rfl, rfl, Bank.sameRegs.refl _⟩

/-- R79, R90: an MLDW that passes its checks. -/
theorem exec_mldw_passes {s : State} {o : MOp} (h : s.primaryRuns o.g) (hgen : s.genFits o = true)
    (hline : o.useGen = false → o.line.toNat % weightLines o.mode.toNat = 0 ∧ s.linesOk o.line.toNat (loadLines o) = none)
    (hread : ∀ u ∈ s.core.bank.planeUse, ((fills o.plane.toNat o.mode.toNat).1 = true ∧ u.1 = s.core.planes.waS.id) ∨
      ((fills o.plane.toNat o.mode.toNat).2 = true ∧ u.1 = s.core.planes.wbS.id) → u.2 < s.core.bank.tick)
    (hbusy : s.core.bank.loadBusy ≤ s.core.bank.tick) : exec (.mldw o) s = .next (s.loadStart o) := by
  change execMldw o s = _
  rw [execMldw, State.primaryOnly_runs h]
  have halign : ((s.genOf o).isNone && decide (o.line.toNat % weightLines o.mode.toNat ≠ 0)) = false := by
    rw [genOf_isNone]
    cases hg : o.useGen with
    | true => rfl
    | false => simp [(hline hg).1]
  have hlines : (if (s.genOf o).isNone then s.linesOk o.line.toNat (loadLines o) else none) = none := by
    rw [genOf_isNone]
    cases hg : o.useGen with
    | true => rfl
    | false => exact (hline hg).2
  refine (if_neg (by simp [hgen])).trans ((if_neg (Bool.eq_false_iff.mp halign)).trans ?_)
  change (match (if (s.genOf o).isNone then s.linesOk o.line.toNat (loadLines o) else none) with
    | some c => s.raise c
    | none => _) = _
  rw [hlines]
  exact (if_neg (Bool.eq_false_iff.mp (shadow_unread hread))).trans ((if_neg (Nat.not_lt.mpr hbusy)).trans rfl)

/-! ### The end -/

theorem mem_insertPend {e x : Pend} {ps : List Pend} : x ∈ insertPend e ps ↔ x = e ∨ x ∈ ps := by
  induction ps with
  | nil => simp [insertPend]
  | cons y ys ih =>
    rw [insertPend]
    split
    · rw [List.mem_cons, ih, List.mem_cons, or_left_comm]
    · exact List.mem_cons

theorem mem_foldl_insertPend {x : Pend} (es ps : List Pend) :
    x ∈ es.foldl (fun p e => insertPend e p) ps ↔ x ∈ es ∨ x ∈ ps := by
  induction es generalizing ps with
  | nil => simp
  | cons e es ih => rw [List.foldl_cons, ih, mem_insertPend, List.mem_cons, ← or_assoc, or_comm (a := x ∈ es)]

/-- One tick of a load leaves what its issue captured. -/
theorem loaderTick_frame (m : Mem) (tick : Nat) (l : Loader) :
    (loaderTick m tick l).issue = l.issue ∧ (loaderTick m tick l).plane = l.plane ∧ (loaderTick m tick l).code = l.code := by
  unfold loaderTick
  split <;> exact ⟨rfl, rfl, rfl⟩

/-- R79: the planes that a load in its last tick puts in flight. -/
theorem matrixTick_shadow {s : State} {l : Loader} (hl : s.core.bank.loader = some l)
    (ht : s.core.bank.tick = l.issue + 63) (hn : l.next ≤ 63) :
    let u := loaderTick s.core.store s.core.bank.tick l
    ({ due := u.issue + 64, seq := u.seq, eff := .shadow u.plane u.code u.wa u.wb u.scales, unit := 4, flags := 0 } : Pend) ∈
      s.matrixTick.core.bank.pend := by
  intro u
  have hreads : l.reads s.core.bank.tick = true := by
    rw [ht]
    simp [Loader.reads, hn]
  have hissue : u.issue = l.issue := (loaderTick_frame _ _ _).1
  refine (mem_foldl_insertPend _ _).mpr (.inl (List.mem_append_left _ (List.mem_append_right _ ?_)))
  rw [hl]
  change _ ∈ (if (decide (s.core.bank.tick = u.issue + 63) && l.reads s.core.bank.tick) = true then _ else _)
  rw [if_pos (by rw [hissue, hreads, ht, decide_eq_true rfl]; rfl)]
  exact List.mem_singleton.mpr rfl

/-- Settles O32: the checks passed, and the last tick of a load. -/
theorem matrixLoad : Obligations.MatrixLoad := by
  refine ⟨fun o s h => ?_, fun s l hl ht hn => ?_⟩
  · intro b p code lw f hgen hline hread hbusy
    obtain ⟨hload, hend, hregs⟩ := s.loadStart_bank o
    exact ⟨s.loadStart o, s.newLoader o, exec_mldw_passes h hgen hline hread hbusy, hload, rfl, rfl, rfl, rfl, rfl, rfl,
      hend, hregs, rfl, rfl⟩
  · intro u
    obtain ⟨hissue, hplane, hcode⟩ := loaderTick_frame s.core.store s.core.bank.tick l
    exact ⟨_, matrixTick_shadow hl ht hn, congrArg (· + 64) hissue, congrArg₂ (Eff.shadow · · u.wa u.wb u.scales) hplane hcode⟩

end Sys2Proof.Machine
end

section
/-! PROOFS. The epilogue. -/

namespace Sys2Proof.Machine

/-! ### Two ranges of lines (R354) -/

theorem rangesOk_one (s : State) (a n : Nat) (h : s.linesOk a n = none) : s.rangesOk [(a, n)] = none := by
  simp [State.rangesOk, h]

section
variable {s : State} {a n a' n' : Nat}

theorem rangesOk_two_none (h : s.linesOk a n = none) (h' : s.linesOk a' n' = none) :
    s.rangesOk [(a, n), (a', n')] = none := by
  simp [State.rangesOk, h, h']

theorem rangesOk_two_unpinned (h : s.linesOk a n = some 0x06 ∨ s.linesOk a' n' = some 0x06) :
    s.rangesOk [(a, n), (a', n')] = some 0x06 := by
  refine if_pos (List.contains_iff_mem.mpr (List.mem_filterMap.mpr ?_))
  rcases h with h | h
  · exact ⟨_, List.mem_cons_self, h⟩
  · exact ⟨_, List.mem_cons_of_mem _ List.mem_cons_self, h⟩

theorem rangesOk_two_other (h : s.linesOk a n ≠ some 0x06) (h' : s.linesOk a' n' ≠ some 0x06)
    (ho : s.linesOk a n = some 0x0D ∨ s.linesOk a' n' = some 0x0D) : s.rangesOk [(a, n), (a', n')] = some 0x0D := by
  have hc := (linesOk_cases s a n).imp_right fun hx => hx.resolve_left h
  have hc' := (linesOk_cases s a' n').imp_right fun hx => hx.resolve_left h'
  rcases hc with hc | hc <;> rcases hc' with hc' | hc' <;> simp_all [State.rangesOk]

end

/-! ### The checks and the start -/

/-- The parameter lines of an MEPI. -/
def State.epiParams (s : State) (o : MOp) : Nat := (s.core.bank.sreg o.sn).toNat % 65536

/-- The epilogue that an issue captures. -/
def State.newEpi (s : State) (o : MOp) : Epi :=
  { seq := s.core.bank.seq, issue := s.core.bank.tick, acc := o.acc.toNat, rows := s.rowCount o, dest := o.line.toNat,
    out := o.np, act := o.mode.toNat % 4,
    param := if 4 ≤ o.mode.toNat then
        some (colWords s.core.store (s.epiParams o), colWords s.core.store (s.epiParams o + 8))
      else none, next := 0 }

/-- The output lines of an MEPI. -/
def State.epiOut (s : State) (o : MOp) : List Nat :=
  (List.range (s.rowCount o * epiLines o.np)).map (o.line.toNat + ·)

/-- The bank once an MEPI has claimed its ports. -/
def State.epiBank (s : State) (o : MOp) : Bank :=
  let b := (s.logUndo (s.epiOut o)).core.bank
  let b := if 4 ≤ o.mode.toNat then b.claim b.tick ((List.range 16).map (s.epiParams o + ·)) else b
  (List.range (s.rowCount o)).foldl
    (fun b i => b.claim (b.tick + 24 + i) ((List.range (epiLines o.np)).map (o.line.toNat + i * epiLines o.np + ·))) b

/-- The state with an epilogue started. -/
def State.epiStart (s : State) (o : MOp) : State :=
  let b := s.epiBank o
  (s.logUndo (s.epiOut o)).setBank { b with
    epis := b.epis ++ [s.newEpi o], epiBusy := b.tick + s.rowCount o,
    holds := b.holds ++ [(o.acc.toNat, b.tick + 24 + s.rowCount o)] }

theorem State.claims_epiBank (s : State) (o : MOp) : (s.logUndo (s.epiOut o)).core.bank.Claims (s.epiBank o) := by
  unfold State.epiBank
  exact Bank.Claims.foldl _ (fun _ _ h => h.claim _ _) (Bank.Claims.ite ((Bank.Claims.refl _).claim _ _) (.refl _))

theorem State.epiStart_bank (s : State) (o : MOp) :
    (s.epiStart o).core.bank.epis = s.core.bank.epis ++ [s.newEpi o] ∧
      (s.epiStart o).core.bank.holds =
        s.core.bank.holds ++ [(o.acc.toNat, s.core.bank.tick + 24 + s.rowCount o)] ∧
      (s.epiStart o).core.bank.sameRegs s.core.bank := by
  have hb : s.epiBank o = _ := s.claims_epiBank o
  have hepis : (s.epiBank o).epis = s.core.bank.epis := by rw [hb]; rfl
  have hholds : (s.epiBank o).holds = s.core.bank.holds := by rw [hb]; rfl
  have htick : (s.epiBank o).tick = s.core.bank.tick := by rw [hb]; rfl
  have hcbs : (s.epiBank o).cbs = (s.logUndo (s.epiOut o)).core.bank.cbs := by rw [hb]
  rw [← hepis, ← hholds, ← htick]
  exact ⟨rfl, rfl, ((s.keepsAtIssue_logUndo _).trans (keepsAtIssue_epis ⟨(s.claims_epiBank o).sameRegs, hcbs⟩)).regs⟩

/-- The ranges of an MEPI: its output lines, and its parameters when it has some. -/
def State.epiRanges (s : State) (o : MOp) : List (Nat × Nat) :=
  (o.line.toNat, s.rowCount o * epiLines o.np) :: if 4 ≤ o.mode.toNat then [(s.epiParams o, 16)] else []

section
variable {s : State} {o : MOp} (h : s.primaryRuns o.g)
include h

theorem exec_mepi_empty (hm : s.rowCount o = 0) : exec (.mepi o) s = .next s := by
  change execMepi o s = _
  rw [execMepi, State.primaryOnly_runs h]
  exact (if_neg (by omega)).trans (if_pos hm)

section
variable (h1 : 1 ≤ s.rowCount o) (h128 : s.rowCount o ≤ 128) (ha : o.acc.toNat < s.core.bank.at_)
  (ht : (s.core.bank.tile o.acc.toNat).tag = 1 ∨ (s.core.bank.tile o.acc.toNat).tag = 8)
  (hd : o.line.toNat % epiLines o.np = 0) (hp : 4 ≤ o.mode.toNat → s.epiParams o % 16 = 0)
include h1 h128 ha ht hd hp

/-- R86: the checks of an MEPI after its tile and its alignment. -/
theorem exec_mepi_aligned :
    exec (.mepi o) s =
      match s.rangesOk (s.epiRanges o) with
      | some c => s.raise c
      | none =>
        if s.core.bank.epiHazard o.line.toNat (s.rowCount o) (epiLines o.np) ||
            s.unitHeld (128 * o.line.toNat) (128 * s.rowCount o * epiLines o.np) then s.raise 0x0A
        else if 512 < s.core.bank.undo.length + (s.newUndo (s.epiOut o)).length then s.raise 0x21
        else if s.core.bank.tick < s.core.bank.epiBusy then s.raise 0x04
        else .next (s.epiStart o) := by
  change execMepi o s = _
  rw [execMepi, State.primaryOnly_runs h]
  exact (if_neg (by omega)).trans ((if_neg (by omega)).trans ((if_neg (by omega)).trans
    ((if_neg (by rcases ht with ht | ht <;> simp [ht])).trans
      ((if_neg (by rintro (hx | ⟨h4, hx⟩); exacts [hx hd, hx (hp h4)])).trans rfl))))

theorem exec_mepi_ranges {c : Nat} (hc : s.rangesOk (s.epiRanges o) = some c) : exec (.mepi o) s = s.raise c := by
  rw [exec_mepi_aligned h h1 h128 ha ht hd hp, hc]

theorem exec_mepi_passes (hc : s.rangesOk (s.epiRanges o) = none)
    (hz : s.core.bank.epiHazard o.line.toNat (s.rowCount o) (epiLines o.np) = false)
    (hu : s.unitHeld (128 * o.line.toNat) (128 * s.rowCount o * epiLines o.np) = false)
    (hl : s.core.bank.undo.length + (s.newUndo (s.epiOut o)).length ≤ 512)
    (hb : s.core.bank.epiBusy ≤ s.core.bank.tick) : exec (.mepi o) s = .next (s.epiStart o) := by
  rw [exec_mepi_aligned h h1 h128 ha ht hd hp, hc]
  exact (if_neg (by simp [hz, hu])).trans ((if_neg (Nat.not_lt.mpr hl)).trans (if_neg (Nat.not_lt.mpr hb)))

end
end

/-! ### A row -/

/-- The fields of a row of equally wide numbers. -/
theorem field_flatMap_leBytes {α : Type} (w : Nat) (f : α → Nat) (xs : List α) (j : Nat) (h : j < xs.length) :
    field (xs.flatMap fun x => leBytes w (f x)) (w * j) w = f xs[j] % 2 ^ (8 * w) := by
  induction xs generalizing j with
  | nil => cases h
  | cons x xs ih =>
    rw [List.flatMap_cons]
    cases j with
    | zero =>
      rw [field, Nat.mul_zero, List.drop_zero, List.take_append_of_le_length (by simp), List.take_of_length_le (by simp),
        leNat_leBytes, show 256 = 2 ^ 8 by rfl, ← Nat.pow_mul]
      rfl
    | succ j =>
      have hdrop := List.drop_length_add_append (l₁ := leBytes w (f x)) (l₂ := xs.flatMap fun x => leBytes w (f x)) (w * j)
      rw [length_leBytes] at hdrop
      rw [field, Nat.mul_succ, Nat.add_comm, hdrop]
      exact ih j (Nat.lt_of_succ_lt_succ h)

theorem length_flatMap_leBytes {α : Type} (w : Nat) (f : α → Nat) (xs : List α) :
    (xs.flatMap fun x => leBytes w (f x)).length = xs.length * w := by
  induction xs with
  | nil => simp
  | cons x xs ih => rw [List.flatMap_cons, List.length_append, length_leBytes, ih, List.length_cons, Nat.succ_mul, Nat.add_comm]

/-- The elements of an output row. -/
def Epi.cols (e : Epi) (b : Bank) (i : Nat) : List (Nat × Bool) :=
  (List.range 256).map fun j =>
    epilogueElem (b.tile e.acc).tag (accCol ((b.tile e.acc).row i) j)
      (e.param.map fun p => (p.1.getD j 0, p.2.getD j 0)) e.act e.out

/-- The bytes of an output row. -/
def Epi.rowBytes (e : Epi) (b : Bank) (i : Nat) : List Byte :=
  (e.cols b i).flatMap fun c => leBytes (tagWidth e.out / 8) c.1

/-- R86, R87: the row that an MEPI reads at its tick. -/
theorem epiTick_row (b : Bank) (e : Epi) {i : Nat} (hi : i < e.rows) (hn : e.next ≤ i) (ht : b.tick = e.issue + i) :
    epiTick b e = [⟨e.issue + 24 + i, e.seq, .store (128 * (e.dest + i * epiLines e.out)) (e.rowBytes b i) none, 3,
      if (e.cols b i).any (·.2) then 1 else 0, false⟩] := by
  have hsub : b.tick - e.issue = i := by omega
  rw [epiTick]
  refine (if_neg ?_).trans ?_
  · simp only [Bool.or_eq_true, decide_eq_true_eq]
    omega
  · simp only [hsub, Epi.rowBytes, Epi.cols]
    rfl

/-- R86: an I32 element copied without scale and activation. -/
theorem epilogueElem_plain {c : Nat} (hc : c < 2 ^ 32) {out : Tag} (ho : tagInt out = true) :
    (epilogueElem 8 c none 0 out).1 = wrapTo (tagWidth out) (clampTo out (BitVec.ofNat 32 c).toInt) := by
  obtain ⟨-, -, -, -, hfmt⟩ := tagInt_width ho
  obtain ⟨neg, m, hval, hround⟩ := elemValue_int (t := 8) rfl hc
  have hplain : epilogueElem 8 c none 0 out = convertElem 8 c out .rne := if_pos (by rw [hfmt]; rfl)
  rw [hplain, convertElem_fin ho .rne hval, hround]
  rfl

theorem wrapTo_toInt {c : Nat} (hc : c < 2 ^ 32) : wrapTo 32 (clampTo 8 (BitVec.ofNat 32 c).toInt) = c := by
  have hlow := BitVec.le_toInt (BitVec.ofNat 32 c)
  have hhigh := BitVec.toInt_lt (x := BitVec.ofNat 32 c)
  have hval : (BitVec.ofNat 32 c).toInt = if 2 * c < 2 ^ 32 then (c : Int) else (c : Int) - 2 ^ 32 := by
    rw [BitVec.toInt_eq_toNat_cond, BitVec.toNat_ofNat, Nat.mod_eq_of_lt hc]
    rfl
  rw [clampTo_i32, min_eq_right (by omega), max_eq_right (by omega), wrapTo, hval]
  split <;> omega

theorem clampTo_i8 (v : Int) : (wrapTo 8 (clampTo 6 v) : Int) = max (-128) (min 127 v) % 256 := by
  rw [clampTo, intRange_eq, wrapTo, Int.toNat_of_nonneg (Int.emod_nonneg _ (by decide))]
  rfl

/-- Settles O33: the checks of both ranges, the start, and one row. -/
theorem matrixEpilogue : Obligations.MatrixEpilogue := by
  refine ⟨fun o s h => ?_, fun b e i hi hn ht => ?_⟩
  · intro b m acc n par p
    refine ⟨exec_mepi_empty h, fun h1 h128 ha htag hd hp hpar => ?_, fun h1 h128 ha htag hd hp hout hz hu hbusy hl => ?_⟩
    · intro d q
      have h4 : 4 ≤ o.mode.toNat := of_decide_eq_true hp
      have hranges : s.epiRanges o = [(o.line.toNat, m * n), (par, 16)] := by rw [State.epiRanges, if_pos h4]; rfl
      refine ⟨fun hx => ?_, fun hx hy hz => ?_⟩
      · exact exec_mepi_ranges h h1 h128 ha htag hd (fun _ => hpar) (hranges ▸ rangesOk_two_unpinned hx)
      · exact exec_mepi_ranges h h1 h128 ha htag hd (fun _ => hpar) (hranges ▸ rangesOk_two_other hx hy hz)
    · have hranges : s.rangesOk (s.epiRanges o) = none := by
        rw [State.epiRanges]
        by_cases h4 : 4 ≤ o.mode.toNat
        · rw [if_pos h4]
          exact rangesOk_two_none hout (hp (decide_eq_true h4)).2
        · rw [if_neg h4]
          exact rangesOk_one s _ _ hout
      have hpar : 4 ≤ o.mode.toNat → s.epiParams o % 16 = 0 := fun h4 => (hp (decide_eq_true h4)).1
      obtain ⟨hepis, hholds, hregs⟩ := s.epiStart_bank o
      refine ⟨s.epiStart o, s.newEpi o, exec_mepi_passes h h1 h128 ha htag hd hpar hranges hz hu hl hbusy, hepis, rfl, rfl,
        rfl, rfl, rfl, rfl, ?_, rfl, hholds, hregs, rfl, rfl⟩
      simp only [State.newEpi, p]
      by_cases h4 : 4 ≤ o.mode.toNat <;> simp [h4]
  · refine ⟨_, e.rowBytes b i, epiTick_row b e hi hn ht, rfl, rfl, ?_, fun j hj => ?_, fun c hc => ⟨?_, ?_⟩⟩
    · rw [Epi.rowBytes, length_flatMap_leBytes, Epi.cols, List.length_map, List.length_range]
    · have hlen : j < (e.cols b i).length := by rwa [Epi.cols, List.length_map, List.length_range]
      refine (field_flatMap_leBytes _ (fun c : Nat × Bool => c.1) _ j hlen).trans ?_
      simp only [Epi.cols, List.getElem_map, List.getElem_range]
    · rw [epilogueElem_plain hc rfl]
      exact wrapTo_toInt hc
    · rw [epilogueElem_plain hc rfl]
      exact clampTo_i8 _

end Sys2Proof.Machine
end

section
/-! PROOFS. The reduction across a cell. -/

namespace Sys2Proof.Machine

/-! ### The checks and the start -/

/-- The decision of the lead's row count changes the hub's log alone. -/
theorem State.leadRows_hub (s : State) (own : Nat) : ∃ h, (s.leadRows own).2 = s.setHub h := by
  unfold State.leadRows
  split
  · exact ⟨s.hub, rfl⟩
  · split
    · exact ⟨_, rfl⟩
    · exact ⟨s.hub, rfl⟩

theorem mredFault_setHub (s : State) (h : Hub) (acc np : Nat) : (s.setHub h).mredFault acc np = s.mredFault acc np := rfl

section
variable {s : State} {acc np : Nat}

theorem mem_mredTiles {p : Nat × Tag → Bool} :
    (((List.range 4).map (s.mredTile acc)).any p) = true ↔ ∃ q < 4, p (s.mredTile acc q) = true := by
  simp only [List.any_eq_true, List.mem_map, List.mem_range, exists_exists_and_eq_and]

theorem mredFault_beyond (h : ∃ q < 4, (s.mredTile acc q).1 ≤ acc) : s.mredFault acc np = some 0x02 :=
  if_pos (mem_mredTiles.mpr (by simpa using h))

theorem mredFault_tag (h : ∀ q < 4, acc < (s.mredTile acc q).1) (ht : ∃ q < 4, (s.mredTile acc q).2 ≠ profileTag np) :
    s.mredFault acc np = some 0x05 :=
  (if_neg (mt mem_mredTiles.mp (by simpa using h))).trans (if_pos (mem_mredTiles.mpr (by simpa using ht)))

theorem mredFault_none (h : ∀ q < 4, acc < (s.mredTile acc q).1 ∧ (s.mredTile acc q).2 = profileTag np) :
    s.mredFault acc np = none :=
  (if_neg (mt mem_mredTiles.mp (by simpa using fun q hq => (h q hq).1))).trans
    (if_neg (mt mem_mredTiles.mp (by simpa using fun q hq => (h q hq).2)))

end

/-- The reduction that an issue captures, of the lead's row count. -/
def State.newMred (s : State) (o : MOp) : Mred :=
  { seq := s.core.bank.mredN, issue := s.core.bank.tick, acc := o.acc.toNat, rows := (s.leadRows (s.rowCount o)).1,
    tag := (s.core.bank.tile o.acc.toNat).tag, out := [] }

/-- The state with a reduction started. -/
def State.mredStart (s : State) (o : MOp) : State :=
  let b := s.core.bank
  let m := (s.leadRows (s.rowCount o)).1
  (s.leadRows (s.rowCount o)).2.setBank { b with
    mreds := b.mreds ++ [s.newMred o], mredN := b.mredN + 1, mredBusy := b.tick + m,
    holds := if b.pos % 4 == 0 then b.holds ++ [(o.acc.toNat, b.tick + 48 + m)] else b.holds }

theorem exec_mred_solo {s : State} {o : MOp} (h : s.primaryRuns o.g) (hg : s.gang = none) :
    exec (.mred o) s = s.raise 0x01 := by
  change execMred o s = _
  rw [execMred, State.primaryOnly_runs h]
  exact if_pos (by rw [hg]; rfl)

/-- R88, R364: an MRED in a gang, by the lead's row count. -/
theorem exec_mred_gang {s : State} {o : MOp} (h : s.primaryRuns o.g) (hg : s.gang ≠ none) :
    let m := (s.leadRows (s.rowCount o)).1
    let u := (s.leadRows (s.rowCount o)).2
    exec (.mred o) s =
      if 128 < m then u.raise 0x01
      else if m = 0 then .next u
      else match s.mredFault o.acc.toNat o.np.toNat with
        | some c => u.raise c
        | none =>
          if s.core.bank.pos % 4 == 0 && s.core.bank.tileHeld o.acc.toNat (s.core.bank.tick + 48) then u.raise 0x0A
          else if s.core.bank.tick < s.core.bank.mredBusy then u.raise 0x04
          else .next (s.mredStart o) := by
  intro m u
  obtain ⟨hub, hu⟩ := s.leadRows_hub (s.rowCount o)
  change execMred o s = _
  rw [execMred, State.primaryOnly_runs h]
  refine (if_neg (by simpa using hg)).trans ?_
  simp only [State.mredStart, m, u, hu, mredFault_setHub]
  rfl

/-! ### The members' tiles -/

/-- R40: the tile of a member that has issued this MRED, with one in flight. -/
theorem mredTile_issued {s : State} {acc q : Nat} {r : Mred} (hq : s.cur / 4 * 4 + q ≠ s.cur)
    (hr : ((s.coreAt (s.cur / 4 * 4 + q)).bankAt s.core.curBank).mreds = [r]) (hs : r.seq = s.core.bank.mredN) :
    s.mredTile acc q = (acc + 1, r.tag) := by
  refine (if_neg hq).trans ?_
  rw [hr, List.find?_cons_of_pos (by simpa using hs)]

/-- R40: the tile of a member that has not issued this MRED and has nothing in flight. -/
theorem mredTile_idle {s : State} {acc q : Nat} (hq : s.cur / 4 * 4 + q ≠ s.cur)
    (hr : ∀ r ∈ ((s.coreAt (s.cur / 4 * 4 + q)).bankAt s.core.curBank).mreds, r.seq ≠ s.core.bank.mredN)
    (hp : ((s.coreAt (s.cur / 4 * 4 + q)).bankAt s.core.curBank).pend = []) :
    s.mredTile acc q = (((s.coreAt (s.cur / 4 * 4 + q)).bankAt s.core.curBank).at_,
      (((s.coreAt (s.cur / 4 * 4 + q)).bankAt s.core.curBank).tile acc).tag) := by
  refine (if_neg hq).trans ?_
  rw [List.find?_eq_none.mpr (by simpa using hr)]
  simp only [Bank.tileAt, hp, List.filter_nil, byDue, List.foldl_nil]

/-! ### A row -/

/-- The elements of result row i. -/
def State.mredCols (s : State) (r : Mred) (i : Nat) : List (Nat × Bool) :=
  let rows := s.mredRows s.core.curBank r.acc r.seq i
  (List.range 256).map fun j =>
    mredElem r.tag (accCol (rows.getD 0 0) j) (accCol (rows.getD 1 0) j) (accCol (rows.getD 2 0) j) (accCol (rows.getD 3 0) j)

/-- R88: the row that position 0 puts in flight one tick before it lands. -/
theorem mredLand_row {s : State} {r : Mred} {i : Nat} (hpos : s.core.bank.pos % 4 = 0) (hi : i < r.rows)
    (ht : s.core.bank.tick = r.issue + 47 + i) :
    s.mredLand r = [⟨r.issue + 48 + i, s.core.bank.seq,
      .accRow r.acc i 256 (accOf ((s.mredCols r i).map (·.1))) none, 4,
      if (s.mredCols r i).any (·.2) then 2 else 0, false⟩] := by
  have hsub : s.core.bank.tick - (r.issue + 47) = i := by omega
  rw [State.mredLand, if_neg (by omega), hsub, State.mredRow]
  refine (if_neg ?_).trans rfl
  simp only [Bool.or_eq_true, decide_eq_true_eq]
  omega

/-- Settles O34: the checks by the members' tiles, the start, and one result row. -/
theorem matrixReduce : Obligations.MatrixReduce := by
  refine ⟨fun o s h => ?_, fun s acc q hq => ?_, fun s r i hpos hi ht => ?_, fun c0 c1 c2 c3 => ⟨rfl, ?_⟩⟩
  · intro b m acc u tile
    refine ⟨exec_mred_solo h, fun hg => ⟨fun hm => ?_, fun hm => ?_⟩, fun hg h1 h128 => ⟨fun hx => ?_, fun hin hx => ?_⟩,
      fun hg h1 h128 hall hheld hbusy => ?_⟩
    · exact (exec_mred_gang h hg).trans ((if_neg (by omega)).trans (if_pos hm))
    · exact (exec_mred_gang h hg).trans (if_pos hm)
    · refine (exec_mred_gang h hg).trans ((if_neg (by omega)).trans ((if_neg (by omega)).trans ?_))
      rw [mredFault_beyond hx]
    · refine (exec_mred_gang h hg).trans ((if_neg (by omega)).trans ((if_neg (by omega)).trans ?_))
      rw [mredFault_tag hin hx]
    · refine ⟨s.mredStart o, s.newMred o, ?_, rfl, rfl, rfl, rfl, rfl, rfl, rfl, ?_, ?_, ?_⟩
      · refine (exec_mred_gang h hg).trans ((if_neg (by omega)).trans ((if_neg (by omega)).trans ?_))
        rw [mredFault_none hall]
        refine (if_neg ?_).trans (if_neg (Nat.not_lt.mpr hbusy))
        rw [Bool.and_eq_true, beq_iff_eq, not_and]
        exact fun hp => Bool.eq_false_iff.mp (hheld hp)
      · simp only [State.mredStart, State.setBank_core, beq_iff_eq]
        rfl
      · exact Bank.sameRegs.refl _
      · obtain ⟨hub, hu⟩ := s.leadRows_hub (s.rowCount o)
        rw [State.mredStart, hu]
        rfl
  · intro b c k
    refine ⟨fun hc => if_pos hc, fun hc hr hp => mredTile_idle hc hr hp, fun r hc hr hs => ?_⟩
    rw [mredTile_issued hc hr hs]
    exact ⟨Nat.lt_succ_self acc, rfl⟩
  · intro rows
    refine ⟨_, _, mredLand_row hpos hi ht, rfl, rfl, fun j hj => ?_⟩
    rw [State.mredCols, List.map_map]
    exact accCol_accOf_range _ hj hj
  · dsimp only
    have htag : mredElem 8 c0 c1 c2 c3 = _ := if_neg (by decide)
    rw [htag]
    simp only [clampTo_i32]
    rfl

end Sys2Proof.Machine
end

section
/-! PROOFS. A store alone in flight, and the access checks of a load. -/

namespace Sys2Proof.Machine

/-! ### A store in flight -/

theorem Core.afterFence_sameRegs (c : Core) (seq : Nat) : (c.afterFence seq).bank.sameRegs c.bank := by
  unfold Core.afterFence
  split
  · exact Core.publish_sameRegs _ _
  · exact Bank.sameRegs.refl _

theorem State.storeAt_store (s : State) (lat a : Nat) (bytes : List Byte) (rel : Option Nat) :
    (s.storeAt lat a bytes rel).core.store = s.core.store := by
  simp only [State.storeAt, State.logUndo, State.setBank_core]

theorem State.storeAt_mem (s : State) (lat a : Nat) (bytes : List Byte) (rel : Option Nat) :
    (s.storeAt lat a bytes rel).mem = s.mem := by
  simp only [State.storeAt, State.logUndo, State.setBank_mem]

/-- The tick and the results in flight are no registers. -/
theorem Bank.sameRegs_flight (b : Bank) (t : Nat) (ps : List Pend) :
    ({ b with tick := t, pend := ps } : Bank).sameRegs b := Bank.sameRegs.refl b

theorem State.storeAt_pend (s : State) (lat a : Nat) (bytes : List Byte) (rel : Option Nat) :
    (s.storeAt lat a bytes rel).core.bank.pend =
      s.core.bank.pend ++ [⟨s.core.bank.tick + lat, s.core.bank.seq, .store a bytes rel, 4, 0, false⟩] := by
  simp only [State.storeAt, State.logUndo, State.setBank_core]
  rfl

theorem State.storeAt_sameRegs (s : State) (lat a : Nat) (bytes : List Byte) (rel : Option Nat) :
    (s.storeAt lat a bytes rel).core.bank.sameRegs s.core.bank :=
  (((s.logUndo (linesOf a bytes.length)).core.bank.claim _ _).sameRegs_addPend lat _ 4 0).trans
    ((Bank.claim_keeps _ _ _).1.trans (s.keepsAtIssue_logUndo _).regs)

/-- R342: a store without a release lands its bytes in the window. -/
theorem State.landOne_store (s : State) {a due seq u : Nat} {bytes : List Byte} {fl : BitVec 3} {pub : Bool} :
    s.landOne ⟨due, seq, .store a bytes none, u, fl, pub⟩ =
      s.setCore (Core.afterFence { s.core with store := writeBytes s.core.store a bytes } seq) := rfl

/-- Settles O37: the store before its tick, and its landing. -/
theorem storeLands : Obligations.StoreLands := by
  intro s lat a t bytes hwf hp u w
  let e : Pend := ⟨s.core.bank.tick + lat, s.core.bank.seq, .store a bytes none, 4, 0, false⟩
  have hpend : u.core.bank.pend = [e] := by
    rw [State.storeAt_pend, hp]
    rfl
  refine ⟨fun x => by rw [State.storeAt_store], fun ht x => ?_, fun ht => ?_⟩
  · have hw : w = _ := u.landDue_single_later (b := { u.core.bank with tick := t }) hpend ht
    rw [hw, State.setBank_core, State.storeAt_store]
  · have hw : w = _ := u.landDue_single_now (b := { u.core.bank with tick := t }) hpend ht rfl
    rw [State.landOne_store] at hw
    have hstore : w.core.store = writeBytes s.core.store a bytes := by
      rw [hw, State.setCore_core, Core.afterFence_store, State.setBank_core, State.storeAt_store]
    rw [hstore]
    refine ⟨fun i hi => ?_, fun x hx => memByte_writeBytes_out hwf hx, wf_writeBytes _ _ hwf, fun x => ?_, ?_⟩
    · rw [memByte_writeBytes hwf, if_pos (by omega), Nat.add_sub_cancel_left]
    · rw [hw, State.setCore_mem, State.setBank_mem, State.storeAt_mem]
    · have hregs : w.core.bank.sameRegs u.core.bank := by
        rw [hw, State.setCore_core]
        exact (Core.afterFence_sameRegs _ _).trans (Bank.sameRegs_flight u.core.bank t [])
      exact hregs.trans (s.storeAt_sameRegs lat a bytes none)

/-! ### The access checks -/

/-- R99 step 1: the first byte is canonical and the last one in the half of the first. -/
theorem step1_iff {a n : Nat} (hn : 0 < n) :
    step1 a n = true ↔ (a < 2 ^ 56 ∨ 2 ^ 64 - 2 ^ 56 ≤ a) ∧ ¬((a < 2 ^ 56 ∧ 2 ^ 56 < a + n) ∨ 2 ^ 64 < a + n) := by
  simp only [step1, canonical, Bool.and_eq_true, Bool.or_eq_true, decide_eq_true_eq]
  by_cases ha : a < 2 ^ 56
  · simp only [ha, if_true, decide_eq_true_eq, true_or, true_and]
    omega
  · simp only [ha, if_false, decide_eq_true_eq, false_or, false_and]
    omega

section
variable {user : Bool} {a n al : Nat} (hn : 0 < n)
include hn

theorem checkSteps13_edge (h : ¬((a < 2 ^ 56 ∨ 2 ^ 64 - 2 ^ 56 ≤ a) ∧
    ¬((a < 2 ^ 56 ∧ 2 ^ 56 < a + n) ∨ 2 ^ 64 < a + n))) : checkSteps13 user a n al = some 0x07 := by
  refine if_pos ?_
  rw [max_eq_left hn, Bool.not_eq_true', Bool.eq_false_iff]
  exact mt (step1_iff hn).mp h

variable (h : (a < 2 ^ 56 ∨ 2 ^ 64 - 2 ^ 56 ≤ a) ∧ ¬((a < 2 ^ 56 ∧ 2 ^ 56 < a + n) ∨ 2 ^ 64 < a + n))
include h

theorem checkSteps13_canonical : checkSteps13 user a n al =
    if user && decide (2 ^ 56 ≤ a) then some 0x0C else if a % al ≠ 0 then some 0x08 else none :=
  if_neg (by rw [max_eq_left hn, (step1_iff hn).mpr h]; exact Bool.false_ne_true)

theorem checkSteps13_supervisor (hu : user = true) (ha : 2 ^ 56 ≤ a) : checkSteps13 user a n al = some 0x0C :=
  (checkSteps13_canonical hn h).trans (if_pos (by rw [hu, decide_eq_true ha]; rfl))

theorem checkSteps13_align (hu : user = false ∨ a < 2 ^ 56) (hal : a % al ≠ 0) : checkSteps13 user a n al = some 0x08 :=
  (checkSteps13_canonical hn h).trans ((if_neg (by
    rw [Bool.and_eq_true, decide_eq_true_eq]
    rintro ⟨hu', ha⟩
    rcases hu with hu | hu
    · exact absurd (hu.symm.trans hu') Bool.false_ne_true
    · omega)).trans (if_pos hal))

theorem checkSteps13_passes (hu : user = false ∨ a < 2 ^ 56) (hal : a % al = 0) : checkSteps13 user a n al = none :=
  (checkSteps13_canonical hn h).trans ((if_neg (by
    rw [Bool.and_eq_true, decide_eq_true_eq]
    rintro ⟨hu', ha⟩
    rcases hu with hu | hu
    · exact absurd (hu.symm.trans hu') Bool.false_ne_true
    · omega)).trans (if_neg (not_not.mpr hal)))

end

section
variable {s : State} {a n al : Nat}

theorem checkLocal_steps {c : Nat} (h : checkSteps13 (!s.sup?) a n al = some c) : s.checkLocal a n al = some c := by
  rw [State.checkLocal, h]

theorem checkLocal_hub (h : checkSteps13 (!s.sup?) a n al = none) (hh : 0xFFFFFFFFFFFF0000 ≤ a + n - 1) :
    s.checkLocal a n al = some 0x08 := by
  rw [State.checkLocal, h]
  exact if_pos (decide_eq_true hh)

theorem checkLocal_outside (h : checkSteps13 (!s.sup?) a n al = none) (hh : a + n - 1 < 0xFFFFFFFFFFFF0000)
    (hw : windowBytes < a + n) : s.checkLocal a n al = some 0x06 := by
  rw [State.checkLocal, h]
  exact (if_neg (by rw [inHubWindow, decide_eq_true_eq]; omega)).trans (if_pos hw)

theorem checkLocal_window (h : checkSteps13 (!s.sup?) a n al = none) (hn : 0 < n) (hw : a + n ≤ windowBytes) :
    s.checkLocal a n al =
      checkLines s.core.bank.pins s.core.other.pins (a / 128) ((a + n - 1) / 128 - a / 128 + 1) := by
  rw [State.checkLocal, h]
  have : windowBytes = 0x800000 := rfl
  exact (if_neg (by rw [inHubWindow, decide_eq_true_eq]; omega)).trans ((if_neg (by omega)).trans (if_neg (by omega)))

end

/-- A check of one line of the window. -/
theorem checkLines_single {own other : BitVec 65536} {l : Nat} (hl : l < 65536) :
    checkLines own other l 1 =
      if own.getLsbD l then none else if other.getLsbD l then some 0x0D else some 0x06 := by
  have hfor : lineForeign own l 1 ↔ own.getLsbD l = false := by
    constructor
    · rintro ⟨k, -, h1, h2, h3⟩
      rwa [show l = k by omega]
    · exact fun h => ⟨l, hl, le_rfl, by omega, h⟩
  have hunp : lineUnpinned own other l 1 ↔ own.getLsbD l = false ∧ other.getLsbD l = false := by
    constructor
    · rintro ⟨k, -, h1, h2, h3⟩
      rwa [show l = k by omega]
    · exact fun h => ⟨l, hl, le_rfl, by omega, h⟩
  cases ho : own.getLsbD l with
  | true => exact checkLines_own (by rw [hfor, ho]; exact Bool.false_ne_true ∘ Eq.symm)
  | false =>
    cases hx : other.getLsbD l with
    | true => exact checkLines_other (by rw [hunp, hx]; exact fun h => Bool.false_ne_true h.2.symm) (hfor.mpr ho)
    | false => exact checkLines_unpinned (hunp.mpr ⟨ho, hx⟩)

/-- R342: the primary's load by its access check. -/
theorem exec_ld_primary {o : COp} {s : State} (h : s.primaryRuns o.g) (hd : s.destOk (dataReg o) = true) :
    exec (.ld o) s =
      match s.checkLocal (s.ea o) (tagWidth o.fmt / 8) (tagWidth o.fmt / 8) with
      | some c => s.raiseWith c 0 (s.ea o) 0
      | none => .next ((s.claimNow (s.ea o) (tagWidth o.fmt / 8)).result 5 (.sPlain (dataReg o).toNat
          (loadValue (tagSigned o.fmt) (tagWidth o.fmt / 8) (s.localNat (s.ea o) (tagWidth o.fmt / 8))))) := by
  change execLd o s = _
  rw [execLd, State.guarded_runs (show s.runs o.g by rw [State.runs, h.1]; exact h.2)]
  simp only [h.1, State.dregsOk_primary h.1, hd, Bool.not_true, Bool.false_eq_true, if_false] <;> rfl

/-- Settles O38: the checks one after the other, for each width. -/
theorem accessCheckOrder : Obligations.AccessCheckOrder := by
  intro o s h hd hfmt a w canon edge stops
  have hw : w = 1 ∨ w = 2 ∨ w = 4 ∨ w = 8 := by
    simp only [w]
    rcases hfmt with hf | hf | hf | hf | hf | hf | hf <;> rw [hf] <;> decide
  have hpos : 0 < w := by omega
  have hlow : a < 2 ^ 64 := BitVec.isLt _
  have hexec := exec_ld_primary h hd
  have hstop {c : Nat} (hc : s.checkLocal a w w = some c) : stops c := by
    change exec (.ld o) s = _
    rw [hexec, hc]
  have hsup {p : Prop} (hp : s.sup? = true ∨ p) : (!s.sup?) = false ∨ p := hp.imp_left fun hs => by rw [hs]; rfl
  refine ⟨fun hx => ?_, fun hc he hs ha => ?_, fun hc he hs hal => ?_, fun ha hc he hs hal => ?_, fun ha he hal => ?_⟩
  · exact hstop (checkLocal_steps (checkSteps13_edge hpos fun hce => hx.elim (fun h => h hce.1) hce.2))
  · exact hstop (checkLocal_steps (checkSteps13_supervisor hpos ⟨hc, he⟩ (by rw [hs]; rfl) ha))
  · exact hstop (checkLocal_steps (checkSteps13_align hpos ⟨hc, he⟩ (hsup hs) hal))
  · have h13 := checkSteps13_passes hpos ⟨hc, he⟩ (hsup (.inl hs)) hal
    refine ⟨fun hh => hstop (checkLocal_hub h13 (by omega)), fun hh => hstop (checkLocal_outside h13 ?_ ?_)⟩
    · rcases hw with hw | hw | hw | hw <;> rw [hw] at hal ⊢ <;> omega
    · have : windowBytes = 0x800000 := rfl
      omega
  · have h13 := checkSteps13_passes hpos ⟨.inl ha, he⟩ (hsup (.inr ha)) hal
    have hbytes : windowBytes = 0x800000 := rfl
    have hin (hx : a < 0x800000) : a + w ≤ windowBytes ∧ (a + w - 1) / 128 - a / 128 + 1 = 1 := by
      rw [hbytes]
      rcases hw with hw | hw | hw | hw <;> rw [hw] at hal ⊢ <;> omega
    refine ⟨fun hx => hstop (checkLocal_outside h13 (by omega) (by omega)), fun hx => ?_⟩
    have hline := checkLocal_window h13 hpos (hin hx).1
    rw [(hin hx).2, checkLines_single (by omega)] at hline
    refine ⟨fun ho hp => hstop ?_, fun ho hp => hstop ?_, fun ho => ?_⟩
    · rw [hline, ho, hp]
      rfl
    · rw [hline, ho, hp]
      rfl
    · rw [ho, if_pos rfl] at hline
      exact ⟨(s.claimNow a w).result 5 (.sPlain (dataReg o).toNat (loadValue (tagSigned o.fmt) w (s.localNat a w))),
        hexec.trans (by rw [hline]), rfl⟩

end Sys2Proof.Machine
end

section
/-! PROOFS. Loads and stores of both agents. -/

namespace Sys2Proof.Machine

/-! ### The primary -/

section
variable {o : COp} {s : State} (h : s.primaryRuns o.g)
include h

/-- R342: the primary's store by its checks. -/
theorem exec_st_primary :
    exec (.st o) s =
      match (s.checkLocal (s.ea o) (tagWidth o.fmt / 8) (tagWidth o.fmt / 8)).or
          (s.storeCheck (s.ea o) (tagWidth o.fmt / 8) (s.core.bank.tick + 3)) with
      | some c => s.raiseWith c 0 (s.ea o) 0
      | none => .next (s.storeAt 3 (s.ea o) (leBytes (tagWidth o.fmt / 8) (s.core.bank.sreg (dataReg o)).toNat) none) := by
  change execSt o s = _
  rw [execSt, State.guarded_runs h.runs]
  simp only [h.1, State.dregsOk_primary h.1, State.rs, Bool.not_true, Bool.false_eq_true, if_false] <;> rfl

theorem exec_ldv_primary (hv : s.core.bank.vregIn o.data.toNat = true) (hc : s.checkLocal (s.ea o) 256 64 = none) :
    exec (.ldv o) s = .next ((s.claimNow (s.ea o) 256).result 6 (.v (s.core.bank.phys o.data.toNat) o.fmt
      (BitVec.ofNat 2048 (readNat s.core.store (s.ea o) 256)) (BitVec.allOnes 2048))) := by
  change execLdv o s = _
  rw [execLdv, State.primaryOnly_runs h]
  refine (if_neg (by rw [hv]; exact Bool.false_ne_true)).trans ?_
  dsimp only
  rw [hc]
  rfl

theorem exec_stv_tag (hv : s.core.bank.vregIn o.data.toNat = true)
    (ht : (s.core.bank.vreg (s.core.bank.phys o.data.toNat)).tag ≠ o.fmt) : exec (.stv o) s = s.raise 0x05 := by
  change execStv o s = _
  rw [execStv, State.primaryOnly_runs h]
  exact (if_neg (by rw [hv]; exact Bool.false_ne_true)).trans (if_pos (bne_iff_ne.mpr ht))

theorem exec_stv_primary (hv : s.core.bank.vregIn o.data.toNat = true)
    (ht : (s.core.bank.vreg (s.core.bank.phys o.data.toNat)).tag = o.fmt) (hc : s.checkLocal (s.ea o) 256 64 = none)
    (hs : s.storeCheck (s.ea o) 256 (s.core.bank.tick + 3) = none) :
    exec (.stv o) s =
      .next (s.storeAt 3 (s.ea o) (leBytes 256 (s.core.bank.vreg (s.core.bank.phys o.data.toNat)).bits.toNat) none) := by
  change execStv o s = _
  rw [execStv, State.primaryOnly_runs h]
  refine (if_neg (by rw [hv]; exact Bool.false_ne_true)).trans ((if_neg (by simpa using ht)).trans ?_)
  rw [hc, hs]
  rfl

end

/-- R89: a write that lands at or before a tracked read of one of its lines. -/
theorem hazard_of_tracked {b : Bank} {ls : List Nat} {l t land : Nat} (hl : l ∈ ls) (ht : (l, t) ∈ b.tracked)
    (hle : land ≤ t) : b.hazard ls land = true :=
  List.any_eq_true.mpr ⟨_, ht, by simp [hle, hl]⟩

theorem storeCheck_hazard {s : State} {a n land : Nat} (h : s.core.bank.hazard (linesOf a n) land = true) :
    s.storeCheck a n land = some 0x0A := if_pos (by rw [h, Bool.or_true])

/-! ### The completion of a drift thread's store -/

theorem causeBits_thread_mod (code : Nat) (h : code < 256) (n : Nat) (nested : Bool) :
    (causeBits code (some n) nested 0 0).toNat % 256 = code := by
  cases nested <;> simp [causeBits] <;> omega

section
variable {s : State} {n a : Nat} {bytes : List Byte} (hb : (s.core.thread n).bank = s.core.curBank)
  (he : (s.core.thread n).eff = .store a bytes none)
include hb he

/-- R35: the store's bytes are written and the thread is ready. -/
theorem State.driftDone_store (hl : s.landsLate (linesOf a bytes.length) = false) :
    (s.driftDone n).core = (s.core.putSeen a bytes).setThread n
      { (s.core.putSeen a bytes).thread n with busy := false, due := none, eff := .none, waitEv := none } := by
  have hl' : ({ s with agent := .drift n } : State).landsLate (linesOf a bytes.length) = false := hl
  rw [State.driftDone, State.onBank, if_pos hb]
  simp only [State.asAgent, State.driftApply, State.thread, he, hl', Bool.false_eq_true, if_false, State.threadReady,
    State.setThread, State.setCore]

/-- R89: a store that has come to land too late faults. -/
theorem State.driftDone_late (hl : s.landsLate (linesOf a bytes.length) = true) :
    (s.driftDone n).core = (s.takeFault { cause := 0x0A, thread := some n, cb := 0, addr := a, aux := 0 }).core := by
  have hl' : ({ s with agent := .drift n } : State).landsLate (linesOf a bytes.length) = true := hl
  rw [State.driftDone, State.onBank, if_pos hb, State.takeFault_core]
  simp only [State.asAgent, State.driftApply, State.thread, he, hl', if_true, State.threadFault, State.agentThread,
    State.takeFault_core]

end

/-! ### The issue of a drift thread's load and store -/

theorem checkLocal_none_steps {s : State} {a n al : Nat} (h : s.checkLocal a n al = none) :
    checkSteps13 (!s.sup?) a n al = none ∧ inHubWindow (a + n - 1) = false := by
  unfold State.checkLocal at h
  split at h
  · cases h
  · rename_i h13
    refine ⟨h13, ?_⟩
    by_contra hh
    rw [if_pos (Bool.eq_true_of_not_eq_false hh)] at h
    cases h

/-- R35: a thread's access to the window that passes its checks. -/
theorem State.driftAccess_local {s : State} {a w : Nat} {read write : Bool} {loc : State → State × DriftEff}
    {glob : DriftEff} {hub : Option DriftEff} (ha : a < 2 ^ 32) (hc : s.checkLocal a w w = none)
    (hh : (write && s.core.bank.hazard (linesOf a w) (s.core.bank.tick + 12)) = false) :
    s.driftAccess a w read write loc glob hub = .next ((loc s).1.driftIssue 12 (loc s).2) := by
  obtain ⟨h13, hhub⟩ := checkLocal_none_steps hc
  unfold State.driftAccess
  rw [h13]
  refine (if_neg (Bool.eq_false_iff.mp hhub)).trans ((if_pos ha).trans ?_)
  rw [hc]
  exact if_neg (Bool.eq_false_iff.mp hh)

/-- R35: the state once a thread has issued an operation of 12 cycles. -/
theorem State.driftIssue_thread {s : State} {n : Nat} (hn : n < 8) (ha : s.agent = .drift n) (e : DriftEff) :
    let t := s.driftIssue 12 e
    (t.core.thread n).busy = true ∧ (t.core.thread n).due = some (s.core.cycle + 12) ∧ (t.core.thread n).eff = e ∧
      t.core.bank = s.core.bank ∧ t.core.store = s.core.store := by
  intro t
  have ht : t = _ := s.driftIssue_eq ha 12 e
  rw [ht, State.setCore_core, Core.setThread_self _ hn]
  exact ⟨rfl, rfl, rfl, Core.setThread_bank _ _ _, Core.setThread_store _ _ _⟩

section
variable {o : COp} {s : State} {n : Nat} (h : s.threadRuns n o.g) (ha : s.ea o < 2 ^ 32)
  (hd : s.dregsOk [dataReg o, o.sa] = true)
  (hc : s.checkLocal (s.ea o) (tagWidth o.fmt / 8) (tagWidth o.fmt / 8) = none)
include h ha hd hc

theorem exec_ld_drift :
    exec (.ld o) s = .next (s.driftIssue 12 (.d (dataReg o).toNat
      (loadValue (tagSigned o.fmt) (tagWidth o.fmt / 8) (readNat s.core.seen (s.ea o) (tagWidth o.fmt / 8))))) := by
  have hdest : s.destOk (dataReg o) = true := by rw [State.destOk, h.1]
  change execLd o s = _
  rw [execLd, State.guarded_runs h.runs]
  simp only [h.1, hd, hdest, Bool.not_true, Bool.false_eq_true, if_false]
  exact State.driftAccess_local ha hc (Bool.false_and _)

theorem exec_st_drift (hh : s.core.bank.hazard (linesOf (s.ea o) (tagWidth o.fmt / 8)) (s.core.bank.tick + 12) = false) :
    exec (.st o) s = .next (s.driftIssue 12
      (.store (s.ea o) (leBytes (tagWidth o.fmt / 8) ((s.core.thread n).dreg (dataReg o)).toNat) none)) := by
  change execSt o s = _
  rw [execSt, State.guarded_runs h.runs]
  simp only [h.1, hd, State.rs, Bool.not_true, Bool.false_eq_true, if_false]
  exact State.driftAccess_local ha hc ((Bool.true_and _).trans hh)

end

/-- R126: with no write that a release has made visible the threads see the window as it is. -/
theorem Core.seen_unpublished {c : Core} (hp : ∀ e ∈ c.bank.pend, e.pub = false)
    (hq : ∀ q ∈ c.bank.parked, ∀ e ∈ q.pend, e.pub = false) : c.seen = c.store := by
  have hnone (ps : List Pend) (h : ∀ e ∈ ps, e.pub = false) : ps.filter (Pend.seenBy 0) = [] :=
    List.filter_eq_nil_iff.mpr fun e he => by simp [Pend.seenBy, h e he]
  have hzero (q : Parked) : q.seenBy 0 = 0 := by
    unfold Parked.seenBy
    split <;> rfl
  have haside : (c.bank.parked.flatMap fun q => byDue (q.pend.filter (Pend.seenBy (q.seenBy 0)))) = [] :=
    List.flatMap_eq_nil_iff.mpr fun q hq' => by rw [hzero, hnone _ (hq q hq')]; rfl
  rw [Core.seen, Core.seenBefore, hnone _ hp, haside]
  rfl

/-- Settles O36: the primary's accesses, the completion of a thread's store, and the issue of a thread's access. -/
theorem loadsAndStores : Obligations.LoadsAndStores := by
  refine ⟨fun o s h => ?_, fun s n a bytes hn hb he hwf => ?_, fun o s n hn h => ?_⟩
  · intro b a w d
    refine ⟨fun hd hc => ?_, fun hc hs => ?_, fun l t hc hl ht hle => ?_, fun hv hc =>
      ⟨exec_ldv_primary h hv hc, fun ht hs => exec_stv_primary h hv ht hc hs, fun ht => exec_stv_tag h hv ht⟩⟩
    · refine (exec_ld_primary h hd).trans ?_
      rw [hc]
      rfl
    · refine (exec_st_primary h).trans ?_
      rw [hc, hs]
      rfl
    · refine (exec_st_primary h).trans ?_
      rw [hc, storeCheck_hazard (hazard_of_tracked hl ht hle)]
      rfl
  · intro t
    refine ⟨fun hl => ?_, fun hl => ?_⟩
    · have ht : t.core = _ := State.driftDone_store hb he hl
      have hstore : t.core.store = writeBytes s.core.store a bytes := by
        rw [ht, Core.setThread_store]
        rfl
      rw [hstore]
      refine ⟨fun i hi => ?_, fun x hx => memByte_writeBytes_out hwf hx, ?_⟩
      · rw [memByte_writeBytes hwf, if_pos (by omega), Nat.add_sub_cancel_left]
      · rw [ht, Core.setThread_self _ hn]
    · have ht : t.core = _ := State.driftDone_late hb he hl
      rw [ht, State.takeFault_core]
      refine ⟨rfl, rfl, ?_⟩
      dsimp only
      exact causeBits_thread_mod 0x0A (by decide) _ _
  · intro a w d hd ha hc hw
    refine ⟨?_, fun hh => ?_⟩
    · obtain ⟨hbusy, hdue, heff, hbank, hstore⟩ := State.driftIssue_thread hn h.1 (.d d.toNat
        (loadValue (tagSigned o.fmt) w (readNat s.core.seen a w)))
      exact ⟨_, exec_ld_drift h ha hd hc, hbusy, hdue, heff, Core.seen_unpublished, hbank, hstore⟩
    · obtain ⟨hbusy, hdue, heff, hbank, hstore⟩ := State.driftIssue_thread hn h.1
        (.store a (leBytes w ((s.core.thread n).dreg d).toNat) none)
      exact ⟨_, exec_st_drift h ha hd hc hh, hbusy, hdue, heff, hbank, hstore⟩

end Sys2Proof.Machine
end

section
/-! PROOFS. Gather and scatter. -/

namespace Sys2Proof.Machine

/-! ### The granules (R337) -/

theorem granules_eq (base : Nat) (idx : VBits) :
    granules base idx = (List.range 64).filterMap fun l =>
      if laneAt 32 idx l = 0xFFFFFFFF then none else some (l, base + 4 * laneAt 32 idx l) := by
  have hidx : (lanesOf 32 idx).mapIdx (fun l i => (l, i)) = (List.range 64).map fun l => (l, laneAt 32 idx l) := by
    refine List.ext_getElem (by simp [lanesOf]) fun n h₁ h₂ => ?_
    simp [lanesOf]
  rw [granules, hidx, List.filterMap_map]
  rfl

theorem mem_granules {base : Nat} {idx : VBits} {g : Nat × Nat} :
    g ∈ granules base idx ↔ g.1 < 64 ∧ laneAt 32 idx g.1 ≠ 0xFFFFFFFF ∧ g.2 = base + 4 * laneAt 32 idx g.1 := by
  rw [granules_eq, List.mem_filterMap]
  constructor
  · rintro ⟨l, hl, hg⟩
    split at hg
    · cases hg
    · cases hg
      exact ⟨List.mem_range.mp hl, ‹_›, rfl⟩
  · rintro ⟨hl, hne, ha⟩
    exact ⟨g.1, List.mem_range.mpr hl, by rw [if_neg hne, ← ha]⟩

theorem find_granule {base : Nat} {idx : VBits} {l : Nat} (hl : l < 64) (hne : laneAt 32 idx l ≠ 0xFFFFFFFF) :
    (granules base idx).find? (fun g => g.1 == l) = some (l, base + 4 * laneAt 32 idx l) := by
  cases hf : (granules base idx).find? (fun g => g.1 == l) with
  | none =>
    have hmem : (l, base + 4 * laneAt 32 idx l) ∈ granules base idx := mem_granules.mpr ⟨hl, hne, rfl⟩
    exact absurd (List.find?_eq_none.mp hf _ hmem) (by simp)
  | some g =>
    have hlane : g.1 = l := by simpa using List.find?_some hf
    obtain ⟨-, -, haddr⟩ := mem_granules.mp (List.mem_of_find?_eq_some hf)
    rw [← hlane, ← haddr]

theorem any_granule {base : Nat} {idx : VBits} {l : Nat} (hl : l < 64) :
    (granules base idx).any (fun g => g.1 == l) = decide (laneAt 32 idx l ≠ 0xFFFFFFFF) := by
  by_cases hne : laneAt 32 idx l = 0xFFFFFFFF
  · rw [decide_eq_false (not_not.mpr hne), List.any_eq_false]
    rintro g hg hlane
    obtain ⟨-, hg, -⟩ := mem_granules.mp hg
    rw [beq_iff_eq] at hlane
    exact hg (hlane ▸ hne)
  · rw [decide_eq_true hne, List.any_eq_true]
    exact ⟨(l, base + 4 * laneAt 32 idx l), mem_granules.mpr ⟨hl, hne, rfl⟩, by simp⟩

theorem checkGranules_hub {s : State} {gs : List (Nat × Nat)}
    (h : ∃ g ∈ gs, 2 ^ 64 - 0x10000 ≤ g.2 ∧ g.2 < 2 ^ 64) :
    s.checkGranules gs = some (if s.sup? then 0x08 else 0x0C) := by
  obtain ⟨g, hg, h1, h2⟩ := h
  refine if_pos (List.any_eq_true.mpr ⟨g, hg, ?_⟩)
  rw [inHubWindow, decide_eq_true h2, decide_eq_true (by omega)]
  rfl

/-! ### The checks before the granules -/

/-- The granules of an instruction: its indexes stand in vD+1. -/
def State.granulesOf (s : State) (o : COp) : List (Nat × Nat) :=
  granules (s.ea o) (s.core.bank.vreg (s.core.bank.phys (o.data.toNat + 1))).bits

section
variable {o : COp} {s : State} {tags : Bank → Bool} {k : List (Nat × Nat) → State → Out} (h : s.primaryRuns o.g)
  (hv : s.core.bank.vregIn o.data.toNat = true) (hi : s.core.bank.vregIn (o.data.toNat + 1) = true)
  (ht : (s.core.bank.vreg (s.core.bank.phys (o.data.toNat + 1))).tag = 11) (htags : tags s.core.bank = true)
  (hal : s.ea o % 64 = 0)
include h hv hi ht htags hal

theorem granular_stops {c : Nat} (hc : s.checkGranules (s.granulesOf o) = some c) :
    s.granular o tags k = s.raiseWith c 0 (s.ea o) 0 := by
  rw [State.granular, State.primaryOnly_runs h]
  dsimp only
  rw [if_neg (by rw [hv, hi]; exact Bool.false_ne_true), if_neg (by rw [ht, htags]; decide), if_neg (not_not.mpr hal)]
  rw [State.granulesOf] at hc
  rw [hc]

theorem granular_passes (hc : s.checkGranules (s.granulesOf o) = none) :
    s.granular o tags k = k (s.granulesOf o) s := by
  rw [State.granular, State.primaryOnly_runs h]
  dsimp only
  rw [if_neg (by rw [hv, hi]; exact Bool.false_ne_true), if_neg (by rw [ht, htags]; decide), if_neg (not_not.mpr hal)]
  rw [State.granulesOf] at hc ⊢
  rw [hc]

end

/-! ### The gathered lanes -/

theorem leNat_lt (bs : List Byte) : leNat bs < 2 ^ (8 * bs.length) := by
  induction bs with
  | nil => exact Nat.one_pos
  | cons b bs ih =>
    have hb := b.isLt
    rw [leNat, List.length_cons, Nat.mul_succ, Nat.pow_add]
    omega

theorem readNat_lt (m : Mem) (a n : Nat) : readNat m a n < 2 ^ (8 * n) := by
  have := leNat_lt (readBytes m a n)
  rwa [readBytes, List.length_map, List.length_range] at this

/-- The word that GATH puts in a lane. -/
def State.gathWord (s : State) (gs : List (Nat × Nat)) (l : Nat) : Nat :=
  match gs.find? (fun g => g.1 == l) with
  | some g => s.localNat g.2 4
  | none => 0

/-- The lanes that GATH enables. -/
def gathSel (gs : List (Nat × Nat)) (l : Nat) : Nat := if gs.any (fun g => g.1 == l) then 2 ^ 32 - 1 else 0

section
variable {s : State} {base : Nat} {idx : VBits} {l : Nat} (hl : l < 64)
include hl

theorem gathWord_lane (hne : laneAt 32 idx l ≠ 0xFFFFFFFF) :
    laneAt 32 (ofLanes 32 ((List.range 64).map (s.gathWord (granules base idx)))) l =
      readNat s.core.store (base + 4 * laneAt 32 idx l) 4 := by
  rw [laneAt_ofLanes_64 _ hl, List.getD_eq_getElem?_getD, List.getElem?_map, List.getElem?_range hl, Option.map_some,
    Option.getD_some, State.gathWord, find_granule hl hne]
  exact Nat.mod_eq_of_lt (readNat_lt _ _ _)

theorem gathSel_lane :
    laneAt 32 (ofLanes 32 ((List.range 64).map (gathSel (granules base idx)))) l =
      if laneAt 32 idx l = 0xFFFFFFFF then 0 else 2 ^ 32 - 1 := by
  rw [laneAt_ofLanes_64 _ hl, List.getD_eq_getElem?_getD, List.getElem?_map, List.getElem?_range hl, Option.map_some,
    Option.getD_some, gathSel, any_granule hl]
  by_cases hne : laneAt 32 idx l = 0xFFFFFFFF <;> simp [hne]

end

/-- GATH once its granules have passed. -/
def gathEnd (o : COp) (gs : List (Nat × Nat)) (s : State) : Out :=
  .next (s.setBank ((s.core.bank.claim s.core.bank.tick ((gs.map fun g => g.2 / 128).eraseDups)).addPend 12
    (.v (s.core.bank.phys o.data.toNat) o.fmt (ofLanes 32 ((List.range 64).map (s.gathWord gs)))
      (ofLanes 32 ((List.range 64).map (gathSel gs)))) 4 0))

theorem exec_gath_eq (o : COp) (s : State) : exec (.gath o) s = s.granular o (fun _ => true) (gathEnd o) := by
  change execGath o s = _
  rw [execGath]
  rfl

theorem gathEnd_pend {o : COp} {gs : List (Nat × Nat)} {s : State} :
    ∃ t, gathEnd o gs s = .next t ∧
      t.core.bank.pend = s.core.bank.pend ++ [⟨s.core.bank.tick + 12, s.core.bank.seq,
        .v (s.core.bank.phys o.data.toNat) o.fmt (ofLanes 32 ((List.range 64).map (s.gathWord gs)))
          (ofLanes 32 ((List.range 64).map (gathSel gs))), 4, 0, false⟩] ∧
      t.core.bank.sameRegs s.core.bank ∧ t.core.store = s.core.store := by
  refine ⟨_, rfl, ?_, ?_, ?_⟩
  · rw [State.setBank_core, Bank.addPend_pend]
    rfl
  · rw [State.setBank_core]
    exact (Bank.sameRegs_addPend _ _ _ _ _).trans (Bank.sameRegs_claim _ _ _)
  · rw [State.setBank_core]

/-! ### The scattered stores -/

theorem foldl_storeAt {α : Type} (addr : α → Nat) (bytes : α → List Byte) (lat : Nat) (gs : List α) (s : State) :
    let t := gs.foldl (fun s g => s.storeAt lat (addr g) (bytes g) none) s
    t.core.bank.pend.map (·.eff) = s.core.bank.pend.map (·.eff) ++ gs.map (fun g => .store (addr g) (bytes g) none) ∧
      (∀ e ∈ t.core.bank.pend, e ∈ s.core.bank.pend ∨ e.due = s.core.bank.tick + lat) ∧
      t.core.bank.sameRegs s.core.bank ∧ t.core.store = s.core.store := by
  induction gs generalizing s with
  | nil => exact ⟨by simp, fun e he => .inl he, Bank.sameRegs.refl _, rfl⟩
  | cons g gs ih =>
    obtain ⟨hpend, hdue, hregs, hstore⟩ := ih (s.storeAt lat (addr g) (bytes g) none)
    have htick : (s.storeAt lat (addr g) (bytes g) none).core.bank.tick = s.core.bank.tick := by
      simp only [State.storeAt, State.logUndo, State.setBank_core]
      rfl
    rw [State.storeAt_pend] at hpend hdue
    intro t
    have ht : t = gs.foldl (fun s g => s.storeAt lat (addr g) (bytes g) none) (s.storeAt lat (addr g) (bytes g) none) :=
      List.foldl_cons ..
    rw [ht]
    refine ⟨?_, fun e he => ?_, hregs.trans (s.storeAt_sameRegs _ _ _ _), hstore.trans (s.storeAt_store _ _ _ _)⟩
    · rw [hpend, List.map_append, List.append_assoc]
      rfl
    · rcases hdue e he with hmem | hd
      · rcases List.mem_append.mp hmem with hmem | hmem
        · exact .inl hmem
        · rw [List.mem_singleton.mp hmem]
          exact .inr rfl
      · exact .inr (hd.trans (by rw [htick]))

/-- Settles O39: the granules lane by lane, and the stores one after the other. -/
theorem gatherScatter : Obligations.GatherScatter := by
  intro o s h b v base idx gs hv hi ht hal
  refine ⟨fun hx => ?_, fun hc => ?_, fun hc htag hu hz hl => ?_⟩
  · exact (exec_gath_eq o s).trans (granular_stops h hv hi ht rfl hal (checkGranules_hub hx))
  · obtain ⟨t, hend, hpend, hregs, hstore⟩ := gathEnd_pend (o := o) (gs := s.granulesOf o) (s := s)
    exact ⟨t, _, _, ((exec_gath_eq o s).trans (granular_passes h hv hi ht rfl hal hc)).trans hend, hpend,
      fun l hlane hne => ⟨gathWord_lane hlane hne, (gathSel_lane hlane).trans (if_neg hne)⟩,
      fun l hlane hne => (gathSel_lane hlane).trans (if_pos hne), hregs, hstore⟩
  · obtain ⟨hpend, hdue, hregs, hstore⟩ := foldl_storeAt (fun g : Nat × Nat => g.2)
      (fun g => leBytes 4 (laneAt 32 (b.vreg (b.phys v)).bits g.1)) 12 gs s
    refine ⟨_, ?_, hpend, hdue, hregs, hstore⟩
    change execScat o s = _
    rw [execScat]
    refine (granular_passes h hv hi ht (by simpa using htag) hal hc).trans ?_
    exact (if_neg (by rw [Bool.or_eq_true]; exact fun hx => hx.elim (Bool.eq_false_iff.mp hu) (Bool.eq_false_iff.mp hz))).trans
      (if_neg (Nat.not_lt.mpr hl))

end Sys2Proof.Machine
end

section
/-! PROOFS. Pinned lines. -/

namespace Sys2Proof.Machine

/-! ### Ranges of lines -/

theorem pinRange_bit (p : BitVec 65536) (first n : Nat) {l : Nat} (hl : l < 65536) :
    (pinRange p first n).getLsbD l = (p.getLsbD l || (decide (first ≤ l) && decide (l < first + n))) := by
  have h := getLsbD_lineMask first n l
  rw [lineMask, decide_eq_true hl, Bool.true_and] at h
  rw [pinRange, BitVec.getLsbD_or, h]

theorem unpinRange_bit (p : BitVec 65536) (first n : Nat) {l : Nat} (hl : l < 65536) :
    (unpinRange p first n).getLsbD l = (p.getLsbD l && !(decide (first ≤ l) && decide (l < first + n))) := by
  have h := getLsbD_lineMask first n l
  rw [lineMask, decide_eq_true hl, Bool.true_and] at h
  rw [unpinRange, BitVec.getLsbD_and, BitVec.getLsbD_not, h, decide_eq_true hl, Bool.true_and]

/-- A range meets a set of pinned lines. -/
theorem lineMask_meets (p : BitVec 65536) (first n : Nat) :
    (lineMask first n &&& p != 0) = true ↔ ∃ l, first ≤ l ∧ l < first + n ∧ p.getLsbD l = true := by
  rw [bne_iff_ne, bits_ne_zero_iff]
  constructor
  · rintro ⟨l, hl, h⟩
    rw [BitVec.getLsbD_and, getLsbD_lineMask, decide_eq_true hl, Bool.true_and, Bool.and_eq_true, Bool.and_eq_true,
      decide_eq_true_eq, decide_eq_true_eq] at h
    exact ⟨l, h.1.1, h.1.2, h.2⟩
  · rintro ⟨l, h1, h2, h3⟩
    have hl : l < 65536 := BitVec.lt_of_getLsbD h3
    exact ⟨l, hl, by rw [BitVec.getLsbD_and, getLsbD_lineMask, h3, decide_eq_true hl, decide_eq_true h1, decide_eq_true h2]; rfl⟩

theorem lineMask_apart {p : BitVec 65536} {first n : Nat} (h : ∀ l, first ≤ l → l < first + n → p.getLsbD l = false) :
    (lineMask first n &&& p != 0) = false := by
  rw [Bool.eq_false_iff, Ne, lineMask_meets]
  rintro ⟨l, h1, h2, h3⟩
  exact Bool.false_ne_true ((h l h1 h2).symm.trans h3)

/-! ### The ways of a set (R100, R102) -/

/-- The free ways of a set among the first k. -/
def unpinnedWays (p : BitVec 65536) (set k : Nat) : Nat :=
  ((List.range k).filter fun w => !(p.getLsbD (4096 * w + set))).length

/-- The sets with a free way, and those with two, among the first k ways. -/
def freeSets (p : BitVec 65536) (k : Nat) : BitVec 4096 × BitVec 4096 :=
  (List.range k).foldl (fun (x : BitVec 4096 × BitVec 4096) i =>
    (x.1 ||| ~~~(p.extractLsb' (4096 * i) 4096), x.2 ||| (x.1 &&& ~~~(p.extractLsb' (4096 * i) 4096)))) (0, 0)

theorem freeSets_bit (p : BitVec 65536) (k : Nat) {set : Nat} (hs : set < 4096) :
    (freeSets p k).1.getLsbD set = decide (1 ≤ unpinnedWays p set k) ∧
      (freeSets p k).2.getLsbD set = decide (2 ≤ unpinnedWays p set k) := by
  induction k with
  | zero => exact ⟨by simp [freeSets, unpinnedWays], by simp [freeSets, unpinnedWays]⟩
  | succ k ih =>
    obtain ⟨h1, h2⟩ := ih
    have hsets : freeSets p (k + 1) = ((freeSets p k).1 ||| ~~~(p.extractLsb' (4096 * k) 4096),
        (freeSets p k).2 ||| ((freeSets p k).1 &&& ~~~(p.extractLsb' (4096 * k) 4096))) := by
      rw [freeSets, List.range_succ, List.foldl_append]
      rfl
    have hfree : (~~~(p.extractLsb' (4096 * k) 4096)).getLsbD set = !(p.getLsbD (4096 * k + set)) := by
      rw [BitVec.getLsbD_not, BitVec.getLsbD_extractLsb', decide_eq_true hs, Bool.true_and, Bool.true_and]
    have hways : unpinnedWays p set (k + 1) = unpinnedWays p set k + if p.getLsbD (4096 * k + set) then 0 else 1 := by
      rw [unpinnedWays, List.range_succ, List.filter_append, List.length_append]
      cases hp : p.getLsbD (4096 * k + set) <;> simp [hp, unpinnedWays]
    rw [hsets, BitVec.getLsbD_or, BitVec.getLsbD_or, BitVec.getLsbD_and, h1, h2, hfree, hways]
    cases p.getLsbD (4096 * k + set) <;> constructor <;> simp <;> omega

/-- R102: no set has more than fourteen pinned ways. -/
theorem waysOk_iff (p : BitVec 65536) :
    waysOk p = true ↔ ∀ set < 4096, ((List.range 16).filter fun w => p.getLsbD (4096 * w + set)).length ≤ 14 := by
  have hcount (set : Nat) : ((List.range 16).filter fun w => p.getLsbD (4096 * w + set)).length + unpinnedWays p set 16 = 16 := by
    have := List.length_eq_length_filter_add (l := List.range 16) fun w => p.getLsbD (4096 * w + set)
    rw [List.length_range] at this
    exact this.symm
  have hall : waysOk p = true ↔ ∀ set < 4096, (freeSets p 16).2.getLsbD set = true := by
    change ((freeSets p 16).2 == BitVec.allOnes 4096) = true ↔ _
    rw [beq_iff_eq]
    constructor
    · intro h set hs
      rw [h, BitVec.getLsbD_allOnes, decide_eq_true hs]
    · intro h
      exact BitVec.eq_of_getLsbD_eq fun i hi => by rw [h i hi, BitVec.getLsbD_allOnes, decide_eq_true hi]
  rw [hall]
  refine forall₂_congr fun set hs => ?_
  rw [(freeSets_bit p 16 hs).2, decide_eq_true_eq]
  have := hcount set
  omega

/-! ### The codes of PIN -/

theorem pinCode_other {s : State} {first n : Nat}
    (h : ∃ l, first ≤ l ∧ l < first + n ∧ s.core.other.pinsAhead.getLsbD l = true) : s.pinCode first n = 2 :=
  if_pos ((lineMask_meets _ _ _).mpr h)

/-- A line pinned once the range is. -/
def State.pinnedWith (s : State) (first n l : Nat) : Bool :=
  s.core.bank.pinsAhead.getLsbD l || s.core.other.pinsAhead.getLsbD l || (decide (first ≤ l) && decide (l < first + n))

theorem pinCode_own {s : State} {first n : Nat}
    (h : ∀ l, first ≤ l → l < first + n → s.core.other.pinsAhead.getLsbD l = false) :
    let fits : Prop :=
      ∀ set < 4096, ((List.range 16).filter fun w => s.pinnedWith first n (4096 * w + set)).length ≤ 14
    (fits → s.pinCode first n = 0) ∧ (¬fits → s.pinCode first n = 1) := by
  intro fits
  have hbit (l : Nat) (hl : l < 65536) :
      (pinRange s.core.bank.pinsAhead first n ||| s.core.other.pinsAhead).getLsbD l = s.pinnedWith first n l := by
    rw [BitVec.getLsbD_or, pinRange_bit _ _ _ hl, State.pinnedWith, Bool.or_right_comm]
  have hfits : waysOk (pinRange s.core.bank.pinsAhead first n ||| s.core.other.pinsAhead) = true ↔ fits := by
    rw [waysOk_iff]
    refine forall₂_congr fun set hs => ?_
    rw [List.filter_congr fun w hw => hbit (4096 * w + set) (by have := List.mem_range.mp hw; omega)]
  have hcode : s.pinCode first n =
      if !(waysOk (pinRange s.core.bank.pinsAhead first n ||| s.core.other.pinsAhead)) then 1 else 0 :=
    if_neg (Bool.eq_false_iff.mp (lineMask_apart h))
  refine ⟨fun hf => ?_, fun hf => ?_⟩
  · rw [hcode, hfits.mpr hf]
    rfl
  · rw [hcode, Bool.eq_false_iff.mpr (mt hfits.mp hf)]
    rfl

/-! ### The instructions -/

section
variable {o : COp} {s : State} (h : s.primaryRuns o.g)
include h

theorem exec_pin_passes (hd : s.destOk (dataReg o) = true) (hc : s.checkPinRange (s.ea o) (s.rs o.sb).toNat = none) :
    let n := (s.rs o.sb).toNat
    let code := if n = 0 then 0 else s.pinCode (s.ea o / 128) n
    let t := s.result 6 (.sPlain (dataReg o).toNat (BitVec.ofNat 64 code))
    exec (.pin o) s = .next (if code = 0 ∧ 0 < n then t.result 6 (.pin (s.ea o / 128) n) else t) := by
  intro n code t
  change execPin o s = _
  rw [execPin, State.primaryOnly_runs h]
  dsimp only
  rw [if_neg (by rw [hd]; exact Bool.false_ne_true), hc]
  refine congrArg Host.Outcome.next (if_congr ?_ rfl rfl)
  rw [Bool.and_eq_true, decide_eq_true_eq, decide_eq_true_eq]

theorem exec_pin_stops {c : Nat} (hd : s.destOk (dataReg o) = true)
    (hc : s.checkPinRange (s.ea o) (s.rs o.sb).toNat = some c) : exec (.pin o) s = s.raiseWith c 0 (s.ea o) 0 := by
  change execPin o s = _
  rw [execPin, State.primaryOnly_runs h]
  dsimp only
  rw [if_neg (by rw [hd]; exact Bool.false_ne_true), hc]

theorem exec_unpin_stops {c : Nat} (hc : s.checkPinRange (s.ea o) (s.rs o.sb).toNat = some c) :
    exec (.unpin o) s = s.raiseWith c 0 (s.ea o) 0 := by
  change execUnpin o s = _
  rw [execUnpin, State.primaryOnly_runs h]
  dsimp only
  rw [hc]

theorem exec_unpin_passes (hc : s.checkPinRange (s.ea o) (s.rs o.sb).toNat = none) :
    exec (.unpin o) s =
      if (s.rs o.sb).toNat = 0 then .next s
      else if lineMask (s.ea o / 128) (s.rs o.sb).toNat &&& s.core.other.pins != 0 then s.raiseWith 0x0D 0 (s.ea o) 0
      else if s.linesBusy (s.ea o / 128) (s.rs o.sb).toNat then s.raiseWith 0x0A 0 (s.ea o) 0
      else .next (s.result 1 (.unpin (s.ea o / 128) (s.rs o.sb).toNat)) := by
  change execUnpin o s = _
  rw [execUnpin, State.primaryOnly_runs h]
  dsimp only
  rw [hc]

end

/-! ### The landing -/

/-- R102: a granted PIN lands; the lines that it evicts change caches alone. -/
theorem landOne_pin (s : State) (first n u : Nat) :
    let t := s.landOne { due := 0, seq := 0, eff := .pin first n, unit := u, flags := 0 }
    t.core.bank = { s.core.bank with pins := pinRange s.core.bank.pins first n } ∧
      t.core.store = zeroNew s.core.store s.core.bank.pins first n := by
  intro t
  obtain ⟨w, d, o, x, y, ht⟩ := (s.setCore { s.core with
    store := zeroNew s.core.store s.core.bank.pins first n,
    bank := { s.core.bank with pins := pinRange s.core.bank.pins first n } }).changesCaches_evictWays
  have ht : t = _ := ht
  rw [ht]
  exact ⟨rfl, rfl⟩

theorem landOne_unpin (s : State) (first n u : Nat) :
    s.landOne { due := 0, seq := 0, eff := .unpin first n, unit := u, flags := 0 } =
      s.setBank { s.core.bank with pins := unpinRange s.core.bank.pins first n } := rfl

/-- A byte once a range is pinned: the newly pinned lines read zero. -/
theorem memByte_zeroNew {m : Mem} (h : Mem.wf m = true) (p : BitVec 65536) (first n x : Nat) :
    memByte (zeroNew m p first n) x =
      if first ≤ x / 128 ∧ x / 128 < first + n ∧ p.getLsbD (x / 128) = false then 0 else memByte m x := by
  have hfilter := memByte_filter (lo := 0) h
    (fun e => !(decide (first ≤ e / 128) && decide (e / 128 < first + n)) || p.getLsbD (e / 128)) x
  rw [zeroNew, hfilter, ← ite_not]
  refine if_congr ?_ rfl rfl
  simp only [Bool.or_eq_true, Bool.not_eq_true', Bool.and_eq_false_iff, decide_eq_false_iff_not]
  cases p.getLsbD (x / 128) <;> simp

/-- Settles O40: the codes, the causes, and the two landings. -/
theorem pinUnpin : Obligations.PinUnpin := by
  refine ⟨fun o s h => ?_, fun o s c h hc => ⟨fun hd => exec_pin_stops h hd hc, exec_unpin_stops h hc⟩,
    fun s first n hin hwf => ?_⟩
  · intro a n d first hc
    have hunpin := exec_unpin_passes h hc
    refine ⟨fun hd => ?_, fun hn => ?_, fun hn hother hfree => ?_, fun hn hother => ?_, fun hn hother hbusy => ?_⟩
    · intro code
      refine ⟨⟨_, exec_pin_passes h hd hc, rfl⟩, fun hx => ?_, fun hn hin hown => ?_⟩
      · have hn : n ≠ 0 := by
          obtain ⟨l, h1, h2, -⟩ := hx
          omega
        exact (if_neg hn).trans (pinCode_other hx)
      · intro pinned fits
        have hcode : code = s.pinCode first n := if_neg (by omega)
        obtain ⟨hfits, hfull⟩ := pinCode_own hown
        exact ⟨fun hf => hcode.trans (hfits hf), fun hf => hcode.trans (hfull hf)⟩
    · exact hunpin.trans (if_pos hn)
    · exact hunpin.trans ((if_neg (by omega)).trans ((if_neg (Bool.eq_false_iff.mp (lineMask_apart hother))).trans
        (if_neg (Bool.eq_false_iff.mp hfree))))
    · exact hunpin.trans ((if_neg (by omega)).trans (if_pos ((lineMask_meets _ _ _).mpr hother)))
    · exact hunpin.trans ((if_neg (by omega)).trans ((if_neg (Bool.eq_false_iff.mp (lineMask_apart hother))).trans
        (if_pos hbusy)))
  · intro land p u old
    obtain ⟨hpbank, hpstore⟩ := landOne_pin s first n 4
    have hp : p.core.bank = _ := hpbank
    have hps : p.core.store = _ := hpstore
    have hu : u = _ := landOne_unpin s first n 4
    rw [hp, hps, hu, State.setBank_core]
    exact ⟨fun l hl => pinRange_bit _ _ _ hl, fun l hl => unpinRange_bit _ _ _ hl, memByte_zeroNew hwf _ _ _, rfl,
      wf_zeroNew _ _ _ hwf, rfl, rfl⟩

end Sys2Proof.Machine
end

section
/-! PROOFS. Engine operations: their start on a barrier, and the checks before it. -/

namespace Sys2Proof.Machine

/-! ### Barriers (R114) -/

theorem Bank.setCb_self (b : Bank) {n : Nat} (hn : n < 8) (c : Barrier) : (b.setCb n c).cb n = c := by
  rw [Bank.setCb_cb _ _ _ _ hn hn, if_pos rfl]

theorem Bank.setCb_other (b : Bank) {n m : Nat} (c : Barrier) (h : m ≠ n) : (b.setCb n c).cb m = b.cb m := by
  by_cases hn : n < 8
  · by_cases hm : m < 8
    · rw [Bank.setCb_cb _ _ _ _ hn hm, if_neg h]
    · rw [Bank.cb, dif_neg hm, Bank.cb, dif_neg hm]
  · rw [Bank.setCb, dif_neg hn]

theorem Bank.setCb_sameRegs (b : Bank) (n : Nat) (c : Barrier) : (b.setCb n c).sameRegs b := by
  rw [Bank.setCb_frame]
  exact Bank.sameRegs.refl b

theorem Bank.startOn_sameRegs (b : Bank) (n op : Nat) (dest : Option BarDest) (acq : Option Nat) :
    (b.startOn n op dest acq).sameRegs b := Bank.setCb_sameRegs _ _ _

/-- R114: eight operations on a barrier and thirty-two on a bank. -/
theorem barrierRoom_iff (b : Bank) (n : Nat) : b.barrierRoom n = true ↔
    ((b.cb n).count + (b.cb n).waits < 8 ∧ ((List.range 8).map fun m => (b.cb m).count + (b.cb m).waits).sum < 32) := by
  have hlist : b.cbs.toList = (List.range 8).map b.cb := by
    refine List.ext_getElem (by simp) fun m h₁ h₂ => ?_
    have hm : m < 8 := by simpa using h₁
    simp [Bank.cb, hm]
  have hsum : b.cbs.toList.foldl (fun x c => x + c.count + c.waits) 0 =
      ((List.range 8).map fun m => (b.cb m).count + (b.cb m).waits).sum := by
    rw [hlist, List.foldl_map, List.sum_eq_foldl, List.foldl_map]
    simp only [Nat.add_assoc]
  rw [Bank.barrierRoom, Bool.and_eq_true, decide_eq_true_eq, decide_eq_true_eq, hsum]

theorem claimNow_barrierRoom (s : State) (a len n : Nat) :
    (s.claimNow a len).core.bank.barrierRoom n = s.core.bank.barrierRoom n := by
  rw [State.claimNow, State.setBank_core]
  rfl

/-! ### The start -/

/-- The operation that the primary starts. -/
def State.newOp (s : State) (n hint : Nat) (kind : OpKind) : EngineOp :=
  { id := s.nextOp, seq := s.core.bank.seq, core := s.cur, bank := s.core.curBank, cb := n, drift := none, user := !s.sup?,
    part := s.part, hint := hint, kind := kind, done := 0, old := 0, stop := none, paired := false, data := [],
    saved := none }

/-- R114: the state once the primary has started an operation. -/
theorem State.startOp_primary {s : State} (ha : s.agent = .primary) (n hint : Nat) (kind : OpKind) (dest : Option BarDest)
    (acq : Option Nat) (turns : Nat → List Turn) :
    s.startOp n hint kind dest acq turns =
      (({ s with ops := s.ops ++ [s.newOp n hint kind], nextOp := s.nextOp + 1 } : State).setBank
        (s.core.bank.startOn n s.nextOp dest acq)).later (turns s.nextOp) := by
  simp only [State.startOp, State.newOp, ha]

section
variable {s : State} (ha : s.agent = .primary) (n hint : Nat) (kind : OpKind) (dest : Option BarDest)
  (acq : Option Nat) (turns : Nat → List Turn)
include ha

theorem State.startOp_bank : (s.startOp n hint kind dest acq turns).core.bank = s.core.bank.startOn n s.nextOp dest acq := by
  rw [State.startOp_primary ha, State.later_core, State.setBank_core]

theorem State.startOp_core : (s.startOp n hint kind dest acq turns).core =
    { s.core with bank := s.core.bank.startOn n s.nextOp dest acq } := by
  rw [State.startOp_primary ha, State.later_core, State.setBank_core]

theorem State.startOp_ops : (s.startOp n hint kind dest acq turns).ops = s.ops ++ [s.newOp n hint kind] := by
  rw [State.startOp_primary ha, State.later_ops, State.setBank_ops]

theorem State.startOp_nextOp : (s.startOp n hint kind dest acq turns).nextOp = s.nextOp + 1 := by
  rw [State.startOp_primary ha, State.later_nextOp, State.setBank_nextOp]

theorem State.startOp_mem : (s.startOp n hint kind dest acq turns).mem = s.mem := by
  rw [State.startOp_primary ha, State.later_mem, State.setBank_mem]

end

section
variable {s : State} {o : COp} {kind : OpKind} {dest : Option BarDest} {acq : Option Nat} {turns : Nat → List Turn}

theorem startChecked_room (h : s.core.bank.barrierRoom o.cb.toNat = true) :
    s.startChecked o kind dest acq turns = .next (s.startOp o.cb.toNat o.hint.toNat kind dest acq turns) := if_pos h

theorem startChecked_full (h : s.core.bank.barrierRoom o.cb.toNat = false) :
    s.startChecked o kind dest acq turns = s.raise 0x04 := if_neg (Bool.eq_false_iff.mp h)

end

/-! ### The checks of each operation -/

section
variable {o : COp} {s : State} (h : s.primaryRuns o.g)
include h

/-- R353: an instruction that captures its 64-byte block. -/
theorem captured_primary {bs : List Byte} (hb : s.block (s.ea o) 64 64 = .ok bs) (k : List Byte → State → Out) :
    s.captured (s.ea o) 64 64 k = k bs (s.claimNow (s.ea o) 64) := State.captured_ok h.1 hb k

/-- R112: CPY of a flat range. -/
theorem exec_cpy_flat {bs : List Byte} (hb : s.block (s.ea o) 64 64 = .ok bs) (hk : 2 ≤ o.data.toNat)
    (hz : (copyBlock bs).zeros = true) (hg : (copyBlock bs).gaddr % 128 = 0) (hl : (copyBlock bs).len % 128 = 0)
    (hmin : 128 ≤ (copyBlock bs).len) (hmax : (copyBlock bs).len ≤ 7 * 2 ^ 20)
    (hloc : s.checkLocal (copyBlock bs).loc (copyBlock bs).len 128 = none)
    (hglob : s.checkGlobal (copyBlock bs).gaddr (copyBlock bs).len 1 = none) :
    exec (.cpy o) s = (s.claimNow (s.ea o) 64).startChecked o (.cpy o.data.toNat (copyBlock bs).loc none
      (copyBlock bs).coord (copyBlock bs).box (copyBlock bs).gaddr (copyBlock bs).len) none none lineTurn := by
  have hloc' : (s.claimNow (s.ea o) 64).checkLocal (copyBlock bs).loc (copyBlock bs).len 128 = none := hloc
  have hglob' : (s.claimNow (s.ea o) 64).checkGlobal (copyBlock bs).gaddr (copyBlock bs).len 1 = none := hglob
  change execCpy o s = _
  rw [execCpy, State.primaryOnly_runs h]
  dsimp only
  rw [captured_primary h hb]
  rw [if_neg (by omega), hloc']
  dsimp only
  rw [if_neg (by simp [hz, hg, hl, hmin]; omega), hglob']

/-- R112: CPY of a box of a tensor. -/
theorem exec_cpy_tensor {bs : List Byte} {t : Tensor} (hb : s.block (s.ea o) 64 64 = .ok bs) (hk : o.data.toNat < 2)
    (hz : (copyBlock bs).zeros = true) (htid : (copyBlock bs).tid < 4096)
    (ht : sget s.core.bank.tensors (copyBlock bs).tid = some t) (hbox : (copyBlock bs).boxOk t = true)
    (hl : boxSize (copyBlock bs).box * t.width % 128 = 0)
    (hloc : s.checkLocal (copyBlock bs).loc (boxSize (copyBlock bs).box * t.width) 128 = none)
    (hedge : t.edge = 1 → (copyBlock bs).past t = false) :
    exec (.cpy o) s = (s.claimNow (s.ea o) 64).startChecked o (.cpy o.data.toNat (copyBlock bs).loc (some t)
      (copyBlock bs).coord (copyBlock bs).box (copyBlock bs).tid (boxSize (copyBlock bs).box * t.width)) none none
      lineTurn := by
  have ht' : sget (s.claimNow (s.ea o) 64).core.bank.tensors (copyBlock bs).tid = some t := ht
  have hloc' : (s.claimNow (s.ea o) 64).checkLocal (copyBlock bs).loc (boxSize (copyBlock bs).box * t.width) 128 = none :=
    hloc
  change execCpy o s = _
  rw [execCpy, State.primaryOnly_runs h]
  dsimp only
  rw [captured_primary h hb]
  rw [if_pos hk, if_pos htid, ht']
  dsimp only
  rw [hloc']
  dsimp only
  rw [if_neg (by simp [hz, hbox, hl]), if_neg]
  rw [Bool.and_eq_true, decide_eq_true_eq]
  rintro ⟨he, hp⟩
  exact Bool.false_ne_true ((hedge he).symm.trans hp)

/-- R116: MCAST. -/
theorem exec_mcast_checked (hs : s.checkGlobal (s.rs o.sa).toNat (128 * o.imm.toNat) 128 = none)
    (hd : checkSteps13 (!s.sup?) (s.rs (dataReg o)).toNat (128 * o.imm.toNat) 128 = none)
    (hw : (s.rs (dataReg o)).toNat + 128 * o.imm.toNat ≤ windowBytes) :
    exec (.mcast o) s = s.startChecked o (.mcast (s.rs o.sa).toNat (s.rs (dataReg o)).toNat (s.rs o.sb).toNat o.imm.toNat
      s.core.bank.launchId) none none lineTurn := by
  have hbytes : windowBytes = 0x800000 := rfl
  change execMcast o s = _
  rw [execMcast, State.primaryOnly_runs h]
  dsimp only
  rw [hs, hd]
  exact (if_neg (by rw [inHubWindow, decide_eq_true_eq]; omega)).trans (if_neg (Nat.not_lt.mpr hw))

/-- R121: a global ATOM. -/
theorem exec_atom_global (hw : windowBytes ≤ s.ea o) (hd : s.destOk (dataReg o) = true)
    (hc : s.checkGlobal (s.ea o) (atomBytes o.fmt.toNat) (atomBytes o.fmt.toNat) = none) :
    exec (.atom o) s = s.startChecked o (.atom (s.ea o) o.fmt.toNat (s.rs o.sb) (s.rs (dataReg o)) (dataReg o).toNat)
      (some (.reg (dataReg o).toNat)) none doneTurn := by
  change execAtom o s = _
  rw [execAtom, State.guarded_runs h.runs]
  dsimp only
  rw [State.dregsOk_primary h.1, hd, h.1, inWindow, decide_eq_false (Nat.not_lt.mpr hw), hc]
  rfl

theorem flagCbOk_global (hw : windowBytes ≤ s.ea o) : s.flagCbOk o = true := by
  rw [State.flagCbOk, State.isDrift, h.1, inWindow, decide_eq_false (Nat.not_lt.mpr hw)]
  exact Bool.or_true _

/-- R133: a global FLAGW. -/
theorem exec_flagw_global (hw : windowBytes ≤ s.ea o) (hc : s.checkGlobal (s.ea o) 8 8 = none) :
    exec (.flagw o) s = s.startChecked o (.flagw (s.ea o) (s.rs (dataReg o)) (flagScope o)) none none doneTurn := by
  change execFlagw o s = _
  rw [execFlagw, State.guarded_runs h.runs]
  dsimp only
  rw [State.dregsOk_primary h.1, flagCbOk_global h hw, h.1, inWindow, decide_eq_false (Nat.not_lt.mpr hw), hc]
  rfl

/-- R133: a global FLAGR. -/
theorem exec_flagr_global (hw : windowBytes ≤ s.ea o) (hc : s.checkGlobal (s.ea o) 8 8 = none)
    (hd : s.destOk (dataReg o) = true) :
    exec (.flagr o) s = s.startChecked o (.flagr (s.ea o) (dataReg o).toNat (flagScope o))
      (some (.reg (dataReg o).toNat)) (flagScope o) doneTurn := by
  change execFlagr o s = _
  rw [execFlagr, State.guarded_runs h.runs]
  dsimp only
  rw [State.dregsOk_primary h.1, flagCbOk_global h hw, hd, h.1, inWindow, decide_eq_false (Nat.not_lt.mpr hw), hc]
  rfl

/-- R152: MSEND with its block captured. -/
theorem exec_msend_block {bs : List Byte} (hb : s.block (s.ea o) 64 64 = .ok bs) :
    exec (.msend o) s =
      if !(msendOk o bs) then (s.claimNow (s.ea o) 64).raise 0x01
      else if s.core.bank.barrierRoom o.cb.toNat then
        .next (((s.claimNow (s.ea o) 64).releaseHere o.scope.toNat).startOp o.cb.toNat 0 (.msend (messageOf bs)) none none
          doneTurn)
      else (s.claimNow (s.ea o) 64).raise 0x04 := by
  have hagent : (s.claimNow (s.ea o) 64).agent = .primary := h.1
  change execMsend o s = _
  rw [execMsend, State.guarded_runs h.runs]
  dsimp only
  rw [State.dregsOk_primary h.1, State.isDrift, h.1, captured_primary h hb, ← claimNow_barrierRoom s (s.ea o) 64]
  dsimp only
  rw [hagent]
  rfl

/-- R341: WBL and INVL of no lines. -/
theorem cacheOp_empty (inval : Bool) (hn : (s.rs o.sb).toNat = 0) (hc : checkSteps13 (!s.sup?) (s.ea o) (128 * (s.rs o.sb).toNat) 128 = none) :
    s.cacheOp o inval = .next s := by
  rw [State.cacheOp, State.primaryOnly_runs h]
  dsimp only
  rw [if_neg (by omega), hc]
  exact if_pos hn

/-- R341: WBL and INVL of a global range. -/
theorem cacheOp_checked (inval : Bool) (hn : 0 < (s.rs o.sb).toNat) (hmax : (s.rs o.sb).toNat ≤ 65536)
    (hc : checkSteps13 (!s.sup?) (s.ea o) (128 * (s.rs o.sb).toNat) 128 = none) (ha : 2 ^ 32 ≤ s.ea o)
    (hh : inHubWindow (s.ea o + 128 * (s.rs o.sb).toNat - 1) = false) :
    s.cacheOp o inval = s.startChecked o (.cache (s.ea o / 128) (s.rs o.sb).toNat inval) none none doneTurn := by
  rw [State.cacheOp, State.primaryOnly_runs h]
  dsimp only
  rw [if_neg (by omega), hc]
  exact (if_neg (by omega)).trans ((if_neg (by omega)).trans (if_neg (Bool.eq_false_iff.mp hh)))

end

/-- R152: the rules of an MSEND's block and scope. -/
theorem msendOk_iff (o : COp) (bs : List Byte) : msendOk o bs = true ↔
    (field bs 7 1 = 0 ∧ field bs 23 41 = 0 ∧ field bs 6 1 ≤ 25 ∧ field bs 22 1 ≤ 25 ∧ (2 ≤ field bs 6 1 → o.scope = 4)) := by
  simp only [msendOk, messageOk, zeroBytes, Bool.and_eq_true, Bool.or_eq_true, beq_iff_eq, decide_eq_true_eq, and_assoc,
    imp_iff_not_or, not_le]

/-- Settles O41: each operation's checks, then the room on its barrier. -/
theorem engineOperationsStart : Obligations.EngineOperationsStart := by
  refine ⟨fun o s h => ?_, fun o s bs h hfull => ?_, barrierRoom_iff, msendOk_iff, fun o s bs h hb hm => ?_,
    fun s n hint kind dest acq turns ha hn => ?_⟩
  · intro n hint a d line done scope u hroom
    have hroom' : u.core.bank.barrierRoom n = true := (claimNow_barrierRoom _ _ _ _).trans hroom
    refine ⟨fun bs hb hk => ?_, fun bs t hb hk => ?_, ?_, fun hw hd hc => ?_, fun hw hc => ⟨?_, fun hd => ?_⟩,
      fun bs hb hm => ?_, ?_⟩
    · intro c hz hg hl hmin hmax hloc hglob
      exact (exec_cpy_flat h hb hk hz hg hl hmin hmax hloc hglob).trans (startChecked_room hroom')
    · intro c len hz htid ht hbox hl hloc hedge
      exact (exec_cpy_tensor h hb hk hz htid ht hbox hl hloc hedge).trans (startChecked_room hroom')
    · intro src dst k hs hd hw
      exact (exec_mcast_checked h hs hd hw).trans (startChecked_room hroom)
    · exact (exec_atom_global h hw hd hc).trans (startChecked_room hroom)
    · exact (exec_flagw_global h hw hc).trans (startChecked_room hroom)
    · exact (exec_flagr_global h hw hc hd).trans (startChecked_room hroom)
    · exact (exec_msend_block h hb).trans ((if_neg (by rw [hm]; exact Bool.false_ne_true)).trans (if_pos hroom))
    · intro k hmax hc
      exact ⟨fun hk => ⟨cacheOp_empty h false hk hc, cacheOp_empty h true hk hc⟩, fun hk ha hh =>
        ⟨(cacheOp_checked h false hk hmax hc ha hh).trans (startChecked_room hroom),
          (cacheOp_checked h true hk hmax hc ha hh).trans (startChecked_room hroom)⟩⟩
  · intro a u c
    have hfull' : u.core.bank.barrierRoom o.cb.toNat = false := (claimNow_barrierRoom _ _ _ _).trans hfull
    refine ⟨fun hb hk hz hg hl hmin hmax hloc hglob => ?_, fun t hb hk => ?_, fun hb hm => ?_, fun hw hc => ⟨?_, fun hd => ?_⟩,
      fun hw hd hc => ?_, ?_, ?_⟩
    · exact (exec_cpy_flat h hb hk hz hg hl hmin hmax hloc hglob).trans (startChecked_full hfull')
    · intro len hz htid ht hbox hl hloc hedge
      exact (exec_cpy_tensor h hb hk hz htid ht hbox hl hloc hedge).trans (startChecked_full hfull')
    · exact (exec_msend_block h hb).trans ((if_neg (by rw [hm]; exact Bool.false_ne_true)).trans
        (if_neg (Bool.eq_false_iff.mp hfull)))
    · exact (exec_flagw_global h hw hc).trans (startChecked_full hfull)
    · exact (exec_flagr_global h hw hc hd).trans (startChecked_full hfull)
    · exact (exec_atom_global h hw hd hc).trans (startChecked_full hfull)
    · intro src dst hs hd hw
      exact (exec_mcast_checked h hs hd hw).trans (startChecked_full hfull)
    · intro k hk hmax hc ha hh
      exact ⟨(cacheOp_checked h false hk hmax hc ha hh).trans (startChecked_full hfull),
        (cacheOp_checked h true hk hmax hc ha hh).trans (startChecked_full hfull)⟩
  · exact (exec_msend_block h hb).trans (if_pos (by rw [hm]; rfl))
  · intro t
    have hbank : t.core.bank = _ := State.startOp_bank ha n hint kind dest acq turns
    have hcore : t.core = _ := State.startOp_core ha n hint kind dest acq turns
    rw [hcore]
    refine ⟨?_, fun m hm => Bank.setCb_other _ _ hm, ⟨_, State.startOp_ops ha n hint kind dest acq turns, rfl, rfl, rfl, rfl,
      rfl, rfl, rfl⟩, State.startOp_nextOp ha n hint kind dest acq turns, Bank.startOn_sameRegs _ _ _ _ _, rfl,
      State.startOp_mem ha n hint kind dest acq turns⟩
    exact congrArg Barrier.count (Bank.setCb_self _ hn _)

end Sys2Proof.Machine
end

section
/-! PROOFS. The flags and the ATOM of the primary on a pinned line. -/

namespace Sys2Proof.Machine

/-! ### Flags -/

section
variable {o : COp} {s : State} (h : s.primaryRuns o.g) (hcb : o.cb = 0) (hw : s.ea o < windowBytes)
  (hc : s.checkLocal (s.ea o) 8 8 = none)
include h hcb hw hc

/-- R133: a FLAGW on a pinned line. -/
theorem exec_flagw_local (hs : s.storeCheck (s.ea o) 8 (s.core.bank.tick + 3) = none) :
    exec (.flagw o) s = .next (s.storeAt 3 (s.ea o) (leBytes 8 (s.rs (dataReg o)).toNat) (flagScope o)) := by
  change execFlagw o s = _
  rw [execFlagw, State.guarded_runs h.runs]
  dsimp only
  rw [State.dregsOk_primary h.1, State.flagCbOk, hcb, h.1, inWindow, decide_eq_true hw, hc, hs]
  rfl

/-- The acquire of a FLAGR. -/
def State.flagAcquire (s : State) (o : COp) : State :=
  match flagScope o with
  | some sc => s.acquire sc
  | none => s

/-- R133: a FLAGR on a pinned line. -/
theorem exec_flagr_local (hd : s.destOk (dataReg o) = true) :
    exec (.flagr o) s = .next (((s.claimNow (s.ea o) 8).result 6
      (.sPlain (dataReg o).toNat (BitVec.ofNat 64 (readNat s.core.store (s.ea o) 8)))).flagAcquire o) := by
  change execFlagr o s = _
  rw [execFlagr, State.guarded_runs h.runs]
  dsimp only
  rw [State.dregsOk_primary h.1, State.flagCbOk, hcb, hd, h.1, inWindow, decide_eq_true hw, hc]
  rfl

end

theorem State.flagAcquire_frame {s : State} (ha : s.agent = .primary) (o : COp) :
    (s.flagAcquire o).core = s.core ∧
      (s.flagAcquire o).ord = s.ord ++ (match flagScope o with | some sc => [.acquire s.cur none sc] | none => []) := by
  unfold State.flagAcquire
  cases flagScope o with
  | some sc => exact ⟨rfl, by simp only [State.acquire, State.agentThread, ha]⟩
  | none => exact ⟨rfl, (List.append_nil _).symm⟩

/-! ### The ATOM -/

/-- A tick that a tracked read of a line moves on. -/
def afterRead (line t m : Nat) (r : Nat × Nat) : Nat := if r.1 = line && decide (t ≤ r.2) then max m (r.2 + 1) else m

theorem afterRead_hit {line t m : Nat} {r : Nat × Nat} (h : r.1 = line ∧ t ≤ r.2) : afterRead line t m r = max m (r.2 + 1) :=
  if_pos (by simpa using h)

theorem afterRead_miss {line t m : Nat} {r : Nat × Nat} (h : ¬(r.1 = line ∧ t ≤ r.2)) : afterRead line t m r = m :=
  if_neg (by simpa using h)

/-- The tick after the last of the tracked reads of a line at or after t. -/
theorem afterReads_fold (line t : Nat) (rs : List (Nat × Nat)) (m : Nat) :
    m ≤ rs.foldl (afterRead line t) m ∧ (∀ r, (line, r) ∈ rs → t ≤ r → r + 1 ≤ rs.foldl (afterRead line t) m) ∧
      (rs.foldl (afterRead line t) m = m ∨ ∃ r, (line, r) ∈ rs ∧ t ≤ r ∧ rs.foldl (afterRead line t) m = r + 1) := by
  induction rs generalizing m with
  | nil => exact ⟨le_rfl, fun r h => absurd h List.not_mem_nil, .inl rfl⟩
  | cons x rs ih =>
    rw [List.foldl_cons]
    obtain ⟨hle, hall, hex⟩ := ih (afterRead line t m x)
    have hrest (hx : rs.foldl (afterRead line t) (afterRead line t m x) = m ∨
        ∃ r, (line, r) ∈ rs ∧ t ≤ r ∧ rs.foldl (afterRead line t) (afterRead line t m x) = r + 1) :
        rs.foldl (afterRead line t) (afterRead line t m x) = m ∨
          ∃ r, (line, r) ∈ x :: rs ∧ t ≤ r ∧ rs.foldl (afterRead line t) (afterRead line t m x) = r + 1 :=
      hx.imp_right fun ⟨r, hr, h⟩ => ⟨r, List.mem_cons_of_mem _ hr, h⟩
    by_cases hx : x.1 = line ∧ t ≤ x.2
    · have hhit := afterRead_hit (m := m) hx
      rw [hhit] at hle hall hex hrest ⊢
      refine ⟨(Nat.le_max_left _ _).trans hle, fun r hr ht => ?_, ?_⟩
      · rcases List.mem_cons.mp hr with rfl | hr
        · exact (Nat.le_max_right _ _).trans hle
        · exact hall r hr ht
      · rcases hex with hex | hex
        · rcases Nat.le_total (x.2 + 1) m with hm | hm
          · exact .inl (hex.trans (Nat.max_eq_left hm))
          · exact .inr ⟨x.2, by rw [← hx.1]; exact List.mem_cons_self, hx.2, hex.trans (Nat.max_eq_right hm)⟩
        · exact hrest (.inr hex)
    · have hmiss := afterRead_miss (m := m) hx
      rw [hmiss] at hle hall hex hrest ⊢
      refine ⟨hle, fun r hr ht => ?_, hrest hex⟩
      rcases List.mem_cons.mp hr with rfl | hr
      · exact absurd ⟨rfl, ht⟩ hx
      · exact hall r hr ht

section
variable {b : Bank} {line t : Nat}

theorem afterReads_le : t ≤ b.afterReads line t := (afterReads_fold line t b.tracked t).1

theorem afterReads_none (h : ∀ x ∈ b.tracked, x.1 = line → x.2 < t) : b.afterReads line t = t := by
  obtain ⟨-, -, hex⟩ := afterReads_fold line t b.tracked t
  rcases hex with hex | ⟨r, hr, ht, -⟩
  · exact hex
  · exact absurd (h _ hr rfl) (Nat.not_lt.mpr ht)

theorem afterReads_last {r : Nat} (hr : (line, r) ∈ b.tracked) (ht : t ≤ r)
    (hlast : ∀ x ∈ b.tracked, x.1 = line → x.2 ≤ r) : b.afterReads line t = r + 1 := by
  obtain ⟨-, hall, hex⟩ := afterReads_fold line t b.tracked t
  have hle := hall r hr ht
  refine Nat.le_antisymm ?_ hle
  rcases hex with hex | ⟨q, hq, -, hex⟩
  · exact hex.le.trans (by omega)
  · exact hex.le.trans (Nat.succ_le_succ (hlast _ hq rfl))

end

/-- The tick at which a local ATOM that issues now lands. -/
def State.atomLands (s : State) (o : COp) : Nat := s.core.bank.afterReads (s.ea o / 128) (s.core.bank.tick + 3)

/-- The state with the lines of a local ATOM logged. -/
def State.atomLogged (s : State) (o : COp) : State :=
  ({ s with nextOp := s.nextOp + 1 } : State).logUndo (linesOf (s.ea o) (atomBytes o.fmt.toNat))

/-- The bank with a local ATOM on its barrier. -/
def State.atomBank (s : State) (o : COp) : Bank :=
  ((s.atomLogged o).core.bank.startOn o.cb.toNat s.nextOp (some (.reg (dataReg o).toNat)) none).claim
    ((s.atomLogged o).core.bank.afterReads (s.ea o / 128) ((s.atomLogged o).core.bank.tick + 3))
    (linesOf (s.ea o) (atomBytes o.fmt.toNat))

/-- The state with a local ATOM in flight. -/
def State.atomStart (s : State) (o : COp) : State :=
  (s.atomLogged o).setBank ((s.atomBank o).addPend
    ((s.atomLogged o).core.bank.afterReads (s.ea o / 128) ((s.atomLogged o).core.bank.tick + 3) - (s.atomBank o).tick)
    (.atom (s.ea o) o.fmt.toNat ((s.atomLogged o).rs o.sb) ((s.atomLogged o).rs (dataReg o)) o.cb.toNat s.nextOp) 4 0)

/-- R121, R321: an ATOM of the primary on a pinned line. -/
theorem exec_atom_local {o : COp} {s : State} (h : s.primaryRuns o.g) (hw : s.ea o < windowBytes)
    (hd : s.destOk (dataReg o) = true)
    (hc : s.checkLocal (s.ea o) (atomBytes o.fmt.toNat) (atomBytes o.fmt.toNat) = none)
    (hu : s.unitHeld (s.ea o) (atomBytes o.fmt.toNat) = false)
    (hl : s.core.bank.undo.length + (s.newUndo (linesOf (s.ea o) (atomBytes o.fmt.toNat))).length ≤ 512)
    (hr : s.core.bank.barrierRoom o.cb.toNat = true) : exec (.atom o) s = .next (s.atomStart o) := by
  change execAtom o s = _
  rw [execAtom, State.guarded_runs h.runs]
  dsimp only
  rw [State.dregsOk_primary h.1, hd, h.1, inWindow, decide_eq_true hw]
  change s.atomLocal o (s.ea o) = _
  rw [State.atomLocal]
  dsimp only
  rw [hc]
  refine (if_neg (Bool.eq_false_iff.mp hu)).trans ((if_neg (Nat.not_lt.mpr hl)).trans ((if_neg ?_).trans rfl))
  rw [hr]
  exact Bool.false_ne_true

section
variable (s : State) (o : COp)

theorem State.atomLogged_core : (s.atomLogged o).core =
    { s.core with bank := { s.core.bank with undo := (s.atomLogged o).core.bank.undo } } := by
  simp only [State.atomLogged, State.logUndo, State.setBank_core]

theorem State.atomLogged_rs (n : BitVec 6) : (s.atomLogged o).rs n = s.rs n := by
  have hagent : (s.atomLogged o).agent = s.agent := rfl
  rw [State.rs, State.rs, hagent, State.atomLogged_core]
  rfl

theorem State.atomBank_frame :
    (s.atomBank o).tick = s.core.bank.tick ∧ (s.atomBank o).seq = s.core.bank.seq ∧
      (s.atomBank o).pend = s.core.bank.pend ∧ (s.atomBank o).sameRegs s.core.bank ∧
      ∀ n, (s.atomBank o).cb n = (s.core.bank.startOn o.cb.toNat s.nextOp (some (.reg (dataReg o).toNat)) none).cb n := by
  rw [State.atomBank, State.atomLogged_core]
  generalize (s.atomLogged o).core.bank.undo = us
  have hregs := Bank.startOn_sameRegs { s.core.bank with undo := us } o.cb.toNat s.nextOp (some (.reg (dataReg o).toNat)) none
  unfold Bank.startOn at hregs ⊢
  rw [Bank.setCb_frame] at hregs ⊢
  refine ⟨rfl, rfl, rfl, hregs, fun n => ?_⟩
  unfold Bank.setCb Bank.cb
  by_cases hcb : o.cb.toNat < 8
  · simp only [hcb, dite_true]
    rfl
  · simp only [hcb, dite_false]
    rfl

theorem State.atomStart_pend : (s.atomStart o).core.bank.pend = s.core.bank.pend ++
    [⟨s.core.bank.tick + (s.atomLands o - s.core.bank.tick), s.core.bank.seq,
      .atom (s.ea o) o.fmt.toNat (s.rs o.sb) (s.rs (dataReg o)) o.cb.toNat s.nextOp, 4, 0, false⟩] := by
  obtain ⟨htick, hseq, hpend, -, -⟩ := s.atomBank_frame o
  have hland : (s.atomLogged o).core.bank.afterReads (s.ea o / 128) ((s.atomLogged o).core.bank.tick + 3) = s.atomLands o := by
    rw [State.atomLogged_core]
    rfl
  rw [State.atomStart, State.setBank_core, Bank.addPend_pend, htick, hseq, hpend, hland, State.atomLogged_rs,
    State.atomLogged_rs]

theorem State.atomStart_cb (n : Nat) : (s.atomStart o).core.bank.cb n =
    (s.core.bank.startOn o.cb.toNat s.nextOp (some (.reg (dataReg o).toNat)) none).cb n := by
  obtain ⟨-, -, -, -, hcb⟩ := s.atomBank_frame o
  rw [← hcb, State.atomStart, State.setBank_core]
  rfl

theorem State.atomStart_sameRegs : (s.atomStart o).core.bank.sameRegs s.core.bank := by
  obtain ⟨-, -, -, hregs, -⟩ := s.atomBank_frame o
  rw [State.atomStart, State.setBank_core]
  exact (Bank.sameRegs_addPend _ _ _ _ _).trans hregs

theorem State.atomStart_frame : (s.atomStart o).nextOp = s.nextOp + 1 ∧ (s.atomStart o).core.store = s.core.store := by
  rw [State.atomStart, State.setBank_core, State.setBank_nextOp, State.atomLogged_core]
  exact ⟨rfl, rfl⟩

end

/-- Settles O42: the flags at issue, and the ATOM's place among the tracked reads. -/
theorem localFlagsAndAtom : Obligations.LocalFlagsAndAtom := by
  intro o s h b a d scope got hw
  refine ⟨fun hcb hc => ⟨exec_flagw_local h hcb hw hc, fun hd => ?_⟩, ?_⟩
  · obtain ⟨hcore, hord⟩ := State.flagAcquire_frame (s := (s.claimNow a 8).result 6 got) h.1 o
    refine ⟨((s.claimNow a 8).result 6 got).flagAcquire o, exec_flagr_local h hcb hw hc hd, ?_, hord, ?_, ?_⟩
    · rw [hcore, State.result_core, Bank.addPend_pend]
      rfl
    · rw [hcore, State.result_core]
      exact (Bank.sameRegs_addPend _ _ _ _ _).trans (Bank.sameRegs_claim _ _ _)
    · rw [hcore, State.result_core]
      rfl
  · intro n hd hc hu hl hr
    have hdue : b.tick + (s.atomLands o - b.tick) = s.atomLands o := by
      have hle : s.core.bank.tick + 3 ≤ s.atomLands o := afterReads_le
      simp only [b]
      omega
    have hcb : o.cb.toNat < 8 := o.cb.isLt
    refine ⟨s.atomStart o, _, exec_atom_local h hw hd hc hu hl hr, s.atomStart_pend o, fun hx => hdue.trans (afterReads_none hx),
      fun r hx ht hlast => hdue.trans (afterReads_last hx ht hlast), rfl, ?_, ?_, (s.atomStart_frame o).1,
      s.atomStart_sameRegs o, (s.atomStart_frame o).2⟩
    · rw [State.atomStart_cb]
      exact congrArg Barrier.count (Bank.setCb_self _ hcb _)
    · rw [State.atomStart_cb]
      exact congrArg Barrier.results (Bank.setCb_self _ hcb _)

end Sys2Proof.Machine
end

section
/-! PROOFS. The wait on a barrier, fences, hints and barriers between tasks. -/

namespace Sys2Proof.Machine

/-! ### Results of a barrier -/

theorem Bank.sregN_zero (b : Bank) : b.sregN 0 = 0 := rfl

/-- R115: a register result lands. -/
theorem State.landResult_reg (s : State) (n : Nat) {d : Nat} (op : Nat) (v : Word) (l : Option Nat) :
    ∃ r, s.landResult n { op := op, dest := .reg d, val := some v, land := l } =
      s.setBank ({ s.core.bank with rerun := r }.setS d v) := ⟨_, rfl⟩

/-- The barriers and what the bank does stand. -/
structure Bank.SameBars (a b : Bank) : Prop where
  cbs : a.cbs = b.cbs
  run : a.run = b.run

theorem Bank.SameBars.refl (b : Bank) : b.SameBars b := ⟨rfl, rfl⟩

theorem Bank.SameBars.trans {a b c : Bank} (h₁ : a.SameBars b) (h₂ : b.SameBars c) : a.SameBars c :=
  ⟨h₁.cbs.trans h₂.cbs, h₁.run.trans h₂.run⟩

theorem Bank.SameBars.cb {a b : Bank} (h : a.SameBars b) (n : Nat) : a.cb n = b.cb n := by
  rw [Bank.cb, Bank.cb, h.cbs]

section
variable (s : State) (n : Nat) {d : Nat} (op : Nat) (v : Word) (l : Option Nat)

theorem State.landResult_sameBars :
    (s.landResult n { op := op, dest := .reg d, val := some v, land := l }).core.bank.SameBars s.core.bank := by
  obtain ⟨r, hr⟩ := s.landResult_reg n (d := d) op v l
  rw [hr, State.setBank_core, Bank.setS_frame]
  exact ⟨rfl, rfl⟩

theorem State.landResult_sregN (hd : d < 64) {m : Nat} (hm : m < 64) :
    (s.landResult n { op := op, dest := .reg d, val := some v, land := l }).core.bank.sregN m =
      if m = 0 then 0 else if m = d then v else s.core.bank.sregN m := by
  obtain ⟨r, hr⟩ := s.landResult_reg n (d := d) op v l
  rw [hr, State.setBank_core, Bank.setS_sregN _ _ _ _ hm hd]
  rfl

end

theorem foldl_acquire_core (acq : List Nat) (s : State) :
    (acq.foldl (fun s sc => s.acquire sc) s).core = s.core ∧ (acq.foldl (fun s sc => s.acquire sc) s).agent = s.agent := by
  induction acq generalizing s with
  | nil => exact ⟨rfl, rfl⟩
  | cons a acq ih => exact ih (s.acquire a)

theorem releaseHere_bars {s : State} (ha : s.agent = .primary) (sc : Nat) :
    (s.releaseHere sc).core.bank.SameBars s.core.bank ∧ (s.releaseHere sc).core.bank.s = s.core.bank.s := by
  rw [State.releaseHere_primary ha]
  obtain h | ⟨-, -, h⟩ := s.release_cases sc <;> rw [h] <;> exact ⟨⟨rfl, rfl⟩, rfl⟩

/-- R115: the results that land at barrier n leave every barrier. -/
def Bank.clearLanded (b : Bank) (n k : Nat) : Bank :=
  (List.range k).foldl (fun b m =>
    b.setCb m { b.cb m with results := (b.cb m).results.filter fun r => !(r.landsAt m n) }) b

theorem Bank.clearLanded_succ (b : Bank) (n k : Nat) : b.clearLanded n (k + 1) =
    (b.clearLanded n k).setCb k { (b.clearLanded n k).cb k with
      results := ((b.clearLanded n k).cb k).results.filter fun r => !(r.landsAt k n) } := by
  rw [Bank.clearLanded, List.range_succ, List.foldl_append]
  rfl

theorem Bank.clearLanded_frame (b : Bank) (n k : Nat) : b.clearLanded n k = { b with cbs := (b.clearLanded n k).cbs } := by
  induction k with
  | zero => rfl
  | succ k ih =>
    rw [Bank.clearLanded_succ, Bank.setCb_frame]
    generalize ((b.clearLanded n k).setCb k _).cbs = cs
    rw [ih]

theorem Bank.clearLanded_cb (b : Bank) (n : Nat) {k m : Nat} (hk : k ≤ 8) (hm : m < 8) :
    (b.clearLanded n k).cb m =
      if m < k then { b.cb m with results := (b.cb m).results.filter fun r => !(r.landsAt m n) } else b.cb m := by
  induction k with
  | zero => rw [if_neg (Nat.not_lt_zero m)]; rfl
  | succ k ih =>
    have ih := ih (by omega)
    rw [Bank.clearLanded_succ]
    by_cases hmk : m = k
    · subst hmk
      rw [if_neg (lt_irrefl m)] at ih
      rw [Bank.setCb_self _ hm, ih, if_pos (Nat.lt_succ_self m)]
    · rw [Bank.setCb_other _ _ hmk, ih]
      exact if_congr (by omega) rfl rfl

/-- What a barrier's landing leaves: its results are gone, and its acquires. -/
def Bank.barrierOver (b : Bank) (n : Nat) : Bank :=
  (b.clearLanded n 8).setCb n { (b.clearLanded n 8).cb n with acq := [], coll := false }

theorem Bank.barrierOver_frame (b : Bank) (n : Nat) :
    (b.barrierOver n).s = b.s ∧ (b.barrierOver n).run = b.run ∧ (n < 8 → ((b.barrierOver n).cb n).acq = []) ∧
      (b.barrierOver n).landing n = [] := by
  have hres (m : Nat) (hm : m < 8) : ((b.barrierOver n).cb m).results = (b.cb m).results.filter fun r => !(r.landsAt m n) := by
    have hclear := congrArg Barrier.results (b.clearLanded_cb n (le_refl 8) hm)
    rw [if_pos hm] at hclear
    by_cases hmn : m = n
    · subst hmn
      rw [Bank.barrierOver, Bank.setCb_self _ hm]
      exact hclear
    · rw [Bank.barrierOver, Bank.setCb_other _ _ hmn]
      exact hclear
  have hnone (m : Nat) : ((b.barrierOver n).cb m).results.filter (fun r => r.landsAt m n) = [] := by
    by_cases hm : m < 8
    · rw [hres m hm, List.filter_filter, List.filter_eq_nil_iff]
      simp
    · rw [Bank.cb, dif_neg hm]
      rfl
  refine ⟨?_, ?_, fun hn => ?_, ?_⟩
  · rw [Bank.barrierOver, Bank.setCb_frame, Bank.clearLanded_frame]
  · rw [Bank.barrierOver, Bank.setCb_frame, Bank.clearLanded_frame]
  · rw [Bank.barrierOver, Bank.setCb_self _ hn]
  · rw [Bank.landing, hnone n, List.nil_append]
    refine List.flatMap_eq_nil_iff.mpr fun m hm => ?_
    split
    · rfl
    · exact hnone m

/-- The state once the results of barrier n have landed, before its acquires. -/
def State.landed (s : State) (n : Nat) : State := (s.core.bank.landing n).foldl (fun s r => s.landResult n r) s

theorem State.landed_agent (s : State) (n : Nat) : (s.landed n).agent = s.agent := by
  unfold State.landed
  generalize s.core.bank.landing n = rs
  induction rs generalizing s with
  | nil => rfl
  | cons r rs ih =>
    rw [List.foldl_cons, ih]
    unfold State.landResult
    split <;> rfl

/-- R115: the acquires of a landing change no register and no barrier. -/
theorem State.landBarrier_bank {s : State} (ha : s.agent = .primary) (n : Nat) :
    ∃ b : Bank, b.SameBars (s.landed n).core.bank ∧ b.s = (s.landed n).core.bank.s ∧
      (s.landBarrier n).core.bank = b.barrierOver n := by
  obtain ⟨hcore, hagent⟩ := foldl_acquire_core (s.core.bank.cb n).acq (s.landed n)
  let u := (s.core.bank.cb n).acq.foldl (fun s sc => s.acquire sc) (s.landed n)
  have hu : u.agent = .primary := hagent.trans ((s.landed_agent n).trans ha)
  have hbars := releaseHere_bars hu 4
  have hbank : u.core.bank = (s.landed n).core.bank := congrArg Core.bank hcore
  cases hc : (s.core.bank.cb n).coll with
  | true =>
    refine ⟨(u.releaseHere 4).core.bank, hbank ▸ hbars.1, hbank ▸ hbars.2, ?_⟩
    simp only [State.landBarrier, hc, if_true]
    rfl
  | false =>
    refine ⟨u.core.bank, hbank ▸ .refl _, congrArg Bank.s hbank, ?_⟩
    simp only [State.landBarrier, hc, Bool.false_eq_true, if_false]
    rfl

/-! ### CPYW -/

section
variable {o : COp} {s : State} (h : s.primaryRuns o.g) (hrun : s.core.bank.run = .active)
include h hrun

theorem exec_cpyw_active : exec (.cpyw o) s = .next (s.cpywTry o.cb.toNat []) := by
  change execCpyw o s = _
  rw [execCpyw, State.primaryOnly_runs h]
  dsimp only
  rw [hrun]

theorem exec_cpyw_record {r : FaultRec} (hr : (s.core.bank.cb o.cb.toNat).record = some r) :
    exec (.cpyw o) s = .next ((s.setBank { s.core.bank with
      waitPc := some (s.core.bank.waiting [o.cb.toNat]) }).raiseRecord s.core.bank.pc o.cb.toNat r (.cpyw o.cb.toNat)) := by
  rw [exec_cpyw_active h hrun]
  simp only [State.cpywTry, State.cpywOne, hr, Bool.false_eq_true, if_false]

section
variable (hr : (s.core.bank.cb o.cb.toNat).record = none) (hw : (s.core.bank.cb o.cb.toNat).waits = 0)
include hr hw

theorem exec_cpyw_waits (hc : 0 < (s.core.bank.cb o.cb.toNat).count) :
    exec (.cpyw o) s = .next (s.waitOn o.cb.toNat []) := by
  rw [exec_cpyw_active h hrun]
  simp only [State.cpywTry, State.cpywOne, hr, hw, lt_irrefl, Nat.ne_of_gt hc, Bool.false_eq_true, if_false]

/-- R115: a CPYW on a complete barrier. -/
theorem exec_cpyw_complete (hc : (s.core.bank.cb o.cb.toNat).count = 0) :
    ∃ t, exec (.cpyw o) s = .next t ∧ t.core.bank.run = .active ∧
      (∀ m, t.core.bank.sregN m = (s.landed o.cb.toNat).core.bank.sregN m) ∧
      t.core.bank.s = (s.landed o.cb.toNat).core.bank.s ∧ (t.core.bank.cb o.cb.toNat).acq = [] ∧
      t.core.bank.landing o.cb.toNat = [] := by
  obtain ⟨b, hbars, hs, hbank⟩ := State.landBarrier_bank h.1 o.cb.toNat
  obtain ⟨hsame, -, hacq, hland⟩ := b.barrierOver_frame o.cb.toNat
  refine ⟨(s.landBarrier o.cb.toNat).setBank
    { (s.landBarrier o.cb.toNat).core.bank with run := .active, waitPc := none }, ?_, ?_⟩
  · rw [exec_cpyw_active h hrun]
    simp only [State.cpywTry, State.cpywOne, hr, hw, hc, lt_irrefl, if_true, if_false]
  · rw [State.setBank_core, hbank]
    refine ⟨rfl, fun m => ?_, hsame.trans hs, hacq o.cb.isLt, hland⟩
    have hregs : (b.barrierOver o.cb.toNat).s = (s.landed o.cb.toNat).core.bank.s := hsame.trans hs
    simp only [Bank.sregN, Bank.sreg, hregs]

end
end

/-! ### A barrier's record -/

theorem causeBits_barrier {code n : Nat} (h : code < 256) (hn : n < 8) (nested : Bool) :
    (causeBits code none nested n 0).toNat % 256 = code ∧ (causeBits code none nested n 0).toNat / 8192 % 8 = n := by
  cases nested <;> simp [causeBits] <;> omega

/-- R205: a record's fault at a CPYW. -/
theorem takeFault_record {s : State} {w : CpywWait} {code n va line : Nat} (h : code < 256) (hn : n < 8) :
    let t := (s.setBank { s.core.bank with waitPc := some w }).takeFault
      { cause := code, thread := none, cb := n, addr := va, aux := line }
    t.core.bank.run = .stopped ∧ t.core.bank.cause.toNat % 256 = code ∧ t.core.bank.cause.toNat / 8192 % 8 = n ∧
      t.core.bank.epc = s.core.bank.pc := by
  intro t
  have ht : t.core = _ := State.takeFault_core _ _
  obtain ⟨hcode, hbar⟩ := causeBits_barrier h hn (s.core.bank.handler || false)
  rw [ht]
  exact ⟨rfl, hcode, hbar, rfl⟩

/-- The hub but for its partitions stands. -/
def State.ChangesParts (s t : State) : Prop := ∃ ps, t.hub = { s.hub with parts := ps }

theorem State.ChangesParts.refl (s : State) : s.ChangesParts s := ⟨s.hub.parts, rfl⟩

theorem State.ChangesParts.of_hub {s t : State} (h : t.hub = s.hub) : s.ChangesParts t := ⟨s.hub.parts, h⟩

theorem State.ChangesParts.trans {s t u : State} (h₁ : s.ChangesParts t) (h₂ : t.ChangesParts u) : s.ChangesParts u := by
  obtain ⟨ps, h₁⟩ := h₁
  obtain ⟨qs, h₂⟩ := h₂
  exact ⟨qs, by rw [h₂, h₁]⟩

theorem State.changesParts_foldl {α : Type} {f : State → α → State} (hf : ∀ (s : State) x, s.ChangesParts (f s x))
    (xs : List α) (s : State) : s.ChangesParts (xs.foldl f s) := by
  induction xs generalizing s with
  | nil => exact .refl s
  | cons x xs ih => exact (hf s x).trans (ih _)

theorem State.changesParts_putSys (s : State) (num : Nat) (v : Word) : s.ChangesParts (s.putSys num v) := by
  have hmap (f : Partition → Partition) : s.ChangesParts (s.setHub (s.hub.mapPart s.part f)) := by
    unfold Hub.mapPart
    split
    · exact ⟨_, rfl⟩
    · exact .refl s
  unfold State.putSys
  dsimp only
  split
  case h_14 | h_15 | h_16 | h_17 => exact hmap _
  all_goals exact .of_hub rfl

theorem State.changesParts_logSys (s : State) (num : Nat) : s.ChangesParts (s.logSys num) := by
  unfold State.logSys
  split
  · dsimp only
    split <;> exact .of_hub rfl
  · exact .refl s

theorem State.changesParts_release (s : State) (sc : Nat) : s.ChangesParts (s.release sc) := by
  obtain h | ⟨-, -, h⟩ := s.release_cases sc <;> rw [h] <;> exact .of_hub rfl

theorem State.ChangesCaches.changesParts {s t : State} (h : s.ChangesCaches t) : s.ChangesParts t := by
  obtain ⟨w, d, o, x, y, rfl⟩ := h
  exact .of_hub rfl

/-- R15: a result that lands changes of the hub a partition's registers alone. -/
theorem State.changesParts_landOne (s : State) (e : Pend) : s.ChangesParts (s.landOne e) := by
  unfold State.landOne
  dsimp only
  split
  case h_8 => exact (s.changesParts_logSys _).trans (State.changesParts_putSys _ _ _)
  case h_14 => exact .trans (.of_hub rfl) (State.changesCaches_evictWays _).changesParts
  case h_20 =>
    split
    · exact .trans (s.changesParts_release _) (.of_hub rfl)
    · exact .of_hub rfl
  all_goals exact .of_hub rfl

/-- R117: a bank that drains. -/
theorem State.changesParts_drain (s : State) : s.ChangesParts s.drain := by
  obtain ⟨ps, h⟩ := State.changesParts_foldl State.changesParts_landOne
    (byDue (s.freezeMatrix.core.bank.pend ++ s.core.bank.mreds.flatMap s.mredRest))
    (s.freezeMatrix.setBank { s.freezeMatrix.core.bank with pend := [] })
  exact ⟨ps, h⟩

theorem rouse_frame (s : State) (c : Nat) : (s.rouse c).core = s.core ∧ (s.rouse c).hub = s.hub := by
  unfold State.rouse
  split <;> exact ⟨rfl, rfl⟩

theorem startSwitch_frame (s : State) : s.startSwitch.core.bank = s.core.bank ∧ s.startSwitch.hub = s.hub := by
  unfold State.startSwitch
  rw [(rouse_frame _ _).1, (rouse_frame _ _).2]
  exact ⟨rfl, rfl⟩

/-- R115, R117: a translation record at a CPYW, outside a handler. -/
theorem takeEvent_record {s : State} {w : CpywWait} {n va line : Nat} {op : Option Nat} (hn : n < 8)
    (hh : s.core.bank.handler = false) :
    let t := (s.setBank { s.core.bank with waitPc := some w }).takeEvent s.core.bank.pc n va op (.cpyw n) line
    t.core.bank.run = .event s.hub.nextEvent (.cpyw n) ∧ t.core.bank.cause.toNat % 256 = 0x10 ∧
      t.core.bank.cause.toNat / 8192 % 8 = n ∧ t.core.bank.epc = s.core.bank.pc ∧
      t.hub.events.length = s.hub.events.length + 1 := by
  intro t
  let d := (s.setBank { s.core.bank with waitPc := some w }).drain.saveRelease
  obtain ⟨ps, hd⟩ := State.changesParts_drain (s.setBank { s.core.bank with waitPc := some w })
  have hd : d.hub = { s.hub with parts := ps } := hd
  let u := (d.setHub (d.hub.queueEvent (d.core.bank.task.map (·.launch)) d.cur d.core.curBank op none va none false)).setBank
    { d.core.bank with epc := s.core.bank.pc, cause := causeBits 0x10 none d.core.bank.handler n 0,
                       run := .event d.hub.nextEvent (.cpyw n) }
  have ht : t = if u.core.otherReady then u.startSwitch else u := if_neg (by simp [hh])
  have hframe : t.core.bank = u.core.bank ∧ t.hub = u.hub := by
    rw [ht]
    split
    · exact startSwitch_frame u
    · exact ⟨rfl, rfl⟩
  obtain ⟨hcode, hbar⟩ := causeBits_barrier (code := 0x10) (by decide) hn d.core.bank.handler
  rw [hframe.1, hframe.2]
  refine ⟨?_, hcode, hbar, rfl, ?_⟩
  · change BankRun.event d.hub.nextEvent (.cpyw n) = _
    rw [hd]
  · change (d.hub.events ++ [_]).length = _
    rw [hd, List.length_append]
    rfl

/-! ### FENCE and PREF -/

/-- R134: the release of a FENCE. -/
def State.fenceRelease (s : State) (o : COp) : State :=
  if o.fmt = 1 ∨ o.fmt = 3 then (s.release o.scope.toNat).fenced else s

/-- R134: the acquire of a FENCE. -/
def State.fenceAcquire (s : State) (o : COp) : State :=
  if o.fmt = 2 ∨ o.fmt = 3 then s.acquire o.scope.toNat else s

theorem State.fenceAcquire_frame (s : State) (o : COp) :
    (s.fenceAcquire o).agent = s.agent ∧ (s.fenceAcquire o).core = s.core ∧ (s.fenceAcquire o).mem = s.mem ∧
      (s.fenceAcquire o).hub = s.hub ∧ (s.fenceAcquire o).ord = s.ord ++
        (if o.fmt = 2 ∨ o.fmt = 3 then [.acquire s.cur s.agentThread o.scope.toNat] else []) := by
  unfold State.fenceAcquire
  by_cases h : o.fmt = 2 ∨ o.fmt = 3
  · rw [if_pos h, if_pos h]
    exact ⟨rfl, rfl, rfl, rfl, rfl⟩
  · rw [if_neg h, if_neg h, List.append_nil]
    exact ⟨rfl, rfl, rfl, rfl, rfl⟩

section
variable {s : State} (ha : s.agent = .primary) (o : COp)
include ha

theorem State.fenced_primary : s.fenced = s.setBank { s.core.bank with fence := s.core.bank.seq } := by
  rw [State.fenced, ha]

theorem State.fenceRelease_agent : (s.fenceRelease o).agent = .primary := by
  have hrel : (s.release o.scope.toNat).agent = .primary := by
    obtain hr | ⟨-, -, hr⟩ := s.release_cases o.scope.toNat <;> rw [hr] <;> exact ha
  unfold State.fenceRelease
  split
  · rw [State.fenced_primary hrel]
    exact hrel
  · exact ha

theorem State.fenceRelease_now (hg : s.core.bank.status.guard = false) :
    (s.fenceRelease o).mem = s.mem ∧ (s.fenceRelease o).hub = s.hub ∧ (s.fenceRelease o).cur = s.cur ∧
      (s.fenceRelease o).core = { s.core with bank := { s.core.bank with
        fence := if o.fmt = 1 ∨ o.fmt = 3 then s.core.bank.seq else s.core.bank.fence } } ∧
      (s.fenceRelease o).ord = s.ord ++
        (if o.fmt = 1 ∨ o.fmt = 3 then [.release s.cur none o.scope.toNat] else []) := by
  unfold State.fenceRelease
  by_cases h : o.fmt = 1 ∨ o.fmt = 3
  · have hrel : s.release o.scope.toNat = s.releaseNow o.scope.toNat :=
      if_neg (by rw [hg, Bool.false_and]; exact Bool.false_ne_true)
    have hthread : s.agentThread = none := by rw [State.agentThread, ha]
    rw [if_pos h, if_pos h, if_pos h, hrel, State.fenced_primary (s := s.releaseNow o.scope.toNat) ha, State.setBank_core,
      ← hthread]
    exact ⟨rfl, rfl, rfl, rfl, rfl⟩
  · rw [if_neg h, if_neg h, if_neg h, List.append_nil]
    exact ⟨rfl, rfl, rfl, rfl, rfl⟩

theorem State.fenceRelease_held (hg : s.core.bank.status.guard = true) (hsc : 1 ≤ o.scope.toNat) :
    (s.fenceRelease o).mem = s.mem ∧ (s.fenceRelease o).hub = s.hub ∧ (s.fenceRelease o).cur = s.cur ∧
      (s.fenceRelease o).core.bank.sameRegs s.core.bank ∧ (s.fenceRelease o).core.store = s.core.store ∧
      (s.fenceRelease o).core.bank.heldWrites = s.core.bank.heldWrites ++
        (if o.fmt = 1 ∨ o.fmt = 3 then [.release o.scope.toNat] else []) ∧
      (s.fenceRelease o).ord = s.ord := by
  unfold State.fenceRelease
  by_cases h : o.fmt = 1 ∨ o.fmt = 3
  · let u := s.setBank { s.core.bank with heldWrites := s.core.bank.heldWrites ++ [.release o.scope.toNat] }
    have hrel : s.release o.scope.toNat = u := if_pos (by rw [hg, Bool.true_and]; exact decide_eq_true hsc)
    rw [if_pos h, if_pos h, hrel, State.fenced_primary (s := u) ha, State.setBank_core]
    exact ⟨rfl, rfl, rfl, Bank.sameRegs.refl _, rfl, rfl, rfl⟩
  · rw [if_neg h, if_neg h, List.append_nil]
    exact ⟨rfl, rfl, rfl, Bank.sameRegs.refl _, rfl, rfl, rfl⟩

end

section
variable {o : COp} {s : State} (h : s.primaryRuns o.g)
include h

theorem exec_fence_primary : exec (.fence o) s = .next ((s.fenceRelease o).fenceAcquire o) := by
  have hskip (u : State) (hu : u.agent = .primary) : u.skip = u := by rw [State.skip, hu]
  change execFence o s = _
  rw [execFence, State.guarded_runs h.runs]
  refine congrArg Host.Outcome.next (hskip _ ?_)
  exact (State.fenceAcquire_frame _ o).1.trans (State.fenceRelease_agent h.1 o)

/-- R371: a PREF moves lines between the caches alone. -/
theorem exec_pref_passes (hc : s.checkGlobal (s.ea o) 1 1 = none) :
    ∃ t, exec (.pref o) s = .next t ∧ s.ChangesCaches t := by
  change ∃ t, execPref o s = _ ∧ _
  rw [execPref, State.guarded_runs h.runs]
  dsimp only
  rw [State.dregsOk_primary h.1, hc, h.1]
  refine ⟨_, rfl, ?_⟩
  have hskip {u : State} (hu : s.ChangesCaches u) : s.ChangesCaches u.skip := by
    have hagent : u.agent = .primary := by
      obtain ⟨w, d, x, y, z, rfl⟩ := hu
      exact h.1
    rw [State.skip, hagent]
    exact hu
  refine hskip ?_
  split
  · dsimp only
    split
    · exact .refl s
    · exact s.changesCaches_touchL2 _ _ _ _
  · exact .refl s

end

/-! ### BARR -/

/-- R135, R140: a BARR that passes its checks. -/
def State.barrStart (s : State) (o : COp) (held : Bool) : State :=
  let u := (s.release o.scope.toNat).startOp o.cb.toNat o.hint.toNat
    (.barr (s.ea o) (s.rs o.sb) (dataReg o).toNat o.scope.toNat none held)
    (some (.reg (dataReg o).toNat)) (some o.scope.toNat) (if held then fun _ => [] else doneTurn)
  if held then u.setBank ((u.core.bank.holding (s.heldAdd (s.ea o) o.hint.toNat)).pendWait o.cb.toNat) else u

theorem exec_barr_passes {o : COp} {s : State} (h : s.primaryRuns o.g) (hd : s.destOk (dataReg o) = true)
    (hr : s.core.bank.barrierRoom o.cb.toNat = true)
    (hlocal : s.ea o < windowBytes → s.checkLocal (s.ea o) 8 8 = none ∧ s.unitHeld (s.ea o) 8 = false)
    (hglobal : windowBytes ≤ s.ea o → s.checkGlobal (s.ea o) 8 8 = none)
    (hlines : (s.core.bank.status.guard && decide (windowBytes ≤ s.ea o)) = true →
      (s.core.bank.holding (s.heldAdd (s.ea o) o.hint.toNat)).heldLines.length ≤ 256) :
    exec (.barr o) s = .next (s.barrStart o (s.core.bank.status.guard && decide (windowBytes ≤ s.ea o))) := by
  have hwin : (!(inWindow (s.ea o))) = decide (windowBytes ≤ s.ea o) := by
    rw [inWindow, ← decide_not]
    exact decide_eq_decide.mpr Nat.not_lt
  have hcheck : (if inWindow (s.ea o) then (s.checkLocal (s.ea o) 8 8).or (if s.unitHeld (s.ea o) 8 then some 0x0A else none)
      else s.checkGlobal (s.ea o) 8 8) = none := by
    by_cases hw : s.ea o < windowBytes
    · rw [if_pos (show inWindow (s.ea o) = true from decide_eq_true hw), (hlocal hw).1, (hlocal hw).2]
      rfl
    · rw [if_neg (by rw [inWindow, decide_eq_true_eq]; exact hw), hglobal (Nat.not_lt.mp hw)]
  change execBarr o s = _
  rw [execBarr, State.primaryOnly_runs h]
  dsimp only
  rw [if_neg (by rw [hd]; exact Bool.false_ne_true), hcheck, hwin]
  refine (if_neg ?_).trans ((if_neg (by rw [hr]; exact Bool.false_ne_true)).trans rfl)
  rw [Bool.and_eq_true, decide_eq_true_eq, not_and, Nat.not_lt]
  exact hlines

/-- A release keeps the barriers, the registers and the memories, and in guarded mode waits in the hold buffer. -/
theorem State.release_frame (s : State) (sc : Nat) :
    (s.release sc).agent = s.agent ∧ (s.release sc).ops = s.ops ∧ (s.release sc).nextOp = s.nextOp ∧
      (s.release sc).mem = s.mem ∧ (s.release sc).core.store = s.core.store ∧
      (s.release sc).core.bank = { s.core.bank with heldWrites := s.core.bank.heldWrites ++
        (if s.core.bank.status.guard && decide (1 ≤ sc) then [.release sc] else []) } := by
  by_cases h : (s.core.bank.status.guard && decide (1 ≤ sc)) = true
  · have hr : s.release sc = s.setBank { s.core.bank with heldWrites := s.core.bank.heldWrites ++ [.release sc] } :=
      if_pos h
    rw [hr, if_pos h]
    exact ⟨rfl, rfl, rfl, rfl, rfl, rfl⟩
  · have hr : s.release sc = s.releaseNow sc := if_neg h
    rw [hr, if_neg h, List.append_nil]
    exact ⟨rfl, rfl, rfl, rfl, rfl, rfl⟩

theorem Bank.startOn_heldWrites (b : Bank) (n op : Nat) (dest : Option BarDest) (acq : Option Nat) :
    (b.startOn n op dest acq).heldWrites = b.heldWrites := by
  unfold Bank.startOn
  rw [Bank.setCb_frame]

theorem Bank.pendWait_frame (b : Bank) {n : Nat} (hn : n < 8) :
    (b.pendWait n).heldWrites = b.heldWrites ∧ (b.pendWait n).sameRegs b ∧
      (b.pendWait n).cb n = { b.cb n with count := (b.cb n).count - 1, waits := (b.cb n).waits + 1 } := by
  refine ⟨?_, Bank.setCb_sameRegs _ _ _, Bank.setCb_self _ hn _⟩
  rw [Bank.pendWait, Bank.setCb_frame]

section
variable {o : COp} {s : State} (ha : s.agent = .primary)
include ha

/-- The bank of a BARR's start before its add is held. -/
theorem State.barrStart_bank (held : Bool) :
    (s.barrStart o held).core.store = s.core.store ∧ (s.barrStart o held).mem = s.mem ∧
      (∃ x, (s.barrStart o held).ops = s.ops ++ [x] ∧
        x.kind = .barr (s.ea o) (s.rs o.sb) (dataReg o).toNat o.scope.toNat none held) ∧
      (s.barrStart o held).core.bank =
        (let b := (s.release o.scope.toNat).core.bank.startOn o.cb.toNat s.nextOp (some (.reg (dataReg o).toNat))
          (some o.scope.toNat)
        if held then (b.holding (s.heldAdd (s.ea o) o.hint.toNat)).pendWait o.cb.toNat else b) := by
  obtain ⟨hagent, hops, hnext, hmem, hstore, hbank⟩ := s.release_frame o.scope.toNat
  have hrel := hagent.trans ha
  let kind : OpKind := .barr (s.ea o) (s.rs o.sb) (dataReg o).toNat o.scope.toNat none held
  let turns : Nat → List Turn := if held then fun _ => [] else doneTurn
  let u := (s.release o.scope.toNat).startOp o.cb.toNat o.hint.toNat kind (some (.reg (dataReg o).toNat))
    (some o.scope.toNat) turns
  have hucore : u.core = _ := State.startOp_core hrel _ _ _ _ _ _
  have huops : u.ops = _ := State.startOp_ops hrel _ _ _ _ _ _
  have humem : u.mem = _ := State.startOp_mem hrel _ _ _ _ _ _
  have ht : s.barrStart o held =
      if held then u.setBank ((u.core.bank.holding (s.heldAdd (s.ea o) o.hint.toNat)).pendWait o.cb.toNat) else u := rfl
  have hubank : u.core.bank = (s.release o.scope.toNat).core.bank.startOn o.cb.toNat s.nextOp
      (some (.reg (dataReg o).toNat)) (some o.scope.toNat) := by rw [hucore, hnext]
  rw [ht]
  cases held with
  | true =>
    simp only [if_true, State.setBank_core, State.setBank_ops, State.setBank_mem]
    refine ⟨by rw [hucore]; exact hstore, humem.trans hmem, ⟨_, by rw [huops, hops], rfl⟩, by rw [hubank]⟩
  | false =>
    simp only [Bool.false_eq_true, if_false]
    refine ⟨by rw [hucore]; exact hstore, humem.trans hmem, ⟨_, by rw [huops, hops], rfl⟩, hubank⟩

end

/-- Settles O44: the CPYW by its barrier, the FENCE by its order field, and the BARR's start. -/
theorem waitsFencesBarriers : Obligations.WaitsFencesBarriers := by
  refine ⟨fun o s h hrun => ?_, fun o s h => ?_, fun o s h hd hr => ?_⟩
  · intro b c
    refine ⟨fun hrec hw hc hl => ?_, fun op d v l hrec hw hc hl hd => ?_, fun op d v l op' d' v' l' hrec hw hc hl hd hd' => ?_,
      fun hrec hw hc => ⟨_, exec_cpyw_waits h hrun hrec hw hc, rfl, Bank.sameRegs.refl _⟩, fun r hrec hkind => ?_,
      fun r hrec hkind hh => ?_⟩
    · obtain ⟨t, ht, hrun', -, hs, hacq, -⟩ := exec_cpyw_complete h hrun hrec hw hc
      have hlanded : s.landed o.cb.toNat = s := by
        rw [State.landed, hl]
        rfl
      exact ⟨t, ht, hrun', by rw [hs, hlanded], hacq⟩
    · obtain ⟨t, ht, hrun', hregs, -, -, hland⟩ := exec_cpyw_complete h hrun hrec hw hc
      have hlanded : s.landed o.cb.toNat =
          s.landResult o.cb.toNat { op := op, dest := .reg d, val := some v, land := l } := by
        rw [State.landed, hl]
        rfl
      have hreg (m : Nat) (hm : m < 64) : t.core.bank.sregN m = if m = 0 then 0 else if m = d then v else b.sregN m := by
        rw [hregs, hlanded, State.landResult_sregN _ _ _ _ _ hd hm]
      refine ⟨t, ht, hrun', ?_, fun m hm hne => ?_, hland⟩
      · rw [hreg d hd, if_pos rfl]
      · rw [hreg m hm, if_neg hne]
        split
        · next h0 => rw [h0, Bank.sregN_zero]
        · rfl
    · obtain ⟨t, ht, hrun', hregs, -, -, hland⟩ := exec_cpyw_complete h hrun hrec hw hc
      have hlanded : s.landed o.cb.toNat =
          (s.landResult o.cb.toNat { op := op, dest := .reg d, val := some v, land := l }).landResult o.cb.toNat
            { op := op', dest := .reg d', val := some v', land := l' } := by
        rw [State.landed, hl]
        rfl
      have hreg (m : Nat) (hm : m < 64) : t.core.bank.sregN m =
          if m = 0 then 0 else if m = d' then v' else if m = d then v else b.sregN m := by
        rw [hregs, hlanded, State.landResult_sregN _ _ _ _ _ hd' hm, State.landResult_sregN _ _ _ _ _ hd hm]
        split
        · rfl
        · rfl
      refine ⟨t, ht, hrun', ?_, fun hne => ?_, fun m hm hne hne' => ?_, hland⟩
      · rw [hreg d' hd', if_pos rfl]
      · rw [hreg d hd, if_neg hne, if_pos rfl]
      · rw [hreg m hm, if_neg hne', if_neg hne]
        split
        · next h0 => rw [h0, Bank.sregN_zero]
        · rfl
    · have hexec := exec_cpyw_record h hrun hrec
      rcases hkind with hkind | hkind
      · rw [State.raiseRecord, hkind] at hexec
        obtain ⟨hr, hcode, hbar, hpc⟩ := takeFault_record (s := s) (w := s.core.bank.waiting [o.cb.toNat]) (code := 0x0D)
          (va := r.va) (line := r.line) (by decide) o.cb.isLt
        exact ⟨_, hexec, hr, by rw [hcode, hkind]; rfl, hbar, hpc⟩
      · rw [State.raiseRecord, hkind] at hexec
        obtain ⟨hr, hcode, hbar, hpc⟩ := takeFault_record (s := s) (w := s.core.bank.waiting [o.cb.toNat]) (code := 0x20)
          (va := r.va) (line := r.line) (by decide) o.cb.isLt
        exact ⟨_, hexec, hr, by rw [hcode, hkind]; rfl, hbar, hpc⟩
    · have hexec := exec_cpyw_record h hrun hrec
      rw [State.raiseRecord, hkind] at hexec
      exact ⟨_, hexec, takeEvent_record o.cb.isLt hh⟩
  · have hexec := exec_fence_primary h
    obtain ⟨-, hcore, hmem, hhub, hord⟩ := (s.fenceRelease o).fenceAcquire_frame o
    have hthread : (s.fenceRelease o).agentThread = none := by
      rw [State.agentThread, State.fenceRelease_agent h.1]
    refine ⟨fun hg => ⟨_, hexec, ?_⟩, fun hg hsc => ⟨_, hexec, ?_⟩, fun hc => ?_⟩
    · obtain ⟨hmem', hhub', hcur, hcore', hord'⟩ := State.fenceRelease_now h.1 o hg
      exact ⟨hmem.trans hmem', hhub.trans hhub', hcore.trans hcore', by rw [hord, hord', hthread, hcur]⟩
    · obtain ⟨hmem', hhub', hcur, hregs, hstore, hheld, hord'⟩ := State.fenceRelease_held h.1 o hg hsc
      rw [hcore]
      exact ⟨hmem.trans hmem', hhub.trans hhub', hregs, hstore, hheld, by rw [hord, hord', hthread, hcur]⟩
    · obtain ⟨t, ht, w, d, x, y, z, rfl⟩ := exec_pref_passes h hc
      exact ⟨_, ht, rfl, rfl, rfl, rfl, rfl⟩
  · intro b a d g w hlocal hglobal hlines
    have hcb : o.cb.toNat < 8 := o.cb.isLt
    have hexec := exec_barr_passes h hd hr hlocal hglobal hlines
    obtain ⟨hstore, hmem, ⟨x, hops, hkind⟩, hbank⟩ := State.barrStart_bank (o := o) (s := s) h.1 g
    obtain ⟨-, -, -, -, -, hrel⟩ := s.release_frame o.scope.toNat
    let r := (s.release o.scope.toNat).core.bank
    let c := r.startOn o.cb.toNat s.nextOp (some (.reg (dataReg o).toNat)) (some o.scope.toNat)
    have hrcb : r.cb o.cb.toNat = b.cb o.cb.toNat := by
      simp only [r, hrel]
      rfl
    have hrregs : r.sameRegs b := by
      simp only [r, hrel]
      exact Bank.sameRegs.refl _
    have hrheld : r.heldWrites = b.heldWrites ++
        (if b.status.guard && decide (1 ≤ o.scope.toNat) then [.release o.scope.toNat] else []) := by
      simp only [r, hrel, b]
    have hccb : c.cb o.cb.toNat = { b.cb o.cb.toNat with
        count := (b.cb o.cb.toNat).count + 1,
        results := (b.cb o.cb.toNat).results ++ [{ op := s.nextOp, dest := .reg d, val := none }],
        acq := (b.cb o.cb.toNat).acq ++ [o.scope.toNat] } := by
      rw [← hrcb]
      exact Bank.setCb_self _ hcb _
    have hcheld : c.heldWrites = r.heldWrites := Bank.startOn_heldWrites _ _ _ _ _
    have hcregs : c.sameRegs b := (Bank.startOn_sameRegs _ _ _ _ _).trans hrregs
    refine ⟨s.barrStart o g, x, hexec, hops, hkind, ?_⟩
    cases hg : g with
    | false =>
      rw [hg] at hbank hstore hmem
      have hbank : (s.barrStart o false).core.bank = c := hbank
      rw [hbank, hccb]
      refine ⟨rfl, rfl, fun _ => rfl, fun h => absurd h Bool.false_ne_true, ?_, hcregs, hstore, hmem⟩
      rw [hcheld, hrheld]
      exact (List.append_nil _).symm
    | true =>
      rw [hg] at hbank hstore hmem
      have hbank : (s.barrStart o true).core.bank = (c.holding w).pendWait o.cb.toNat := hbank
      obtain ⟨hheld, hregs, hwait⟩ := (c.holding w).pendWait_frame hcb
      have hcb' : (c.holding w).cb o.cb.toNat = c.cb o.cb.toNat := rfl
      rw [hbank, hwait, hcb', hccb]
      refine ⟨rfl, rfl, fun h => absurd h.symm Bool.false_ne_true, fun _ => ⟨Nat.add_sub_cancel .., rfl⟩, ?_,
        hregs.trans hcregs, hstore, hmem⟩
      rw [hheld]
      change c.heldWrites ++ [w] = _
      rw [hcheld, hrheld]
      rfl

end Sys2Proof.Machine
end

section
/-! PROOFS. Link operations and the operations of captured blocks: their rules and their start. -/

namespace Sys2Proof.Machine

/-! ### Link operations (R249, R250) -/

/-- The operation of a link instruction that passes its checks. -/
def State.linkStart (s : State) (o : COp) (send : Bool) (kind : OpKind) : State :=
  ((if send then s.releaseHere 4 else s).startOp o.cb.toNat 0 kind none none fun _ =>
    [.event (.linkPair (linkPort o) (linkCh o))]).mapPort (linkPort o) fun p =>
      if send then { p with sends := p.sends ++ [(linkCh o, s.nextOp)] }
      else { p with recvs := p.recvs ++ [(linkCh o, s.nextOp)] }

section
variable {s : State} (ha : s.agent = .primary)
include ha

/-- A release by the primary keeps the operations, the ports, the registers and the memories. -/
theorem releaseHere_frame (sc : Nat) :
    (s.releaseHere sc).agent = .primary ∧ (s.releaseHere sc).ops = s.ops ∧ (s.releaseHere sc).nextOp = s.nextOp ∧
      (s.releaseHere sc).mem = s.mem ∧ (s.releaseHere sc).core.store = s.core.store ∧
      (s.releaseHere sc).ports = s.ports ∧ ∃ ws ps qs,
        (s.releaseHere sc).core.bank = { s.core.bank with heldWrites := ws, pend := ps, parked := qs } := by
  rw [State.releaseHere_primary ha]
  obtain ⟨hagent, hops, hnext, hmem, hstore, hbank⟩ := s.release_frame sc
  refine ⟨hagent.trans ha, hops, hnext, hmem, hstore, ?_, s.core.bank.heldWrites ++ _, _, _, congrArg (fun b : Bank =>
    { b with pend := ((s.release sc).core.publish (s.release sc).core.bank.seq).bank.pend,
             parked := ((s.release sc).core.publish (s.release sc).core.bank.seq).bank.parked }) hbank⟩
  obtain h | ⟨-, -, h⟩ := s.release_cases sc <;> rw [h] <;> rfl

/-- A started operation keeps the ports. -/
theorem startOp_ports (n hint : Nat) (kind : OpKind) (dest : Option BarDest) (acq : Option Nat)
    (turns : Nat → List Turn) : (s.startOp n hint kind dest acq turns).ports = s.ports := by
  rw [State.startOp_primary ha]
  rfl

theorem linkStart_started (o : COp) (send : Bool) (kind : OpKind) :
    ∃ x, (s.linkStart o send kind).ops = s.ops ++ [x] ∧ x.kind = kind ∧
      (s.linkStart o send kind).port (linkPort o) =
        (if send then { s.port (linkPort o) with sends := (s.port (linkPort o)).sends ++ [(linkCh o, s.nextOp)] }
          else { s.port (linkPort o) with recvs := (s.port (linkPort o)).recvs ++ [(linkCh o, s.nextOp)] }) ∧
      (s.linkStart o send kind).core.store = s.core.store := by
  have hstart (u : State) (hu : u.agent = .primary) (hops : u.ops = s.ops) (hports : u.ports = s.ports)
      (hstore : u.core.store = s.core.store) (turns : Nat → List Turn) (f : Port → Port) :
      ∃ x, ((u.startOp o.cb.toNat 0 kind none none turns).mapPort (linkPort o) f).ops = s.ops ++ [x] ∧ x.kind = kind ∧
        ((u.startOp o.cb.toNat 0 kind none none turns).mapPort (linkPort o) f).port (linkPort o) =
          f (s.port (linkPort o)) ∧
        ((u.startOp o.cb.toNat 0 kind none none turns).mapPort (linkPort o) f).core.store = s.core.store := by
    refine ⟨u.newOp o.cb.toNat 0 kind, ?_, rfl, ?_, ?_⟩
    · rw [← hops]
      exact State.startOp_ops hu o.cb.toNat 0 kind none none turns
    · rw [State.mapPort_port, if_pos rfl]
      exact congrArg (fun ps => f ((sget ps (linkPort o)).getD Port.clear)) ((startOp_ports hu _ _ _ _ _ _).trans hports)
    · rw [← hstore]
      have hcore := State.startOp_core hu o.cb.toNat 0 kind none none turns
      change (u.startOp o.cb.toNat 0 kind none none turns).core.store = _
      rw [hcore]
  obtain ⟨hagent, hops, -, -, hstore, hports, -⟩ := releaseHere_frame ha 4
  cases send with
  | true => exact hstart (s.releaseHere 4) hagent hops hports hstore (fun _ => [.event (.linkPair (linkPort o) (linkCh o))]) _
  | false => exact hstart s ha rfl rfl rfl (fun _ => [.event (.linkPair (linkPort o) (linkCh o))]) _

section
variable {o : COp} {send : Bool} {span : Nat → Nat} {kind : Nat → Nat → OpKind}

omit ha in
theorem linkOp_table (h : s.ea o % 128 ≠ 0 ∨ (s.rs o.sb).toNat % 128 ≠ 0 ∨ (s.rs o.sb).toNat < 128 ∨
    2 ^ 22 < (s.rs o.sb).toNat) : s.linkOp o send span kind = s.raise 0x01 := by
  refine if_pos ?_
  simp only [Bool.or_eq_true, decide_eq_true_eq]
  tauto

variable (hal : s.ea o % 128 = 0) (hlen : (s.rs o.sb).toNat % 128 = 0) (hmin : 128 ≤ (s.rs o.sb).toNat)
  (hmax : (s.rs o.sb).toNat ≤ 2 ^ 22) (hloc : s.checkLocal (s.ea o) (span (s.rs o.sb).toNat) 128 = none)
include hal hlen hmin hmax hloc

/-- R249: the table's ranges hold. -/
theorem linkOp_ranges {r : Out}
    (hr : (let p := s.port (linkPort o)
      if p.owner (linkCh o) ≠ s.part then s.raiseWith 0x0D 0 (s.ea o) 0
      else if 4 ≤ (onChannel (if send then p.sends else p.recvs) (linkCh o)).length then s.raise 0x04
      else if !(s.core.bank.barrierRoom o.cb.toNat) then s.raise 0x04
      else
        let u := if send then s.releaseHere 4 else s
        let t := u.startOp o.cb.toNat 0 (kind (s.ea o) (s.rs o.sb).toNat) none none fun _ =>
          [.event (.linkPair (linkPort o) (linkCh o))]
        if p.down then
          .next (match t.op? s.nextOp with
            | some x => t.stopOp x .protection (s.ea o) (s.ea o)
            | none => t)
        else .next (s.linkStart o send (kind (s.ea o) (s.rs o.sb).toNat))) = r) :
    s.linkOp o send span kind = r := by
  have hdrift : s.isDrift = false := by rw [State.isDrift, ha]
  rw [State.linkOp]
  dsimp only
  rw [if_neg, hloc, ← hr, hdrift]
  · rfl
  · rw [State.dregsOk_primary ha, hdrift]
    simp [hal, hlen]
    omega

theorem linkOp_foreign (hown : (s.port (linkPort o)).owner (linkCh o) ≠ s.part) :
    s.linkOp o send span kind = s.raiseWith 0x0D 0 (s.ea o) 0 :=
  linkOp_ranges ha hal hlen hmin hmax hloc (if_pos hown)

theorem linkOp_passes (hown : (s.port (linkPort o)).owner (linkCh o) = s.part)
    (hdown : (s.port (linkPort o)).down = false) (hroom : s.core.bank.barrierRoom o.cb.toNat = true)
    (hch : (onChannel (if send then (s.port (linkPort o)).sends else (s.port (linkPort o)).recvs) (linkCh o)).length < 4) :
    s.linkOp o send span kind = .next (s.linkStart o send (kind (s.ea o) (s.rs o.sb).toNat)) :=
  linkOp_ranges ha hal hlen hmin hmax hloc ((if_neg (not_not.mpr hown)).trans ((if_neg (Nat.not_le.mpr hch)).trans
    ((if_neg (by rw [hroom]; exact Bool.false_ne_true)).trans (if_neg (Bool.eq_false_iff.mp hdown)))))

end

end

/-! ### The rules of the blocks (R192, R198, R255, R259) -/

theorem bdredOk_iff (bs : List Byte) : bdredOk bs = true ↔
    (field bs 0 8 % 128 = 0 ∧ 2 ^ 32 ≤ field bs 0 8 ∧ field bs 8 4 % 128 = 0 ∧ 128 ≤ field bs 8 4 ∧
      field bs 8 4 ≤ 2 ^ 26 ∧ 2 ≤ field bs 12 1 ∧ field bs 12 1 ≤ 16 ∧ (field bs 13 1 = 1 ∨ field bs 13 1 = 2) ∧
      field bs 14 1 ≤ 1 ∧ field bs 15 1 % 128 = 0 ∧ field bs 16 8 % 8 = 0 ∧ 2 ^ 32 ≤ field bs 16 8 ∧
      (∀ q < field bs 12 1, field bs (32 + 8 * q) 8 % 128 = 0 ∧ 2 ^ 32 ≤ field bs (32 + 8 * q) 8 ∧
        (field bs (32 + 8 * q) 8 = field bs 0 8 ∨ field bs (32 + 8 * q) 8 + field bs 8 4 ≤ field bs 0 8 ∨
          field bs 0 8 + field bs 8 4 ≤ field bs (32 + 8 * q) 8)) ∧
      (∀ q < 16, field bs 12 1 ≤ q → field bs (32 + 8 * q) 8 = 0) ∧ field bs 160 96 = 0) := by
  have hapart (a b len : Nat) : (!(overlap a b len)) = true ↔ a + len ≤ b ∨ b + len ≤ a := by
    rw [overlap, Bool.not_eq_true', Bool.and_eq_false_iff, decide_eq_false_iff_not, decide_eq_false_iff_not, Nat.not_lt,
      Nat.not_lt, or_comm]
  have hlate (q n : Nat) : q < n ∨ field bs (32 + 8 * q) 8 = 0 ↔ n ≤ q → field bs (32 + 8 * q) 8 = 0 := by
    rw [or_iff_not_imp_left, Nat.not_lt]
  simp only [bdredOk, bdredSrcs, zeroBytes, isFlat, Bool.and_eq_true, Bool.or_eq_true, beq_iff_eq, decide_eq_true_eq,
    and_assoc, List.all_eq_true, List.mem_map, List.mem_range, hapart, hlate, forall_exists_index, and_imp,
    forall_apply_eq_imp_iff₂]

theorem bdtopkOk_iff (bs : List Byte) : bdtopkOk bs = true ↔
    (2 ^ 32 ≤ field bs 0 8 ∧ field bs 0 8 % 64 = 0 ∧ 2 ^ 32 ≤ field bs 8 8 ∧ field bs 8 8 % 8 = 0 ∧ 1 ≤ field bs 16 4 ∧
      field bs 16 4 ≤ 65536 ∧ 1 ≤ field bs 20 4 ∧ field bs 20 4 ≤ 65536 ∧ field bs 24 4 % 64 = 0 ∧
      field bs 20 4 * (if field bs 29 1 = 1 then 4 else 2) ≤ field bs 24 4 ∧ 1 ≤ field bs 28 1 ∧ field bs 28 1 ≤ 16 ∧
      field bs 28 1 ≤ field bs 20 4 ∧ (field bs 29 1 = 1 ∨ field bs 29 1 = 2) ∧ field bs 30 2 = 0 ∧
      field bs 32 4 + field bs 20 4 - 1 < 2 ^ 31 ∧ field bs 36 28 = 0) := by
  simp only [bdtopkOk, zeroBytes, isFlat, Bool.and_eq_true, Bool.or_eq_true, beq_iff_eq, decide_eq_true_eq, and_assoc]

theorem xrouteOk_iff (bs : List Byte) : xrouteOk bs = true ↔
    (field bs 8 4 ≤ 4096 ∧ field bs 12 4 % 128 = 0 ∧ 128 ≤ field bs 12 4 ∧ field bs 12 4 ≤ 16384 ∧ field bs 20 44 = 0) := by
  simp only [xrouteOk, zeroBytes, Bool.and_eq_true, beq_iff_eq, decide_eq_true_eq, and_assoc]

/-- R259: a reference of a packet. -/
theorem packetRef_iff (i n ref : Nat) :
    (if i < n then bitsAt ref 2 4 == 0 && isFlat ref && canonical ref else ref == 0) = true ↔
      ((i < n → ref / 4 % 16 = 0 ∧ 2 ^ 32 ≤ ref ∧ (ref < 2 ^ 56 ∨ 2 ^ 64 - 2 ^ 56 ≤ ref)) ∧ (n ≤ i → ref = 0)) := by
  by_cases h : i < n
  · have hflat : isFlat ref = true ↔ 2 ^ 32 ≤ ref := decide_eq_true_iff
    have hcanonical : canonical ref = true ↔ (ref < 2 ^ 56 ∨ 2 ^ 64 - 2 ^ 56 ≤ ref) := by
      simp only [canonical, Bool.or_eq_true, decide_eq_true_eq]
    have hbits : bitsAt ref 2 4 = ref / 4 % 16 := rfl
    simp only [h, if_true, hbits, hflat, hcanonical, Bool.and_eq_true, beq_iff_eq, and_assoc, true_imp_iff,
      Nat.not_le.mpr h, false_imp_iff, and_true]
  · simp only [h, if_false, beq_iff_eq, Nat.not_lt.mp h, true_imp_iff, false_imp_iff, true_and]

theorem packetOk_iff (bs : List Byte) : packetOk bs = true ↔
    (field bs 0 1 < 0xF0 ∧ field bs 1 1 ≤ 1 ∧ field bs 2 1 ≤ 15 ∧ field bs 3 1 ≤ 7 ∧
      (field bs 4 1 = 3 ∨ field bs 4 1 = 4) ∧ field bs 5 1 ≤ 4 ∧ field bs 6 2 = 0 ∧ field bs 8 8 % 8 = 0 ∧
      2 ^ 32 ≤ field bs 8 8 ∧ (field bs 8 8 < 2 ^ 56 ∨ 2 ^ 64 - 2 ^ 56 ≤ field bs 8 8) ∧ field bs 16 8 < 2 ^ 63 ∧
      ∀ i < 4, (i < field bs 5 1 → field bs (24 + 8 * i) 8 / 4 % 16 = 0 ∧ 2 ^ 32 ≤ field bs (24 + 8 * i) 8 ∧
          (field bs (24 + 8 * i) 8 < 2 ^ 56 ∨ 2 ^ 64 - 2 ^ 56 ≤ field bs (24 + 8 * i) 8)) ∧
        (field bs 5 1 ≤ i → field bs (24 + 8 * i) 8 = 0)) := by
  have hflat (a : Nat) : isFlat a = true ↔ 2 ^ 32 ≤ a := decide_eq_true_iff
  have hcanonical (a : Nat) : canonical a = true ↔ (a < 2 ^ 56 ∨ 2 ^ 64 - 2 ^ 56 ≤ a) := by
    simp only [canonical, Bool.or_eq_true, decide_eq_true_eq]
  simp only [packetOk, zeroBytes, Bool.and_eq_true, Bool.or_eq_true, beq_iff_eq, decide_eq_true_eq, and_assoc, hflat,
    hcanonical, List.all_eq_true, List.mem_range]
  simp only [packetRef_iff]

/-! ### The start of a block's operation -/

theorem claimNow_checkRanges (s : State) (a n : Nat) (rs : List (Nat × Nat)) :
    (s.claimNow a n).checkRanges rs = s.checkRanges rs := by
  induction rs with
  | nil => rfl
  | cons r rs ih =>
    have hc : (s.claimNow a n).checkGlobal r.1 r.2 1 = s.checkGlobal r.1 r.2 1 := rfl
    rw [State.checkRanges, State.checkRanges, hc, ih]

section
variable {o : COp} {s : State} {bs : List Byte}

/-- R114, R136: an operation of a block starts after its release. -/
theorem block_starts (ha : s.agent = .primary) (hg : s.core.bank.status.guard = false) (a n sc : Nat) (kind : OpKind)
    (dest : Option BarDest) (turns : Nat → List Turn) :
    ∃ x, (((s.claimNow a n).releaseHere sc).startOp o.cb.toNat o.hint.toNat kind dest none turns).ops = s.ops ++ [x] ∧
      x.kind = kind ∧ x.cb = o.cb.toNat ∧
      (((s.claimNow a n).releaseHere sc).startOp o.cb.toNat o.hint.toNat kind dest none turns).ord.length =
        s.ord.length + 1 ∧
      ((((s.claimNow a n).releaseHere sc).startOp o.cb.toNat o.hint.toNat kind dest none turns).core.bank.cb
          o.cb.toNat).results = (s.core.bank.cb o.cb.toNat).results ++
        ((dest.map fun e => { op := s.nextOp, dest := e, val := none }).toList) ∧
      (((s.claimNow a n).releaseHere sc).startOp o.cb.toNat o.hint.toNat kind dest none turns).core.bank.sameRegs
        s.core.bank ∧
      (((s.claimNow a n).releaseHere sc).startOp o.cb.toNat o.hint.toNat kind dest none turns).core.store =
        s.core.store ∧
      (((s.claimNow a n).releaseHere sc).startOp o.cb.toNat o.hint.toNat kind dest none turns).mem = s.mem := by
  let u := s.claimNow a n
  have hu : u.agent = .primary := ha
  have hrel : u.releaseHere sc = (u.releaseNow sc).setCore (u.core.publish u.core.bank.seq) :=
    State.releaseHere_unguarded hu hg sc
  obtain ⟨hr, hrops, hrnext, hrmem, hrstore, -, ws, ps, qs, hrbank⟩ := releaseHere_frame hu sc
  have hbank : u.core.bank = s.core.bank.claim s.core.bank.tick (linesOf a n) := by
    change (s.setBank (s.core.bank.claim s.core.bank.tick (linesOf a n))).core.bank = _
    rw [State.setBank_core]
  have hcore := State.startOp_core hr o.cb.toNat o.hint.toNat kind dest none turns
  have hops := State.startOp_ops hr o.cb.toNat o.hint.toNat kind dest none turns
  have hmem := State.startOp_mem hr o.cb.toNat o.hint.toNat kind dest none turns
  rw [hrops] at hops
  rw [hrbank, hrnext, hbank] at hcore
  refine ⟨_, hops, rfl, rfl, ?_, ?_, ?_, ?_, hmem.trans hrmem⟩
  · rw [State.startOp_primary hr, State.later_ord, State.setBank_ord, hrel]
    exact List.length_append
  · rw [hcore]
    refine (congrArg Barrier.results (Bank.setCb_self _ o.cb.isLt _)).trans ?_
    cases dest <;> rfl
  · rw [hcore]
    exact (Bank.startOn_sameRegs _ _ _ _ _).trans (s.core.bank.sameRegs_claim s.core.bank.tick (linesOf a n))
  · rw [hcore]
    exact hrstore

section
variable (h : s.primaryRuns o.g)
include h

theorem exec_gpost_block (hd : s.destOk (dataReg o) = true) :
    exec (.gpost o) s = s.blockOp o 64 64 packetOk (fun _ => []) fun bs s =>
      if s.part ≠ s.hub.regs.guestPart then s.raise 0x0D
      else if s.core.bank.barrierRoom o.cb.toNat then
        (s.releaseHere (field bs 4 1)).startChecked o (.gpost bs (dataReg o).toNat) (some (.reg (dataReg o).toNat)) none
          doneTurn
      else s.raise 0x04 := by
  change execGpost o s = _
  rw [execGpost, State.primaryOnly_runs h]
  exact if_neg (by rw [hd]; exact Bool.false_ne_true)

theorem blockOp_illegal {len al : Nat} (hb : s.block (s.ea o) len al = .ok bs) {ok : List Byte → Bool}
    (hok : ok bs = false) (ranges : List Byte → List (Nat × Nat)) (k : List Byte → State → Out) :
    s.blockOp o len al ok ranges k = (s.claimNow (s.ea o) len).raise 0x01 := by
  rw [State.blockOp, State.primaryOnly_runs h]
  dsimp only
  rw [State.captured_ok h.1 hb]
  exact if_pos (by rw [hok]; rfl)

theorem blockOp_passes {len al : Nat} (hb : s.block (s.ea o) len al = .ok bs) {ok : List Byte → Bool}
    (hok : ok bs = true) {ranges : List Byte → List (Nat × Nat)} (hr : s.checkRanges (ranges bs) = none)
    (k : List Byte → State → Out) :
    s.blockOp o len al ok ranges k = k bs (s.claimNow (s.ea o) len) := by
  rw [State.blockOp, State.primaryOnly_runs h]
  dsimp only
  rw [State.captured_ok h.1 hb, if_neg (by rw [hok]; exact Bool.false_ne_true), claimNow_checkRanges, hr]

end

end

/-- Settles O45: the table of the link operations, the rules of the blocks, and the starts. -/
theorem linkAndBlockOperations : Obligations.LinkAndBlockOperations := by
  refine ⟨fun o s h hroom => ?_, fun o s h => ?_, fun bs => ⟨bdredOk_iff bs, bdtopkOk_iff bs, xrouteOk_iff bs, packetOk_iff bs⟩,
    fun o s bs h hroom hg => ?_⟩
  · intro a len port ch p hlen hmin hmax hown hdown
    refine ⟨fun hloc hch => ?_, fun hloc hch => ?_, fun hloc hch => ?_⟩
    · obtain ⟨x, hx⟩ := linkStart_started h.1 o true (.lsend port ch a len)
      refine ⟨_, x, ?_, hx.1, hx.2.1, congrArg Port.sends hx.2.2.1, hx.2.2.2⟩
      change execLsend o s = _
      rw [execLsend, State.guarded_runs h.runs]
      exact linkOp_passes h.1 (State.checkLocal_aligned hloc) hlen hmin hmax hloc hown hdown hroom hch
    · obtain ⟨x, hx⟩ := linkStart_started h.1 o false (.lrecv port ch a len)
      refine ⟨_, x, ?_, hx.1, hx.2.1, congrArg Port.recvs hx.2.2.1, hx.2.2.2⟩
      change execLrecv o s = _
      rw [execLrecv, State.guarded_runs h.runs]
      exact linkOp_passes h.1 (State.checkLocal_aligned hloc) hlen hmin hmax hloc hown hdown hroom hch
    · obtain ⟨x, hx⟩ := linkStart_started h.1 o false (.lradd port ch a len o.fmt.toNat)
      refine ⟨_, x, ?_, hx.1, hx.2.1, congrArg Port.recvs hx.2.2.1, hx.2.2.2⟩
      change execLradd o s = _
      rw [execLradd, State.primaryOnly_runs h]
      exact linkOp_passes h.1 (State.checkLocal_aligned hloc) hlen hmin hmax hloc hown hdown hroom hch
  · intro a len span
    have hsend : exec (.lsend o) s = s.linkOp o true id fun a len => .lsend (linkPort o) (linkCh o) a len := by
      change execLsend o s = _
      rw [execLsend, State.guarded_runs h.runs]
    have hrecv : exec (.lrecv o) s = s.linkOp o false id fun a len => .lrecv (linkPort o) (linkCh o) a len := by
      change execLrecv o s = _
      rw [execLrecv, State.guarded_runs h.runs]
    have hradd : exec (.lradd o) s = s.linkOp o false (fun n => if o.fmt = 2 then 2 * n else n) fun a len =>
        .lradd (linkPort o) (linkCh o) a len o.fmt.toNat := by
      change execLradd o s = _
      rw [execLradd, State.primaryOnly_runs h]
    rw [hsend, hrecv, hradd]
    exact ⟨fun htable => ⟨linkOp_table htable, linkOp_table htable, linkOp_table htable⟩,
      fun hal hlen hmin hmax hown => ⟨fun hloc => ⟨linkOp_foreign h.1 hal hlen hmin hmax hloc hown,
        linkOp_foreign h.1 hal hlen hmin hmax hloc hown⟩,
        fun hloc => linkOp_foreign h.1 hal hlen hmin hmax hloc hown⟩⟩
  · intro f d u starts
    have hroom' (n : Nat) : (s.claimNow (s.ea o) n).core.bank.barrierRoom o.cb.toNat = true :=
      (claimNow_barrierRoom _ _ _ _).trans hroom
    have hrel (n sc : Nat) : ((s.claimNow (s.ea o) n).releaseHere sc).core.bank.barrierRoom o.cb.toNat = true := by
      obtain ⟨-, -, -, -, -, -, ws, ps, qs, hbank⟩ := releaseHere_frame (s := s.claimNow (s.ea o) n) h.1 sc
      rw [hbank]
      exact hroom' n
    have hstart (i : Instr) (n sc : Nat) (kind : OpKind) (dest : Option BarDest) (turns : Nat → List Turn)
        (hi : exec i s = if (s.claimNow (s.ea o) n).core.bank.barrierRoom o.cb.toNat then
          ((s.claimNow (s.ea o) n).releaseHere sc).startChecked o kind dest none turns
          else (s.claimNow (s.ea o) n).raise 0x04) : starts i kind dest := by
      obtain ⟨x, hx, hkind, hcb, hord, hres, hregs, hstore, hmem⟩ :=
        block_starts (o := o) h.1 hg (s.ea o) n sc kind dest turns
      refine ⟨_, x, hi.trans ((if_pos (hroom' n)).trans (startChecked_room (hrel n sc))), hx, hkind, hcb, hord, ?_, hregs,
        hstore, hmem⟩
      rw [hres]
      cases dest <;> rfl
    have hxroute : exec (.xroute o) s = execXroute o s := rfl
    rw [execXroute] at hxroute
    refine ⟨fun hb => ⟨fun hok hr => ?_, fun hok => blockOp_illegal h hb hok _ _⟩,
      fun hb => ⟨fun hok hr => ?_, fun hok => blockOp_illegal h hb hok _ _, fun hok => hxroute.trans (blockOp_illegal h hb hok _ _),
        fun hd hok => ?_, fun hok hloc hres => ?_, fun hd hok hpart => ?_, fun hd hok hpart => ?_⟩⟩
    · exact hstart (.bdred o) 256 (blockScope (f 14 1)) _ none lineTurn (blockOp_passes h hb hok hr _)
    · exact hstart (.bdtopk o) 64 3 _ none lineTurn (blockOp_passes h hb hok hr _)
    · exact (exec_gpost_block h hd).trans (blockOp_illegal h hb hok _ _)
    · refine hstart (.xroute o) 64 4 (.xroute (f 0 4) (f 4 4) (f 8 4) (f 12 4) (f 16 4)) (some (.word (f 16 4))) lineTurn
        (hxroute.trans ((blockOp_passes h hb hok (ranges := fun _ => []) rfl _).trans ?_))
      have hloc' : (s.claimNow (s.ea o) 64).checkLocal (field bs 4 4) (field bs 8 4 * field bs 12 4) 128 = none := hloc
      have hres' : (s.claimNow (s.ea o) 64).checkLocal (field bs 16 4) 8 8 = none := hres
      dsimp only
      rw [hloc', hres']
      rfl
    · exact hstart (.gpost o) 64 (field bs 4 1) _ _ doneTurn ((exec_gpost_block h hd).trans
        ((blockOp_passes h hb hok rfl _).trans (if_neg (not_not.mpr hpart))))
    · exact (exec_gpost_block h hd).trans ((blockOp_passes h hb hok rfl _).trans (if_pos hpart))

end Sys2Proof.Machine
end

section
/-! PROOFS. Subscriptions: SUBS and SLOTDN. -/

namespace Sys2Proof.Machine

theorem subsOk_iff (bs : List Byte) : subsOk bs = true ↔
    (field bs 0 2 < 4096 ∧ 1 ≤ field bs 3 1 ∧ field bs 3 1 ≤ 16 ∧ field bs 4 1 ≤ 2 ∧ field bs 5 3 = 0 ∧
      (∀ d < 5, 1 ≤ field bs (28 + 2 * d) 2) ∧ field bs 38 2 = 0 ∧ field bs 48 16 = 0 ∧
      field bs 2 1 + field bs 3 1 * 2 ^ field bs 4 1 ≤ 16) := by
  simp only [subsOk, zeroBytes, Bool.and_eq_true, beq_iff_eq, decide_eq_true_eq, List.all_eq_true, List.mem_range,
    and_assoc]
  tauto

/-- R174: some unit of a subscription. -/
theorem units_any (u : Sub) (p : Nat → Bool) :
    u.units.any p = true ↔ ∃ n, u.first ≤ n ∧ n < u.first + u.nslot * 2 ^ u.size ∧ p n = true := by
  rw [Sub.units, List.any_map, List.any_eq_true]
  constructor
  · rintro ⟨i, hi, hp⟩
    rw [List.mem_range] at hi
    exact ⟨u.first + i, by omega, by omega, hp⟩
  · rintro ⟨n, hlo, hhi, hp⟩
    refine ⟨n - u.first, List.mem_range.mpr (by omega), ?_⟩
    rw [Function.comp_apply, Nat.add_sub_cancel' hlo]
    exact hp

/-- R102, R174: a unit of the running bank with a line that is not pinned. -/
def State.unitUnpinned (s : State) (n : Nat) : Bool :=
  lineMask (unitAddr s.core.curBank n / 128) 512 &&& ~~~s.core.bank.pins != 0

theorem unitUnpinned_iff (s : State) (n : Nat) : s.unitUnpinned n = true ↔
    ¬ lineMask (unitAddr s.core.curBank n / 128) 512 &&& ~~~s.core.bank.pins = 0 := by
  rw [State.unitUnpinned, bne_iff_ne]

/-- The state of a SUBS that passes its checks. -/
def State.subscribed (s : State) (o : COp) (u : Sub) : State :=
  let t := (s.releaseHere o.scope.toNat).startOp o.cb.toNat o.hint.toNat .subs none none fun id =>
    [.event (.subsSlotFill id)]
  t.setBank { t.core.bank with subs := t.core.bank.subs ++ [u] }

theorem subscribed_frame {s : State} (ha : s.agent = .primary) (o : COp) (u : Sub) :
    (s.subscribed o u).core.bank.subs = s.core.bank.subs ++ [u] ∧
      (∃ x, (s.subscribed o u).ops = s.ops ++ [x] ∧ x.kind = .subs) ∧
      (s.subscribed o u).core.bank.sameRegs s.core.bank := by
  obtain ⟨hr, hrops, hrnext, -, -, -, ws, ps, qs, hbank⟩ := releaseHere_frame ha o.scope.toNat
  let r := s.releaseHere o.scope.toNat
  let turns : Nat → List Turn := fun id => [.event (.subsSlotFill id)]
  have hstart := State.startOp_bank hr o.cb.toNat o.hint.toNat .subs none none turns
  have hops := State.startOp_ops hr o.cb.toNat o.hint.toNat .subs none none turns
  have hsubs : (r.core.bank.startOn o.cb.toNat r.nextOp none none).subs = s.core.bank.subs := by
    unfold Bank.startOn
    rw [Bank.setCb_frame]
    change (s.releaseHere o.scope.toNat).core.bank.subs = _
    rw [hbank]
  have hregs : (r.core.bank.startOn o.cb.toNat r.nextOp none none).sameRegs s.core.bank := by
    refine (Bank.startOn_sameRegs _ _ _ _ _).trans ?_
    change (s.releaseHere o.scope.toNat).core.bank.sameRegs _
    rw [hbank]
    exact Bank.sameRegs.refl _
  rw [State.subscribed]
  dsimp only
  rw [State.setBank_core, State.setBank_ops, hstart, hops, hrops]
  exact ⟨congrArg (· ++ [u]) hsubs, ⟨_, rfl, rfl⟩, hregs⟩

section
variable {o : COp} {s : State} (h : s.primaryRuns o.g) {bs : List Byte} (hb : s.block (s.ea o) 64 64 = .ok bs)
include h hb

theorem exec_subs_illegal (hill : subsOk bs = false ∨ sget s.core.bank.tensors (field bs 0 2) = none) :
    exec (.subs o) s = (s.claimNow (s.ea o) 64).raise 0x01 := by
  have hentry : (if subsOk bs then sget s.core.bank.tensors (field bs 0 2) else none) = none := by
    rcases hill with hok | ht
    · exact if_neg (Bool.eq_false_iff.mp hok)
    · rw [ht, ite_self]
  have hentry' : (if subsOk bs then sget (s.claimNow (s.ea o) 64).core.bank.tensors (field bs 0 2) else none) = none :=
    hentry
  change execSubs o s = _
  rw [execSubs, State.primaryOnly_runs h]
  dsimp only
  rw [State.captured_ok h.1 hb, hentry']

/-- R173, R374: SUBS of a legal block. -/
theorem exec_subs_legal {t : Tensor} (hok : subsOk bs = true) (ht : sget s.core.bank.tensors (field bs 0 2) = some t)
    (hstat : s.checkLocal (field bs 40 8) 8 8 = none) :
    exec (.subs o) s =
      let c := s.claimNow (s.ea o) 64
      let u := subOf bs s.nextOp o.hint.toNat o.cb.toNat t
      if u.units.any s.unitUnpinned then c.raiseWith 0x06 0 (unitAddr s.core.curBank u.first) 0
      else if u.units.any (fun n => s.core.bank.unitsInUse.contains n) then c.raise 0x0A
      else if 4 ≤ s.core.bank.subs.length || !(s.core.bank.barrierRoom o.cb.toNat) then c.raise 0x04
      else .next (c.subscribed o u) := by
  have hentry : (if subsOk bs then sget (s.claimNow (s.ea o) 64).core.bank.tensors (field bs 0 2) else none) = some t :=
    (if_pos hok).trans ht
  have hstat' : (s.claimNow (s.ea o) 64).checkLocal (subOf bs (s.claimNow (s.ea o) 64).nextOp o.hint.toNat o.cb.toNat
    t).stat 8 8 = none := hstat
  change execSubs o s = _
  rw [execSubs, State.primaryOnly_runs h]
  dsimp only
  rw [State.captured_ok h.1 hb, hentry]
  dsimp only
  rw [hstat']
  rfl

end

/-! ### SLOTDN (R175) -/

theorem markOutput_marked {s : State} (ha : s.agent = .primary) {k : BankTask} (hk : s.core.bank.task = some k) (n : Nat) :
    ((s.markOutput n).core.bank.task.map fun x => x.marked) = some (k.marked ++ [n]) := by
  let u := s.setBank { s.core.bank with task := some { k with marked := k.marked ++ [n] } }
  obtain ⟨-, -, -, -, -, -, ws, ps, qs, hbank⟩ := releaseHere_frame (s := u) ha 3
  have hmark : (s.markOutput n).core.bank = (u.releaseHere 3).core.bank := by
    simp only [State.markOutput, hk, State.later_core]
    rfl
  rw [hmark, hbank]
  rfl

theorem notMarkable {k : BankTask} {n : Nat} (h : n ∉ k.outUnits ∨ n ∈ k.marked) :
    n ∉ k.outUnits.filter fun u => !(k.marked.contains u) := by
  rw [List.mem_filter, Bool.not_eq_true', ← Bool.not_eq_true, List.contains_iff_mem]
  tauto

section
variable {o : COp} {s : State} (h : s.primaryRuns o.g) {k : BankTask} (hk : s.core.bank.task = some k)
include h hk

theorem exec_slotdn_output (hout : o.data.toNat ∈ k.outUnits) (hmark : o.data.toNat ∉ k.marked) :
    exec (.slotdn o) s = .next (s.markOutput o.data.toNat) := by
  change execSlotdn o s = _
  rw [execSlotdn, State.primaryOnly_runs h]
  dsimp only
  rw [hk]
  refine if_pos ?_
  simp [hout, hmark]

/-- R175: a unit that is no unmarked output. -/
theorem exec_slotdn_slot (hout : o.data.toNat ∉ k.outUnits ∨ o.data.toNat ∈ k.marked) {u : Sub}
    (hfind : s.core.bank.subs.find? (fun u => (u.slotAt o.data.toNat).isSome) = some u) :
    exec (.slotdn o) s = .next ((s.setBank { s.core.bank with subs := s.core.bank.subs.map fun x =>
      if x.op = u.op then { u with freed := u.freed ||| 2 ^ (u.slotAt o.data.toNat).getD 0 } else x }).later
        [.event (.subsSlotFill u.op)]) := by
  change execSlotdn o s = _
  rw [execSlotdn, State.primaryOnly_runs h]
  dsimp only
  rw [hk, hfind]
  exact if_neg fun hc => notMarkable hout (List.contains_iff_mem.mp hc)

theorem exec_slotdn_none (hout : o.data.toNat ∉ k.outUnits ∨ o.data.toNat ∈ k.marked)
    (hfind : s.core.bank.subs.find? (fun u => (u.slotAt o.data.toNat).isSome) = none) :
    exec (.slotdn o) s = if k.inUnits.contains o.data.toNat then .next s else s.raise 0x01 := by
  change execSlotdn o s = _
  rw [execSlotdn, State.primaryOnly_runs h]
  dsimp only
  rw [hk, hfind]
  exact if_neg fun hc => notMarkable hout (List.contains_iff_mem.mp hc)

end

/-- Settles O46: SUBS by the checks of its block in their order, SLOTDN by the unit it names. -/
theorem subscriptions : Obligations.Subscriptions := by
  intro o s h b captured
  refine ⟨fun bs t hb hok ht => ?_, subsOk_iff, fun bs hb hill => exec_subs_illegal h hb hill, fun bs t hb hok ht hstat => ?_,
    fun k hk => ?_⟩
  · intro u hstat hpins huse hlen hroom
    obtain ⟨hsubs, ⟨x, hops, hkind⟩, hregs⟩ := subscribed_frame (s := captured) h.1 o u
    have hclaim : captured.core.bank.subs = b.subs ∧ captured.core.bank.sameRegs b :=
      ⟨rfl, Bank.sameRegs_claim b b.tick (linesOf (s.ea o) 64)⟩
    refine ⟨captured.subscribed o u, x, ?_, hsubs.trans (congrArg (· ++ [u]) hclaim.1), hops, hkind, hregs.trans hclaim.2⟩
    refine (exec_subs_legal h hb hok ht hstat).trans ((if_neg (Bool.eq_false_iff.mp hpins)).trans
      ((if_neg (Bool.eq_false_iff.mp huse)).trans (if_neg ?_)))
    rw [Bool.or_eq_true, decide_eq_true_eq, hroom]
    simpa using hlen
  · intro first count pinned
    let u := subOf bs s.nextOp o.hint.toNat o.cb.toNat t
    have hexec := exec_subs_legal h hb hok ht hstat
    refine ⟨?_, fun hpinned => ?_⟩
    · rintro ⟨n, hlo, hhi, hn⟩
      exact hexec.trans (if_pos ((units_any u _).mpr ⟨n, hlo, hhi, (unitUnpinned_iff s n).mpr hn⟩))
    · have hall : ¬ u.units.any s.unitUnpinned = true := by
        rw [units_any]
        rintro ⟨n, hlo, hhi, hn⟩
        exact (unitUnpinned_iff s n).mp hn (hpinned n hlo hhi)
      refine ⟨?_, fun hfree hfull => ?_⟩
      · rintro ⟨n, hlo, hhi, hn⟩
        exact hexec.trans ((if_neg hall).trans (if_pos ((units_any u _).mpr ⟨n, hlo, hhi, List.contains_iff_mem.mpr hn⟩)))
      · have huse : ¬ u.units.any (fun n => b.unitsInUse.contains n) = true := by
          rw [units_any]
          rintro ⟨n, hlo, hhi, hn⟩
          exact hfree n hlo hhi (List.contains_iff_mem.mp hn)
        refine hexec.trans ((if_neg hall).trans ((if_neg huse).trans (if_pos ?_)))
        rw [Bool.or_eq_true, decide_eq_true_eq, Bool.not_eq_true']
        exact hfull
  · intro n
    refine ⟨fun hout hmark => ⟨_, exec_slotdn_output h hk hout hmark, markOutput_marked h.1 hk n⟩, fun hout hsubs => ?_,
      fun u i hout hsubs hslot => ?_⟩
    · have hfind : b.subs.find? (fun u => (u.slotAt n).isSome) = none := by
        rw [List.find?_eq_none]
        intro u hu
        rw [hsubs u hu]
        exact Bool.false_ne_true
      have hexec := exec_slotdn_none h hk hout hfind
      exact ⟨fun hin => hexec.trans (if_pos (List.contains_iff_mem.mpr hin)),
        fun hin => hexec.trans (if_neg fun hc => hin (List.contains_iff_mem.mp hc))⟩
    · have hfind : b.subs.find? (fun u => (u.slotAt n).isSome) = some u := by
        rw [hsubs]
        exact List.find?_cons_of_pos (by rw [hslot]; rfl)
      refine ⟨_, { u with freed := u.freed ||| 2 ^ (u.slotAt n).getD 0 }, exec_slotdn_slot h hk hout hfind, ?_, ?_, rfl⟩
      · rw [State.later_core, State.setBank_core]
        change b.subs.map _ = _
        rw [hsubs, List.map_singleton, if_pos rfl]
      · rw [hslot]
        exact by simp [Nat.testBit_or]

end Sys2Proof.Machine
end

section
/-! PROOFS. RESULT_WRITEBACK: what lands can change a result that stays in flight. -/

namespace Sys2Proof.Machine

/-- An ATOM in flight that has performed for the others of its core (R122, R124). -/
def Eff.performed : Eff → Bool
  | .atom _ _ _ _ _ _ f => f.isSome
  | _ => false

/-- An ATOM on a pinned line, held for a tracked read of its line (R122): it falls due in the next tick. -/
def heldAtom : Pend := ⟨1, 0, .atom 0 0 1 0 0 0 none, 4, 0, false⟩

/-- The release of a FLAGW.rel that issued after it and falls due now (R133). -/
def dueFlag : Pend := ⟨0, 1, .store 128 (leBytes 8 1) (some 3), 4, 0, false⟩

/-- The FLAGW lands while the ATOM that issued before it stays in flight. -/
def flagAfterAtom : State := State.reset.setBank { Bank.clear with run := .active, pend := [heldAtom, dueFlag] }

/-- R126, R133: the FLAGW's release performs the ATOM for the core's other agents: it stays in flight with its bytes fixed. -/
theorem landDue_flagAfterAtom : flagAfterAtom.landDue.core.bank.pend.map (fun e => e.eff.performed) = [true] := by
  decide

theorem rest_flagAfterAtom : (flagAfterAtom.core.bank.pend.filter fun e =>
    decide (flagAfterAtom.core.bank.tick < e.due)) = [heldAtom] := by
  decide

/-- Refutes O47: the results that RESULT_WRITEBACK leaves in flight do not all keep their effect. A FLAGW.rel that lands
releases the writes that issued before it, so an ATOM still in flight has performed from then on. -/
theorem not_coreEvents : ¬ Obligations.CoreEvents := by
  intro h
  obtain ⟨⟨t, ht, -, hpend⟩, -⟩ := h flagAfterAtom
  have hland : flagAfterAtom.landDue = t := Host.Outcome.next.inj ht
  rw [rest_flagAfterAtom, ← hland] at hpend
  have heff := congrArg (List.map fun x : Nat × Nat × Eff => x.2.2.performed) hpend
  rw [List.map_map] at heff
  exact absurd (landDue_flagAfterAtom.symm.trans heff) (by decide)

end Sys2Proof.Machine
end

section
/-! PROOFS. What the steps of an engine operation of the running bank leave unchanged. -/

namespace Sys2Proof.Machine

/-! ### What a step of an engine keeps -/

/-- The operations, what is due, and the barriers, subscriptions and logs of the running bank stand. -/
structure State.EngineFrame (s t : State) : Prop where
  cur : t.cur = s.cur
  curBank : t.core.curBank = s.core.curBank
  ops : t.ops = s.ops
  agenda : t.agenda = s.agenda
  cbs : t.core.bank.cbs = s.core.bank.cbs
  subs : t.core.bank.subs = s.core.bank.subs
  status : t.core.bank.status = s.core.bank.status
  held : t.core.bank.heldWrites = s.core.bank.heldWrites
  undo : t.core.bank.undo = s.core.bank.undo

namespace State.EngineFrame

theorem refl (s : State) : s.EngineFrame s := ⟨rfl, rfl, rfl, rfl, rfl, rfl, rfl, rfl, rfl⟩

theorem trans {s t u : State} (h₁ : s.EngineFrame t) (h₂ : t.EngineFrame u) : s.EngineFrame u :=
  ⟨h₂.cur.trans h₁.cur, h₂.curBank.trans h₁.curBank, h₂.ops.trans h₁.ops, h₂.agenda.trans h₁.agenda, h₂.cbs.trans h₁.cbs,
    h₂.subs.trans h₁.subs, h₂.status.trans h₁.status, h₂.held.trans h₁.held, h₂.undo.trans h₁.undo⟩

theorem of_caches {s t : State} (h : s.ChangesCaches t) : s.EngineFrame t := by
  obtain ⟨w, d, o, x, y, rfl⟩ := h
  exact ⟨rfl, rfl, rfl, rfl, rfl, rfl, rfl, rfl, rfl⟩

theorem agent {s t : State} (h : s.EngineFrame t) (a b : Agent) :
    ({ s with agent := a } : State).EngineFrame { t with agent := b } :=
  ⟨h.cur, h.curBank, h.ops, h.agenda, h.cbs, h.subs, h.status, h.held, h.undo⟩

end State.EngineFrame

theorem State.ChangesCaches.stores {s t : State} (h : s.ChangesCaches t) :
    t.mem = s.mem ∧ t.core.store = s.core.store ∧ t.core.bank = s.core.bank ∧ t.hub = s.hub := by
  obtain ⟨w, d, o, x, y, rfl⟩ := h
  exact ⟨rfl, rfl, rfl, rfl⟩

/-! ### The operations by number -/

theorem State.mapOp_op? (s : State) (id : Nat) {f : EngineOp → EngineOp} (hf : ∀ o, (f o).id = o.id) :
    (s.mapOp id f).op? id = (s.op? id).map f := by
  unfold State.mapOp State.op?
  dsimp only
  induction s.ops with
  | nil => rfl
  | cons x xs ih =>
    by_cases hx : x.id = id
    · rw [List.map_cons, if_pos hx, List.find?_cons_of_pos (by rw [hf, hx, beq_self_eq_true]),
        List.find?_cons_of_pos (by rw [hx, beq_self_eq_true])]
      rfl
    · rw [List.map_cons, if_neg hx, List.find?_cons_of_neg (by rwa [beq_iff_eq]),
        List.find?_cons_of_neg (by rwa [beq_iff_eq]), ih]

theorem State.op?_congr {s t : State} (h : t.ops = s.ops) (id : Nat) : t.op? id = s.op? id := by
  rw [State.op?, State.op?, h]

theorem State.dropOp_op? (s : State) (id : Nat) : (s.dropOp id).op? id = none := by
  rw [State.op?, List.find?_eq_none]
  intro x hx
  rw [State.dropOp, List.mem_filter, bne_iff_ne] at hx
  rw [beq_iff_eq]
  exact hx.2

/-! ### A bank's operations outside guarded mode -/

theorem State.logUndo_unguarded {s : State} (hg : s.core.bank.status.guard = false) (ls : List Nat) : s.logUndo ls = s := by
  have hnew : s.newUndo ls = [] := by rw [State.newUndo, hg]; rfl
  rw [State.logUndo, hnew, List.map_nil, List.append_nil]
  rfl

theorem State.view_none {s : State} (h : s.core.bank.heldWrites = []) : s.view = s.mem := by
  rw [State.view, Bank.view, h]
  rfl

/-- R113, R222: a line delivered outside guarded mode. -/
theorem State.deliver_unguarded {s : State} (hg : s.core.bank.status.guard = false) (hu : s.core.bank.undo.length ≤ 512)
    (a : Nat) (bs : List Byte) (seq : Nat) :
    s.EngineFrame (s.deliver a bs seq) ∧ (s.deliver a bs seq).mem = s.mem ∧
      (s.deliver a bs seq).core.store = writeBytes s.core.store a bs ∧ (s.deliver a bs seq).ord = s.ord := by
  have h : s.deliver a bs seq = (s.setCore (s.core.putSeen a bs seq)).claimPorts a bs.length := by
    rw [State.deliver, State.logUndo_unguarded hg]
    exact if_neg (Nat.not_lt.mpr hu)
  rw [h]
  exact ⟨⟨rfl, rfl, rfl, rfl, rfl, rfl, rfl, rfl, rfl⟩, rfl, rfl, rfl⟩

theorem State.carry_frame (s : State) (src dst : Nat) :
    s.EngineFrame (s.carry src dst) ∧ (s.carry src dst).mem = s.mem ∧ (s.carry src dst).core = s.core := by
  unfold State.carry
  split
  · exact ⟨.refl s, rfl, rfl⟩
  · exact ⟨⟨rfl, rfl, rfl, rfl, rfl, rfl, rfl, rfl, rfl⟩, rfl, rfl⟩

theorem State.putFrom_frame (s : State) (src pa : Nat) (bs : List Byte) :
    s.EngineFrame (s.putFrom src pa bs) ∧ (s.putFrom src pa bs).core.store = s.core.store := by
  obtain ⟨t, c, ⟨w, d, o, x, y, rfl⟩, h⟩ := s.putFrom_eq src pa bs
  rw [h]
  exact ⟨⟨rfl, rfl, rfl, rfl, rfl, rfl, rfl, rfl, rfl⟩, rfl⟩

/-- R140: a write of an operation outside guarded mode. -/
theorem State.globalPut_unguarded {s : State} (hg : s.core.bank.status.guard = false) (pa : Nat) (bs : List Byte) :
    s.EngineFrame (s.globalPut pa bs) ∧ (s.globalPut pa bs).mem = writeBytes s.mem pa bs ∧
      (s.globalPut pa bs).core.store = s.core.store := by
  have h : s.globalPut pa bs = s.putFrom (dieOf s.cur) pa bs := State.globalOut_unguarded hg pa _
  rw [h]
  exact ⟨(s.putFrom_frame _ _ _).1, State.putFrom_mem _ _ _ _, (s.putFrom_frame _ _ _).2⟩

/-- R121, R140: a global ATOM outside guarded mode. -/
theorem State.globalAtom_unguarded {s : State} (hg : s.core.bank.status.guard = false) (pa op : Nat) (x cmp : Word) :
    s.EngineFrame (s.globalOut pa (.atom pa op x cmp)) ∧
      (s.globalOut pa (.atom pa op x cmp)).mem = writeBytes s.mem pa (atomOn s.mem pa op x cmp) := by
  have h : s.globalOut pa (.atom pa op x cmp) = s.putFrom (dieOf s.cur) pa (atomOn s.mem pa op x cmp) :=
    State.globalOut_unguarded hg pa _
  rw [h]
  exact ⟨(s.putFrom_frame _ _ _).1, State.putFrom_mem _ _ _ _⟩

theorem Core.afterFence_bank (c : Core) (seq : Nat) :
    ∃ ps qs, (c.afterFence seq).bank = { c.bank with pend := ps, parked := qs } := by
  unfold Core.afterFence
  split
  · exact ⟨_, _, rfl⟩
  · exact ⟨_, _, rfl⟩

theorem Core.afterFence_curBank (c : Core) (seq : Nat) : (c.afterFence seq).curBank = c.curBank := by
  unfold Core.afterFence
  split <;> rfl

theorem State.afterFence_frame (s : State) (seq : Nat) : s.EngineFrame (s.setCore (s.core.afterFence seq)) := by
  obtain ⟨ps, qs, hb⟩ := s.core.afterFence_bank seq
  have hc := s.core.afterFence_curBank seq
  refine ⟨rfl, hc, rfl, rfl, ?_, ?_, ?_, ?_, ?_⟩ <;> rw [State.setCore_core, hb]

/-! ### Acting for an operation of the running bank -/

section
variable {s : State} {o : EngineOp} (hc : o.core = s.cur) (hb : o.bank = s.core.curBank)

section
variable (hd : o.drift = none)
include hc hb hd

/-- An operation of the primary of the bank that runs acts at once. -/
theorem State.asOp_here {f : State → State} (hf : (f { s with agent := .primary }).cur = s.cur) :
    s.asOp o f = { f { s with agent := .primary } with agent := s.agent } := by
  have hbank : s.onBank o.bank (fun s => s.asAgent .primary f) = { f { s with agent := .primary } with agent := s.agent } :=
    if_pos hb
  rw [State.asOp, hd, State.onCoreBank, hc]
  refine (State.onCore_cur ?_).trans hbank
  rw [hbank]
  exact hf

theorem State.asOp_frame {f : State → State}
    (hf : ({ s with agent := .primary } : State).EngineFrame (f { s with agent := .primary })) :
    s.EngineFrame (s.asOp o f) ∧ (s.asOp o f).mem = (f { s with agent := .primary }).mem ∧
      (s.asOp o f).core = (f { s with agent := .primary }).core := by
  rw [State.asOp_here hc hb hd hf.cur]
  exact ⟨hf.agent s.agent s.agent, rfl, rfl⟩

/-- R126: an operation makes the primary's writes before it visible. -/
theorem State.opVisible_frame :
    s.EngineFrame (s.opVisible o false) ∧ (s.opVisible o false).mem = s.mem ∧
      (s.opVisible o false).core = s.core.afterFence o.seq := by
  have h : s.opVisible o false = s.asOp o fun s => s.setCore (s.core.afterFence o.seq) := by
    rw [State.opVisible, hd]
    rfl
  rw [h]
  exact State.asOp_frame hc hb hd (State.afterFence_frame _ _)

/-- R114: what an operation does to its barrier. -/
theorem State.onBarrier_here (f : Bank → Bank) :
    ∃ x, s.onBarrier o f = s.setCore { s.core with bank := f s.core.bank, shadow := x } :=
  ⟨_, State.asOp_here hc hb hd rfl⟩

/-- R114: an operation that completes. -/
theorem State.finishOp_here (v : Option Word) :
    ∃ x, s.finishOp o v = (s.dropOp o.id).setCore { s.core with bank := s.core.bank.finishOn o.cb o.id v, shadow := x } := by
  rw [State.finishOp, hd]
  exact State.onBarrier_here (s := s.dropOp o.id) hc hb hd _

/-- R114, R174: the barrier of an operation that completes. -/
theorem State.finishOp_done (v : Option Word) (hcb : o.cb < 8) :
    (s.finishOp o v).core.bank.cb o.cb = (s.core.bank.cb o.cb).finish o.id v ∧ (s.finishOp o v).op? o.id = none ∧
      (s.finishOp o v).mem = s.mem ∧ (s.finishOp o v).core.store = s.core.store ∧
      (s.finishOp o v).core.bank.subs = s.core.bank.subs.filter fun u =>
        !(((s.finishOp o v).core.bank.cb u.cb).complete && decide (u.fills ≤ u.delivered)) := by
  obtain ⟨x, h⟩ := State.finishOp_here hc hb hd v
  rw [h]
  refine ⟨Bank.setCb_self _ hcb _, State.dropOp_op? s o.id, rfl, rfl, ?_⟩
  rw [State.setCore_core, Bank.finishOn, Bank.setCb_frame]
  rfl

end

end

end Sys2Proof.Machine
end

section
/-! PROOFS. The steps of engine operations: lines, completions, faults, answers and subscriptions. -/

namespace Sys2Proof.Machine

/-! ### The steps by what an operation is -/

section
variable {s : State} {o : EngineOp} (hop : s.op? o.id = some o)
include hop

theorem exec_engineLineLand_step (hlive : o.live = true) (hline : o.hasLine = true) (hdead : s.opDead o = false) :
    exec (.engineLineLand o.id) s = .next (s.lineStep o) := by
  change execEngineLineLand o.id s = _
  rw [execEngineLineLand, hop]
  dsimp only
  rw [hlive, hline, hdead]
  rfl

theorem exec_engineOpComplete_step (hlive : o.live = true) (hdead : s.opDead o = false) :
    exec (.engineOpComplete o.id) s = .next (s.endOp o) := by
  change execEngineOpComplete o.id s = _
  rw [execEngineOpComplete, hop]
  dsimp only
  rw [hlive, hdead]
  rfl

theorem exec_engineOpComplete_dead (hlive : o.live = true) (hdead : s.opDead o = true) :
    exec (.engineOpComplete o.id) s = .next (s.finishOp o none) := by
  change execEngineOpComplete o.id s = _
  rw [execEngineOpComplete, hop]
  dsimp only
  rw [hlive, hdead]
  rfl

theorem exec_engineOpFault_step (hlive : o.live = true) (kind : RecKind) (va : Nat) :
    exec (.engineOpFault o.id kind va) s = .next (s.stopOp o kind va (o.lineAt va)) := by
  change execEngineOpFault o.id kind va s = _
  rw [execEngineOpFault, hop]
  dsimp only
  rw [hlive]
  rfl

/-- R113: an operation's line has moved. -/
theorem State.advanceOp_done {t : State} (ht : s.EngineFrame t) (n : Nat) :
    (t.advanceOp o n).mem = t.mem ∧ (t.advanceOp o n).core = t.core ∧
      (t.advanceOp o n).op? o.id = some { o with done := o.done + 1 } ∧
      (t.advanceOp o n).agenda = s.agenda ++ [if n ≤ o.done + 1 then o.doneEvent else o.lineEvent] := by
  refine ⟨rfl, rfl, ?_, ?_⟩
  · change (t.mapOp o.id fun x => { x with done := x.done + 1 }).op? o.id = _
    rw [State.mapOp_op? _ _ (fun _ => by rfl), State.op?_congr ht.ops, hop]
    rfl
  · change t.agenda ++ _ = _
    rw [ht.agenda]

end

section
variable {s : State} {o : EngineOp} (hc : o.core = s.cur) (hb : o.bank = s.core.curBank)
include hc hb

omit hb in
theorem State.coreAt_here : s.coreAt o.core = s.core := if_pos hc

theorem State.bankAt_here : (s.coreAt o.core).bankAt o.bank = s.core.bank := by
  rw [State.coreAt_here hc]
  exact if_pos hb

/-- R206, R266: the launch of an operation of the running bank. -/
theorem State.opDead_here (h : ∀ k l, s.core.bank.task = some k → s.hub.launch? k.launch = some l → l.fault = none) :
    s.opDead o = false := by
  rw [State.opDead, State.bankAt_here hc hb]
  cases hk : s.core.bank.task with
  | none => exact Bool.and_false _
  | some k =>
    cases hl : s.hub.launch? k.launch with
    | none => simp [hl]
    | some l => simp [hl, h k l hk hl]

theorem State.opDead_faulted {k : BankTask} {l : Launch} {r : Raised} (hk : s.core.bank.task = some k)
    (hl : s.hub.launch? k.launch = some l) (hf : l.fault = some r) (hdis : o.discards = true) : s.opDead o = true := by
  rw [State.opDead, State.bankAt_here hc hb, hk, hdis]
  simp [hl, hf]

end

/-! ### Flat copies (R113) -/

section
variable {s : State} {o : EngineOp} (hop : s.op? o.id = some o) (hc : o.core = s.cur) (hb : o.bank = s.core.curBank)
  (hd : o.drift = none) (hg : s.core.bank.status.guard = false)
include hop hc hb hd hg

/-- A line of a copy from global memory. -/
theorem cpyLine_in (hh : s.core.bank.heldWrites = []) (hu : s.core.bank.undo.length ≤ 512)
    {loc g len pa : Nat} {co bx : List Nat} (hk : o.kind = .cpy 2 loc none co bx g len)
    (hheld : s.deliveryHeld s.cur s.core.curBank ((loc + 128 * o.done) / 128) = false)
    (hx : s.hubXlat o.part (g + 128 * o.done) { write := false, user := o.user, read := true } = .ok pa) :
    (s.lineStep o).mem = s.mem ∧
      (s.lineStep o).core.store = writeBytes s.core.store (loc + 128 * o.done) (readBytes s.mem pa 128) ∧
      (s.lineStep o).op? o.id = some { o with done := o.done + 1 } ∧
      (s.lineStep o).agenda = s.agenda ++ [if len / 128 ≤ o.done + 1 then o.doneEvent else o.lineEvent] := by
  let u := s.touchL2 (dieOf o.core) pa (s.opHint o (g + 128 * o.done))
  have hcaches : s.ChangesCaches u := s.changesCaches_touchL2 _ _ _ _
  have hsu := State.EngineFrame.of_caches hcaches
  obtain ⟨hmem, hstore, -, -⟩ := hcaches.stores
  let v : State := { u with agent := .primary }
  have hview : v.view = s.mem := (State.view_none (s := v) (hsu.held.trans hh)).trans hmem
  obtain ⟨hframe, hdmem, hdstore, -⟩ := State.deliver_unguarded (s := v) (by rw [hsu.status]; exact hg)
    (by rw [hsu.undo]; exact hu) (loc + 128 * o.done) (readBytes v.view pa 128) o.seq
  obtain ⟨hasop, hamem, hacore⟩ := State.asOp_frame (s := u) (o := o)
    (f := fun s => s.deliver (loc + 128 * o.done) (readBytes s.view pa 128) o.seq) (hc.trans hsu.cur.symm)
    (hb.trans hsu.curBank.symm) hd hframe
  have hstep : s.lineStep o = (u.asOp o fun s => s.deliver (loc + 128 * o.done) (readBytes s.view pa 128) o.seq).advanceOp o
      (len / 128) := by
    rw [State.lineStep, hk]
    dsimp only [State.cpyLine]
    rw [hc, hb, hheld]
    refine (if_pos rfl).trans ((if_neg Bool.false_ne_true).trans ?_)
    rw [State.opGlobal, hx, ← hc]
  obtain ⟨hmem', hcore', hop', hagenda'⟩ := State.advanceOp_done hop (hsu.trans hasop) (len / 128)
  rw [hstep]
  refine ⟨hmem'.trans (hamem.trans (hdmem.trans hmem)), ?_, hop', hagenda'⟩
  rw [hcore', hacore, hdstore, hview]
  exact congrArg (fun m => writeBytes m _ _) hstore

/-- A line of a copy to global memory. -/
theorem cpyLine_out {loc g len pa : Nat} {co bx : List Nat} (hk : o.kind = .cpy 3 loc none co bx g len)
    (hheld : s.readHeld s.cur [(loc + 128 * o.done) / 128] = false)
    (hx : s.hubXlat o.part (g + 128 * o.done) { write := true, user := o.user, read := false } = .ok pa) :
    (s.lineStep o).core.store = s.core.store ∧
      (s.lineStep o).op? o.id = some { o with done := o.done + 1 } ∧
      (s.lineStep o).mem = writeBytes s.mem pa
        (readBytes ((s.core.afterFence o.seq).seenBefore o.seq) (loc + 128 * o.done) 128) := by
  let u := s.touchL2 (dieOf o.core) pa (s.opHint o (g + 128 * o.done)) 3
  have hcaches : s.ChangesCaches u := s.changesCaches_touchL2 _ _ _ _
  have hsu := State.EngineFrame.of_caches hcaches
  obtain ⟨hmem, hstore, -, -⟩ := hcaches.stores
  have hcu := hc.trans hsu.cur.symm
  have hbu := hb.trans hsu.curBank.symm
  let v := u.opVisible o false
  obtain ⟨huv, hvmem, hvcore⟩ := State.opVisible_frame (s := u) hcu hbu hd
  let w : State := { v with agent := .primary }
  let f : State → State := fun s => (s.claimPorts (loc + 128 * o.done) 128).globalPut pa
    (readBytes (s.core.seenBefore o.seq) (loc + 128 * o.done) 128)
  have hwg : (w.claimPorts (loc + 128 * o.done) 128).core.bank.status.guard = false := by
    change v.core.bank.status.guard = false
    rw [huv.status, hsu.status]
    exact hg
  obtain ⟨hframe, hfmem, hfstore⟩ := State.globalPut_unguarded hwg pa
    (readBytes (w.core.seenBefore o.seq) (loc + 128 * o.done) 128)
  have hclaim : w.EngineFrame (w.claimPorts (loc + 128 * o.done) 128) := ⟨rfl, rfl, rfl, rfl, rfl, rfl, rfl, rfl, rfl⟩
  obtain ⟨hasop, hamem, hacore⟩ := State.asOp_frame (s := v) (o := o) (f := f) (hcu.trans huv.cur.symm)
    (hbu.trans huv.curBank.symm) hd (hclaim.trans hframe)
  have hstep : s.lineStep o = (v.asOp o f).advanceOp o (len / 128) := by
    rw [State.lineStep, hk]
    dsimp only [State.cpyLine]
    rw [hc, hheld]
    refine (if_neg (by decide)).trans ((if_neg Bool.false_ne_true).trans ?_)
    rw [State.opGlobal, hx, ← hc]
  obtain ⟨hmem', hcore', hop', -⟩ := State.advanceOp_done hop ((hsu.trans huv).trans hasop) (len / 128)
  have hseen : v.core.seenBefore o.seq = (s.core.afterFence o.seq).seenBefore o.seq := by
    obtain ⟨wy, d, ot, x, y, hu⟩ := hcaches
    have hucore : u.core = { s.core with ways := wy, dcache := d } := congrArg State.core hu
    rw [hvcore, hucore]
    unfold Core.afterFence
    dsimp only
    split <;> rfl
  rw [hstep]
  refine ⟨?_, hop', ?_⟩
  · rw [hcore', hacore]
    refine hfstore.trans ?_
    change v.core.store = _
    rw [hvcore, Core.afterFence_store]
    exact hstore
  · rw [hmem', hamem]
    refine hfmem.trans ?_
    change writeBytes v.mem pa (readBytes (v.core.seenBefore o.seq) _ _) = _
    rw [hvmem, hseen]
    exact congrArg (fun m => writeBytes m _ _) hmem

end

/-! ### Global ATOMs (R121) -/

section
variable {s : State} {o : EngineOp} (hc : o.core = s.cur) (hb : o.bank = s.core.curBank)
  (hd : o.drift = none) (hg : s.core.bank.status.guard = false) (hh : s.core.bank.heldWrites = [])
include hc hb hd hg hh

/-- R121: an ATOM's engine operation performs it. -/
theorem atomDone_performs {va op pa : Nat} {x cmp : Word} (hcb : o.cb < 8)
    (hx : s.hubXlat o.part va { write := true, user := o.user, read := true } = .ok pa) :
    let old : Word := BitVec.ofNat 64 (readNat s.mem pa (atomBytes op))
    (s.atomDone o va op x cmp).mem = writeBytes s.mem pa (atomOn s.mem pa op x cmp) ∧
      (s.atomDone o va op x cmp).core.bank.cb o.cb = (s.core.bank.cb o.cb).finish o.id (some old) ∧
      (s.atomDone o va op x cmp).op? o.id = none := by
  intro old
  let u := s.onCore o.core fun s' => s'.touchWays pa (s'.opHint o va)
  have hcaches : s.ChangesCaches u := by
    have hway : s.ChangesCaches (s.touchWays pa (s.opHint o va)) := s.changesCaches_touchWays _ _
    change s.ChangesCaches (s.onCore o.core fun s' => s'.touchWays pa (s'.opHint o va))
    rw [hc, State.onCore_cur (State.EngineFrame.of_caches hway).cur]
    exact hway
  have hsu := State.EngineFrame.of_caches hcaches
  obtain ⟨hmem, -, -, -⟩ := hcaches.stores
  have hcu := hc.trans hsu.cur.symm
  have hbu := hb.trans hsu.curBank.symm
  let v := u.opVisible o false
  obtain ⟨huv, hvmem, -⟩ := State.opVisible_frame (s := u) hcu hbu hd
  have hsv := hsu.trans huv
  have hmem : v.mem = s.mem := hvmem.trans hmem
  have hcv := hc.trans hsv.cur.symm
  have hbv := hb.trans hsv.curBank.symm
  let w : State := { v with agent := .primary }
  obtain ⟨hframe, hwmem⟩ := State.globalAtom_unguarded (s := w) (by rw [hsv.status]; exact hg) pa op x cmp
  obtain ⟨hasop, hamem, -⟩ := State.asOp_frame (s := v) (o := o) (f := fun s => s.globalOut pa (.atom pa op x cmp)) hcv hbv hd
    hframe
  have hst := hsv.trans hasop
  have hview : v.opView o = s.mem := by
    rw [State.opView, State.bankAt_here hcv hbv, Bank.view, hsv.held, hh]
    exact hmem
  have hdone : s.atomDone o va op x cmp =
      (v.asOp o fun s => s.globalOut pa (.atom pa op x cmp)).finishOp o (some old) := by
    rw [State.atomDone, State.opGlobal, hx]
    change (v.asOp o _).finishOp o (some (BitVec.ofNat 64 (readNat (v.opView o) pa (atomBytes op)))) = _
    rw [hview]
  obtain ⟨hfin, hop, hfmem, -, -⟩ := State.finishOp_done (hc.trans hst.cur.symm) (hb.trans hst.curBank.symm) hd (some old) hcb
  rw [hdone]
  refine ⟨hfmem.trans (hamem.trans (hwmem.trans ?_)), hfin.trans ?_, hop⟩
  · change writeBytes v.mem pa (atomOn v.mem pa op x cmp) = _
    rw [hmem]
  · rw [Bank.cb, Bank.cb, hst.cbs]

end

/-! ### Stops and answered events (R114, R119) -/

section
variable {s : State} {o : EngineOp} (hop : s.op? o.id = some o) (hc : o.core = s.cur) (hb : o.bank = s.core.curBank)
  (hd : o.drift = none)
include hop hc hb hd

/-- R114: an operation's stop leaves its record on its barrier. -/
theorem stopOp_record (hcb : o.cb < 8) (hrec : (s.core.bank.cb o.cb).record = none) (hpark : s.core.bank.parked = [])
    (kind : RecKind) (va line : Nat) :
    ((s.stopOp o kind va line).core.bank.cb o.cb).record = some { kind := kind, va := va, line := line, op := o.id } ∧
      (s.stopOp o kind va line).op? o.id = some { o with stop := some kind, old := va } ∧
      (s.stopOp o kind va line).mem = s.mem ∧ (s.stopOp o kind va line).core.store = s.core.store := by
  let u := s.mapOp o.id fun x => { x with stop := some kind, old := va }
  have hbars : ((u.coreAt o.core).bankAt o.bank).heldBars = [] := by
    rw [State.bankAt_here (s := u) hc hb, Bank.heldBars, show u.core.bank.parked = [] from hpark]
  obtain ⟨x, hbar⟩ := State.onBarrier_here (s := u) hc hb hd fun b =>
    b.setCb o.cb ((b.cb o.cb).fault { kind := kind, va := va, line := line, op := o.id })
  have hstop : s.stopOp o kind va line = u.onBarrier o fun b =>
      b.setCb o.cb ((b.cb o.cb).fault { kind := kind, va := va, line := line, op := o.id }) := by
    simp only [State.stopOp, hd]
    refine if_neg ?_
    rw [hbars]
    simp
  rw [hstop, hbar]
  refine ⟨?_, ?_, rfl, rfl⟩
  · rw [State.setCore_core, Bank.setCb_self _ hcb, Barrier.fault, show (u.core.bank.cb o.cb).record = none from hrec]
  · change u.op? o.id = _
    rw [State.mapOp_op? _ _ (fun _ => by rfl), hop]
    rfl

end

end Sys2Proof.Machine
end

section
/-! PROOFS. Answered translation events, and the lines of subscriptions. -/

namespace Sys2Proof.Machine

/-! ### Answered events (R119) -/

section
variable {s : State} {o : EngineOp} (hc : o.core = s.cur) (hb : o.bank = s.core.curBank)
include hc hb

theorem State.onCoreBank_here {f : State → State} (hf : (f s).cur = s.cur) : s.onCoreBank o.core o.bank f = f s := by
  have hbank : s.onBank o.bank f = f s := if_pos hb
  rw [State.onCoreBank, hc]
  refine (State.onCore_cur ?_).trans hbank
  rw [hbank]
  exact hf

omit hc hb in
theorem markFrame_frame (t : State) (op : Nat) (v : Bool) :
    ∃ m, t.markFrame op v = t.setCore { t.core with store := m } := by
  unfold State.markFrame
  split
  · exact ⟨t.core.store, rfl⟩
  · split
    · exact ⟨t.core.store, rfl⟩
    · exact ⟨_, rfl⟩

/-- R114, R119: the operation whose event is answered goes on, and its barrier has no record any more. -/
theorem resumeOp_here (hd : o.drift = none) (hop : s.op? o.id = some o)
    (hlone : ∀ x ∈ s.ops, x.core = o.core → x.bank = o.bank → x.cb = o.cb → x.drift = none → x.saved = none → x.id ≠ o.id →
      x.stop = none) :
    (s.resumeOp o).cur = s.cur ∧ (s.resumeOp o).core.curBank = s.core.curBank ∧ (s.resumeOp o).mem = s.mem ∧
      (s.resumeOp o).hub = s.hub ∧
      (s.resumeOp o).core.bank = s.core.bank.setCb o.cb { s.core.bank.cb o.cb with record := none } ∧
      (s.resumeOp o).op? o.id = some { o with stop := none } := by
  let u := s.mapOp o.id fun o => { o with stop := none }
  obtain ⟨x, hbar⟩ := State.onBarrier_here (s := u) hc hb hd fun b => b.setCb o.cb { b.cb o.cb with record := none }
  let v := u.onBarrier o fun b => b.setCb o.cb { b.cb o.cb with record := none }
  obtain ⟨m, hmark⟩ := markFrame_frame v o.id false
  have hv : v = u.setCore _ := hbar
  have hvcur : v.cur = s.cur := by rw [hv]; rfl
  have hvbank : v.core.curBank = s.core.curBank := by rw [hv]; rfl
  have hhere : v.onCoreBank o.core o.bank (fun s => s.markFrame o.id false) = v.markFrame o.id false :=
    State.onCoreBank_here (s := v) (o := o) (f := fun s => s.markFrame o.id false) (hc.trans hvcur.symm) (hb.trans hvbank.symm)
      (by rw [hmark]; rfl)
  have hother : s.ops.find? (fun x => x.core == o.core && x.bank == o.bank && x.cb == o.cb && x.halted && x.drift.isNone &&
      x.saved.isNone && x.id != o.id) = none := by
    rw [List.find?_eq_none]
    intro x hx
    simp only [Bool.and_eq_true, beq_iff_eq, bne_iff_ne, Option.isNone_iff_eq_none]
    rintro ⟨⟨⟨⟨⟨⟨hxc, hxb⟩, hxn⟩, hhalt⟩, hxd⟩, hxs⟩, hxi⟩
    rw [EngineOp.halted, hlone x hx hxc hxb hxn hxd hxs hxi] at hhalt
    exact Bool.false_ne_true hhalt
  have hresume : s.resumeOp o = (v.markFrame o.id false).later [o.nextEvent] := by
    rw [State.resumeOp, hother, ← hhere]
    rfl
  rw [hresume, hmark]
  change v.cur = _ ∧ v.core.curBank = _ ∧ v.mem = _ ∧ v.hub = _ ∧ v.core.bank = _ ∧ v.op? o.id = _
  rw [hv]
  refine ⟨rfl, rfl, rfl, rfl, rfl, ?_⟩
  change u.op? o.id = _
  rw [State.mapOp_op? _ _ (fun _ => by rfl), hop]
  rfl

/-- R119: the bank that waits at a CPYW becomes ready. -/
theorem wakeBank_here {ev n : Nat} (hrun : s.core.bank.run = .event ev (.cpyw n)) :
    (s.wakeBank ev o.core o.bank).mem = s.mem ∧ (s.wakeBank ev o.core o.bank).hub = s.hub ∧
      (s.wakeBank ev o.core o.bank).ops = s.ops ∧
      (s.wakeBank ev o.core o.bank).core.bank = { s.core.bank with released := true, run := .cpyw n } := by
  have hwake : ∃ u : State, u.core = s.core ∧ u.cur = s.cur ∧ u.mem = s.mem ∧ u.hub = s.hub ∧ u.ops = s.ops ∧
      s.wakeBank ev o.core o.bank = (u.setBank { s.core.bank with released := true, run := .cpyw n }).rouse o.core := by
    refine ⟨if ((s.coreAt o.core).curBank == o.bank && (s.coreAt o.core).switching.isNone) = true then s.acquire 4 else s,
      ?_, ?_, ?_, ?_, ?_, ?_⟩
    · split <;> rfl
    · split <;> rfl
    · split <;> rfl
    · split <;> rfl
    · split <;> rfl
    · rw [State.wakeBank]
      dsimp only
      rw [State.onCoreBank_here hc hb]
      · rw [hrun]
        dsimp only
        rw [if_pos rfl]
      · rw [hrun]
        dsimp only
        rw [if_pos rfl]
        split <;> rfl
  obtain ⟨u, hucore, hucur, humem, huhub, huops, h⟩ := hwake
  obtain ⟨hrcore, hrhub⟩ := rouse_frame (u.setBank { s.core.bank with released := true, run := .cpyw n }) o.core
  have hrest : ((u.setBank { s.core.bank with released := true, run := .cpyw n }).rouse o.core).mem = u.mem ∧
      ((u.setBank { s.core.bank with released := true, run := .cpyw n }).rouse o.core).ops = u.ops := by
    unfold State.rouse
    split <;> exact ⟨rfl, rfl⟩
  rw [h, hrcore, hrhub, hrest.1, hrest.2]
  exact ⟨humem, huhub, huops, rfl⟩

end

/-- R120: the answered page itself stays where the answer puts it. -/
theorem migrate_self (s : State) (part va entry : Nat) (held : Bool) : s.migrate part va entry (va / 65536) held = s := by
  unfold State.migrate
  dsimp only
  split
  · rfl
  · exact if_pos (by rw [beq_self_eq_true, Bool.or_true, Bool.true_or, Bool.true_or])

section
variable {s : State} {o : EngineOp} {e : Event} {ev : Nat}
  (hfind : s.hub.events.find? (fun x => x.id == ev) = some e) (hthread : e.thread = none) (heop : e.op = some o.id)
  (hop : s.op? o.id = some o)
include hfind

theorem event_id : e.id = ev := by
  have := List.find?_some hfind
  rwa [beq_iff_eq] at this

include heop hop

/-- R119: an answer to the event of a flat copy sets its page's entry. -/
theorem exec_eventAnswer_page {kind loc g len pa : Nat} {co bx : List Nat} (hk : o.kind = .cpy kind loc none co bx g len)
    (hguest : s.guestHolds e.va = false) (hpte : s.absentPte (s.eventPart e) e.va = some pa) {entry : Word}
    (hpre : 0xC00000 ≤ bitsAt entry.toNat 16 36 ∨ s.prefetch (s.eventPart e) e.va = (65536, s)) :
    exec (.eventAnswer ev entry) s = .next (((s.putMem pa (leBytes 8 entry.toNat)).setHub
      { s.hub with events := s.hub.events.filter fun x => x.id != ev }).wakeEvent e) := by
  have htile : s.eventTile e = none := by
    rw [State.eventTile, heop]
    dsimp only [Option.bind]
    rw [hop]
    dsimp only
    rw [EngineOp.tensorOf, hk]
  change execEventAnswer ev entry s = _
  rw [execEventAnswer, hfind]
  dsimp only
  rw [htile]
  dsimp only
  rw [hpte]
  dsimp only [Option.map]
  rw [if_neg (by rw [Option.any_some, hguest]; exact Bool.false_ne_true)]
  by_cases hm : bitsAt entry.toNat 16 36 < 0xC00000
  · have hpage : e.va / max 1 65536 * 65536 / 65536 + 0 = e.va / 65536 := by
      rw [show max 1 65536 = 65536 from rfl, Nat.add_zero, Nat.mul_div_cancel _ (by decide)]
    have hself (part : Nat) (t : State) : (List.range (65536 / 65536)).foldl (fun s i => s.migrate part e.va entry.toNat
        (e.va / max 1 65536 * 65536 / 65536 + i) (s.guestHolds (65536 * (e.va / max 1 65536 * 65536 / 65536 + i)))) t = t := by
      rw [show 65536 / 65536 = 1 from rfl, List.range_one, List.foldl_cons, List.foldl_nil, hpage, migrate_self]
    simp only [decide_eq_true hm, Option.isSome_some, Bool.and_true, if_true, hpre.resolve_left (Nat.not_le.mpr hm),
      Option.getD_some, hself, ite_self]
    rfl
  · simp only [decide_eq_false hm, Bool.and_false, Bool.false_and, Bool.false_eq_true, if_false]
    rfl

end

end Sys2Proof.Machine
end

section
/-! PROOFS. The lines of subscriptions, and the steps of engine operations together. -/

namespace Sys2Proof.Machine

/-! ### Subscriptions (R174) -/

theorem Sub.fills_single {u : Sub} (h : u.size = 0) : u.fills = u.tiles := by
  rw [Sub.fills, h, Nat.pow_zero, Nat.add_sub_cancel, Nat.div_one]

theorem getD_drop_take (bs : List Byte) (a : Nat) {i n : Nat} (h : i < n) :
    ((bs.drop a).take n).getD i 0 = bs.getD (a + i) 0 := by
  rw [List.getD_eq_getElem?_getD, List.getElem?_take_of_lt h, List.getElem?_drop, List.getD_eq_getElem?_getD]

section
variable {s : State} {o : EngineOp} (hop : s.op? o.id = some o) (hc : o.core = s.cur) (hb : o.bank = s.core.curBank)
  (hd : o.drift = none) (hg : s.core.bank.status.guard = false) (hu : s.core.bank.undo.length ≤ 512)
include hop hc hb

/-- R174: the step of a walk of the running bank. -/
theorem exec_subsSlotFill_step {u : Sub} (hlive : o.live = true) (hsw : s.core.switching = none)
    (hsubs : s.core.bank.subs = [u]) (hid : u.op = o.id) : exec (.subsSlotFill o.id) s = .next (s.fillSub o u) := by
  have hfind : ((s.coreAt o.core).bankAt o.bank).subs.find? (fun u => u.op == o.id) = some u := by
    rw [State.bankAt_here hc hb, hsubs]
    exact List.find?_cons_of_pos (by rw [hid, beq_self_eq_true])
  change execSubsSlotFill o.id s = _
  rw [execSubsSlotFill, hop]
  dsimp only
  rw [hfind, State.coreAt_here hc, hsw, hlive, hb]
  dsimp only
  rw [if_neg (by decide), if_neg (by simp)]

include hd hg hu

/-- R174: a line of a slot lands. -/
theorem slotLine_lands {t : State} (ht : s.EngineFrame t) (hmem : t.mem = s.mem) (hstore : t.core.store = s.core.store)
    (base die : Nat) (bytes : List Byte) :
    (t.slotLine o base die bytes).mem = s.mem ∧
      (t.slotLine o base die bytes).agenda = s.agenda ++ [.event (.subsSlotFill o.id)] ∧
      (t.slotLine o base die bytes).op? o.id = some { o with done := o.done + 1, old := die, data := bytes } ∧
      (t.slotLine o base die bytes).core.store =
        writeBytes s.core.store (base + 128 * o.done) ((bytes.drop (128 * o.done)).take 128) := by
  let v : State := { t with agent := .primary }
  obtain ⟨hcarry, hcmem, hccore⟩ := v.carry_frame die (dieOf v.cur)
  have hvg : (v.carry die (dieOf v.cur)).core.bank.status.guard = false := by
    rw [hcarry.status, show v.core.bank.status = s.core.bank.status from ht.status]
    exact hg
  have hvu : (v.carry die (dieOf v.cur)).core.bank.undo.length ≤ 512 := by
    rw [hcarry.undo, show v.core.bank.undo = s.core.bank.undo from ht.undo]
    exact hu
  obtain ⟨hframe, hdmem, hdstore, -⟩ := State.deliver_unguarded hvg hvu (base + 128 * o.done)
    ((bytes.drop (128 * o.done)).take 128) 0
  obtain ⟨hasop, hamem, hacore⟩ := State.asOp_frame (s := t) (o := o) (f := fun s => (s.carry die (dieOf s.cur)).deliver
    (base + 128 * o.done) ((bytes.drop (128 * o.done)).take 128)) (hc.trans ht.cur.symm) (hb.trans ht.curBank.symm) hd
    (hcarry.trans hframe)
  have hall := ht.trans hasop
  refine ⟨hamem.trans (hdmem.trans (hcmem.trans hmem)), congrArg (· ++ [_]) hall.agenda, ?_, ?_⟩
  · change (State.mapOp _ o.id _).op? o.id = _
    rw [State.mapOp_op? _ _ (fun _ => by rfl), State.op?_congr hall.ops, hop]
    rfl
  · refine (congrArg Core.store hacore).trans (hdstore.trans ?_)
    rw [hccore]
    exact congrArg (fun m => writeBytes m _ _) hstore

end

theorem touchWhole_caches (t : State) (o : EngineOp) (fs : List (Nat × Nat)) : t.ChangesCaches (t.touchWhole o fs) :=
  State.changesCaches_foldl (fun u _ => State.changesCaches_foldl (fun v _ => v.changesCaches_touchL2 _ _ _ _) _ u) fs t

section
variable {s : State} {o : EngineOp} {u : Sub}

/-- R174: the frame of the one tile of a slot, through the memory port of the bank's core. -/
theorem opTiles_single (hc : o.core = s.cur) {n e pa line : Nat} {t : Tensor} {tid : Nat}
    (hword : s.tileWordOn o.core o.bank o.part o.user t tid n = .ok e) (hgrant : s.tileGrant e false = .ok pa)
    (k : List (Nat × Nat) → State → State) :
    ∃ x, s.opTiles o t tid line false [n] k = k [(n, pa)] (s.setCore { s.core with xlats := x }) := by
  have hhere : (s.onCore o.core fun s => s.setCore (s.core.touchXlat { bank := o.bank, tid := tid, tile := n, entry := e })) =
      s.setCore (s.core.touchXlat { bank := o.bank, tid := tid, tile := n, entry := e }) := by
    rw [hc]
    exact State.onCore_cur rfl
  refine ⟨(s.core.touchXlat { bank := o.bank, tid := tid, tile := n, entry := e }).xlats, ?_⟩
  rw [State.opTiles, State.withTile, hword]
  dsimp only
  rw [hgrant]
  dsimp only
  rw [hhere, State.opTiles]
  rfl

section
variable (hsize : u.size = 0) (hdel : u.delivered < u.tiles) (hopen : u.freed.testBit (u.delivered % u.nslot) = true)
include hsize hdel hopen

/-- R174: the walk's next slot may be filled. -/
theorem fillSub_due : ¬ (!u.open_ || decide (u.fills ≤ u.delivered)) = true := by
  rw [show u.open_ = true from hopen, Sub.fills_single hsize, Bool.not_true, Bool.false_or, decide_eq_true_eq]
  exact Nat.not_le.mpr hdel

omit hdel hopen in
theorem slotUnit (n : Nat) : unitAddr n (u.first + 2 ^ u.size * (u.delivered % u.nslot)) =
    unitAddr n (u.first + u.delivered % u.nslot) := by
  rw [hsize, Nat.pow_zero, Nat.one_mul]

/-- R174: all lines of the slot have landed. -/
theorem fillSub_last (hdone : o.done = 512) (hheld : s.deliveryHeld o.core o.bank (u.stat / 128) = false) :
    s.fillSub o u = s.slotLanded o u := by
  have hlast : 512 * 2 ^ u.size ≤ o.done := by rw [hsize, hdone]; decide
  unfold State.fillSub
  exact (if_neg (fillSub_due hsize hdel hopen)).trans ((if_pos hlast).trans (if_neg (Bool.eq_false_iff.mp hheld)))

section
variable (hdone : o.done < 512)
  (hheld : s.deliveryHeld o.core o.bank (unitAddr o.bank (u.first + u.delivered % u.nslot) / 128 + o.done) = false)
include hdone hheld

/-- R174: a later line of the slot. -/
theorem fillSub_line (hpos : 0 < o.done) :
    s.fillSub o u = s.slotLine o (unitAddr o.bank (u.first + u.delivered % u.nslot)) o.old o.data := by
  have hlast : ¬ 512 * 2 ^ u.size ≤ o.done := by rw [hsize]; omega
  unfold State.fillSub
  dsimp only
  rw [slotUnit hsize]
  exact (if_neg (fillSub_due hsize hdel hopen)).trans ((if_neg hlast).trans ((if_neg (Bool.eq_false_iff.mp hheld)).trans
    (if_pos hpos)))

omit hdone in
/-- R111, R174: the first line of the slot, with the slot's tile read whole. -/
theorem fillSub_first (hc : o.core = s.cur) (hzero : o.done = 0) {n e pa : Nat}
    (htiles : u.nextTiles.map u.tensor.tileOf = [some n]) (hedge : u.tensor.edgeFault (some n) = false)
    (hword : s.tileWordOn o.core o.bank o.part o.user u.tensor u.tid n = .ok e) (hgrant : s.tileGrant e false = .ok pa) :
    ∃ t : State, s.EngineFrame t ∧ t.mem = s.mem ∧ t.core.store = s.core.store ∧
      s.fillSub o u = t.slotLine o (unitAddr o.bank (u.first + u.delivered % u.nslot)) (homeOf pa)
        (u.tensor.readTile s.mem n pa) := by
  have hlast : ¬ 512 * 2 ^ u.size ≤ o.done := by rw [hsize]; omega
  have hfault : u.nextTiles.find? (fun c => u.tensor.edgeFault (u.tensor.tileOf c)) = none := by
    rw [List.find?_eq_none]
    intro c hcm
    have htile : u.tensor.tileOf c = some n := by
      have := List.mem_map_of_mem (f := u.tensor.tileOf) hcm
      rw [htiles, List.mem_singleton] at this
      exact this
    rw [htile, hedge]
    exact Bool.false_ne_true
  let base := unitAddr o.bank (u.first + u.delivered % u.nslot)
  let k : List (Nat × Nat) → State → State := fun fs s => (s.touchWhole o fs).slotLine o base (match fs with
    | f :: _ => homeOf f.2
    | [] => 16) (s.slotBytes u.tensor fs [some n])
  obtain ⟨x, htile⟩ := opTiles_single (line := base) hc hword hgrant k
  let v := s.setCore { s.core with xlats := x }
  have hv : s.EngineFrame v := ⟨rfl, rfl, rfl, rfl, rfl, rfl, rfl, rfl, rfl⟩
  have hcaches := touchWhole_caches v o [(n, pa)]
  obtain ⟨hmem, hstore, -, -⟩ := hcaches.stores
  have hbytes : v.slotBytes u.tensor [(n, pa)] [some n] = u.tensor.readTile s.mem n pa := by
    rw [State.slotBytes, List.flatMap_singleton]
    dsimp only [Option.bind_some]
    have hframe : [(n, pa)].find? (fun f => f.1 == n) = some (n, pa) := List.find?_cons_of_pos (beq_self_eq_true n)
    rw [hframe]
    rfl
  refine ⟨v.touchWhole o [(n, pa)], hv.trans (.of_caches hcaches), hmem, hstore, ?_⟩
  have hfill : s.fillSub o u = s.opTiles o u.tensor u.tid base false (sortNats [n]) k := by
    unfold State.fillSub
    dsimp only
    rw [slotUnit hsize]
    refine (if_neg (fillSub_due hsize hdel hopen)).trans ((if_neg hlast).trans ((if_neg (Bool.eq_false_iff.mp hheld)).trans
      ((if_neg (by omega)).trans ?_)))
    rw [hfault, htiles] <;> rfl
  rw [hfill, show sortNats [n] = [n] from rfl, htile]
  change (v.touchWhole o [(n, pa)]).slotLine o base (homeOf pa) (v.slotBytes u.tensor [(n, pa)] [some n]) = _
  rw [hbytes]

end

end

end

/-- R174: the subscription once a slot has landed. -/
def Sub.landed (u : Sub) : Sub :=
  { u with delivered := u.delivered + 1, freed := u.freed - 2 ^ (u.delivered % u.nslot) }

section
variable {s : State} {o : EngineOp} (hop : s.op? o.id = some o) (hc : o.core = s.cur) (hb : o.bank = s.core.curBank)
  (hd : o.drift = none) (hg : s.core.bank.status.guard = false) (hu : s.core.bank.undo.length ≤ 512) {u : Sub}
  (hsubs : s.core.bank.subs = [u])
include hop hc hb hd hg hu hsubs

/-- R174: STAT is written, and the slot counts. -/
theorem slotStat_lands :
    ∃ t : State, t.cur = s.cur ∧ t.core.curBank = s.core.curBank ∧ t.mem = s.mem ∧ t.agenda = s.agenda ∧
      t.core.store = writeBytes s.core.store u.stat (leBytes 8 (u.delivered + 1)) ∧ t.core.bank.cbs = s.core.bank.cbs ∧
      t.core.bank.subs = [u.landed] ∧ t.op? o.id = some { o with done := 0, data := [] } ∧
      s.slotLanded o u = if u.landed.fills ≤ u.landed.delivered then t.finishOp o none
        else if u.landed.open_ then t.later [.event (.subsSlotFill o.id)] else t := by
  let v : State := { s with agent := .primary }
  let r := v.dieRelease o.old 3
  obtain ⟨hcarry, hcmem, hccore⟩ := r.carry_frame o.old (dieOf r.cur)
  obtain ⟨d, hdeq, hall, hdmem, hdstore⟩ : ∃ d : State,
      d = (r.carry o.old (dieOf r.cur)).deliver u.stat (leBytes 8 (u.delivered + 1)) ∧ s.EngineFrame d ∧ d.mem = s.mem ∧
        d.core.store = writeBytes s.core.store u.stat (leBytes 8 (u.delivered + 1)) := by
    obtain ⟨hframe, hdmem, hdstore, -⟩ := State.deliver_unguarded (s := r.carry o.old (dieOf r.cur))
      (by rw [hcarry.status]; exact hg) (by rw [hcarry.undo]; exact hu) u.stat (leBytes 8 (u.delivered + 1)) 0
    have hr : s.EngineFrame r := ⟨rfl, rfl, rfl, rfl, rfl, rfl, rfl, rfl, rfl⟩
    refine ⟨_, rfl, (hr.trans hcarry).trans hframe, hdmem.trans hcmem, hdstore.trans ?_⟩
    rw [hccore]
    rfl
  let f : State → State := fun s =>
    let s := ((s.dieRelease o.old 3).carry o.old (dieOf s.cur)).deliver u.stat (leBytes 8 (u.delivered + 1))
    s.setBank { s.core.bank with subs := s.core.bank.subs.map fun x => if x.op = u.op then u.landed else x }
  have hf : f v = d.setBank { d.core.bank with subs := [u.landed] } := by
    have hmap : d.core.bank.subs.map (fun x => if x.op = u.op then u.landed else x) = [u.landed] := by
      rw [hall.subs, hsubs, List.map_singleton, if_pos rfl]
    rw [← hmap, hdeq]
    rfl
  have hhere : s.asOp o f = { d.setBank { d.core.bank with subs := [u.landed] } with agent := s.agent } := by
    rw [← hf]
    refine State.asOp_here hc hb hd ?_
    change (f v).cur = _
    rw [hf]
    exact hall.cur
  have hland : s.slotLanded o u = if u.landed.fills ≤ u.landed.delivered then
        ((s.asOp o f).mapOp o.id fun x => { x with done := 0, data := [] }).finishOp o none
      else if u.landed.open_ then ((s.asOp o f).mapOp o.id fun x => { x with done := 0, data := [] }).later
        [.event (.subsSlotFill o.id)]
      else (s.asOp o f).mapOp o.id fun x => { x with done := 0, data := [] } := rfl
  rw [hland, hhere]
  refine ⟨({ d.setBank { d.core.bank with subs := [u.landed] } with agent := s.agent } : State).mapOp o.id fun x =>
    { x with done := 0, data := [] }, hall.cur, hall.curBank, hdmem, hall.agenda, hdstore, hall.cbs, rfl, ?_, rfl⟩
  rw [State.mapOp_op? _ _ (fun _ => by rfl), State.op?_congr (t := { d.setBank { d.core.bank with subs := [u.landed] } with
    agent := s.agent }) hall.ops, hop]
  rfl

end

/-- Settles O48: each step as an act of the running bank, and what it leaves unchanged. -/
theorem engineEvents : Obligations.EngineEvents := by
  intro s o hop hc hb hd hsaved hcb hg hh hu hwf hwfs b rd sound
  have hlive (hstop : o.stop = none) : o.live = true := by rw [EngineOp.live, EngineOp.halted, hstop, hsaved]; rfl
  refine ⟨fun loc co bx g len pa hstop hsound hdone => ?_, fun va op x cmp reg pa hstop hsound hk hop9 hx => ?_,
    fun kind va hstop hrec hpark => ?_,
    fun ev e entry pa kind loc co bx g len hfind hthread heop hstop hk hrun hguest hpte hlone hpre => ?_,
    fun k l r hk hl hf hstop hdis => ?_, fun u hstop hsw hsubs hid hsize hslot hdel hopen hmax => ?_⟩
  · have hdead := State.opDead_here hc hb hsound
    refine ⟨fun hk hheld hx => ?_, fun hk hheld hx => ?_⟩
    · have hline : o.hasLine = true := by
        rw [EngineOp.hasLine, hk]
        exact decide_eq_true hdone
      obtain ⟨hmem, hstore, hop', hagenda⟩ := cpyLine_in hop hc hb hd hg hh hu hk hheld hx
      refine ⟨_, exec_engineLineLand_step hop (hlive hstop) hline hdead, hmem, hop', fun i hi => ?_, fun x hx => ?_, hagenda⟩
      · rw [hstore, memByte_writeBytes hwfs, length_readBytes, if_pos (by omega), Nat.add_sub_cancel_left]
        simp [readBytes, hi]
      · rw [hstore, memByte_writeBytes_out hwfs (by rw [length_readBytes]; exact hx)]
    · have hline : o.hasLine = true := by
        rw [EngineOp.hasLine, hk]
        exact decide_eq_true hdone
      obtain ⟨hstore, hop', hmem⟩ := cpyLine_out hop hc hb hd hg hk hheld hx
      have hbyte (i : Nat) (hi : i < 128) : memByte (s.lineStep o).mem (pa + i) =
          memByte ((s.core.afterFence o.seq).seenBefore o.seq) (loc + 128 * o.done + i) := by
        rw [hmem, memByte_writeBytes hwf, length_readBytes, if_pos (by omega), Nat.add_sub_cancel_left]
        simp [readBytes, hi]
      refine ⟨_, exec_engineLineLand_step hop (hlive hstop) hline hdead, hstore, hop', hbyte, fun hpend hpark i hi => ?_,
        fun x hx => ?_⟩
      · have hseen : (s.core.afterFence o.seq).seenBefore o.seq = s.core.store := by
          have hps : (s.core.afterFence o.seq).bank.pend = [] ∧ (s.core.afterFence o.seq).bank.parked = [] := by
            unfold Core.afterFence Core.publish
            split
            · exact ⟨List.map_eq_nil_iff.mpr hpend, List.map_eq_nil_iff.mpr hpark⟩
            · exact ⟨hpend, hpark⟩
          rw [Core.seenBefore, hps.1, hps.2]
          exact Core.afterFence_store _ _
        rw [hbyte i hi, hseen]
      · rw [hmem, memByte_writeBytes_out hwf (by rw [length_readBytes]; exact hx)]
  · intro old
    have hbytes : atomBytes op = 8 := if_neg (by omega)
    obtain ⟨hmem, hbar, hnone⟩ := atomDone_performs hc hb hd hg hh (op := op) (x := x) (cmp := cmp) hcb hx
    have hend : s.endOp o = s.atomDone o va op x cmp := by rw [State.endOp, hk]
    rw [hbytes] at hbar
    refine ⟨_, exec_engineOpComplete_step hop (hlive hstop) (State.opDead_here hc hb hsound), ?_, fun y hy => ?_, ?_, ?_, ?_⟩
    · rw [hend, hmem, ← hbytes, readNat_writeBytes_atomOn hwf, hbytes]
      exact Nat.mod_eq_of_lt (atomNew op old x cmp).isLt
    · rw [hend, hmem, memByte_writeBytes_out hwf]
      rwa [atomOn, length_leBytes, hbytes]
    · rw [hend, hbar]
      rfl
    · rw [hend, hbar]
      rfl
    · rw [hend, hnone]
  · obtain ⟨hr, hop', hmem, hstore⟩ := stopOp_record hop hc hb hd hcb hrec hpark kind va (o.lineAt va)
    exact ⟨_, _, exec_engineOpFault_step hop (hlive hstop) kind va, hr, rfl, rfl, rfl, hop', hmem, hstore⟩
  · let u := (s.putMem pa (leBytes 8 entry.toNat)).setHub
      { s.hub with events := s.hub.events.filter fun x => x.id != ev }
    obtain ⟨hcur, hcurBank, hmem, hhub, hbank, hres⟩ := resumeOp_here (s := u) (o := o) hc hb hd hop hlone
    have hrun' : (u.resumeOp o).core.bank.run = .event ev (.cpyw o.cb) := by
      rw [hbank, Bank.setCb_frame]
      exact hrun
    obtain ⟨hwmem, hwhub, hwops, hwbank⟩ := wakeBank_here (s := u.resumeOp o) (o := o) (hc.trans hcur.symm)
      (hb.trans hcurBank.symm) hrun'
    have hwake : u.wakeEvent e = (u.resumeOp o).wakeBank ev o.core o.bank := by
      have hop' : u.op? o.id = some o := hop
      rw [State.wakeEvent, hthread, heop]
      dsimp only
      rw [hop']
      dsimp only
      rw [hstop, event_id hfind]
      rfl
    refine ⟨_, exec_eventAnswer_page hfind heop hop hk hguest hpte hpre, ?_⟩
    change readNat (u.wakeEvent e).mem pa 8 = _ ∧ (∀ y, _ → memByte (u.wakeEvent e).mem y = _) ∧
      (∀ x ∈ (u.wakeEvent e).hub.events, _) ∧ (u.wakeEvent e).core.bank.run = _ ∧
      (u.wakeEvent e).core.bank.released = _ ∧ ((u.wakeEvent e).core.bank.cb o.cb).record = _ ∧ (u.wakeEvent e).op? o.id = _
    have humem : u.mem = writeBytes s.mem pa (leBytes 8 entry.toNat) := rfl
    rw [hwake, hwmem, hmem, hwhub, hhub, hwbank, State.op?_congr hwops, hres, humem]
    refine ⟨?_, fun y hy => ?_, fun x hx => ?_, rfl, rfl, ?_, rfl⟩
    · rw [readNat_writeBytes hwf]
      exact Nat.mod_eq_of_lt entry.isLt
    · exact memByte_writeBytes_out hwf (by rwa [length_leBytes])
    · change x ∈ s.hub.events.filter _ at hx
      rw [List.mem_filter, bne_iff_ne] at hx
      exact hx.2
    · change ((u.resumeOp o).core.bank.cb o.cb).record = none
      rw [hbank, Bank.setCb_self _ hcb]
  · obtain ⟨hbar, hnone, hmem, hstore, -⟩ := State.finishOp_done hc hb hd none hcb
    exact ⟨_, exec_engineOpComplete_dead hop (hlive hstop) (State.opDead_faulted hc hb hk hl hf hdis), hmem, hstore, hnone,
      congrArg Barrier.count hbar⟩
  · intro a again line
    have hexec := exec_subsSlotFill_step hop hc hb (hlive hstop) hsw hsubs hid
    have hheld' {k : Nat} (hk : o.done = k) (h : s.deliveryHeld s.cur s.core.curBank (a / 128 + k) = false) :
        s.deliveryHeld o.core o.bank (unitAddr o.bank (u.first + u.delivered % u.nslot) / 128 + o.done) = false := by
      rw [hc, hb, hk]
      exact h
    have hlands {t : State} {k die : Nat} {bytes : List Byte} (hk : o.done = k) (hlt : k < 512) (hlen : bytes.length = 65536)
        (ht : s.EngineFrame t) (hmem : t.mem = s.mem) (hstore : t.core.store = s.core.store)
        (hfill : s.fillSub o u = t.slotLine o (unitAddr o.bank (u.first + u.delivered % u.nslot)) die bytes) :
        ∃ r, exec (.subsSlotFill o.id) s = .next r ∧ r.mem = s.mem ∧ r.agenda = s.agenda ++ [again] ∧
          r.op? o.id = some { o with done := k + 1, old := die, data := bytes } ∧
          (∀ i < 128, memByte r.core.store (a + 128 * k + i) = bytes.getD (128 * k + i) 0) ∧
          ∀ x, x < a + 128 * k ∨ a + 128 * k + 128 ≤ x → memByte r.core.store x = memByte s.core.store x := by
      obtain ⟨hmem', hagenda, hop', hstore'⟩ := slotLine_lands hop hc hb hd hg hu ht hmem hstore
        (unitAddr o.bank (u.first + u.delivered % u.nslot)) die bytes
      have hlen' : ((bytes.drop (128 * k)).take 128).length = 128 := by
        rw [List.length_take, List.length_drop, hlen]
        omega
      rw [hfill] at hexec
      have ha : unitAddr o.bank (u.first + u.delivered % u.nslot) = a := by rw [hb]
      rw [hk] at hstore'
      refine ⟨_, hexec, hmem', hagenda, hk ▸ hop', fun i hi => ?_, fun x hx => ?_⟩
      · rw [hstore', ha, memByte_writeBytes hwfs, hlen', if_pos ⟨Nat.le_add_right _ _, by omega⟩, Nat.add_sub_cancel_left,
          getD_drop_take _ _ hi]
      · rw [hstore', ha, memByte_writeBytes_out hwfs (by rwa [hlen'])]
    refine ⟨fun n e pa hzero htiles hedge hword hgrant hlen hheld => ?_, fun n e hzero htiles hedge hx hword => ?_,
      fun hpos hlt hlen hheld => ?_, fun hlast hheld => ?_⟩
    · obtain ⟨t, ht, hmem, hstore, hfill⟩ := fillSub_first hsize hdel hopen (hheld' hzero hheld) hc hzero htiles
        hedge (by rw [hc, hb]; exact hword) hgrant
      exact hlands hzero (by decide) hlen ht hmem hstore hfill
    · rw [State.tileWordOn, show s.coreAt s.cur = s.core from if_pos rfl, hx]
      exact hword
    · exact hlands rfl hlt hlen (.refl s) rfl rfl (fillSub_line hsize hdel hopen hlt (hheld' rfl hheld) hpos)
    · have hfill := fillSub_last hsize hdel hopen hlast (by rw [hc, hb]; exact hheld)
      obtain ⟨t, hcur, hcurBank, hmem, hagenda, hstore, hcbs, hsubs', hop', hland⟩ :=
        slotStat_lands hop hc hb hd hg hu hsubs
      have hfills : u.landed.fills = u.tiles := Sub.fills_single hsize
      rw [hfill, hland, hfills] at hexec
      have hread : readNat t.core.store u.stat 8 = u.delivered + 1 := by
        rw [hstore, readNat_writeBytes hwfs]
        exact Nat.mod_eq_of_lt hmax
      have hrest (x : Nat) (hx : x < u.stat ∨ u.stat + 8 ≤ x) : memByte t.core.store x = memByte s.core.store x := by
        rw [hstore, memByte_writeBytes_out hwfs (by rwa [length_leBytes])]
      by_cases hmore : u.tiles ≤ u.landed.delivered
      · rw [if_pos hmore] at hexec
        obtain ⟨hbar, hnone, hfmem, hfstore, hfsubs⟩ := State.finishOp_done (hc.trans hcur.symm) (hb.trans hcurBank.symm) hd
          none hcb
        refine ⟨_, hexec, hfmem.trans hmem, by rw [hfstore]; exact hread, by rw [hfstore]; exact hrest,
          fun hlt => absurd hmore (Nat.not_le.mpr hlt), fun _ => ⟨?_, hnone, ?_⟩⟩
        · rw [hbar, Bank.cb, hcbs]
          rfl
        · rw [hfsubs, hsubs']
          have hall : decide (u.landed.fills ≤ u.landed.delivered) = true := by rw [hfills]; exact decide_eq_true hmore
          cases hcomplete : ((t.finishOp o none).core.bank.cb u.cb).complete with
          | true => exact List.filter_cons_of_neg (by
              change ¬ (!(((t.finishOp o none).core.bank.cb u.cb).complete && decide (u.landed.fills ≤ u.landed.delivered))) = true
              rw [hall, hcomplete]
              exact Bool.false_ne_true)
          | false => exact List.filter_cons_of_pos (by
              change (!(((t.finishOp o none).core.bank.cb u.cb).complete && decide (u.landed.fills ≤ u.landed.delivered))) = true
              rw [hall, hcomplete]
              rfl)
      · rw [if_neg hmore] at hexec
        refine ⟨_, hexec, ?_⟩
        cases hnext : u.landed.open_ with
        | true =>
          rw [if_pos rfl]
          refine ⟨hmem, hread, hrest, fun _ => ⟨hsubs', hop', ?_⟩, fun h => absurd h hmore⟩
          exact (congrArg (· ++ [again]) hagenda).trans (congrArg (s.agenda ++ ·) (if_pos hnext).symm)
        | false =>
          rw [if_neg Bool.false_ne_true]
          refine ⟨hmem, hread, hrest, fun _ => ⟨hsubs', hop', ?_⟩, fun h => absurd h hmore⟩
          exact hagenda.trans ((List.append_nil _).symm.trans (congrArg (s.agenda ++ ·)
            (if_neg (Bool.eq_false_iff.mp hnext)).symm))

end Sys2Proof.Machine
end

section
/-! PROOFS. Fabric links: pairing, transfers, flits, lanes and stamped writes. -/

namespace Sys2Proof.Machine

/-! ### Pairing and transfers (R250, R251) -/

theorem onChannel_cons (x : Nat × Nat) (xs : List (Nat × Nat)) (ch : Nat) :
    onChannel (x :: xs) ch = if x.1 = ch then x.2 :: onChannel xs ch else onChannel xs ch := by
  unfold onChannel
  by_cases h : x.1 = ch
  · rw [if_pos h, List.filter_cons_of_pos (by rw [h, beq_self_eq_true]), List.map_cons]
  · rw [if_neg h, List.filter_cons_of_neg (by rwa [beq_iff_eq])]

theorem onChannel_dropFirst (xs : List (Nat × Nat)) (ch : Nat) : onChannel (dropFirst ch xs) ch = (onChannel xs ch).tail := by
  induction xs with
  | nil => rfl
  | cons x xs ih =>
    rw [dropFirst, onChannel_cons]
    by_cases h : x.1 = ch
    · rw [if_pos h, if_pos h, List.tail_cons]
    · rw [if_neg h, if_neg h, onChannel_cons, if_neg h, ih]

theorem op?_id {s : State} {id : Nat} {o : EngineOp} (h : s.op? id = some o) : o.id = id := by
  have := List.find?_some h
  rwa [beq_iff_eq] at this

theorem State.mapPort_self (s : State) (p : Nat) (f : Port → Port) : (s.mapPort p f).port p = f (s.port p) :=
  (State.mapPort_port s p f p).trans (if_pos rfl)

/-- R250: an operation is paired with one of equal length. -/
theorem pairOp_equal {s : State} {o : EngineOp} {id port ch a n : Nat} (hop : s.op? id = some o)
    (hk : o.kind.link = some (port, ch, a, n)) (data : List Byte) :
    (s.pairOp id n data).op? id = some { o with paired := true, data := data } ∧
      (s.pairOp id n data).ports = s.ports ∧
      (s.pairOp id n data).agenda = s.agenda ++ [.event (.engineLineLand o.id)] := by
  have h : s.pairOp id n data = (s.mapOp id fun o => { o with paired := true, data := data }).later [o.lineEvent] := by
    rw [State.pairOp, hop]
    dsimp only
    rw [hk]
    exact if_pos rfl
  rw [h]
  refine ⟨?_, rfl, rfl⟩
  change (s.mapOp id _).op? id = _
  rw [State.mapOp_op? _ _ (fun _ => by rfl), hop]
  rfl

section
variable {s : State} {port ch id : Nat}

/-- R250: LINK_PAIR with a send and a posted receive. -/
theorem exec_linkPair_send {n : Nat} (hsend : onChannel (s.port port).sends ch = [id])
    (hcredit : onChannel (s.port port).credits ch = [n]) (hrecv : onChannel (s.port port).recvs ch = []) :
    exec (.linkPair port ch) s = .next ((s.mapPort port fun p =>
      { p with sends := dropFirst ch p.sends, credits := dropFirst ch p.credits }).pairOp id n []) := by
  change execLinkPair port ch s = _
  rw [execLinkPair]
  rw [hsend, hcredit, hrecv]

/-- R250: LINK_PAIR with a receive and what has arrived. -/
theorem exec_linkPair_recv {data : List Byte} (hsend : onChannel (s.port port).sends ch = [])
    (hrecv : onChannel (s.port port).recvs ch = [id]) (hin : (s.port port).incoming = [(ch, data)]) :
    exec (.linkPair port ch) s = .next ((s.mapPort port fun p =>
      { p with recvs := dropFirst ch p.recvs, incoming := dropFirst ch p.incoming }).pairOp id data.length data) := by
  have hfilter : [(ch, data)].filter (fun x : Nat × List Byte => x.1 == ch) = [(ch, data)] :=
    List.filter_cons_of_pos (beq_self_eq_true ch)
  change execLinkPair port ch s = _
  rw [execLinkPair]
  rw [hsend, hrecv, hin, hfilter]

theorem exec_linkTransferDone_single {o : EngineOp} (h : s.ops.filter (fun x => x.linkDone port ch) = [o]) :
    exec (.linkTransferDone port ch) s = .next (s.linkEnd o) := by
  change execLinkTransferDone port ch s = _
  rw [execLinkTransferDone, h]
  rfl

/-- R138, R251: a receive of the running bank ends. -/
theorem linkEnd_recv {o : EngineOp} {a n : Nat} (hk : o.kind = .lrecv port ch a n) (hc : o.core = s.cur)
    (hb : o.bank = s.core.curBank) (hd : o.drift = none) (hcb : o.cb < 8) :
    (s.linkEnd o).op? o.id = none ∧ (s.linkEnd o).ord = s.ord ++ [.acquire s.cur none 4] ∧
      (s.linkEnd o).port port = { s.port port with landed := (s.port port).landed ++ [ch] } ∧
      (s.linkEnd o).core.bank.cb o.cb =
        ({ s.core.bank.cb o.cb with coll := true } : Barrier).finish o.id none := by
  let m := s.mapPort port fun q => { q with landed := q.landed ++ [ch] }
  let f : State → State := fun s =>
    let s := s.acquire 4
    s.setBank (s.core.bank.setCb o.cb { s.core.bank.cb o.cb with coll := true })
  have hhere : m.asOp o f = { f { m with agent := .primary } with agent := s.agent } := State.asOp_here (s := m) hc hb hd rfl
  have hend : s.linkEnd o = (m.asOp o f).finishOp o none := by
    rw [State.linkEnd, hk, hd]
    rfl
  have hcur : (m.asOp o f).cur = s.cur := by rw [hhere]; rfl
  have hcurBank : (m.asOp o f).core.curBank = s.core.curBank := by rw [hhere]; rfl
  obtain ⟨x, hfin⟩ := State.finishOp_here (s := m.asOp o f) (hc.trans hcur.symm) (hb.trans hcurBank.symm) hd none
  obtain ⟨hbar, hnone, -, -, -⟩ := State.finishOp_done (s := m.asOp o f) (hc.trans hcur.symm) (hb.trans hcurBank.symm) hd none
    hcb
  have hcoll : (m.asOp o f).core.bank.cb o.cb = { s.core.bank.cb o.cb with coll := true } := by
    rw [hhere]
    exact Bank.setCb_self _ hcb _
  rw [hend]
  refine ⟨hnone, ?_, ?_, by rw [hbar, hcoll]⟩
  · rw [hfin]
    change (m.asOp o f).ord = _
    rw [hhere]
    rfl
  · rw [hfin]
    change (m.asOp o f).port port = _
    rw [hhere]
    exact State.mapPort_self s port fun q => { q with landed := q.landed ++ [ch] }

/-- R251: a send has left. -/
theorem linkEnd_send {o : EngineOp} {a n : Nat} (hk : o.kind = .lsend port ch a n) (hold : o.old = 0) :
    s.linkEnd o = (s.mapPort port fun q => { q with sent := q.sent ++ [(ch, o.data)] }).mapOp o.id fun x =>
      { x with old := 1 } := by
  rw [State.linkEnd, hk]
  exact if_pos hold

/-- R251: the one send that has left on a channel ends when the neighbour says so. -/
theorem sendLanded_single {o : EngineOp} {a n : Nat} (hk : o.kind = .lsend port ch a n) (hlive : o.live = true)
    (hone : s.ops.filter (fun x => x.old == 1) = [o]) : s.sendLanded port ch = s.finishOp o none := by
  have hmem : o ∈ s.ops.filter (fun x => x.old == 1) := by rw [hone]; exact List.mem_singleton_self o
  rw [List.mem_filter] at hmem
  have hfind : ∀ mine : EngineOp → Bool, mine o = true → (∀ x, mine x = true → (x.old == 1) = true) →
      s.ops.find? mine = some o := by
    intro mine hmine hold
    cases hf : s.ops.find? mine with
    | none => exact absurd hmine (List.find?_eq_none.mp hf o hmem.1)
    | some x =>
      have hx := List.find?_some hf
      have hin : x ∈ s.ops.filter (fun x => x.old == 1) :=
        List.mem_filter.mpr ⟨List.mem_of_find?_eq_some hf, hold x hx⟩
      rw [hone, List.mem_singleton] at hin
      rw [hin]
  rw [State.sendLanded]
  rw [hfind]
  · rw [hk, hlive, hmem.2]
    simp
  · intro x hx
    rw [Bool.and_eq_true, Bool.and_eq_true] at hx
    exact hx.1.2

end

/-! ### Flits (R247, R253) -/

section
variable {s : State} {port : Nat} {f : Flit}

theorem exec_flitReceive_left (h : f.crcOk = false ∨ f.seq ≠ (s.port port).expect) :
    exec (.flitReceive port f) s = .next s := by
  refine if_pos ?_
  simp only [Bool.or_eq_true, Bool.not_eq_true', decide_eq_true_eq]
  tauto

variable (hport : port < 24) (hdown : (s.port port).down = false) (hcrc : f.crcOk = true)
  (hseq : f.seq = (s.port port).expect)
include hport hdown hcrc hseq

theorem exec_flitReceive_taken : exec (.flitReceive port f) s =
    .next ((s.mapPort port fun p => { p with expect := (p.expect + 1) % 65536 }).takeFlit port f) := by
  refine if_neg ?_
  simp only [Bool.or_eq_true, Bool.not_eq_true', decide_eq_true_eq, hdown, hcrc, hseq]
  simp [hport]

end

/-- R142: the stamp of a flit without deltas. -/
theorem takeStamp_none (s : State) (port : Nat) :
    ∃ c, s.takeStamp port [] = { s.mapPort port fun p => { p with stamp := (s.port port).stamp } with clocks := c } :=
  ⟨_, rfl⟩

theorem takeFlit_stamped {s : State} {port : Nat} {f : Flit} (hdeltas : f.deltas = []) :
    (f.type = 2 → ∀ m, f.msg = some m → s.takeFlit port f =
      (s.takeStamp port []).later [.event (.taggedMessage { m with dest := BitVec.ofNat 8 (2 + port) })]) ∧
    (f.type = 3 → s.takeFlit port f = (s.takeStamp port []).takeCredit port f) := by
  refine ⟨fun ht m hm => ?_, fun ht => ?_⟩
  · rw [State.takeFlit, ht, hdeltas]
    refine (if_neg (by decide)).trans ?_
    change (match f.msg with
      | some m => _
      | none => _) = _
    rw [hm]
  · rw [State.takeFlit, ht, hdeltas]
    exact if_neg (by decide)

/-! ### Lanes (R248) -/

/-- Port by port, whether it is down and its unpaired operations stand. -/
def State.KeepsLinks (s t : State) : Prop :=
  ∀ q, (t.port q).down = (s.port q).down ∧ (t.port q).sends = (s.port q).sends ∧ (t.port q).recvs = (s.port q).recvs

theorem State.KeepsLinks.refl (s : State) : s.KeepsLinks s := fun _ => ⟨rfl, rfl, rfl⟩

theorem State.KeepsLinks.trans {s t u : State} (h₁ : s.KeepsLinks t) (h₂ : t.KeepsLinks u) : s.KeepsLinks u := fun q => by
  obtain ⟨hd, hs, hr⟩ := h₁ q
  obtain ⟨hd', hs', hr'⟩ := h₂ q
  exact ⟨hd'.trans hd, hs'.trans hs, hr'.trans hr⟩

theorem State.keepsLinks_foldl {α : Type} {f : State → α → State} (hf : ∀ (s : State) x, s.KeepsLinks (f s x)) (xs : List α)
    (s : State) : s.KeepsLinks (xs.foldl f s) := by
  induction xs generalizing s with
  | nil => exact .refl s
  | cons x xs ih => exact (hf s x).trans (ih _)

theorem State.KeepsLinks.of_ports {s t : State} (h : t.ports = s.ports) : s.KeepsLinks t := fun q => by
  rw [State.port, State.port, h]
  exact ⟨rfl, rfl, rfl⟩

theorem State.keepsLinks_mapPort (s : State) (p : Nat) {f : Port → Port}
    (hf : ∀ x, (f x).down = x.down ∧ (f x).sends = x.sends ∧ (f x).recvs = x.recvs) : s.KeepsLinks (s.mapPort p f) := by
  intro q
  rw [State.mapPort_port]
  split
  · next h =>
    subst h
    exact hf _
  · exact ⟨rfl, rfl, rfl⟩

theorem State.focus_ports (s : State) (c : Nat) : (s.focus c).ports = s.ports := by
  unfold State.focus
  split <;> rfl

/-- Acting for an operation keeps the ports where the action does. -/
theorem State.asOp_ports {f : State → State} (hf : ∀ s, (f s).ports = s.ports) (s : State) (o : EngineOp) :
    (s.asOp o f).ports = s.ports := by
  have hbank (a : Agent) (n : Nat) (u : State) : (u.onBank n fun s => s.asAgent a f).ports = u.ports := by
    unfold State.onBank
    split
    · exact hf { u with agent := a }
    · exact hf { u.setCore u.core.swap with agent := a }
  rw [State.asOp, State.onCoreBank, State.onCore, State.focus_ports, hbank, State.focus_ports]

/-- R248: an operation's stop keeps the ports. -/
theorem State.stopOp_ports (s : State) (o : EngineOp) (kind : RecKind) (va line : Nat) :
    (s.stopOp o kind va line).ports = s.ports := by
  have hfault (c : Nat) (u : State) : (u.threadFault c va).ports = u.ports := (u.takeFault_frame _).2.2.2.2.2.1
  have hmark (u : State) : (u.markFrame o.id true).ports = u.ports := by
    obtain ⟨m, h⟩ := markFrame_frame u o.id true
    rw [h]
    rfl
  have hevent (u : State) : (u.threadEvent va).ports = u.ports := by
    unfold State.threadEvent State.setThread
    dsimp only
    split <;> rfl
  unfold State.stopOp
  dsimp only
  split
  · exact State.asOp_ports hevent _ o
  · exact State.asOp_ports (hfault _) _ o
  · exact State.asOp_ports (hfault _) _ o
  · split
    · exact State.asOp_ports hmark _ o
    · exact State.asOp_ports (fun _ => by rfl) _ o

/-- R253: an XROUTE without an answer. -/
theorem State.keepsLinks_takeAnswer (s : State) (port id : Nat) : s.KeepsLinks (s.takeAnswer port id none) := by
  have hroute (u : State) (p i : Nat) : u.KeepsLinks (u.routeBack p i none) :=
    u.keepsLinks_mapPort p fun _ => ⟨rfl, rfl, rfl⟩
  have hwaits : s.KeepsLinks (s.mapPort port fun p => { p with waits := p.waits.filter fun x => x.id != id }) :=
    s.keepsLinks_mapPort port fun _ => ⟨rfl, rfl, rfl⟩
  unfold State.takeAnswer
  split
  · exact .refl s
  · dsimp only
    split
    · exact hwaits.trans (hroute _ _ _)
    · split
      · next h => exact absurd h (by simp)
      · split
        · exact hwaits.trans (.of_ports (State.stopOp_ports _ _ _ _ _))
        · exact hwaits
      · exact hwaits

theorem State.keepsLinks_portDown (s : State) (port : Nat) : s.KeepsLinks (s.portDown port) := by
  unfold State.portDown
  dsimp only
  exact (State.keepsLinks_foldl (fun s o => .of_ports (s.stopOp_ports o _ _ _)) _ s).trans
    (State.keepsLinks_foldl (fun s w => s.keepsLinks_takeAnswer _ _) _ _)

theorem State.logMc_ports (s : State) (n sev src unit code : Nat) (addr : Word) (synd : Nat) (part : Option Nat) :
    (s.logMc n sev src unit code addr synd part).ports = s.ports := by
  obtain ⟨k, o, h⟩ := s.logMc_eq n sev src unit code addr synd part
  rw [h]

/-! ### Stamped writes (R142) -/

theorem stampReady_iff (clock stamp : List Nat) (source : Nat) : stampReady clock stamp source = true ↔
    ∀ c < 18, c = source ∨ stamp.getD c 0 ≤ clock.getD c 0 := by
  simp [stampReady]

theorem mergeClock_getD (a b : List Nat) {c : Nat} (h : c < 18) : (mergeClock a b).getD c 0 = max (a.getD c 0) (b.getD c 0) := by
  rw [mergeClock, List.getD_eq_getElem?_getD, List.getElem?_map, List.getElem?_range h]
  rfl

/-- Settles O49: the steps of links one by one, with what each changes of its port and its operation. -/
theorem fabricEvents : Obligations.FabricEvents := by
  refine ⟨fun s port ch id n o hop => ?_, fun s port f hport hdown => ?_, fun s port lane hport hlane hdown => ?_,
    fun s die w hdie hlen hwf => ?_⟩
  · intro p
    have hid := op?_id hop
    refine ⟨fun a hk hsend hcredit hrecv => ?_, fun a data hk hlen hsend hrecv hin => ?_,
      fun a hk hc hb hd hcb hone => ?_, fun a hk hold hone => ?_,
      fun a f hk hc hb hd hcb hlive hone hport hdown hcrc hseq htype hdeltas hcredit hlanded => ?_⟩
    · let m := s.mapPort port fun p => { p with sends := dropFirst ch p.sends, credits := dropFirst ch p.credits }
      obtain ⟨hop', hports, hagenda⟩ := pairOp_equal (s := m) (id := id) hop (by rw [hk]; rfl) []
      have hport : (m.pairOp id n []).port port =
          { p with sends := dropFirst ch p.sends, credits := dropFirst ch p.credits } := by
        rw [State.port, hports]
        exact State.mapPort_self s port _
      refine ⟨_, exec_linkPair_send hsend hcredit hrecv, hop', ?_, ?_, hagenda⟩
      · rw [hport, onChannel_dropFirst, hsend]
        rfl
      · rw [hport, onChannel_dropFirst, hcredit]
        rfl
    · let m := s.mapPort port fun p => { p with recvs := dropFirst ch p.recvs, incoming := dropFirst ch p.incoming }
      obtain ⟨hop', hports, hagenda⟩ := pairOp_equal (s := m) (id := id) (n := data.length) hop (by rw [hk, hlen]; rfl) data
      have hport : (m.pairOp id data.length data).port port =
          { p with recvs := dropFirst ch p.recvs, incoming := dropFirst ch p.incoming } := by
        rw [State.port, hports]
        exact State.mapPort_self s port _
      refine ⟨_, exec_linkPair_recv hsend hrecv hin, hop', ?_, ?_⟩
      · rw [hport, onChannel_dropFirst, hrecv]
        rfl
      · rw [hport]
        change dropFirst ch (s.port port).incoming = []
        rw [hin]
        exact if_pos rfl
    · obtain ⟨hnone, hord, hport, hbar⟩ := linkEnd_recv hk hc hb hd hcb
      refine ⟨_, exec_linkTransferDone_single hone, hid ▸ hnone, by rw [hbar]; rfl, hord, by rw [hport], by rw [hbar]; rfl⟩
    · refine ⟨_, exec_linkTransferDone_single hone, ?_, ?_, ?_⟩
      · subst hid
        rw [linkEnd_send hk hold, State.mapOp_op? _ _ (fun _ => by rfl)]
        exact congrArg (Option.map fun x : EngineOp => { x with old := 1 }) hop
      · rw [linkEnd_send hk hold]
        exact congrArg Port.sent (State.mapPort_self s port fun q => { q with sent := q.sent ++ [(ch, o.data)] })
      · rw [linkEnd_send hk hold]
        rfl
    · let m := s.mapPort port fun p => { p with expect := (p.expect + 1) % 65536 }
      obtain ⟨c, hstamp⟩ := takeStamp_none m port
      have htake : m.takeFlit port f = (m.takeStamp port []).finishOp o none := by
        rw [(takeFlit_stamped hdeltas).2 htype, State.takeCredit, hlanded, hcredit]
        dsimp only
        exact sendLanded_single hk hlive (by rw [hstamp]; exact hone)
      obtain ⟨hbar, hnone, -, -, -⟩ := State.finishOp_done (s := m.takeStamp port []) (by rw [hstamp]; exact hc)
        (by rw [hstamp]; exact hb) hd none hcb
      refine ⟨_, exec_flitReceive_taken hport hdown hcrc hseq, ?_, ?_⟩
      · rw [htake, ← hid]
        exact hnone
      · change ((m.takeFlit port f).core.bank.cb o.cb).count = _
        rw [htake, hbar, hstamp]
        rfl
  · let m := s.mapPort port fun p => { p with expect := (p.expect + 1) % 65536 }
    have hmport : m.port port = { s.port port with expect := ((s.port port).expect + 1) % 65536 } :=
      State.mapPort_self s port _
    refine ⟨exec_flitReceive_left, fun x hcrc hseq htype hmsg hdeltas => ?_, fun hcrc hseq htype => ?_⟩
    · obtain ⟨c, hstamp⟩ := takeStamp_none m port
      have htake : m.takeFlit port f =
          (m.takeStamp port []).later [.event (.taggedMessage { x with dest := BitVec.ofNat 8 (2 + port) })] :=
        (takeFlit_stamped hdeltas).1 htype x hmsg
      refine ⟨_, exec_flitReceive_taken hport hdown hcrc hseq, ?_, ?_⟩
      · change ((m.takeFlit port f).port port).expect = _
        rw [htake, hstamp]
        refine (congrArg Port.expect (State.mapPort_self m port fun p => { p with stamp := (m.port port).stamp })).trans ?_
        rw [hmport]
      · change (m.takeFlit port f).agenda = _
        rw [htake, hstamp]
        rfl
    · have htake : m.takeFlit port f = m.logMc (17 + port / 4) 2 16 (3 + port) 0x0020 0 0 none := if_pos htype
      obtain ⟨k, o, hlog⟩ := m.logMc_eq (17 + port / 4) 2 16 (3 + port) 0x0020 0 0 none
      refine ⟨_, exec_flitReceive_taken hport hdown hcrc hseq, ?_⟩
      change ((m.takeFlit port f).port port).expect = _ ∧ (m.takeFlit port f).clocks = _ ∧ (m.takeFlit port f).ops = _
      rw [htake, hlog]
      exact ⟨congrArg Port.expect hmport, rfl, rfl⟩
  · have hopen : ¬ (24 ≤ port || 9 ≤ lane || (s.port port).down) = true := by
      simp only [Bool.or_eq_true, decide_eq_true_eq, hdown]
      simp
      omega
    refine ⟨fun hspare => ?_, fun hspare => ?_⟩
    · let u := (s.mapPort port fun p => { p with spareFor := some lane }).setRegs { s.hub.regs with svcLanes := true }
      let v : State := ({ u with svc := { u.svc with record :=
        { u.svc.record with lanes := u.svc.record.lanes ++ [(port, lane)] } } } : State).touchService
      have hexec : exec (.laneFail port lane) s = .next (v.logMc (17 + port / 4) 1 16 (3 + port) 0x0030 0 0 none) := by
        change execLaneFail port lane s = _
        unfold execLaneFail
        exact (if_neg hopen).trans (if_pos (by rw [hspare]; rfl))
      obtain ⟨k, o, hlog⟩ := v.logMc_eq (17 + port / 4) 1 16 (3 + port) 0x0030 0 0 none
      have hvport : v.port port = { s.port port with spareFor := some lane } :=
        State.mapPort_self s port fun p => { p with spareFor := some lane }
      refine ⟨_, hexec, ?_⟩
      rw [hlog, Hub.mcLog_eq]
      refine ⟨congrArg Port.spareFor hvport, ?_, rfl, rfl⟩
      exact (congrArg Port.down hvport).trans hdown
    · let u := (s.mapPort port fun p => { p with down := true, sends := [], recvs := [] }).logMc (17 + port / 4) 2 16
        (3 + port) 0x0031 0 0 none
      have hexec : exec (.laneFail port lane) s = .next (u.portDown port) := by
        change execLaneFail port lane s = _
        unfold execLaneFail
        refine (if_neg hopen).trans (if_neg ?_)
        rw [Option.isNone_iff_eq_none]
        exact hspare
      have huport : u.port port = { s.port port with down := true, sends := [], recvs := [] } := by
        rw [State.port, State.logMc_ports]
        exact State.mapPort_self s port _
      obtain ⟨hd, hs, hr⟩ := u.keepsLinks_portDown port port
      refine ⟨_, hexec, ?_, ?_, ?_⟩
      · rw [hd, huport]
      · rw [hs, huport]
      · rw [hr, huport]
  · intro clock
    have hopen : ¬ 18 ≤ die := Nat.not_le.mpr hdie
    refine ⟨fun hready => ?_, ?_⟩
    · have hstep : exec (.stampedWriteApply die w) s = .next
          ({ s.putMem w.addr w.bytes with
              clocks := s.clocks.mapIdx fun i x => if i = die then mergeClock x w.stamp else x,
              held := s.held.filter fun x => x.1 != die : State }.later
            ((s.held.filter fun x => x.1 == die && x != (die, w)).map fun x : Nat × StampedWrite => Turn.event (.stampedWriteApply die x.2))) := by
        change execStampedWriteApply die w s = _
        unfold execStampedWriteApply
        refine (if_neg hopen).trans (if_neg ?_)
        rw [(stampReady_iff _ _ _).mpr hready]
        exact Bool.false_ne_true
      refine ⟨_, hstep, fun i hi => ?_, fun x hx => memByte_writeBytes_out hwf hx, fun c hc => ?_⟩
      · refine (memByte_writeBytes hwf _ _ _).trans ?_
        rw [if_pos ⟨Nat.le_add_right _ _, by omega⟩, Nat.add_sub_cancel_left]
      · have hclock : (s.clocks.mapIdx fun i x => if i = die then mergeClock x w.stamp else x).getD die [] =
            mergeClock clock w.stamp := by
          have hd : die < s.clocks.length := by omega
          simp [clock, hd]
        exact (congrArg (fun l => l.getD c 0) hclock).trans (mergeClock_getD _ _ hc)
    · rintro ⟨c, hc, hne, hlt⟩
      have hready : stampReady clock w.stamp w.source = false := by
        rw [Bool.eq_false_iff, ne_eq, stampReady_iff]
        intro h
        rcases h c hc with h | h
        · exact hne h
        · exact absurd hlt (Nat.not_lt.mpr h)
      have hstep : exec (.stampedWriteApply die w) s =
          .next (if s.held.contains (die, w) then s else { s with held := s.held ++ [(die, w)] }) := by
        change execStampedWriteApply die w s = _
        unfold execStampedWriteApply
        exact (if_neg hopen).trans (if_pos (by rw [show s.clocks.getD die [] = clock from rfl, hready]; rfl))
      refine ⟨_, hstep, ?_⟩
      split
      · next h => exact ⟨rfl, List.contains_iff_mem.mp h⟩
      · exact ⟨rfl, List.mem_append_right _ (List.mem_singleton_self _)⟩

end Sys2Proof.Machine
end

section
/-! PROOFS. TAGGED_MESSAGE once every stream key has been drawn. -/

namespace Sys2Proof.Machine

/-- Every stream key there is. -/
def everyKey : List Word := (List.range (2 ^ 64)).map (BitVec.ofNat 64)

theorem mem_everyKey (k : Word) : k ∈ everyKey :=
  List.mem_map.mpr ⟨k.toNat, List.mem_range.mpr k.isLt, BitVec.ofNat_toNat _ _⟩

/-- An armed slot that runs no launch. -/
def waitingSlot : ArmSlot := { ArmSlot.clear with armed := true, tag := 5 }

/-- A message with the slot's tag. -/
def firingMessage : Message := { tag := 5, dest := 0, payload := 0, rtag := 0, rdest := 0 }

/-- The device after launches have drawn every stream key. -/
def keysDrawn : State := State.reset.setHub { Hub.clear with slots := [(0, waitingSlot)], keys := everyKey }

theorem match_keysDrawn : keysDrawn.hub.match? firingMessage.tag.toNat = some (0, waitingSlot) := by
  rfl

theorem keys_keysDrawn : keysDrawn.hub.keys = everyKey := by
  rw [keysDrawn, State.setHub_hub]

theorem slot_keysDrawn : keysDrawn.hub.slot 0 = waitingSlot := by
  rfl

/-- Refutes O50: a fire makes its launch even when all 2^64 stream keys have been drawn (R95), and its key is then one
that an earlier launch has drawn. -/
theorem not_launchEvents : ¬ Obligations.LaunchEvents := by
  rintro ⟨-, -, hmessage, -⟩
  obtain ⟨hfire, -⟩ := (hmessage keysDrawn firingMessage).2 0 waitingSlot match_keysDrawn slot_keysDrawn
  obtain ⟨t, l, -, -, -, -, -, -, -, -, -, hkey, -⟩ := hfire rfl
  rw [keys_keysDrawn] at hkey
  exact hkey (mem_everyKey l.key)

end Sys2Proof.Machine
end

section
/-! PROOFS. The nodes of a task graph. -/

namespace Sys2Proof.Machine

/-! ### A branch's place (R164) -/

/-- A branch of a launch stands at a place with the bytes it has read. -/
def State.placeBranch (s : State) (launch br : Nat) (a : BranchAt) (bs : List Byte) : State :=
  s.setHub (s.hub.mapLaunch launch fun l =>
    l.mapBranch br fun b => { b with at_ := a, waitEv := none, block := bs, mark := s.hub.nextTask, msg := [] })

theorem mapBranch_find (l : Launch) (br : Nat) {f : Branch → Branch} (hf : ∀ b, (f b).id = b.id) :
    (l.mapBranch br f).branches.find? (fun x => x.id == br) = (l.branches.find? fun x => x.id == br).map f := by
  unfold Launch.mapBranch
  dsimp only
  induction l.branches with
  | nil => rfl
  | cons b bs ih =>
    by_cases hb : b.id = br
    · rw [List.map_cons, if_pos hb, List.find?_cons_of_pos (by rw [hf, hb, beq_self_eq_true]),
        List.find?_cons_of_pos (by rw [hb, beq_self_eq_true])]
      rfl
    · rw [List.map_cons, if_neg hb, List.find?_cons_of_neg (by rwa [beq_iff_eq]),
        List.find?_cons_of_neg (by rwa [beq_iff_eq]), ih]

section
variable {s : State} {launch br : Nat} {l : Launch}

theorem placeBranch_launch (hl : s.hub.launch? launch = some l) (a : BranchAt) (bs : List Byte) :
    (s.placeBranch launch br a bs).hub.launch? launch = some (l.mapBranch br fun b =>
      { b with at_ := a, waitEv := none, block := bs, mark := s.hub.nextTask, msg := [] }) := by
  rw [State.placeBranch, State.setHub_hub, Hub.mapLaunch_launch? _ _ _ (fun _ => by rfl), hl, Option.map_some, if_pos rfl]

theorem placeBranch_branch {b : Branch} (hl : s.hub.launch? launch = some l)
    (hb : l.branches.find? (fun x => x.id == br) = some b) (a : BranchAt) (bs : List Byte) :
    ∃ m c, (s.placeBranch launch br a bs).hub.launch? launch = some m ∧ m.slot = l.slot ∧
      m.branches.find? (fun x => x.id == br) = some c ∧ c.at_ = a ∧ c.block = bs := by
  refine ⟨_, { b with at_ := a, waitEv := none, block := bs, mark := s.hub.nextTask, msg := [] },
    placeBranch_launch hl a bs, rfl, ?_, rfl, rfl⟩
  rw [mapBranch_find _ _ (fun _ => by rfl), hb]
  rfl

theorem enterNode_ends : s.enterNode launch br noNode =
    (s.placeBranch launch br .ended []).later [.event (.launchEnd launch)] := by
  unfold State.enterNode
  exact if_pos rfl

/-- R164: a branch enters a node whose bytes keep their rules. -/
theorem enterNode_reads {k : Nat} {bytes : List Byte} {e : Instr} (hk : k ≠ noNode) (hl : s.hub.launch? launch = some l)
    (hread : s.readNode l k = .ok bytes) (hok : nodeOk bytes = true)
    (hev : nodeEvent (field bytes 0 1) launch br = some e) :
    s.enterNode launch br k =
      ((s.placeBranch launch br (.node k) []).placeBranch launch br (.node k) bytes).later [.event e] := by
  have hplace := placeBranch_launch (br := br) hl (.node k) []
  have hread' : (s.placeBranch launch br (.node k) []).readNode (l.mapBranch br fun b =>
      { b with at_ := .node k, waitEv := none, block := [], mark := s.hub.nextTask, msg := [] }) k = .ok bytes := hread
  unfold State.placeBranch at hplace hread'
  unfold State.enterNode
  refine (if_neg hk).trans ?_
  dsimp only
  rw [hplace]
  dsimp only
  rw [hread']
  dsimp only
  rw [if_pos hok, hev] <;> rfl

end

/-! ### What the walk keeps -/

/-- The tasks, the cells and the number of the next task stand. -/
def State.KeepsTasks (s t : State) : Prop :=
  t.hub.tasks = s.hub.tasks ∧ t.hub.nextTask = s.hub.nextTask ∧ t.hub.cells = s.hub.cells

theorem State.KeepsTasks.refl (s : State) : s.KeepsTasks s := ⟨rfl, rfl, rfl⟩

theorem State.KeepsTasks.trans {s t u : State} (h₁ : s.KeepsTasks t) (h₂ : t.KeepsTasks u) : s.KeepsTasks u :=
  ⟨h₂.1.trans h₁.1, h₂.2.1.trans h₁.2.1, h₂.2.2.trans h₁.2.2⟩

theorem State.keepsTasks_logErrorFor (s : State) (part addr : Nat) : s.KeepsTasks (s.logErrorFor part addr) := by
  unfold State.logErrorFor State.KeepsTasks
  rw [State.logMc_hub, Hub.mcLog_eq]
  exact ⟨rfl, rfl, rfl⟩

theorem State.keepsTasks_enterNode (s : State) (launch br n : Nat) : s.KeepsTasks (s.enterNode launch br n) := by
  have hplace (u : State) (a : BranchAt) (bs : List Byte) : u.KeepsTasks (u.placeBranch launch br a bs) := ⟨rfl, rfl, rfl⟩
  have hfault (u : State) (c a : Nat) : u.KeepsTasks (u.graphFault launch c a) := ⟨rfl, rfl, rfl⟩
  have hevent (u : State) (va : Nat) : u.KeepsTasks (u.branchEvent launch br va) := ⟨rfl, rfl, rfl⟩
  unfold State.enterNode
  dsimp only
  split
  · exact ⟨rfl, rfl, rfl⟩
  · have hset := hplace s (.node n) []
    split
    · exact hset
    · split
      · exact hset.trans (hevent _ _)
      · exact hset.trans ((State.keepsTasks_logErrorFor _ _ _).trans (hfault _ _ _))
      · split
        · exact hset.trans (hplace _ _ _)
        · exact hset.trans (hfault _ _ _)

theorem State.keepsTasks_goOn (s : State) (launch br : Nat) (bs : List Byte) : s.KeepsTasks (s.goOn launch br bs) := by
  unfold State.goOn State.fork
  have hnext := s.keepsTasks_enterNode launch br (nodeNext bs)
  split
  · exact hnext
  · split
    · exact hnext
    · exact hnext.trans (State.KeepsTasks.trans ⟨rfl, rfl, rfl⟩ (State.keepsTasks_enterNode _ _ _ _))

/-! ### The steps of the nodes (R165, R167) -/

theorem branchAt_launch {h : Hub} {launch br kind n : Nat} {l : Launch} {b : Branch}
    (ha : h.branchAt launch br kind = some (l, b, n)) : h.launch? launch = some l := by
  unfold Hub.branchAt at ha
  split at ha
  · exact absurd ha (by simp)
  · next l' hl =>
    split at ha
    · exact absurd ha (by simp)
    · split at ha
      · exact absurd ha (by simp)
      · split at ha
        · exact absurd ha (by simp)
        · split at ha
          · rw [Option.some.injEq, Prod.mk.injEq] at ha
            rw [hl, ha.1]
          · exact absurd ha (by simp)

theorem waitNode_ended {s : State} {launch br kind n : Nat} {l : Launch} {b : Branch}
    (ha : s.hub.branchAt launch br kind = some (l, b, n)) (hend : s.hub.allEnded launch b.mark = true)
    (k : Launch → Branch → Nat → State → State) : s.waitNode launch br kind k = .next (k l b n s) := by
  rw [State.waitNode, ha]
  dsimp only
  rw [if_pos hend]

/-- R167: the successor that a bucket takes. -/
theorem bucketOf_spec (m : Nat) : bucketOf m < 8 ∧ (bucketOf m < 7 → m ≤ 64 * 2 ^ bucketOf m) ∧
    ∀ i < bucketOf m, 64 * 2 ^ i < m := by
  unfold bucketOf
  by_cases hm : m ≤ 64
  · rw [if_pos hm]
    exact ⟨by decide, fun _ => by simpa using hm, fun i hi => absurd hi (Nat.not_lt_zero i)⟩
  · rw [if_neg hm]
    cases hf : (List.range 8).find? fun j => decide (m ≤ 64 * 2 ^ j) with
    | none =>
      rw [List.find?_eq_none] at hf
      refine ⟨by decide, fun h => absurd h (by decide), fun i hi => ?_⟩
      have hi' : i < 7 := hi
      have := hf i (List.mem_range.mpr (by omega))
      rwa [decide_eq_true_eq, Nat.not_le] at this
    | some j =>
      obtain ⟨hle, hj⟩ := List.find?_range_eq_some.mp hf
      rw [decide_eq_true_eq] at hle
      refine ⟨List.mem_range.mp hj.1, fun _ => hle, fun i hi => ?_⟩
      have := hj.2 i hi
      simpa using this

section
variable {s : State} {launch br n : Nat} {l : Launch} {b : Branch}

/-- The tasks that a TASKSET posts. -/
def tasksOf (s : State) (l : Launch) (n : Nat) (bs : List Byte) : List Task :=
  (List.range (field bs 24 2 * field bs 26 2)).map fun i =>
    taskOf (s.hub.nextTask + i) l n ((sget l.entries n).getD 0 + 1) (i % field bs 24 2) (i / field bs 24 2)
      (s.hub.slotOf l).prio bs

/-- The state once a TASKSET has posted its tasks. -/
def State.taskset (s : State) (launch : Nat) (l : Launch) (n : Nat) (bs : List Byte) : State :=
  let board : Board := { node := n, w := field bs 24 2, h := field bs 26 2, retired := [] }
  let h := s.hub.mapLaunch launch fun x =>
    { x with entries := sput x.entries n ((sget l.entries n).getD 0 + 1),
             boards := board :: x.boards.filter fun x => x.node != n }
  s.setHub { h with tasks := h.tasks ++ tasksOf s l n bs, nextTask := s.hub.nextTask + field bs 24 2 * field bs 26 2 }

theorem exec_nodeTaskset_posts (ha : s.hub.branchAt launch br 1 = some (l, b, n))
    (hdone : ∀ t ∈ s.hub.tasks, t.launch = launch → t.node = n → t.auditOf = none → t.retired = true) :
    exec (.nodeTaskset launch br) s = .next (((s.taskset launch l n b.block).goOn launch br b.block).later
      [.event (.taskPlace (s.hub.slotOf l).part)]) := by
  have hidle : ¬ (s.hub.tasks.any fun t => t.launch == launch && t.node == n && t.auditOf.isNone && !t.retired) = true := by
    rw [List.any_eq_true]
    rintro ⟨t, ht, h⟩
    simp only [Bool.and_eq_true, beq_iff_eq, Option.isNone_iff_eq_none, Bool.not_eq_true'] at h
    obtain ⟨⟨⟨hlaunch, hnode⟩, haudit⟩, hret⟩ := h
    exact Bool.false_ne_true (hret.symm.trans (hdone t ht hlaunch hnode haudit))
  change execNodeTaskset launch br s = _
  rw [execNodeTaskset, ha]
  dsimp only
  rw [if_neg hidle] <;> rfl

theorem exec_nodeWhile_ended (ha : s.hub.branchAt launch br 3 = some (l, b, n))
    (hend : s.hub.allEnded launch b.mark = true) {body : Bool}
    (hbody : (decide (l.nodeWord b.block ≠ 0) && (field b.block 12 4 == 0 ||
      decide ((sget l.passes n).getD 0 < field b.block 12 4))) = body) :
    exec (.nodeWhile launch br) s = .next ((s.setHub (s.hub.mapLaunch launch fun l' =>
      { l' with passes := sput l'.passes n (if body then (sget l.passes n).getD 0 + 1 else 0) })).enterNode launch br
        (if body then nodeNext b.block else nodeAlt b.block)) := by
  subst hbody
  change execNodeWhile launch br s = _
  rw [execNodeWhile, waitNode_ended ha hend]

theorem exec_nodeJoin_arrives (ha : s.hub.branchAt launch br 5 = some (l, b, n)) {last : Bool}
    (hlast : decide (field b.block 12 4 ≤ (sget l.joins n).getD 0 + 1) = last) :
    exec (.nodeJoin launch br) s =
      let t := s.setHub (s.hub.mapLaunch launch fun l' =>
        { l' with joins := sput l'.joins n (if last then 0 else (sget l.joins n).getD 0 + 1) })
      .next (if last then t.goOn launch br b.block else t.enterNode launch br noNode) := by
  subst hlast
  change execNodeJoin launch br s = _
  rw [execNodeJoin, ha]

theorem exec_nodeMessage_sends (ha : s.hub.branchAt launch br 6 = some (l, b, n))
    (hend : s.hub.allEnded launch b.mark = true) (hlen : b.msg.length = 64) :
    exec (.nodeMessage launch br) s = .next (s.nodeSend launch br b) := by
  change execNodeMessage launch br s = _
  rw [execNodeMessage, ha]
  dsimp only
  rw [if_pos hlen, if_pos hend]

theorem exec_nodeTest_starts (ha : s.hub.branchAt launch br 7 = some (l, b, n)) :
    exec (.nodeTest launch br) s = .next (((((List.range 64).filter fun c => s.cellIdle (s.hub.slotOf l).part c).take
      (field b.block 1 1)).foldl (fun s c => s.startTest c 0 none) s).goOn launch br b.block) := by
  change execNodeTest launch br s = _
  rw [execNodeTest, ha]

end

/-- R232: the cells whose tests start. -/
theorem startTests_cell (s : State) {cs : List Nat} (hcs : ∀ d ∈ cs, d < 64) (c : Nat) :
    (c ∈ cs → ((cs.foldl (fun s c => s.startTest c 0 none) s).hub.cell c).testing = some (0, none)) ∧
      (c ∉ cs → (cs.foldl (fun s c => s.startTest c 0 none) s).hub.cell c = s.hub.cell c) := by
  induction cs generalizing s with
  | nil => exact ⟨fun h => absurd h List.not_mem_nil, fun _ => rfl⟩
  | cons d ds ih =>
    obtain ⟨hin, hout⟩ := ih (s.startTest d 0 none) fun d hd => hcs d (List.mem_cons_of_mem _ hd)
    have hstart : (s.startTest d 0 none).hub.cell c =
        if c = d then { s.hub.cell d with testing := some (0, none) } else s.hub.cell c :=
      Hub.mapCell_cell _ (hcs d List.mem_cons_self) _ c
    rw [List.foldl_cons]
    refine ⟨fun h => ?_, fun h => ?_⟩
    · by_cases hds : c ∈ ds
      · exact hin hds
      · have hcd : c = d := (List.mem_cons.mp h).resolve_right hds
        rw [hout hds, hstart, if_pos hcd]
    · rw [List.mem_cons, not_or] at h
      rw [hout h.2, hstart, if_neg h.1]

/-- Settles O51: where a branch goes, and each node's step by what it waits for and whom it follows. -/
theorem nodeEvents : Obligations.NodeEvents := by
  intro s launch br n l b bs word at_ ended
  refine ⟨fun hl hb => ?_, fun k bytes e hk hl hb hread hok hev => ?_, fun bytes => ?_, fun ha hdone => ?_, fun ha hend => ?_,
    fun ha hend => ?_, fun ha hend => ?_, fun ha => ?_, fun ha hend hlen hdest => ?_, fun ha => ?_⟩
  · obtain ⟨m, c, hm, -, hc, hat, -⟩ := placeBranch_branch hl hb .ended []
    rw [enterNode_ends]
    exact ⟨m, c, hm, hc, hat⟩
  · intro v
    obtain ⟨m, c, hm, hslot, hc, -, -⟩ := placeBranch_branch hl hb (.node k) []
    obtain ⟨m', c', hm', -, hc', hat, hblock⟩ := placeBranch_branch hm hc (.node k) bytes
    have hv : v = _ := enterNode_reads hk hl hread hok hev
    rw [hv]
    exact ⟨rfl, m', c', hm', hc', hat, hblock⟩
  · intro next alt
    refine ⟨fun h => if_pos h, fun m h hm => ?_⟩
    refine ⟨{ id := m.nextBranch, at_ := .node alt, waitEv := none, block := [], mark := 0, msg := [] }, rfl, rfl, ?_⟩
    unfold State.goOn State.fork
    refine (if_neg h).trans ?_
    rw [show (s.enterNode launch br (nodeNext bytes)).hub.launch? launch = some m from hm] <;> rfl
  · obtain ⟨htasks, hnext, -⟩ := (s.taskset launch l n bs).keepsTasks_goOn launch br bs
    have hlen : (tasksOf s l n bs).length = field bs 24 2 * field bs 26 2 := by
      rw [tasksOf, List.length_map, List.length_range]
    refine ⟨s.taskset launch l n bs, _, tasksOf s l n bs, exec_nodeTaskset_posts ha hdone, rfl, rfl, rfl, rfl, ?_, htasks.symm,
      htasks, hlen, ?_, fun i k hi => ?_⟩
    · have hlaunch := Hub.mapLaunch_launch? s.hub launch (fun x =>
        { x with entries := sput x.entries n ((sget l.entries n).getD 0 + 1),
                 boards := { node := n, w := field bs 24 2, h := field bs 26 2, retired := [] } ::
                   x.boards.filter fun x => x.node != n }) (fun _ => by rfl) launch
      rw [branchAt_launch ha, Option.map_some, if_pos rfl] at hlaunch
      exact congrArg (Option.map (·.branches)) hlaunch
    · rw [hlen]
      exact hnext
    · rw [tasksOf, List.getElem?_map, Option.map_eq_some_iff] at hi
      obtain ⟨j, hj, rfl⟩ := hi
      obtain ⟨hlt, hij⟩ := List.getElem?_eq_some_iff.mp hj
      rw [List.getElem_range] at hij
      subst hij
      exact ⟨rfl, rfl, rfl, rfl, rfl, rfl, rfl, rfl, rfl⟩
  · change execNodeCond launch br s = _
    rw [execNodeCond, waitNode_ended ha hend]
    rfl
  · intro k limit put
    refine ⟨fun hw hk => ?_, fun hstop => ?_⟩
    · have hbody : (decide (l.nodeWord bs ≠ 0) && (limit == 0 || decide (k < limit))) = true := by
        rw [Bool.and_eq_true, decide_eq_true_eq, Bool.or_eq_true, beq_iff_eq, decide_eq_true_eq]
        exact ⟨hw, hk⟩
      exact exec_nodeWhile_ended ha hend hbody
    · have hbody : (decide (l.nodeWord bs ≠ 0) && (limit == 0 || decide (k < limit))) = false := by
        rw [Bool.and_eq_false_iff, decide_eq_false_iff_not, Bool.or_eq_false_iff, beq_eq_false_iff_ne,
          decide_eq_false_iff_not, not_not, Nat.not_lt]
        exact hstop
      exact exec_nodeWhile_ended ha hend hbody
  · obtain ⟨hlt, hle, hgt⟩ := bucketOf_spec word.toNat
    refine ⟨bucketOf word.toNat, hlt, ?_, hle, hgt⟩
    change execNodeBucket launch br s = _
    rw [execNodeBucket, waitNode_ended ha hend]
    rfl
  · intro k put
    exact ⟨fun h => exec_nodeJoin_arrives ha (decide_eq_true h),
      fun h => exec_nodeJoin_arrives ha (decide_eq_false (Nat.not_le.mpr h))⟩
  · refine (exec_nodeMessage_sends ha hend hlen).trans ?_
    rw [State.nodeSend, State.sendMessage]
    rw [hdest] <;> rfl
  · intro p cells
    obtain ⟨-, -, hcells⟩ := (cells.foldl (fun s c => s.startTest c 0 none) s).keepsTasks_goOn launch br bs
    have hcell (c : Nat) : ((cells.foldl (fun s c => s.startTest c 0 none) s).goOn launch br bs).hub.cell c =
        (cells.foldl (fun s c => s.startTest c 0 none) s).hub.cell c := by
      rw [Hub.cell, Hub.cell, hcells]
    have hlt (c : Nat) (hc : c ∈ cells) : c < 64 :=
      List.mem_range.mp (List.mem_filter.mp (List.mem_of_mem_take hc)).1
    exact ⟨_, exec_nodeTest_starts ha, rfl,
      fun c hc => (congrArg Cell.testing (hcell c)).trans ((startTests_cell s hlt c).1 hc),
      fun c _ hout => (hcell c).trans ((startTests_cell s hlt c).2 hout)⟩

end Sys2Proof.Machine
end

section
/-! PROOFS. CXL_MEM_ACCESS of no byte at the start of the host's memory. -/

namespace Sys2Proof.Machine

/-- A device that is ready and has recorded no error. -/
def booted : State := State.reset.setHub { Hub.clear with regs := { HubRegs.clear with ready := true } }

/-- R105: a write of no byte at the start of the host's memory is in that memory, and leaves the hub as it is. -/
theorem exec_cxlMemAccess_booted {t : State} (h : exec (.cxlMemAccess (.write 0x10000000000 [])) booted = .next t) :
    t.hub = booted.hub := by
  have hreach : cxlReaches 0x10000000000 ([] : List Byte).length = true := by decide
  change execCxlMemAccess (.write 0x10000000000 []) booted = _ at h
  unfold execCxlMemAccess at h
  rw [if_neg (by decide)] at h
  dsimp only at h
  rw [if_pos hreach] at h
  obtain rfl := Host.Outcome.next.inj h
  rfl

/-- Refutes O54: 0x10000000000 is both the end of the addresses that the last clause takes to be out of the host's
reach and the start of the host's own memory, and a write of no byte there (R105) is no error response: bank 16 records
nothing. -/
theorem not_guestEvents : ¬ Obligations.GuestEvents := by
  intro hall
  obtain ⟨-, -, -, -, -, -, -, hcxl⟩ := hall booted rfl
  obtain ⟨t, hnext, -, herror⟩ := (hcxl 0x10000000000 [] rfl).2 (by decide) (by decide)
  obtain ⟨hvalid, -⟩ := herror rfl rfl
  rw [exec_cxlMemAccess_booted hnext] at hvalid
  exact Bool.false_ne_true hvalid

end Sys2Proof.Machine
end

section
/-! PROOFS. TASK_PLACE of one waiting task. -/

namespace Sys2Proof.Machine

/-! ### The tasks of the hub -/

/-- A task looked up after a change of the tasks that keeps their numbers. -/
theorem find?_map_task {f : Task → Task} (hf : ∀ t, (f t).id = t.id) (ts : List Task) (id : Nat) :
    (ts.map f).find? (fun t => t.id == id) = (ts.find? fun t => t.id == id).map f := by
  rw [List.find?_map]
  congr 2
  funext t
  exact congrArg (· == id) (hf t)

/-- A task changed by number, its number kept. -/
theorem Hub.mapTask_task? {h : Hub} {id : Nat} {k : Task} {f : Task → Task} (hk : h.task? id = some k)
    (hf : ∀ t, (f t).id = t.id) : (h.mapTask id f).task? id = some (f k) := by
  have hid : k.id = id := beq_iff_eq.mp (List.find?_some (p := fun t : Task => t.id == id) hk)
  have hkeep (t : Task) : (if t.id = id then f t else t).id = t.id := by split <;> simp [hf]
  refine (find?_map_task hkeep h.tasks id).trans ?_
  rw [show h.tasks.find? (fun t => t.id == id) = some k from hk, Option.map_some, if_pos hid]

/-! ### The waits that TASK_PLACE starts -/

/-- R179: a task once its wait for a place has been started. -/
def Hub.waitStarted (h : Hub) (part now : Nat) (t : Task) : Task :=
  if t.since.isNone && h.waits part t then { t with since := some now } else t

section
variable (h : Hub) (part now : Nat) (t : Task)

/-- A started wait shows in a task's count alone. -/
theorem Hub.waitStarted_eq : ∃ x, h.waitStarted part now t = { t with since := x } := by
  unfold Hub.waitStarted
  split
  · exact ⟨_, rfl⟩
  · exact ⟨_, rfl⟩

theorem Hub.waitStarted_id : (h.waitStarted part now t).id = t.id := by
  obtain ⟨x, hx⟩ := h.waitStarted_eq part now t
  rw [hx]

theorem Hub.waitStarted_eff : (h.waitStarted part now t).eff = t.eff := by
  obtain ⟨x, hx⟩ := h.waitStarted_eq part now t
  rw [hx]; rfl

/-- R169, R179: the started waits change no answer to which tasks wait. -/
theorem Hub.waits_startWaits : (h.startWaits part now).waits part (h.waitStarted part now t) = h.waits part t := by
  obtain ⟨x, hx⟩ := h.waitStarted_eq part now t
  rw [hx]; rfl

theorem Hub.startWaits_task? (id : Nat) :
    (h.startWaits part now).task? id = (h.task? id).map (h.waitStarted part now) :=
  find?_map_task (h.waitStarted_id part now) h.tasks id

end

theorem length_insertTask (t : Task) (ts : List Task) : (insertTask t ts).length = ts.length + 1 := by
  induction ts with
  | nil => rfl
  | cons u us ih =>
    unfold insertTask
    split
    · rfl
    · simp [ih]

theorem length_foldl_insertTask (ts xs : List Task) :
    (ts.foldl (fun xs t => insertTask t xs) xs).length = ts.length + xs.length := by
  induction ts generalizing xs with
  | nil => simp
  | cons t ts ih => rw [List.foldl_cons, ih, length_insertTask, List.length_cons]; omega

/-- R169: one task waits in the walker's order exactly when it is the only one that waits. -/
theorem Hub.waiting_eq_singleton {h : Hub} {part : Nat} {k : Task} :
    h.waiting part = [k] ↔ h.tasks.filter (fun t => h.waits part t) = [k] := by
  unfold Hub.waiting
  constructor
  · intro hw
    have hlen := length_foldl_insertTask (h.tasks.filter fun t => h.waits part t) []
    rw [hw] at hlen
    obtain ⟨u, hu⟩ := List.length_eq_one_iff.mp (show (h.tasks.filter fun t => h.waits part t).length = 1 from hlen.symm)
    rw [hu] at hw ⊢
    exact hw
  · intro hw
    rw [hw]
    rfl

/-- R169, R179: the task that waits alone still does once its wait has been started. -/
theorem Hub.waiting_startWaits {h : Hub} {part now : Nat} {k : Task} (hk : h.waiting part = [k]) :
    (h.startWaits part now).waiting part = [h.waitStarted part now k] := by
  rw [Hub.waiting_eq_singleton] at hk ⊢
  have hmap : (h.startWaits part now).tasks = h.tasks.map (h.waitStarted part now) := rfl
  rw [hmap, List.filter_map]
  have hcomp : (fun t => (h.startWaits part now).waits part t) ∘ h.waitStarted part now = fun t => h.waits part t :=
    funext fun t => h.waits_startWaits part now t
  rw [hcomp, hk]
  rfl

/-! ### The place it finds -/

/-- R179: started waits change the effective priority of no bank. -/
theorem State.bankPrio_startWaits (s : State) (part now c b : Nat) :
    (s.setHub (s.hub.startWaits part now)).bankPrio c b = s.bankPrio c b := by
  have hbank : (s.setHub (s.hub.startWaits part now)).bankOf c b = s.bankOf c b := rfl
  unfold State.bankPrio
  rw [hbank, State.setHub_hub]
  cases (s.bankOf c b).task with
  | none => rfl
  | some y =>
    dsimp only
    rw [Hub.startWaits_task?]
    cases s.hub.task? y.task with
    | none => rfl
    | some u => exact s.hub.waitStarted_eff part now u

/-- R177: a task finds the place it found before its wait was started. -/
theorem State.findPlace_startWaits (s : State) (part now : Nat) (k : Task) (r : LoopRec) :
    (s.setHub (s.hub.startWaits part now)).findPlace part (s.hub.waitStarted part now k) r = s.findPlace part k r := by
  have hprio : (s.setHub (s.hub.startWaits part now)).bankPrio = s.bankPrio := by
    funext c b
    exact s.bankPrio_startWaits part now c b
  have hbeside : (s.setHub (s.hub.startWaits part now)).placeBeside = s.placeBeside := by
    funext prio vu at_ pins b g
    unfold State.placeBeside
    rw [hprio]
    rfl
  have hfor : (s.setHub (s.hub.startWaits part now)).placeFor = s.placeFor := by
    funext groups banks prio vu at_ pins
    unfold State.placeFor
    rw [hbeside]
    rfl
  obtain ⟨x, hx⟩ := s.hub.waitStarted_eq part now k
  unfold State.findPlace
  rw [hfor, hx]
  rfl

/-! ### The bank that a placed task holds -/

/-- R30: acting on the running bank of the core that acts is acting at once. -/
theorem State.onCoreBank_cur {s : State} {f : State → State} (hf : (f s).cur = s.cur) :
    s.onCoreBank s.cur s.core.curBank f = f s := by
  have hbank : s.onBank s.core.curBank f = f s := if_pos rfl
  rw [State.onCoreBank, State.onCore_cur (by rw [hbank]; exact hf), hbank]

/-- R177: what a bank keeps of the task it holds as member p of n. -/
def placedTask (part : Nat) (t : Task) (r : LoopRec) (n p : Nat) : BankTask :=
  { task := t.id, launch := t.launch, part := part, x := t.x, y := t.y, gang := if 1 < n then some t.id else none,
    member := p, tret := false, digest := [], inUnits := r.inUnits p, outUnits := r.outUnits p, marked := [],
    pulled := [] }

/-- R102, R171, R177: the running bank of the core that acts is taken by member p of a task. -/
def State.placedHere (s : State) (part : Nat) (t : Task) (r : LoopRec) (img : Image) (n p : Nat) : State :=
  s.setCore { s.core with
    store := (r.inUnits p ++ r.outUnits p).foldl
      (fun m u => zeroRange m (unitAddr s.core.curBank u) 65536) s.core.store,
    bank := { s.core.bank.vacate with
      run := .placed, vu := r.vu, at_ := r.at_, image := img,
      pins := unitPins s.core.curBank (r.inUnits p ++ r.outUnits p), task := some (placedTask part t r n p) } }

theorem State.holdBank_here (s : State) (part : Nat) (k : Task) (r : LoopRec) (img : Image) (n p : Nat) :
    (s.placedHere part k r img n p).ChangesCaches (s.holdBank part k r img s.core.curBank n (s.cur, p)) := by
  have hcaches := (s.placedHere part k r img n p).changesCaches_evictWays
  have hcur : (s.placedHere part k r img n p).evictWays.cur = s.cur := by
    obtain ⟨w, d, o, x, y, h⟩ := hcaches
    rw [h]; rfl
  have hhold : s.holdBank part k r img s.core.curBank n (s.cur, p) = (s.placedHere part k r img n p).evictWays :=
    State.onCoreBank_cur hcur
  rw [hhold]
  exact hcaches

/-- R177: what a task that has a place keeps of it. -/
def Task.placedAt (t : Task) (r : LoopRec) (cores : List Nat) (b qth : Nat) (audit : Option Nat) : Task :=
  { t with run := .placed, since := none, cores := cores, bank := b, lrec := some r, qth := qth, audit := audit }

/-- R172, R177: a task of one core whose record names no input takes the running bank of the core that acts, and its
start is due. -/
theorem State.putTask_here {s : State} {part : Nat} {k k' : Task} {r : LoopRec} (hk : s.hub.task? k.id = some k')
    (hins : r.ins = []) :
    ∃ a qth,
      (s.putTask part k r [s.cur] s.core.curBank).core.bank =
        (s.placedHere part k r (s.codeImage part r.code) 1 0).core.bank ∧
      (s.putTask part k r [s.cur] s.core.curBank).hub.task? k.id =
        some (k'.placedAt r [s.cur] s.core.curBank qth a) ∧
      (s.putTask part k r [s.cur] s.core.curBank).agenda = s.agenda ++ [.event (.taskStart k.id)] := by
  have hturns : startTurns k.id r = [.event (.taskStart k.id)] := by rw [startTurns, hins]; rfl
  obtain ⟨u, hu, hcaches⟩ : ∃ u, u = s.holdBank part k r (s.codeImage part r.code) s.core.curBank 1 (s.cur, 0) ∧
      (s.placedHere part k r (s.codeImage part r.code) 1 0).ChangesCaches u := ⟨_, rfl, s.holdBank_here _ _ _ _ _ _⟩
  obtain ⟨w, d, o, x, y, hform⟩ := hcaches
  have hub : u.hub = s.hub := by rw [hform]; rfl
  have hagenda : u.agenda = s.agenda := by rw [hform]; rfl
  have hbank : u.core.bank = (s.placedHere part k r (s.codeImage part r.code) 1 0).core.bank := by rw [hform]
  have hfold : ([s.cur].zipIdx).foldl (fun v z => v.holdBank part k r (s.codeImage part r.code) s.core.curBank
      [s.cur].length z) s = u := hu.symm
  unfold State.putTask
  dsimp only
  rw [hfold, hub, hturns]
  exact ⟨_, _, hbank, Hub.mapTask_task? hk fun _ => rfl, congrArg (· ++ _) hagenda⟩

/-! ### TASK_PLACE -/

/-- R157: a task whose record has been read keeps it. -/
theorem State.taskRecord_read {s : State} {part : Nat} {t : Task} {r : LoopRec} (h : t.lrec = some r) :
    s.taskRecord part t = .ok r := by
  rw [State.taskRecord, h]

/-- R177: a posted task that finds a place takes it. -/
theorem State.tryPlace_takes {s : State} {part b : Nat} {t : Task} {r : LoopRec} {cores : List Nat}
    (hrec : t.lrec = some r) (hrun : t.run = .posted) (htrip : 0 < r.trip) (hplace : s.findPlace part t r = some (cores, b)) :
    s.tryPlace part t = (s.putTask part t r cores b, true) := by
  have hsaved : t.run ≠ .saved := by rw [hrun]; decide
  unfold State.tryPlace
  rw [State.taskRecord_read hrec]
  dsimp only
  rw [hplace]
  dsimp only
  rw [if_neg hsaved, if_neg htrip.ne']

/-- R169: the first waiting task takes its place, and the placement goes on. -/
theorem State.placeFirst_takes {s t : State} {part : Nat} {k : Task} {ts : List Task} (hrun : k.run = .posted)
    (h : s.tryPlace part k = (t, true)) : s.placeFirst part (k :: ts) = t.later [.event (.taskPlace part)] := by
  have hsaved : k.run ≠ .saved := by rw [hrun]; decide
  unfold State.placeFirst
  rw [h]
  exact (if_pos rfl).trans (if_neg hsaved)

/-- R177: TASK_PLACE of the one task that waits, which finds the running bank of the core that acts. -/
theorem exec_taskPlace_here {s : State} {p : Nat} {k : Task} {r : LoopRec} (hfatal : s.hub.regs.fatal = false)
    (hwaiting : s.hub.waiting p = [k]) (hk : s.hub.task? k.id = some k) (hrun : k.run = .posted)
    (hrec : k.lrec = some r) (hins : r.ins = []) (htrip : 0 < r.trip)
    (hplace : s.findPlace p k r = some ([s.cur], s.core.curBank)) :
    ∃ t x, exec (.taskPlace p) s = .next t ∧ t.core.bank.run = .placed ∧ t.core.bank.vu = r.vu ∧
      t.core.bank.at_ = r.at_ ∧ (t.core.bank.task.map fun y => y.task) = some k.id ∧
      t.core.bank.pins = unitPins s.core.curBank (r.outUnits 0) ∧ t.hub.task? k.id = some x ∧ x.run = .placed ∧
      x.cores = [s.cur] ∧ x.bank = s.core.curBank ∧
      t.agenda = s.agenda ++ [.event (.taskStart k.id), .event (.taskPlace p)] := by
  obtain ⟨k', hkeq⟩ : ∃ k', k' = s.hub.waitStarted p s.now k := ⟨_, rfl⟩
  obtain ⟨since, hk'⟩ := s.hub.waitStarted_eq p s.now k
  rw [← hkeq] at hk'
  have hid : k'.id = k.id := by rw [hk']
  have hrun' : k'.run = .posted := by rw [hk']; exact hrun
  have hrec' : k'.lrec = some r := by rw [hk']; exact hrec
  obtain ⟨u, hu⟩ : ∃ u, u = s.setHub (s.hub.startWaits p s.now) := ⟨_, rfl⟩
  have htask : u.hub.task? k'.id = some k' := by
    rw [hu, State.setHub_hub, Hub.startWaits_task?, hid, hk, Option.map_some, hkeq]
  have hwait : u.hub.waiting p = [k'] := by
    rw [hu, State.setHub_hub, Hub.waiting_startWaits hwaiting, hkeq]
  have hfound : u.findPlace p k' r = some ([u.cur], u.core.curBank) := by
    rw [hu, hkeq, State.findPlace_startWaits, hplace]; rfl
  have hexec : exec (.taskPlace p) s = .next ((u.putTask p k' r [u.cur] u.core.curBank).later [.event (.taskPlace p)]) := by
    change execTaskPlace p s = _
    unfold execTaskPlace
    rw [if_neg (by rw [hfatal]; exact Bool.false_ne_true)]
    dsimp only
    rw [← hu, hwait, State.placeFirst_takes hrun' (State.tryPlace_takes hrec' hrun' htrip hfound)]
  obtain ⟨a, qth, hbank, hput, hagenda⟩ := State.putTask_here (part := p) htask hins
  have hunits : r.inUnits 0 = [] := by rw [LoopRec.inUnits, hins]; rfl
  refine ⟨_, k'.placedAt r [u.cur] u.core.curBank qth a, hexec, ?_⟩
  rw [State.later_core, hbank, State.later_hub, ← hid, hput]
  refine ⟨rfl, rfl, rfl, rfl, ?_, rfl, rfl, ?_, ?_, ?_⟩
  · change unitPins u.core.curBank (r.inUnits 0 ++ r.outUnits 0) = _
    rw [hunits, hu]; rfl
  · rw [hu]; rfl
  · rw [hu]; rfl
  · change (u.putTask p k' r [u.cur] u.core.curBank).agenda ++ [Turn.event (.taskPlace p)] = _
    rw [hagenda, hu, List.append_assoc]; rfl

end Sys2Proof.Machine
end

section
/-! PROOFS. The delivery of a declared input, the start of a solo task, and its ageing. -/

namespace Sys2Proof.Machine

/-! ### A tile through the memory port of a core -/

/-- R110: a tile whose entry grants the access is reached through the port of the core that acts, which caches the
translation. -/
theorem State.withTile_here {s : State} {bank part tid n e pa : Nat} {user write : Bool} {d : Tensor}
    {bad : TileAt → State → State} {k : Nat → State → State} (hword : s.tileWordOn s.cur bank part user d tid n = .ok e)
    (hgrant : s.tileGrant e write = .ok pa) :
    ∃ xs, s.withTile s.cur bank part user d tid n write bad k = k pa (s.setCore { s.core with xlats := xs }) := by
  unfold State.withTile
  rw [hword]
  dsimp only
  rw [hgrant]
  dsimp only
  rw [State.onCore_cur rfl]
  exact ⟨_, rfl⟩

/-! ### The receivers of an input -/

section
variable {t : Task} {ref : TileRef} {c i : Nat} (hcores : t.cores = [c]) (href : ref.cores.testBit 0 = true)
include hcores href

theorem Task.receivers_solo : t.receivers ref = [0] := by
  rw [Task.receivers, hcores]
  simp [href]

/-- R171: the one core of a solo task takes the next line until all 512 have landed. -/
theorem Task.nextReceiver_solo : t.nextReceiver i ref = if 512 ≤ t.landedIn i 0 then none else some 0 := by
  rw [Task.nextReceiver, Task.receivers_solo hcores href]
  rfl

end

/-- R171: the lines landed of an input once one more has. -/
theorem Task.landedIn_put (t : Task) (i p n : Nat) :
    ({ t with landed := sput t.landed (landKey i p) n } : Task).landedIn i p = n := by
  rw [Task.landedIn, sget_sput, if_pos rfl]
  rfl

/-! ### A line lands -/

section
variable {v : State} {k : Task} {r : LoopRec} {i : Nat} {ref : TileRef} {bytes : List Byte}
variable (hcores : k.cores = [v.cur]) (hbank : k.bank = v.core.curBank) (href : ref.cores.testBit 0 = true)
variable (hk : v.hub.task? k.id = some k)

/-- R171, R172: an input whose last line has landed is resident; the only one a task declares lets it start. -/
theorem State.inputLanded_here {k' : Task} (hk : v.hub.task? k.id = some k') :
    (v.inputLanded k r i ref).core = v.core ∧ (v.inputLanded k r i ref).mem = v.mem ∧
    (v.inputLanded k r i ref).hub.task? k.id = some { k' with resident := k'.resident ++ [i] } ∧
    (r.ins.length = 1 → i = 0 → (v.inputLanded k r i ref).agenda = v.agenda ++ [.event (.taskStart k.id)]) := by
  have hmap := Hub.mapTask_task? (f := fun t : Task => { t with resident := t.resident ++ [i] }) hk fun _ => rfl
  unfold State.inputLanded
  dsimp only
  refine ⟨?_, ?_, ?_, fun hlen hi => ?_⟩
  · split <;> rfl
  · split <;> rfl
  · split
    · exact hmap
    · exact hmap
  · rw [if_pos (by rw [hlen, hi]; rfl)]
    rfl

include hcores hbank href hk

/-- R37, R171: a line of an input lands in the running bank of the core that acts, and what is due next. -/
theorem State.landLine_here :
    (v.landLine k r i ref 0 bytes).core.store = writeBytes v.core.store (k.landAddr i 0) bytes ∧
    (v.landLine k r i ref 0 bytes).mem = v.mem ∧
    ∃ x, (v.landLine k r i ref 0 bytes).hub.task? k.id = some x ∧ x.landedIn i 0 = k.landedIn i 0 + 1 ∧
      (k.landedIn i 0 < 511 → x.resident = k.resident ∧
        (v.landLine k r i ref 0 bytes).agenda = v.agenda ++ [.event (.moraineDelivery k.id i)]) ∧
      (k.landedIn i 0 = 511 → x.resident = k.resident ++ [i] ∧
        (r.ins.length = 1 → i = 0 →
          (v.landLine k r i ref 0 bytes).agenda = v.agenda ++ [.event (.taskStart k.id)])) := by
  obtain ⟨u, hu⟩ : ∃ u : Task, u = { k with landed := sput k.landed (landKey i 0) (k.landedIn i 0 + 1) } := ⟨_, rfl⟩
  have hlanded : u.landedIn i 0 = k.landedIn i 0 + 1 := by rw [hu]; exact k.landedIn_put i 0 _
  have hnext : u.nextReceiver i ref = if 512 ≤ u.landedIn i 0 then none else some 0 :=
    Task.nextReceiver_solo (by rw [hu]; exact hcores) href
  obtain ⟨w, hw⟩ : ∃ w, w = ((v.setCore { v.core with
      store := writeBytes v.core.store (k.landAddr i 0) bytes }).claimPorts (k.landAddr i 0) bytes.length) := ⟨_, rfl⟩
  have hhere : v.onCoreBank (k.cores.getD 0 0) k.bank (fun s => (s.setCore { s.core with
      store := writeBytes s.core.store (k.landAddr i 0) bytes }).claimPorts (k.landAddr i 0) bytes.length) = w := by
    rw [hcores, hbank, hw]
    exact State.onCoreBank_cur rfl
  have hwstore : w.core.store = writeBytes v.core.store (k.landAddr i 0) bytes := by rw [hw]; rfl
  have hwmem : w.mem = v.mem := by rw [hw]; rfl
  have hwhub : w.hub = v.hub := by rw [hw]; rfl
  have hwagenda : w.agenda = v.agenda := by rw [hw]; rfl
  obtain ⟨z, hz⟩ : ∃ z, z = w.setHub (w.hub.mapTask k.id fun t => { t with landed := u.landed }) := ⟨_, rfl⟩
  have hztask : z.hub.task? k.id = some u := by
    rw [hz, State.setHub_hub, hwhub]
    refine (Hub.mapTask_task? (f := fun t : Task => { t with landed := u.landed }) hk fun _ => rfl).trans ?_
    rw [hu]
  have hzcore : z.core = w.core := by rw [hz]; rfl
  have hzmem : z.mem = v.mem := by rw [hz, ← hwmem]; rfl
  have hzagenda : z.agenda = v.agenda := by rw [hz, ← hwagenda]; rfl
  have hland : v.landLine k r i ref 0 bytes =
      if (u.nextReceiver i ref).isNone then z.inputLanded u r i ref else z.later [.event (.moraineDelivery k.id i)] := by
    unfold State.landLine
    dsimp only
    rw [hhere, hz, hu]
  have huid : u.id = k.id := by rw [hu]
  have hures : u.resident = k.resident := by rw [hu]
  by_cases hlast : 512 ≤ u.landedIn i 0
  case pos =>
    rw [hnext, if_pos hlast] at hland
    obtain ⟨hcore, hmem, htask, hagenda⟩ := State.inputLanded_here (v := z) (k := u) (r := r) (i := i) (ref := ref)
      (huid ▸ hztask)
    rw [hland, if_pos (Option.isNone_none (α := Nat)), hcore, hzcore, hwstore, hmem, hzmem]
    rw [huid] at htask hagenda
    refine ⟨rfl, rfl, _, htask, hlanded, fun h => ?_, fun _ => ⟨congrArg (· ++ [i]) hures, fun hlen hi => ?_⟩⟩
    · omega
    · rw [hagenda hlen hi, hzagenda]
  case neg =>
    rw [hnext, if_neg hlast] at hland
    rw [hland, if_neg (by simp), State.later_core, hzcore, hwstore]
    refine ⟨rfl, hzmem, u, hztask, hlanded, fun _ => ⟨hures, congrArg (· ++ _) hzagenda⟩, fun h => ?_⟩
    omega

end

/-! ### MORAINE_DELIVERY -/

theorem getD_readBytes (m : Mem) (a : Nat) {i n : Nat} (hi : i < n) : (readBytes m a n).getD i 0 = memByte m (a + i) := by
  simp [readBytes, List.getD_eq_getElem?_getD, hi]

/-- R111, R171: a line of a tile is 128 bytes, those of the tile as it is read. -/
theorem Tensor.readLine_readTile {d : Tensor} {m : Mem} {n pa k : Nat} (hlen : (d.readTile m n pa).length = 65536)
    (hk : k < 512) :
    (d.readLine m n pa k).length = 128 ∧
      ∀ j < 128, (d.readLine m n pa k).getD j 0 = (d.readTile m n pa).getD (128 * k + j) 0 := by
  by_cases hfull : d.full n = true
  case pos =>
    have hline : d.readLine m n pa k = readBytes m (pa + 128 * k) 128 := if_pos hfull
    have htile : d.readTile m n pa = readBytes m pa 65536 := if_pos hfull
    rw [hline, htile]
    refine ⟨length_readBytes _ _ _, fun j hj => ?_⟩
    rw [getD_readBytes _ _ hj, getD_readBytes _ _ (by omega), Nat.add_assoc]
  case neg =>
    have hline : d.readLine m n pa k = ((d.readTile m n pa).drop (128 * k)).take 128 := if_neg hfull
    rw [hline]
    refine ⟨?_, fun j hj => getD_drop_take _ _ hj⟩
    rw [List.length_take, List.length_drop, hlen]
    omega

/-- R142: a carried clock changes the clocks alone. -/
theorem State.carry_eq (s : State) (src dst : Nat) : ∃ c, s.carry src dst = { s with clocks := c } := by
  unfold State.carry
  split
  · exact ⟨_, rfl⟩
  · exact ⟨_, rfl⟩

section
variable {s : State} {k : Task} {r : LoopRec} {i : Nat} {ref : TileRef}

/-- R110, R171: what a delivery does where its tile has a frame: the next line lands, of the state's memory. -/
theorem State.deliverInput_lands {part n e pa : Nat} {d : Tensor} (hcores : k.cores = [s.cur])
    (hbank : k.bank = s.core.curBank) (href : ref.cores.testBit 0 = true)
    (htensor : sget s.core.bank.tensors ref.tensor = some d) (htile : ref.tileOf d k.x k.y = some n)
    (hedge : d.edgeFault (some n) = false)
    (hword : s.tileWordOn s.cur s.core.curBank part true d ref.tensor n = .ok e) (hgrant : s.tileGrant e false = .ok pa) :
    ∃ v : State, s.deliverInput part k r i ref 0 = v.landLine k r i ref 0 (d.readLine s.mem n pa (k.landedIn i 0)) ∧
      v.cur = s.cur ∧ v.core.curBank = s.core.curBank ∧ v.core.store = s.core.store ∧ v.mem = s.mem ∧ v.hub = s.hub ∧
      v.agenda = s.agenda := by
  have hhead : (k.receivers ref).headD 0 = 0 := by rw [Task.receivers_solo hcores href]; rfl
  have hcore : k.cores.getD 0 0 = s.cur := by rw [hcores]; rfl
  have hbankOf : (s.bankOf s.cur s.core.curBank).tensors = s.core.bank.tensors := by
    simp [State.bankOf, State.coreAt, Core.bankAt]
  unfold State.deliverInput
  dsimp only
  rw [hhead, hcore, hbank, hbankOf, htensor]
  dsimp only
  rw [htile, if_neg (by rw [hedge]; exact Bool.false_ne_true)]
  dsimp only
  obtain ⟨xs, htile⟩ := State.withTile_here (bad := fun x s => s.tileStop part k s.cur ref.tensor n d x)
    (k := fun pa u => ((u.touchL2 (dieOf s.cur) (pa + 128 * k.landedIn i 0) 0).carry (homeOf pa) (dieOf s.cur)).landLine k r i
      ref 0 (d.readLine u.mem n pa (k.landedIn i 0))) hword hgrant
  refine ⟨_, htile, ?_⟩
  obtain ⟨u, hu⟩ : ∃ u, u = s.setCore { s.core with xlats := xs } := ⟨_, rfl⟩
  obtain ⟨w, dc, o, x, y, hcaches⟩ := u.changesCaches_touchL2 (dieOf s.cur) (pa + 128 * k.landedIn i 0) 0 0
  obtain ⟨c, hcarry⟩ := (u.touchL2 (dieOf s.cur) (pa + 128 * k.landedIn i 0) 0).carry_eq (homeOf pa) (dieOf s.cur)
  rw [← hu, hcarry, hcaches, hu]
  exact ⟨rfl, rfl, rfl, rfl, rfl, rfl⟩

end

section
variable {s : State} {k : Task} {r : LoopRec} {l : Launch} (hk : s.hub.task? k.id = some k) (hrec : k.lrec = some r)
variable (hl : s.hub.launch? k.launch = some l) (hfault : l.fault = none) (hcores : k.cores = [s.cur])
variable (hbank : k.bank = s.core.curBank) (hwait : k.waitEv = none)
include hk hl

section
include hrec hfault hcores hbank hwait

/-- R37, R171: MORAINE_DELIVERY of a task of the running bank delivers the next line of the input. -/
theorem exec_moraineDelivery_delivers {i : Nat} {ref : TileRef} (haudit : k.auditOf = none) (hi : r.ins[i]? = some ref)
    (hrun : k.run = .placed) (hres : i ∉ k.resident) (href : ref.cores.testBit 0 = true) (hm : k.landedIn i 0 < 512)
    (hheld : s.deliveryHeld s.cur s.core.curBank (unitAddr s.core.curBank i / 128 + k.landedIn i 0) = false) :
    exec (.moraineDelivery k.id i) s = .next (s.deliverInput (s.hub.partOf l) k r i ref 0) := by
  have hline : k.landAddr i 0 / 128 = unitAddr s.core.curBank i / 128 + k.landedIn i 0 := by
    rw [Task.landAddr, hbank, Nat.add_mul_div_left _ _ (by decide)]
  have hcore : k.cores.getD 0 0 = s.cur := by rw [hcores]; rfl
  have hgo : (k.run ≠ .placed || k.waitEv.isSome || k.resident.contains i || l.fault.isSome) = false := by
    simp [hrun, hwait, hres, hfault]
  change execMoraineDelivery k.id i s = _
  unfold execMoraineDelivery
  rw [hk]
  dsimp only
  rw [hrec, hl]
  dsimp only
  rw [hi]
  dsimp only
  rw [if_neg (Bool.eq_false_iff.mp hgo), Task.nextReceiver_solo hcores href, if_neg (by omega)]
  dsimp only
  rw [hline, hcore, hbank, if_neg (Bool.eq_false_iff.mp hheld), haudit]
  rfl

/-- R111, R171, R172: the line that lands, and what is due after it. -/
theorem exec_moraineDelivery_lands {i n e pa : Nat} {ref : TileRef} {d : Tensor} (haudit : k.auditOf = none)
    (hstore : Mem.wf s.core.store = true) (hi : r.ins[i]? = some ref) (hrun : k.run = .placed) (hres : i ∉ k.resident)
    (href : ref.cores.testBit 0 = true) (htensor : sget s.core.bank.tensors ref.tensor = some d)
    (htile : ref.tileOf d k.x k.y = some n) (hedge : d.edgeFault (some n) = false)
    (hword : s.tileWordOn s.cur s.core.curBank (s.hub.partOf l) true d ref.tensor n = .ok e)
    (hgrant : s.tileGrant e false = .ok pa) (hlen : (d.readTile s.mem n pa).length = 65536) :
    let a := unitAddr s.core.curBank i
    let m := k.landedIn i 0
    m < 512 → s.deliveryHeld s.cur s.core.curBank (a / 128 + m) = false →
    ∃ t x, exec (.moraineDelivery k.id i) s = .next t ∧
      (∀ j < 128, memByte t.core.store (a + 128 * m + j) = (d.readTile s.mem n pa).getD (128 * m + j) 0) ∧
      (∀ y, y < a + 128 * m ∨ a + 128 * m + 128 ≤ y → memByte t.core.store y = memByte s.core.store y) ∧
      t.hub.task? k.id = some x ∧ x.landedIn i 0 = m + 1 ∧ t.mem = s.mem ∧
      (m < 511 → x.resident = k.resident ∧ t.agenda = s.agenda ++ [.event (.moraineDelivery k.id i)]) ∧
      (m = 511 → x.resident = k.resident ++ [i] ∧
        (r.ins.length = 1 → t.agenda = s.agenda ++ [.event (.taskStart k.id)])) := by
  intro a m hm hheld
  obtain ⟨v, hdeliver, hcur, hcurBank, hvstore, hvmem, hvhub, hvagenda⟩ := State.deliverInput_lands (r := r) (i := i)
    hcores hbank href htensor htile hedge hword hgrant
  obtain ⟨bytes, hbytes⟩ : ∃ bs, bs = d.readLine s.mem n pa m := ⟨_, rfl⟩
  obtain ⟨hline, hget⟩ := Tensor.readLine_readTile hlen hm
  rw [← hbytes] at hline hget
  obtain ⟨hlstore, hlmem, x, htask, hlanded, hmore, hlast⟩ := State.landLine_here (v := v) (r := r) (i := i)
    (bytes := bytes) (hcur ▸ hcores) (hcurBank ▸ hbank) href (hvhub ▸ hk)
  have haddr : k.landAddr i 0 = a + 128 * m := by rw [Task.landAddr, hbank]
  rw [hvstore, haddr] at hlstore
  rw [hvagenda] at hmore hlast
  have hzero : r.ins.length = 1 → i = 0 := fun hone => by
    have hlt := (List.getElem?_eq_some_iff.mp hi).1
    omega
  refine ⟨v.landLine k r i ref 0 bytes, x, ?_, fun j hj => ?_, fun y hy => ?_, htask, hlanded, hlmem.trans hvmem, hmore,
    fun h => ⟨(hlast h).1, fun hone => (hlast h).2 hone (hzero hone)⟩⟩
  · rw [exec_moraineDelivery_delivers hk hrec hl hfault hcores hbank hwait haudit hi hrun hres href hm hheld, hdeliver,
      hbytes]
  · rw [hlstore, memByte_writeBytes hstore, if_pos (by omega), Nat.add_sub_cancel_left, hget j hj]
  · rw [hlstore, memByte_writeBytes_out hstore (by omega)]

end

/-! ### PRIORITY_AGING -/

/-- R179: a task that waits, and has waited a further 2^20 cycles, rises by one. -/
theorem exec_priorityAging_waits (hwaits : s.hub.waits (s.hub.partOf l) k = true) :
    (k.agedAt s.now = true →
      ∃ t x, exec (.priorityAging k.id) s = .next t ∧ t.hub.task? k.id = some x ∧ x.waited = k.waited + 1 ∧
        x.since = k.since.map (· + 2 ^ 20) ∧ t.agenda = s.agenda ++ [.event (.taskPlace (s.hub.partOf l))]) ∧
    (k.agedAt s.now = false → exec (.priorityAging k.id) s = .next s) := by
  have hexec : exec (.priorityAging k.id) s = if (s.hub.waits (s.hub.partOf l) k && k.agedAt s.now) = true then
      .next ((s.setHub (s.hub.mapTask k.id fun t =>
        { t with waited := t.waited + 1, since := t.since.map (· + 2 ^ 20) })).later [.event (.taskPlace (s.hub.partOf l))])
    else .next s := by
    change execPriorityAging k.id s = _
    unfold execPriorityAging
    rw [hk]
    dsimp only
    rw [hl]
  rw [hexec, hwaits, Bool.true_and]
  refine ⟨fun haged => ?_, fun haged => if_neg (by rw [haged]; exact Bool.false_ne_true)⟩
  exact ⟨_, _, if_pos haged, Hub.mapTask_task? hk fun _ => rfl, rfl, rfl, rfl⟩

end

/-! ### TASK_START -/

/-- R160: p0 and p9 to p15 are 1 at the start of a task. -/
theorem startPreds_getElem : ∀ n : Fin 16, startPreds[n] = decide (n.val = 0 ∨ 9 ≤ n.val) := by decide

section
variable (b : Bank) (a : ArmSlot) (l : Launch) (t : Task) (r : LoopRec) (core p : Nat)

theorem startBank_sregN {n : Nat} (hn : n < 64) (h6 : 6 ≤ n) : (startBank b a l t r core p).sregN n = 0 := by
  unfold Bank.sregN Bank.sreg
  split
  · rfl
  · simp only [startBank, BitVec.toNat_ofNat, Nat.mod_eq_of_lt hn]
    rw [Vector.getElem_set_ne _ _ (by omega), Vector.getElem_set_ne _ _ (by omega), Vector.getElem_set_ne _ _ (by omega),
      Vector.getElem_set_ne _ _ (by omega), Vector.getElem_set_ne _ _ (by omega), Vector.getElem_replicate]

theorem startBank_pred {n : Nat} (hn : n < 16) :
    (startBank b a l t r core p).pred (BitVec.ofNat 4 n) = decide (n = 0 ∨ 9 ≤ n) := by
  have htoNat : (BitVec.ofNat 4 n).toNat = n := Nat.mod_eq_of_lt hn
  unfold Bank.pred
  split
  case isTrue hzero =>
    have h0 : n = 0 := htoNat.symm.trans (congrArg BitVec.toNat hzero)
    simp [h0]
  case isFalse =>
    have hp : (startBank b a l t r core p).p = startPreds := rfl
    simp only [hp, htoNat]
    exact startPreds_getElem ⟨n, hn⟩

theorem startBank_mask {n : Nat} (h1 : 1 ≤ n) (hn : n < 8) : (startBank b a l t r core p).mask (BitVec.ofNat 3 n) = 0 := by
  have htoNat : (BitVec.ofNat 3 n).toNat = n := Nat.mod_eq_of_lt hn
  unfold Bank.mask
  split
  case isTrue hzero =>
    have h0 : n = 0 := htoNat.symm.trans (congrArg BitVec.toNat hzero)
    omega
  case isFalse =>
    have hk : (startBank b a l t r core p).k = (Vector.replicate 8 0).set 0 (BitVec.allOnes 2048) := rfl
    simp only [hk, htoNat]
    rw [Vector.getElem_set_ne _ _ (by omega), Vector.getElem_replicate]

end

/-- R160: the start of the member on the running bank of the core that acts. -/
theorem State.startMember_here (s : State) (a : ArmSlot) (l : Launch) (t : Task) (r : LoopRec) (p : Nat)
    (hbank : t.bank = s.core.curBank) :
    (s.startMember a l t r (s.cur, p)).core.bank = startBank s.core.bank a l t r s.cur p ∧
    (s.startMember a l t r (s.cur, p)).core.planes = Planes.none ∧
    (s.startMember a l t r (s.cur, p)).hub = s.hub := by
  unfold State.startMember
  dsimp only
  rw [hbank, State.onCoreBank_cur rfl, (rouse_frame _ _).1, (rouse_frame _ _).2]
  exact ⟨rfl, rfl, rfl⟩

/-- R160, R172: TASK_START of a task of the running bank whose inputs are all resident. -/
theorem exec_taskStart_here {s : State} {k : Task} {r : LoopRec} {l : Launch} (hk : s.hub.task? k.id = some k)
    (hrec : k.lrec = some r) (hl : s.hub.launch? k.launch = some l) (hfault : l.fault = none) (hcores : k.cores = [s.cur])
    (hbank : k.bank = s.core.curBank) (hrun : k.run = .placed) (hres : ∀ i < r.ins.length, i ∈ k.resident) :
    ∃ t x, exec (.taskStart k.id) s = .next t ∧ t.hub.task? k.id = some x ∧ x.run = .running ∧
      t.core.bank = startBank s.core.bank (s.hub.slotOf l) l k r s.cur 0 ∧ t.core.planes = Planes.none := by
  have hgo : (k.run ≠ .placed || l.fault.isSome || !((List.range r.ins.length).all k.resident.contains)) = false := by
    have hall : (List.range r.ins.length).all k.resident.contains = true :=
      List.all_eq_true.mpr fun i hi => List.contains_iff_mem.mpr (hres i (List.mem_range.mp hi))
    rw [hall, hfault, hrun]
    rfl
  obtain ⟨hstart, hplanes, hhub⟩ := s.startMember_here (s.hub.slotOf l) l k r 0 hbank
  obtain ⟨u, hu⟩ : ∃ u, u = s.startMember (s.hub.slotOf l) l k r (s.cur, 0) := ⟨_, rfl⟩
  rw [← hu] at hstart hplanes hhub
  have hfold : (k.cores.zipIdx).foldl (fun s x => s.startMember (s.hub.slotOf l) l k r x) s = u := by rw [hcores, hu]; rfl
  have hmap := Hub.mapTask_task? (h := u.hub) (f := fun t : Task =>
    { t with run := .running, waited := 0, since := none, started := u.hub.starts }) (hhub ▸ hk) fun _ => rfl
  refine ⟨u.setHub { u.hub.mapTask k.id (fun t =>
    { t with run := .running, waited := 0, since := none, started := u.hub.starts }) with starts := u.hub.starts + 1 },
    _, ?_, hmap, rfl, hstart, hplanes⟩
  change execTaskStart k.id s = _
  unfold execTaskStart
  rw [hk]
  dsimp only
  rw [hrec, hl]
  dsimp only
  rw [if_neg (Bool.eq_false_iff.mp hgo), hfold]

end Sys2Proof.Machine
end

section
/-! PROOFS. The pull of a declared output of a solo task. -/

namespace Sys2Proof.Machine

/-! ### The walk of a graph writes no memory (R164) -/

theorem State.logErrorFor_mem (s : State) (part addr : Nat) : (s.logErrorFor part addr).mem = s.mem := by
  obtain ⟨k, o, h⟩ := s.logMc_eq 16 2 16 0 0x0020 (BitVec.ofNat 64 addr) 0 (some part)
  rw [State.logErrorFor, h]

theorem State.enterNode_mem (s : State) (launch br n : Nat) : (s.enterNode launch br n).mem = s.mem := by
  unfold State.enterNode
  dsimp only
  split
  · rfl
  · split
    · rfl
    · split
      · rfl
      · exact State.logErrorFor_mem _ _ _
      · split <;> rfl

theorem State.retryBranch_mem (s : State) (l : Launch) (b : Branch) : (s.retryBranch l b).mem = s.mem := by
  unfold State.retryBranch
  split
  · split
    · rfl
    · exact s.enterNode_mem _ _ _
  · rfl

theorem State.wake_mem (s : State) (launch : Nat) : (s.wake launch).mem = s.mem := by
  have hfold (l : Launch) (bs : List Branch) (u : State) : (bs.foldl (fun s b => s.retryBranch l b) u).mem = u.mem := by
    induction bs generalizing u with
    | nil => rfl
    | cons b bs ih => rw [List.foldl_cons, ih, State.retryBranch_mem]
  unfold State.wake
  split
  · rfl
  · exact hfold _ _ s

theorem State.checkRetire_mem (s : State) (id : Nat) : (s.checkRetire id).mem = s.mem := by
  have hgo (h : Hub) (l : Nat) (p : Prop) [Decidable p] : (if p then s else (s.setHub h).wake l).mem = s.mem := by
    split
    · rfl
    · exact State.wake_mem _ _
  unfold State.checkRetire
  split
  · rfl
  · exact hgo _ _ _

/-! ### The bytes that a pull writes (R111) -/

theorem Tensor.length_trim {t : Tensor} {n : Nat} {xs ys : List Byte} (hlen : xs.length = ys.length) :
    (t.trim n xs ys).length = xs.length := by
  unfold Tensor.trim
  split
  · rfl
  · simp [hlen]

/-- R111: bytes inside the extents are written, the others keep their value. -/
theorem Tensor.trim_getD {t : Tensor} {n j : Nat} {xs ys : List Byte} (hlen : xs.length = ys.length) (hj : j < xs.length) :
    (t.trim n xs ys).getD j 0 = if t.full n || t.insideAt n j then xs.getD j 0 else ys.getD j 0 := by
  unfold Tensor.trim
  by_cases hfull : t.full n = true
  case pos => rw [if_pos hfull, hfull, Bool.true_or, if_pos rfl]
  case neg =>
    rw [if_neg hfull, Bool.eq_false_iff.mpr hfull, Bool.false_or]
    simp only [List.getD_eq_getElem?_getD, List.getElem?_map, List.getElem?_zipIdx, List.zip,
      List.getElem?_zipWith, List.getElem?_eq_getElem hj, List.getElem?_eq_getElem (hlen ▸ hj)]
    simp only [Option.map_some, Option.getD_some, Nat.zero_add]

/-! ### What a pull changes -/

/-- R104, R137, R142: the pulled bytes go to memory, and the core that acts keeps its banks and its window. -/
theorem State.pullInto_frame (s : State) (die pa : Nat) (bytes : List Byte) :
    s.KeepsCore (s.pullInto die pa bytes) ∧ (s.pullInto die pa bytes).mem = writeBytes s.mem pa bytes := by
  obtain ⟨u, hu⟩ : ∃ u, u = s.dieAcquire die (homeOf pa) 3 := ⟨_, rfl⟩
  obtain ⟨c, hcarry⟩ := ({ s with ord := s.ord ++ [OrdEvent.dieAcquire (homeOf pa) 3] } : State).carry_eq die (homeOf pa)
  have hukeeps : s.KeepsCore u := by
    rw [hu, State.dieAcquire, hcarry]
    exact State.keepsCore_of_eq rfl rfl rfl
  have humem : u.mem = s.mem := by rw [hu, State.dieAcquire, hcarry]
  have htouch := u.changesCaches_touchHome pa bytes.length 0 true
  unfold State.pullInto
  rw [← hu]
  refine ⟨hukeeps.trans (htouch.keepsCore.trans (State.keepsCore_putFrom _ _ _ _)), ?_⟩
  rw [State.putFrom_mem]
  obtain ⟨w, d, o, x, y, h⟩ := htouch
  rw [h, ← humem]

/-- R175: the running bank's task has a unit's pull behind it. -/
def State.markPulled (o : Nat) (s : State) : State :=
  match s.core.bank.task with
  | none => s
  | some k => s.setBank { s.core.bank with task := some { k with pulled := k.pulled ++ [8 + o] } }

theorem State.markPulled_task {s : State} {y : BankTask} (o : Nat) (hy : s.core.bank.task = some y) :
    s.markPulled o = s.setBank { s.core.bank with task := some { y with pulled := y.pulled ++ [8 + o] } } := by
  rw [State.markPulled, hy]

/-- R161, R175: a pull by the running bank of the core that acts has completed. -/
theorem State.pulled_here {s : State} {k : Task} {y : BankTask} {o tid n : Nat} {bytes : List Byte}
    (hbank : k.bank = s.core.curBank) (hy : s.core.bank.task = some y) :
    ((s.pulled k s.cur o tid n bytes).core.bank.task.map fun z => z.pulled) = some (y.pulled ++ [8 + o]) ∧
    (s.pulled k s.cur o tid n bytes).core.store = s.core.store ∧ (s.pulled k s.cur o tid n bytes).mem = s.mem := by
  obtain ⟨u, hu⟩ : ∃ u, u = s.setBank { s.core.bank with task := some { y with pulled := y.pulled ++ [8 + o] } } := ⟨_, rfl⟩
  have hmark : s.onCoreBank s.cur k.bank (State.markPulled o) = u := by
    have hset := State.markPulled_task o hy
    rw [hbank, State.onCoreBank_cur (by rw [hset]; rfl), hset, hu]
  obtain ⟨h, hh⟩ : ∃ h, h = u.hub.mapTask k.id fun t =>
    { t with pulls := t.pulls ++ [o], outData := t.outData ++ [(o, tid, n, bytes)] } := ⟨_, rfl⟩
  have hpulled : s.pulled k s.cur o tid n bytes = ((u.setHub h).checkRetire k.id).rouse s.cur := by
    rw [hh, ← hmark]
    rfl
  have hkeeps := (u.keepsCore_setHub h).trans ((u.setHub h).keepsCore_checkRetire k.id)
  have hmem : (((u.setHub h).checkRetire k.id).rouse s.cur).mem = ((u.setHub h).checkRetire k.id).mem := by
    unfold State.rouse
    split <;> rfl
  rw [hpulled, (rouse_frame _ _).1, hkeeps.bank, hkeeps.store, hmem, State.checkRetire_mem, hu]
  exact ⟨rfl, rfl, rfl⟩

/-! ### OUTPUT_PULL_DONE -/

section
variable {s : State} {k : Task} {r : LoopRec} {l : Launch} {o : Nat} {ref : TileRef} {y : BankTask}
variable (hk : s.hub.task? k.id = some k) (hrec : k.lrec = some r) (hl : s.hub.launch? k.launch = some l)
variable (hfault : l.fault = none) (hcores : k.cores = [s.cur]) (hbank : k.bank = s.core.curBank)
variable (hwait : k.waitEv = none) (ho : r.outs[o]? = some ref) (href : ref.cores.testBit 0 = true)
variable (hy : s.core.bank.task = some y) (htask : y.task = k.id) (hmarked : (8 + o) ∈ y.marked)
variable (hpulled : (8 + o) ∉ y.pulled)
include hk hrec hl hfault hcores hbank hwait ho href hy htask hmarked hpulled

/-- R175: the step of a marked output of a task of the running bank pulls it. -/
theorem exec_outputPullDone_pulls :
    exec (.outputPullDone k.id o) s = .next (s.pullOutput (s.hub.partOf l) k s.cur o ref) := by
  have hfind : k.cores.zipIdx.find? (fun x => ref.cores.testBit x.2) = some (s.cur, 0) := by
    rw [hcores]
    simp [href]
  have hbankOf : s.bankOf s.cur k.bank = s.core.bank := by
    rw [hbank]
    simp [State.bankOf, State.coreAt, Core.bankAt]
  have hdue : (y.task == k.id && y.marked.contains (8 + o) && !(y.pulled.contains (8 + o))) = true := by
    simp [htask, hmarked, hpulled]
  change execOutputPullDone k.id o s = _
  unfold execOutputPullDone
  rw [hk]
  dsimp only
  rw [hrec, hl]
  dsimp only
  rw [ho]
  dsimp only
  rw [hfind]
  dsimp only
  rw [hbankOf, hy]
  dsimp only
  refine congrArg Host.Outcome.next (if_neg ?_)
  rw [hdue, hwait, hfault]
  exact Bool.false_ne_true

/-- R137: the pull waits for rows of an epilogue that the release covers. -/
theorem exec_outputPullDone_waits (hflight : s.core.bank.unitFlight (unitAddr s.core.curBank (8 + o)) = true) :
    exec (.outputPullDone k.id o) s = .next (s.retryOn s.cur (.event (.outputPullDone k.id o))) := by
  rw [exec_outputPullDone_pulls hk hrec hl hfault hcores hbank hwait ho href hy htask hmarked hpulled]
  unfold State.pullOutput
  dsimp only
  rw [hbank, if_pos (by simpa [State.bankOf, State.coreAt, Core.bankAt] using hflight)]

/-- R111, R137, R161, R175: the pull writes the unit to its tile, bytes outside the extents left out. -/
theorem exec_outputPullDone_writes {n e pa : Nat} {d : Tensor} (haudit : k.auditOf = none) (hmem : Mem.wf s.mem = true)
    (htensor : sget s.core.bank.tensors ref.tensor = some d) (htile : ref.tileOf d k.x k.y = some n)
    (hedge : d.edgeFault (some n) = false)
    (hword : s.tileWordOn s.cur s.core.curBank (s.hub.partOf l) true d ref.tensor n = .ok e)
    (hgrant : s.tileGrant e true = .ok pa)
    (hflight : s.core.bank.unitFlight (unitAddr s.core.curBank (8 + o)) = false) :
    let a := unitAddr s.core.curBank (8 + o)
    ∃ t, exec (.outputPullDone k.id o) s = .next t ∧
      (∀ j < 65536, memByte t.mem (pa + j) =
        if d.full n || d.insideAt n j then memByte s.core.seen (a + j) else memByte s.mem (pa + j)) ∧
      (∀ x, x < pa ∨ pa + 65536 ≤ x → memByte t.mem x = memByte s.mem x) ∧
      (t.core.bank.task.map fun z => z.pulled) = some (y.pulled ++ [8 + o]) ∧ t.core.store = s.core.store := by
  intro a
  obtain ⟨bytes, hbytes⟩ : ∃ bs, bs = readBytes s.core.seen a 65536 := ⟨_, rfl⟩
  obtain ⟨xs, hport⟩ := State.withTile_here (bad := fun x s => s.tileStop (s.hub.partOf l) k s.cur ref.tensor n d x)
    (k := fun pa u => (u.pullInto (dieOf s.cur) pa (d.trim n bytes (readBytes u.mem pa 65536))).pulled k s.cur o
      ref.tensor n bytes) hword hgrant
  obtain ⟨u, hu⟩ : ∃ u, u = s.setCore { s.core with xlats := xs } := ⟨_, rfl⟩
  obtain ⟨out, hout⟩ : ∃ out, out = d.trim n bytes (readBytes s.mem pa 65536) := ⟨_, rfl⟩
  have hlen : bytes.length = (readBytes s.mem pa 65536).length := by rw [hbytes, length_readBytes, length_readBytes]
  have hblen : bytes.length = 65536 := by rw [hbytes, length_readBytes]
  have houtlen : out.length = 65536 := by rw [hout, Tensor.length_trim hlen, hblen]
  obtain ⟨hkeeps, hwrote⟩ := u.pullInto_frame (dieOf s.cur) pa out
  obtain ⟨v, hv⟩ : ∃ v, v = u.pullInto (dieOf s.cur) pa out := ⟨_, rfl⟩
  rw [← hv] at hkeeps hwrote
  have hvcur : v.cur = s.cur := hkeeps.1.trans (by rw [hu]; rfl)
  obtain ⟨hpulls, hstore, hvmem⟩ := State.pulled_here (s := v) (k := k) (y := y) (o := o) (tid := ref.tensor) (n := n)
    (bytes := bytes) (hbank.trans (by rw [hkeeps.curBank, hu]; rfl)) (by rw [hkeeps.bank, hu]; exact hy)
  rw [hvcur] at hpulls hstore hvmem
  have humem : u.mem = s.mem := by rw [hu]; rfl
  rw [hwrote, humem] at hvmem
  refine ⟨v.pulled k s.cur o ref.tensor n bytes, ?_, fun j hj => ?_, fun x hx => ?_, hpulls, ?_⟩
  · rw [exec_outputPullDone_pulls hk hrec hl hfault hcores hbank hwait ho href hy htask hmarked hpulled]
    have hbankOf : s.bankOf s.cur s.core.curBank = s.core.bank := by simp [State.bankOf, State.coreAt, Core.bankAt]
    have hseen : (s.coreAt s.cur).bankSeen s.core.curBank 0 = s.core.seen := by
      simp [State.coreAt, Core.bankSeen, Core.seen]
    unfold State.pullOutput
    dsimp only
    rw [hbank, hbankOf, hseen, if_neg (Bool.eq_false_iff.mp hflight), htensor]
    dsimp only
    rw [htile, if_neg (Bool.eq_false_iff.mp hedge)]
    dsimp only
    rw [if_neg (by rw [haudit]; exact Bool.false_ne_true), ← hbytes]
    refine congrArg Host.Outcome.next (hport.trans ?_)
    rw [← hu, humem, ← hout, ← hv]
  · rw [hvmem, memByte_writeBytes hmem, if_pos (by omega), Nat.add_sub_cancel_left, hout,
      Tensor.trim_getD hlen (by omega), hbytes, getD_readBytes _ _ hj, getD_readBytes _ _ hj]
  · rw [hvmem, memByte_writeBytes_out hmem (by omega)]
  · rw [hstore, hkeeps.store, hu]
    rfl

end

end Sys2Proof.Machine
end

section
/-! PROOFS. The pre-emption of a task, its resumption, and what a freeze and a restore keep of a bank. -/

namespace Sys2Proof.Machine

/-! ### The freeze and the capture (R208 to R210) -/

/-- R210: a freeze changes the engine of the running bank and its results in flight alone. -/
theorem State.freezeMatrix_eq (s : State) : ∃ p m, s.freezeMatrix =
    s.setBank { s.core.bank with pend := p, streams := [], epis := [], loader := none, mreds := m } := ⟨_, _, rfl⟩

/-- R208 to R212: a capture writes the frame and sets results aside; the registers stand. -/
theorem State.capture_eq (s : State) (f : Nat) (epc cause : Word) (drift : Bool) : ∃ m b,
    s.capture f epc cause drift = s.setCore { s.core with store := m, bank := b } ∧ b.s = s.core.bank.s ∧
      b.v = s.core.bank.v := by
  obtain ⟨p, m, hfreeze⟩ := s.freezeMatrix_eq
  unfold State.capture
  dsimp only
  rw [hfreeze]
  refine ⟨_, _, rfl, ?_, ?_⟩
  · unfold Bank.park Bank.shiftOn
    dsimp only
    split <;> rfl
  · unfold Bank.park Bank.shiftOn
    dsimp only
    split <;> rfl

/-! ### The restore (R216) -/

/-- Two banks that differ in their barriers, their engines, what is in flight and where they issue, but in none of the
registers, masks, latches and loop state that a frame holds. -/
structure Bank.FrameRegs (old new : Bank) : Prop where
  s : new.s = old.s
  v : new.v = old.v
  b : new.b = old.b
  p : new.p = old.p
  k : new.k = old.k
  status : new.status = old.status
  loop : new.loop = old.loop
  loopBuf : new.loopBuf = old.loopBuf
  rotSize : new.rotSize = old.rotSize
  rotBase : new.rotBase = old.rotBase
  lat0 : new.lat0 = old.lat0
  lat1 : new.lat1 = old.lat1
  latE : new.latE = old.latE
  latS : new.latS = old.latS
  held0 : new.held0 = old.held0
  held1 : new.held1 = old.held1
  epc : new.epc = old.epc
  tvec : new.tvec = old.tvec

theorem Bank.FrameRegs.refl (b : Bank) : b.FrameRegs b := by constructor <;> rfl

theorem Bank.FrameRegs.trans {a b c : Bank} (h₁ : a.FrameRegs b) (h₂ : b.FrameRegs c) : a.FrameRegs c where
  s := h₂.s.trans h₁.s
  v := h₂.v.trans h₁.v
  b := h₂.b.trans h₁.b
  p := h₂.p.trans h₁.p
  k := h₂.k.trans h₁.k
  status := h₂.status.trans h₁.status
  loop := h₂.loop.trans h₁.loop
  loopBuf := h₂.loopBuf.trans h₁.loopBuf
  rotSize := h₂.rotSize.trans h₁.rotSize
  rotBase := h₂.rotBase.trans h₁.rotBase
  lat0 := h₂.lat0.trans h₁.lat0
  lat1 := h₂.lat1.trans h₁.lat1
  latE := h₂.latE.trans h₁.latE
  latS := h₂.latS.trans h₁.latS
  held0 := h₂.held0.trans h₁.held0
  held1 := h₂.held1.trans h₁.held1
  epc := h₂.epc.trans h₁.epc
  tvec := h₂.tvec.trans h₁.tvec

theorem Bank.frameRegs_foldl {α : Type} {f : Bank → α → Bank} (hf : ∀ b x, Bank.FrameRegs b (f b x)) (xs : List α) (b : Bank) :
    b.FrameRegs (xs.foldl f b) := by
  induction xs generalizing b with
  | nil => exact .refl b
  | cons x xs ih => exact (hf b x).trans (ih _)

theorem Bank.frameRegs_setCb (b : Bank) (n : Nat) (c : Barrier) : b.FrameRegs (b.setCb n c) := by
  unfold Bank.setCb
  split
  · constructor <;> rfl
  · exact .refl b

theorem Bank.frameRegs_putBar (b : Bank) (x : Rime × Option (Nat × BarRes)) : b.FrameRegs (b.putBar x) := by
  unfold Bank.putBar
  dsimp only
  split
  · exact b.frameRegs_setCb _ _
  · exact b.frameRegs_setCb _ _

theorem Bank.frameRegs_renameBars (b : Bank) (ids : List Nat) (rs : List Rime) : b.FrameRegs (b.renameBars ids rs) :=
  (Bank.frameRegs_foldl (fun b _ => b.frameRegs_setCb _ _) _ b).trans
    (Bank.frameRegs_foldl (fun b x => b.frameRegs_putBar x) _ _)

theorem Bank.frameRegs_unpark (b : Bank) (f' : Nat) : b.FrameRegs (b.unpark f') := by
  unfold Bank.unpark
  split
  · exact .refl b
  · constructor <;> rfl

/-- R213, R216: what a restore gives the running bank: the frame's registers, and its entries in flight. -/
theorem State.restore_bank (s : State) (f' : Nat) (pc : Word) (rs : List Rime) :
    (s.core.bank.restoreFrame s.core.store (128 * s.core.bank.tfbase)).FrameRegs (s.restore f' pc rs).core.bank ∧
    (s.restore f' pc rs).core.bank.pc = pc ∧ (s.restore f' pc rs).core.bank.byBranch = true ∧
    (s.restore f' pc rs).core.bank.run = .active ∧
    ∃ es, (s.restore f' pc rs).core.bank.pend = es ++ (rs.filter fun r => !r.bar).map (rimePend f') := by
  obtain ⟨b, hb⟩ : ∃ b, b = ((s.core.bank.restoreFrame s.core.store (128 * s.core.bank.tfbase)).unpark f').renameBars
      s.core.bank.heldBars (rs.filter fun r => r.bar) := ⟨_, rfl⟩
  have hregs : (s.core.bank.restoreFrame s.core.store (128 * s.core.bank.tfbase)).FrameRegs b := by
    rw [hb]
    exact (Bank.frameRegs_unpark _ _).trans (Bank.frameRegs_renameBars _ _ _)
  unfold State.restore
  dsimp only
  rw [← hb]
  exact ⟨hregs.trans (by constructor <;> rfl), rfl, rfl, rfl, _, rfl⟩

/-- R216: a restore changes the running bank alone. -/
theorem State.restore_eq (s : State) (f' : Nat) (pc : Word) (rs : List Rime) :
    ∃ b, s.restore f' pc rs = s.setBank b := ⟨_, rfl⟩

/-- R180: a saved bank goes on from its frame with its own registers, place and trap registers. -/
theorem State.rejoin_here {s : State} {v : Saved} (hbank : s.core.bank = v.bank) (hrun : v.bank.run = .active) :
    (s.rejoin v).core.bank.run = .active ∧ (s.rejoin v).core.bank.s = v.bank.s ∧
    (s.rejoin v).core.bank.v = v.bank.v ∧ (s.rejoin v).core.bank.pc = v.bank.pc ∧
    (s.rejoin v).core.bank.epc = v.bank.epc ∧ (s.rejoin v).hub = s.hub ∧ (s.rejoin v).cur = s.cur := by
  obtain ⟨rs, hrs⟩ : ∃ rs, rs = (rimesRead s.core.store (128 * v.bank.tfbase)).map (·.1) := ⟨_, rfl⟩
  obtain ⟨hregs, hpc, -⟩ := s.restore_bank v.bank.tick v.bank.pc rs
  obtain ⟨b, hb⟩ := s.restore_eq v.bank.tick v.bank.pc rs
  have hs : (s.core.bank.restoreFrame s.core.store (128 * s.core.bank.tfbase)).s = v.bank.s := by rw [hbank]; rfl
  have hv : (s.core.bank.restoreFrame s.core.store (128 * s.core.bank.tfbase)).v = v.bank.v := by rw [hbank]; rfl
  have hactive : (if v.bank.run = .ending then BankRun.ending else .active) = .active := by
    rw [hrun]
    exact if_neg (by decide)
  have hbs := hregs.s.trans hs
  have hbv := hregs.v.trans hv
  rw [hb] at hpc hbs hbv
  unfold State.rejoin
  dsimp only
  rw [← hrs, hb]
  exact ⟨hactive, hbs, hbv, hpc, rfl, rfl, rfl⟩

/-! ### TASK_RESUME -/

/-- R102, R180: a saved context stands in the running bank: its lines, its planes and its registers. -/
def State.refilled (v : Saved) (s : State) : State :=
  (s.setCore { s.core with
    store := putBack s.core.store v.bank.pins v.lines, planes := v.planes, bank := v.bank }).evictWays

theorem State.refilled_frame (v : Saved) (s : State) :
    (s.refilled v).core.bank = v.bank ∧ (s.refilled v).hub = s.hub ∧ (s.refilled v).cur = s.cur := by
  obtain ⟨u, hu⟩ : ∃ u, u = s.setCore { s.core with
    store := putBack s.core.store v.bank.pins v.lines, planes := v.planes, bank := v.bank } := ⟨_, rfl⟩
  obtain ⟨w, d, o, x, y, hform⟩ := u.changesCaches_evictWays
  rw [State.refilled, ← hu, hform, hu]
  exact ⟨rfl, rfl, rfl⟩

/-- R180, R219: a saved context goes on in a bank of the core that acts, its threads with it. -/
def State.reinstated (v : Saved) (bank : Nat) (s : State) : State :=
  (s.setCore (v.threads.foldl (fun (c : Core) x => c.setThread x.1 { x.2 with bank := bank }) s.core)).onBank bank
    fun s => (s.refilled v).rejoin v

theorem State.reinstated_here {s : State} {v : Saved} (hthreads : v.threads = []) :
    s.reinstated v s.core.curBank = (s.refilled v).rejoin v := by
  rw [State.reinstated, hthreads]
  exact if_pos rfl

/-- R219: the operations of a restored member act for its new place, and its pulls go on. -/
theorem State.restoreMember_eq (s : State) (t : Task) (v : Saved) (core : Nat) : ∃ ops ts,
    s.restoreMember t v core = (({ s.onCore core (State.reinstated v t.bank) with ops := ops } : State).later ts).rouse core :=
  ⟨_, _, rfl⟩

/-- R180, R219: the member of a solo task is restored in the running bank of the core that acts. -/
theorem State.restoreMember_here {s : State} {k : Task} {v : Saved} (hbank : k.bank = s.core.curBank)
    (hthreads : v.threads = []) (hrun : v.bank.run = .active) :
    (s.restoreMember k v s.cur).core.bank.run = .active ∧ (s.restoreMember k v s.cur).core.bank.s = v.bank.s ∧
    (s.restoreMember k v s.cur).core.bank.v = v.bank.v ∧ (s.restoreMember k v s.cur).core.bank.pc = v.bank.pc ∧
    (s.restoreMember k v s.cur).core.bank.epc = v.bank.epc ∧ (s.restoreMember k v s.cur).hub = s.hub := by
  obtain ⟨hubank, huhub, hucur⟩ := s.refilled_frame v
  obtain ⟨h1, h2, h3, h4, h5, h6, h7⟩ := State.rejoin_here hubank hrun
  have hhere : s.onCore s.cur (State.reinstated v k.bank) = (s.refilled v).rejoin v := by
    have hin := s.reinstated_here hthreads
    rw [hbank, State.onCore_cur (by rw [hin, h7, hucur]), hin]
  obtain ⟨ops, ts, hmember⟩ := s.restoreMember_eq k v s.cur
  obtain ⟨w, hw⟩ : ∃ w, w = (s.refilled v).rejoin v := ⟨_, rfl⟩
  rw [← hw] at h1 h2 h3 h4 h5 h6 hhere
  rw [hmember, (rouse_frame _ _).1, (rouse_frame _ _).2, hhere]
  exact ⟨h1, h2, h3, h4, h5, h6.trans huhub⟩

/-- R219: TASK_RESUME of the one saved task that waits, which finds its bank on the core that acts. -/
theorem exec_taskResume_here {s : State} {p : Nat} {k : Task} {r : LoopRec} {v : Saved} (hwaiting : s.hub.waiting p = [k])
    (hk : s.hub.task? k.id = some k) (hsaved : k.run = .saved) (hrec : k.lrec = some r) (hbank : k.bank = s.core.curBank)
    (hplace : s.findPlace p k r = some ([s.cur], k.bank)) (hv : (s.hub.part p).saved = [v]) (htask : v.task = k.id)
    (hmember : v.member = 0) (hthreads : v.threads = []) (hrun : v.bank.run = .active) :
    ∃ t x, exec (.taskResume p) s = .next t ∧ t.core.bank.run = .active ∧ t.core.bank.s = v.bank.s ∧
      t.core.bank.v = v.bank.v ∧ t.core.bank.pc = v.bank.pc ∧ t.core.bank.epc = v.bank.epc ∧
      (t.hub.part p).saved = [] ∧ t.hub.task? k.id = some x ∧ x.run = .running ∧ x.cores = [s.cur] := by
  have hp : p < 4 := by
    by_contra hp
    rw [Hub.part, dif_neg hp] at hv
    exact absurd hv (by simp [Partition.clear])
  obtain ⟨h, hh⟩ : ∃ h, h = ((s.hub.mapTask k.id fun t =>
    { t with run := .running, cores := [s.cur], waited := 0, since := none, started := s.hub.starts }).mapPart p fun q =>
      { q with saved := q.saved.filter fun v => v.task != k.id }) := ⟨_, rfl⟩
  have hhtask : ∃ x, h.task? k.id = some x ∧ x.run = .running ∧ x.cores = [s.cur] := by
    rw [hh, Hub.mapPart_eq]
    exact ⟨_, Hub.mapTask_task? hk fun _ => rfl, rfl, rfl⟩
  have hhpart : (h.part p).saved = [] := by
    have hsame : (s.hub.mapTask k.id fun t =>
      { t with run := .running, cores := [s.cur], waited := 0, since := none, started := s.hub.starts }).part p =
        s.hub.part p := rfl
    rw [hh, Hub.mapPart_part _ hp, if_pos rfl, hsame, hv]
    simp [htask]
  obtain ⟨u, hu⟩ : ∃ u, u = { s.setHub { h.mapGang k.id (fun g => { g with cores := [s.cur] }) with
    starts := s.hub.starts + 1 } with guest := s.guest.resume k.launch } := ⟨_, rfl⟩
  have hutask : u.hub.task? k.id = h.task? k.id := by rw [hu]; rfl
  have hupart : u.hub.part p = h.part p := by rw [hu]; rfl
  obtain ⟨x, hx, hxrun, hxcores⟩ := hhtask
  obtain ⟨h1, h2, h3, h4, h5, h6⟩ := State.restoreMember_here (s := u) (k := k) (v := v)
    (hbank.trans (by rw [hu]; rfl)) hthreads hrun
  have hucur : u.cur = s.cur := by rw [hu]; rfl
  rw [hucur] at h1 h2 h3 h4 h5 h6
  have hresume : s.resumeTask p k [s.cur] = u.restoreMember k v s.cur := by
    have hfilter : (s.hub.part p).saved.filter (fun v => v.task == k.id) = [v] := by rw [hv]; simp [htask]
    have hfree : s.threadsFree s.cur v = true := by rw [State.threadsFree, hthreads]; rfl
    unfold State.resumeTask
    dsimp only
    rw [hfilter, if_neg (by simp [hmember, hfree]), ← hh, ← hu, List.foldl_cons, List.foldl_nil, hmember]
    rfl
  refine ⟨u.restoreMember k v s.cur, x, ?_, h1, h2, h3, h4, h5, ?_, ?_, hxrun, hxcores⟩
  · change execTaskResume p s = _
    unfold execTaskResume
    dsimp only
    rw [hwaiting, List.findSome?_cons, if_neg (by simp [hsaved]), hrec]
    dsimp only
    rw [hplace]
    exact congrArg Host.Outcome.next hresume
  · rw [h6, hupart, hhpart]
  · rw [h6, hutask, hx]

end Sys2Proof.Machine
end

section
/-! PROOFS. PREEMPTION, and the steps of a task. -/

namespace Sys2Proof.Machine

/-! ### PREEMPTION -/

theorem testQuarantined_core (s : State) (n : Nat) : (s.testQuarantined n).core = s.core := by
  unfold State.testQuarantined
  dsimp only
  split <;> rfl

theorem testQuarantined_part (s : State) (n p : Nat) : (s.testQuarantined n).hub.part p = s.hub.part p := by
  unfold State.testQuarantined State.startTest Hub.mapCell
  dsimp only
  split
  · rw [State.setHub_hub]
    split <;> rfl
  · rfl

/-- R219: the context that the hub saves, and what stays of the bank. -/
theorem State.saveContext_saves (s : State) (k : BankTask) (hp : k.part < 4) :
    ∃ v : Saved, (s.saveContext k).core.bank = s.core.bank.vacate ∧ (s.saveContext k).core.switching = none ∧
      ((s.saveContext k).hub.part k.part).saved = (s.hub.part k.part).saved ++ [v] ∧ v.task = k.task ∧
      v.member = k.member ∧ v.bank = s.core.bank := by
  unfold State.saveContext
  dsimp only
  rw [State.later_core, State.later_hub, testQuarantined_core, testQuarantined_part]
  have hnote (h : Hub) (p t q : Nat) : (h.noteSaved p t).part q = h.part q := rfl
  rw [State.setHub_hub, hnote, Hub.mapPart_part _ hp, if_pos rfl]
  exact ⟨_, rfl, rfl, rfl, rfl, rfl, rfl⟩

/-- R212, R219: a bank whose frame is pinned is frozen with CAUSE 0x12 and its context saved. -/
theorem State.savePreempt_saves (s : State) (k : BankTask) (hp : k.part < 4) (hpin : s.core.bank.framePinned = true) :
    ∃ v : Saved, (s.savePreempt k).core.bank.run = .empty ∧ (s.savePreempt k).core.bank.task = none ∧
      (s.savePreempt k).core.switching = none ∧
      ((s.savePreempt k).hub.part k.part).saved = (s.hub.part k.part).saved ++ [v] ∧ v.task = k.task ∧
      v.member = k.member ∧ v.bank.epc = s.core.bank.pc ∧ v.bank.cause.toNat % 256 = 0x12 ∧
      v.bank.s = s.core.bank.s ∧ v.bank.v = s.core.bank.v := by
  obtain ⟨cause, hcause⟩ : ∃ c, c = causeBits 0x12 none false 0 0 := ⟨_, rfl⟩
  obtain ⟨m, b, hcapture, hs, hv⟩ := s.capture_eq s.core.bank.tick s.core.bank.pc cause true
  obtain ⟨u, hu⟩ : ∃ u, u = ((s.setCore { s.core with store := m, bank := b }).saveRelease.setBank
      { b with epc := s.core.bank.pc, cause := cause }) := ⟨_, rfl⟩
  have hsave : s.savePreempt k = u.saveContext k := by
    unfold State.savePreempt
    dsimp only
    rw [if_neg (by rw [hpin]; decide), ← hcause, hcapture, hu]
    rfl
  obtain ⟨v, hbank, hswitch, hsaved, htask, hmember, hvbank⟩ := u.saveContext_saves k hp
  have hubank : u.core.bank = { b with epc := s.core.bank.pc, cause := cause } := by rw [hu]; rfl
  have huhub : u.hub = s.hub := by rw [hu]; rfl
  rw [hsave, hbank, hswitch, hsaved, huhub]
  rw [hubank] at hvbank
  refine ⟨v, rfl, rfl, rfl, rfl, htask, hmember, ?_, ?_, ?_, ?_⟩
  · rw [hvbank]
  · rw [hvbank, hcause]
    exact causeBits_mod 0x12 (by decide) false
  · rw [hvbank]
    exact hs
  · rw [hvbank]
    exact hv

/-- R262: a guest without packets is told nothing. -/
theorem Guest.preempt_noQueue {g : Guest} (h : g.queues = []) (launch : Nat) :
    g.preempt launch = g ∧ g.stoppedFor launch = true := by
  have hnone : g.queuesOf launch = [] := by rw [Guest.queuesOf, h]; rfl
  rw [Guest.preempt, Guest.stoppedFor, hnone]
  exact ⟨rfl, rfl⟩

/-- R91, R139, R219: PREEMPTION of a bank with nothing outstanding saves its context. -/
theorem exec_preemption_saves {s : State} {k : BankTask} (hk : s.core.bank.task = some k)
    (hswitch : s.core.switching = some 162) (hops : s.ops = []) (hquiet : s.core.threadsQuiet = true)
    (hqueues : s.guest.queues = []) (hpin : s.core.bank.framePinned = true) (hp : k.part < 4) :
    ∃ t v, exec .preemption s = .next t ∧ t.core.bank.run = .empty ∧ t.core.bank.task = none ∧
      t.core.switching = none ∧ (t.hub.part k.part).saved = (s.hub.part k.part).saved ++ [v] ∧ v.task = k.task ∧
      v.member = k.member ∧ v.bank.epc = s.core.bank.pc ∧ v.bank.cause.toNat % 256 = 0x12 ∧
      v.bank.s = s.core.bank.s ∧ v.bank.v = s.core.bank.v := by
  obtain ⟨hguest, hstopped⟩ := Guest.preempt_noQueue hqueues k.launch
  obtain ⟨p, m, hfreeze⟩ := s.freezeMatrix_eq
  obtain ⟨u, hu⟩ : ∃ u : State, u = { s.freezeMatrix with
    core := { s.freezeMatrix.core with switching := some 162 }, guest := s.guest.preempt k.launch } := ⟨_, rfl⟩
  have huops : u.ops = [] := by rw [hu, hfreeze]; exact hops
  have hubank : u.core.bank = { s.core.bank with pend := p, streams := [], epis := [], loader := none, mreds := m } := by
    rw [hu, hfreeze]
    rfl
  have huhub : u.hub = s.hub := by rw [hu, hfreeze]; rfl
  have huguest : u.guest = s.guest := by rw [hu, hguest]
  have huquiet : u.core.threadsQuiet = true := by rw [hu, hfreeze]; exact hquiet
  have hupin : u.core.bank.framePinned = true := by rw [hubank]; exact hpin
  have hudrained : u.drained = true := by rw [State.drained, huops]; rfl
  obtain ⟨v, h1, h2, h3, h4, h5, h6, h7, h8, h9, h10⟩ := u.savePreempt_saves k hp hupin
  rw [hubank] at h7 h9 h10
  rw [huhub] at h4
  refine ⟨(u.savePreempt k).again, v, ?_, h1, h2, h3, h4, h5, h6, h7, h8, h9, h10⟩
  change execPreemption s = _
  unfold execPreemption
  rw [hk]
  dsimp only
  have hgo : (u.drained && u.core.threadsQuiet && u.guest.stoppedFor k.launch) = true := by
    rw [hudrained, huquiet, huguest, hstopped]
    rfl
  rw [if_neg (by rw [hswitch]; simp)]
  rw [hu] at hgo ⊢
  exact if_pos hgo

/-! ### The steps of a task -/

/-- Settles O52, step by step: each is executed for the task of the running bank of the core that acts. -/
theorem taskEvents : Obligations.TaskEvents := by
  refine ⟨fun s p k r hfatal hwaiting hk hrun hrec _ hins htrip hplace =>
    exec_taskPlace_here hfatal hwaiting hk hrun hrec hins htrip hplace,
    fun s k r l hk hrec hl hfault hcores hbank hwait haudit hstore hmem => ⟨?deliver, ?start, ?pull, ?age⟩,
    fun s k hk hswitch hops hquiet hqueues hpin hp => exec_preemption_saves hk hswitch hops hquiet hqueues hpin hp,
    fun s p k r v hwaiting hk hsaved hrec hbank hplace hv htask hmember hthreads hrun =>
      exec_taskResume_here hwaiting hk hsaved hrec hbank hplace hv htask hmember hthreads hrun⟩
  case deliver =>
    intro i ref d n e pa hi hrun hres href htensor htile hedge hword hgrant hlen
    exact exec_moraineDelivery_lands hk hrec hl hfault hcores hbank hwait haudit hstore hi hrun hres href htensor htile
      hedge hword hgrant hlen
  case start =>
    intro hrun hres
    obtain ⟨t, x, hexec, htask, hxrun, hstart, hplanes⟩ :=
      exec_taskStart_here hk hrec hl hfault hcores hbank hrun hres
    refine ⟨t, x, hexec, htask, hxrun, ?_⟩
    rw [hstart]
    exact ⟨rfl, rfl, rfl, rfl, rfl, rfl, rfl, fun n h6 hn => startBank_sregN _ _ _ _ _ _ _ hn h6,
      fun n hn => startBank_pred _ _ _ _ _ _ _ hn, fun n h1 hn => startBank_mask _ _ _ _ _ _ _ h1 hn, fun _ => rfl,
      rfl, rfl, rfl, rfl, rfl, rfl, hplanes⟩
  case pull =>
    intro o ref d n e pa y ho href hy htask hmarked hpulled htensor htile hedge hword hgrant
    exact ⟨exec_outputPullDone_waits hk hrec hl hfault hcores hbank hwait ho href hy htask hmarked hpulled,
      exec_outputPullDone_writes hk hrec hl hfault hcores hbank hwait ho href hy htask hmarked hpulled haudit hmem htensor
        htile hedge hword hgrant⟩
  case age => exact fun hwaits => exec_priorityAging_waits hk hl hwaits

end Sys2Proof.Machine
end

section
/-! PROOFS. Errors of memory and of the datapath. -/

namespace Sys2Proof.Machine

/-! ### A range that becomes zero -/

theorem memByte_zeroRange_in (m : Mem) {a n x : Nat} (h1 : a ≤ x) (h2 : x < a + n) : memByte (zeroRange m a n) x = 0 := by
  refine (memByte_filterKeys m (fun j => !(decide (a ≤ j) && decide (j < a + n))) x).trans (if_neg ?_)
  simp [h1, h2]

theorem memByte_zeroRange_out (m : Mem) {a n x : Nat} (h : x < a ∨ a + n ≤ x) :
    memByte (zeroRange m a n) x = memByte m x := by
  refine (memByte_filterKeys m (fun j => !(decide (a ≤ j) && decide (j < a + n))) x).trans (if_pos ?_)
  simp only [Bool.not_eq_true', Bool.and_eq_false_iff, decide_eq_false_iff_not]
  omega

theorem leNat_replicate_zero (n : Nat) : leNat (List.replicate n 0) = 0 := by
  induction n with
  | zero => rfl
  | succ n ih => rw [List.replicate_succ, leNat, ih]; rfl

theorem readNat_zeroRange (m : Mem) (a n : Nat) : readNat (zeroRange m a n) a n = 0 := by
  have hbytes : readBytes (zeroRange m a n) a n = List.replicate n 0 := by
    refine List.ext_getElem (by simp) fun i hi _ => ?_
    rw [length_readBytes] at hi
    simp [readBytes, memByte_zeroRange_in m (Nat.le_add_right a i) (by omega : a + i < a + n)]
  rw [readNat, hbytes, leNat_replicate_zero]

/-! ### A logged error (R227) -/

theorem State.logSite_hub (s : State) (e : ErrorSite) (sev code : Nat) (part : Option Nat) :
    (s.logSite e sev code part).hub =
      s.hub.mcLog e.bank sev (sourceOf e.bank) e.unit.toNat code e.addr e.synd.toNat := State.logMc_hub _ _ _ _ _ _ _ _ _

theorem State.logSite_eq (s : State) (e : ErrorSite) (sev code : Nat) (part : Option Nat) :
    ∃ h k o, s.logSite e sev code part = { s with hub := h, core := k, others := o } := by
  obtain ⟨k, o, h⟩ := s.logMc_eq e.bank sev (sourceOf e.bank) e.unit.toNat code e.addr e.synd.toNat part
  exact ⟨_, k, o, h⟩

theorem State.keepsCore_logSite (s : State) (e : ErrorSite) (sev code : Nat) (part : Option Nat) :
    s.KeepsCore (s.logSite e sev code part) := s.keepsCore_logMc _ _ _ _ _ _ _ _

/-- R227: a site's error in a bank that records. -/
theorem State.logSite_mcBank (s : State) {e : ErrorSite} (he : e.bank < 26) (sev code : Nat) (part : Option Nat) :
    (s.logSite e sev code part).hub.mcBank e.bank =
      (s.hub.mcBank e.bank).log sev (sourceOf e.bank) e.unit.toNat code e.addr e.synd.toNat := by
  have hr : mcReserved e.bank = false := by
    rw [mcReserved, decide_eq_false (by omega)]
    rfl
  rw [State.logSite_hub, Hub.mcLog_mcBank _ (by omega) hr]

/-- R227: an enabled bank that holds no error takes the record whole. -/
theorem McBank.log_fresh {m : McBank} (he : m.en = true) (hv : m.valid = false) (sev src unit code : Nat) (addr : Word)
    (synd : Nat) :
    m.log sev src unit code addr synd = { m with
      valid := true, ovf := m.ovf, sev := sev, src := src, unit := unit, code := code, addr := addr, count := 1,
      synd := synd } := by
  simp [McBank.log, he, hv]

/-- R227: a record of the same or a lower severity keeps the severity and the code of the old one. -/
theorem McBank.log_lower {m : McBank} (hv : m.valid = true) {sev : Nat} (hle : sev ≤ m.sev) (src unit code : Nat)
    (addr : Word) (synd : Nat) :
    (m.log sev src unit code addr synd).sev = m.sev ∧ (m.log sev src unit code addr synd).code = m.code := by
  unfold McBank.log
  split
  · exact ⟨rfl, rfl⟩
  · rw [if_pos (by simp [hv, hle])]
    exact ⟨rfl, rfl⟩

theorem isSource_of_lt {n : Nat} (h : n < 26) : isSource n = true := by
  rw [isSource, decide_eq_true h, Bool.true_or]

section
variable {s : State} {e : ErrorSite} (hbank : e.bank < 26) (hen : (s.hub.mcBank e.bank).en = true)
variable (hfree : (s.hub.mcBank e.bank).valid = false)
include hbank hen hfree

/-- R225: ECC_CORRECTED records its error. -/
theorem exec_eccCorrected_records :
    ∃ t, exec (.eccCorrected e) s = .next t ∧ (t.hub.mcBank e.bank).valid = true ∧
      (t.hub.mcBank e.bank).sev = 1 ∧ (t.hub.mcBank e.bank).code = 1 ∧ (t.hub.mcBank e.bank).addr = e.addr ∧
      (t.hub.mcBank e.bank).count = 1 ∧ t.core.bank = s.core.bank := by
  have hexec : exec (.eccCorrected e) s = .next (s.logSite e 1 0x0001 none) :=
    congrArg Host.Outcome.next (if_pos (isSource_of_lt hbank))
  refine ⟨_, hexec, ?_⟩
  rw [State.logSite_mcBank s hbank, McBank.log_fresh hen hfree]
  exact ⟨rfl, rfl, rfl, rfl, rfl, (s.keepsCore_logSite _ _ _ _).bank⟩

end

/-! ### The word reaches its consumer, and the row is repaired (R226, R231) -/

/-- R206: a fault leaves the machine-check banks and the service record as they are. -/
theorem State.takeFault_mc (s : State) (r : Raised) : (s.takeFault r).hub.mc = s.hub.mc := by
  unfold State.takeFault
  dsimp only
  split <;> rfl

/-- R226: the running bank of the core that acts takes cause 0x20. -/
theorem State.consume_here {s : State} {e : ErrorSite} (hcur : s.cur < 256) (hrun : s.core.bank.run = .active) :
    (s.consume e (.primary s.cur)).core.bank.run = .stopped ∧
    (s.consume e (.primary s.cur)).core.bank.cause.toNat % 256 = 0x20 ∧
    (s.consume e (.primary s.cur)).mem = s.mem ∧ (s.consume e (.primary s.cur)).svc = s.svc ∧
    (s.consume e (.primary s.cur)).hub.mc = s.hub.mc := by
  obtain ⟨r, hr⟩ : ∃ r : Raised, r = { cause := 0x20, thread := none, cb := 0, addr := e.addr.toNat, aux := 0, late := true } :=
    ⟨_, rfl⟩
  have hfault : s.wordFault none e.addr = s.takeFault r := by rw [State.wordFault, hrun, hr]
  obtain ⟨hmem, -, hkeep, -, -, -, -, hsvc, -⟩ := s.takeFault_frame r
  have hconsume : s.consume e (.primary s.cur) = (s.takeFault r).rouse s.cur := by
    unfold State.consume
    dsimp only
    rw [if_pos hcur, State.onCore_cur (by rw [hfault, hkeep]), hfault]
  obtain ⟨hcore, hhub⟩ := rouse_frame (s.takeFault r) s.cur
  have hrmem : ((s.takeFault r).rouse s.cur).mem = s.mem := by
    unfold State.rouse
    split <;> exact hmem
  have hrsvc : ((s.takeFault r).rouse s.cur).svc = s.svc := by
    unfold State.rouse
    split <;> exact hsvc
  have hcause : (causeBits r.cause r.thread (s.core.bank.handler || r.nested) r.cb 0).toNat % 256 = 0x20 := by
    rw [hr]
    exact causeBits_mod 0x20 (by decide) (s.core.bank.handler || false)
  rw [hconsume, hcore, hhub, State.takeFault_core]
  exact ⟨rfl, hcause, hrmem, hrsvc, State.takeFault_mc _ _⟩

/-- R231: a stack that loses a pseudo-channel keeps its list of remapped rows. -/
theorem Record.takeChan_rows (r : Record) (stack : Nat) : (r.takeChan stack).rows = r.rows := by
  unfold Record.takeChan
  dsimp only
  split <;> rfl

/-- R226, R231, R273: the lost word becomes zero and its row is remapped. -/
theorem State.repair_frame {s : State} {e : ErrorSite} (haddr : e.addr.toNat < 0xC000000000) :
    let a := e.addr.toNat / 8 * 8
    (s.repair e).mem = zeroRange s.mem a 8 ∧ (s.repair e).svc.record.rows = s.svc.record.rows ++ [a] ∧
    (s.repair e).core.bank = s.core.bank ∧ ∃ u : State, u.hub.mc = s.hub.mc ∧
      (s.repair e).hub = (u.logSite e 1 0x0003 none).hub := by
  intro a
  have hin : ¬hbmEnd ≤ a := by
    rw [hbmEnd]
    omega
  obtain ⟨r, hr⟩ : ∃ r, r = { s.svc.record with rows := s.svc.record.rows ++ [a] }.takeChan (a / 2 ^ 36) := ⟨_, rfl⟩
  have hrows : r.rows = s.svc.record.rows ++ [a] := by rw [hr, Record.takeChan_rows]
  obtain ⟨v, hv⟩ : ∃ v : State, v = { s with mem := zeroRange s.mem a 8, svc := { s.svc with record := r } } := ⟨_, rfl⟩
  obtain ⟨u, hu⟩ : ∃ u, u = v.setRegs { v.hub.regs with
    svcRows := v.hub.regs.svcRows || Config.rowsLow (r.rowsOf (a / 2 ^ 36)),
    svcChan := v.hub.regs.svcChan || !r.chans.isEmpty } := ⟨_, rfl⟩
  have hrepair : s.repair e = (u.logSite e 1 0x0003 none).touchService := by
    unfold State.repair
    dsimp only
    rw [if_neg hin, hu, hv, hr]
  have humem : u.mem = zeroRange s.mem a 8 := by rw [hu, hv]; rfl
  have husvc : u.svc = { s.svc with record := r } := by rw [hu, hv]; rfl
  have hubank : u.core.bank = s.core.bank := by rw [hu, hv]; rfl
  have humc : u.hub.mc = s.hub.mc := by rw [hu, hv]; rfl
  have hbank := (u.keepsCore_logSite e 1 0x0003 none).bank
  obtain ⟨h, k, o, hlog⟩ := u.logSite_eq e 1 0x0003 none
  rw [hrepair]
  refine ⟨?_, ?_, hbank.trans hubank, u, humc, rfl⟩
  · rw [hlog]
    exact humem
  · rw [hlog]
    exact (congrArg (fun x : Service => x.record.rows) husvc).trans hrows

section
variable {s : State} {e : ErrorSite} (hbank : e.bank < 26) (hen : (s.hub.mcBank e.bank).en = true)
variable (hfree : (s.hub.mcBank e.bank).valid = false)
include hbank hen hfree

/-- R226: UNCORRECTABLE_ERROR in HBM records its error, stops the bank that consumed the word and repairs the row. -/
theorem exec_uncorrectableError_repairs (h4 : 4 ≤ e.bank) (h16 : e.bank < 16) (haddr : e.addr.toNat < 0xC000000000)
    (hcur : s.cur < 256) (hrun : s.core.bank.run = .active) :
    ∃ t, exec (.uncorrectableError e (.primary s.cur)) s = .next t ∧ (t.hub.mcBank e.bank).sev = 2 ∧
      (t.hub.mcBank e.bank).code = 2 ∧ t.core.bank.run = .stopped ∧
      t.core.bank.cause.toNat % 256 = 0x20 ∧ readNat t.mem (e.addr.toNat / 8 * 8) 8 = 0 ∧
      (∀ x, x / 8 ≠ e.addr.toNat / 8 → memByte t.mem x = memByte s.mem x) ∧
      t.svc.record.rows = s.svc.record.rows ++ [e.addr.toNat / 8 * 8] := by
  obtain ⟨u, hu⟩ : ∃ u, u = s.logSite e 2 0x0002 (s.consumerPart (.primary s.cur)) := ⟨_, rfl⟩
  have humc : u.hub.mcBank e.bank = (s.hub.mcBank e.bank).log 2 (sourceOf e.bank) e.unit.toNat 2 e.addr e.synd.toNat := by
    rw [hu, State.logSite_mcBank s hbank]
  have hukeeps := s.keepsCore_logSite e 2 0x0002 (s.consumerPart (.primary s.cur))
  obtain ⟨hh, k, o, hlog⟩ := s.logSite_eq e 2 0x0002 (s.consumerPart (.primary s.cur))
  rw [← hu] at hukeeps hlog
  have hucur : u.cur = s.cur := hukeeps.1
  have humem : u.mem = s.mem := by rw [hlog]
  have husvc : u.svc = s.svc := by rw [hlog]
  obtain ⟨hstop, hcause, hcmem, hcsvc, hcmc⟩ := State.consume_here (s := u) (e := e) (by rw [hucur]; exact hcur)
    (by rw [hukeeps.bank]; exact hrun)
  obtain ⟨v, hv⟩ : ∃ v, v = u.consume e (.primary u.cur) := ⟨_, rfl⟩
  rw [← hv] at hstop hcause hcmem hcsvc hcmc
  obtain ⟨hmem, hrows, hrbank, w, hwmc, hrhub⟩ := State.repair_frame (s := v) haddr
  have hmcw : w.hub.mcBank e.bank = u.hub.mcBank e.bank := by rw [Hub.mcBank, Hub.mcBank, hwmc, hcmc]
  have hlower := McBank.log_lower (m := w.hub.mcBank e.bank) (sev := 1)
    (by rw [hmcw, humc, McBank.log_fresh hen hfree]) (by rw [hmcw, humc, McBank.log_fresh hen hfree]; exact Nat.le_succ 1)
    (sourceOf e.bank) e.unit.toNat 3 e.addr e.synd.toNat
  rw [← State.logSite_mcBank w hbank 1 3 none, ← hrhub, hmcw, humc, McBank.log_fresh hen hfree] at hlower
  refine ⟨v.repair e, ?_, hlower.1, hlower.2, ?_, ?_, ?_, fun x hx => ?_, ?_⟩
  · have h4le : (decide (4 ≤ e.bank) && decide (e.bank < 16)) = true := by simp [h4, h16]
    change execUncorrectableError e (.primary s.cur) s = _
    unfold execUncorrectableError
    rw [if_neg (by rw [isSource_of_lt hbank]; decide), if_neg (by omega)]
    dsimp only
    rw [if_pos h4le, ← hu, hv, hucur]
  · rw [hrbank, hstop]
  · rw [hrbank, hcause]
  · rw [hmem, readNat_zeroRange]
  · rw [hmem, memByte_zeroRange_out _ (by omega), hcmem, humem]
  · rw [hrows, hcsvc, husvc]

end

/-- R226, R229: UNCORRECTABLE_ERROR of the hub is fatal and halts every partition. -/
theorem exec_uncorrectableError_fatal {s : State} (e : ErrorSite) (c : Consumer) (hbank : e.bank = 16)
    (hen : (s.hub.mcBank 16).en = true) (hfree : (s.hub.mcBank 16).valid = false) :
    ∃ t, exec (.uncorrectableError e c) s = .next t ∧ (t.hub.mcBank 16).code = 0x00F0 ∧ (t.hub.mcBank 16).sev = 3 ∧
      t.hub.regs.fatal = true ∧ ∀ p < 4, (t.hub.part p).halted = true := by
  have hexec : exec (.uncorrectableError e c) s = .next (s.logSite e 3 0x00F0 none).stopAll := by
    change execUncorrectableError e c s = _
    unfold execUncorrectableError
    rw [if_neg (by rw [isSource_of_lt (by omega)]; decide), if_pos hbank]
  have hmc := s.logSite_mcBank (e := e) (by omega) 3 0x00F0 none
  rw [hbank, McBank.log_fresh hen hfree] at hmc
  refine ⟨_, hexec, ?_, ?_, rfl, fun p hp => ?_⟩
  · exact congrArg McBank.code hmc
  · exact congrArg McBank.sev hmc
  · rw [Hub.part, dif_pos hp]
    simp [State.stopAll]

end Sys2Proof.Machine
end

section
/-! PROOFS. Suspicion, a check that fires, and the rerun of a guarded bank. -/

namespace Sys2Proof.Machine

/-! ### What keeps every score (R236) -/

/-- A change of a cell changes no more of the hub. -/
theorem Hub.mapCell_eq (h : Hub) (n : Nat) (f : Cell → Cell) : h.mapCell n f = { h with cells := (h.mapCell n f).cells } := by
  unfold Hub.mapCell
  split <;> rfl

/-- The audits, the tasks and the score of every cell stand. -/
structure State.KeepsSusp (s t : State) : Prop where
  susp : ∀ n, (t.hub.cell n).susp = (s.hub.cell n).susp
  audits : t.hub.audits = s.hub.audits

theorem State.KeepsSusp.refl (s : State) : s.KeepsSusp s := ⟨fun _ => rfl, rfl⟩

theorem State.KeepsSusp.trans {s t u : State} (h₁ : s.KeepsSusp t) (h₂ : t.KeepsSusp u) : s.KeepsSusp u :=
  ⟨fun n => (h₂.susp n).trans (h₁.susp n), h₂.audits.trans h₁.audits⟩

theorem State.keepsSusp_logMc (s : State) (n sev src unit code : Nat) (addr : Word) (synd : Nat) (part : Option Nat) :
    s.KeepsSusp (s.logMc n sev src unit code addr synd part) := by
  constructor
  · intro m
    rw [State.logMc_hub, Hub.mcLog_eq]
    rfl
  · rw [State.logMc_hub, Hub.mcLog_eq]

/-- A change of a cell that leaves its score. -/
theorem State.keepsSusp_mapCell (s : State) (n : Nat) {f : Cell → Cell} (hf : ∀ c, (f c).susp = c.susp) :
    s.KeepsSusp (s.setHub (s.hub.mapCell n f)) := by
  constructor
  · intro m
    rw [State.setHub_hub]
    by_cases hn : n < 64
    case pos =>
      rw [Hub.mapCell_cell _ hn]
      split
      case isTrue h => rw [hf, h]
      case isFalse => rfl
    case neg => rw [Hub.mapCell, dif_neg hn]
  · rw [State.setHub_hub, Hub.mapCell_eq]

theorem State.keepsSusp_testQuarantined (s : State) (n : Nat) : s.KeepsSusp (s.testQuarantined n) := by
  unfold State.testQuarantined
  dsimp only
  split
  · exact s.keepsSusp_mapCell n fun _ => rfl
  · exact .refl s

theorem State.keepsSusp_quarantine (s : State) (n qth : Nat) : s.KeepsSusp (s.quarantine n qth) := by
  unfold State.quarantine
  dsimp only
  split
  · have hcell := s.keepsSusp_mapCell n (f := fun c => { c with run := .quarantined }) fun _ => rfl
    exact (hcell.trans (State.keepsSusp_logMc _ 24 1 16 0 0x0041 0 n (s.hub.cell n).part)).trans
      (State.keepsSusp_testQuarantined _ _)
  · exact .refl s

theorem State.keepsCore_quarantine (s : State) (n qth : Nat) : s.KeepsCore (s.quarantine n qth) := by
  have htest (u : State) : u.KeepsCore (u.testQuarantined n) := by
    unfold State.testQuarantined
    dsimp only
    split
    · exact u.keepsCore_setHub _
    · exact .refl u
  unfold State.quarantine
  dsimp only
  split
  · have hcell := s.keepsCore_setHub (s.hub.mapCell n fun c => { c with run := .quarantined })
    exact (hcell.trans (State.keepsCore_logMc _ 24 1 16 0 0x0041 0 n (s.hub.cell n).part)).trans (htest _)
  · exact .refl s

/-! ### Suspicion gained and lost (R236) -/

/-- R236: a cell's score is set, in the hub and in the service record. -/
def State.scored (s : State) (n x : Nat) : State :=
  let s := s.setHub (s.hub.mapCell n fun c => { c with susp := x })
  ({ s with svc := s.svc.putSusp n x }).touchService

theorem State.scored_susp (s : State) {n : Nat} (hn : n < 64) (x m : Nat) :
    ((s.scored n x).hub.cell m).susp = if m = n then x else (s.hub.cell m).susp := by
  have h : (s.scored n x).hub = s.hub.mapCell n fun c => { c with susp := x } := rfl
  rw [h, Hub.mapCell_cell _ hn]
  split <;> rfl

theorem State.scored_audits (s : State) (n x : Nat) : (s.scored n x).hub.audits = s.hub.audits := by
  have h : (s.scored n x).hub = s.hub.mapCell n fun c => { c with susp := x } := rfl
  rw [h, Hub.mapCell_eq]

theorem State.keepsCore_scored (s : State) (n x : Nat) : s.KeepsCore (s.scored n x) := State.keepsCore_of_eq rfl rfl rfl

section
variable (s : State) {n : Nat} (hn : n < 64) (by_ qth m : Nat)

theorem State.suspect_audits : (s.suspect n by_ qth).hub.audits = s.hub.audits :=
  (State.keepsSusp_quarantine (s.scored n (min 255 ((s.hub.cell n).susp + by_))) n qth).audits.trans (s.scored_audits n _)

theorem State.keepsCore_suspect : s.KeepsCore (s.suspect n by_ qth) :=
  (s.keepsCore_scored n (min 255 ((s.hub.cell n).susp + by_))).trans (State.keepsCore_quarantine _ n qth)

theorem State.unsuspect_audits : (s.unsuspect n by_).hub.audits = s.hub.audits := s.scored_audits n _

include hn

/-- R236: the score of a suspected cell, and no other one, rises, up to 255. -/
theorem State.suspect_susp : ((s.suspect n by_ qth).hub.cell m).susp =
    if m = n then min 255 ((s.hub.cell n).susp + by_) else (s.hub.cell m).susp := by
  have hq := (State.keepsSusp_quarantine (s.scored n (min 255 ((s.hub.cell n).susp + by_))) n qth).susp m
  exact hq.trans (s.scored_susp hn _ m)

/-- R236: the score of a cleared cell, and no other one, falls. -/
theorem State.unsuspect_susp : ((s.unsuspect n by_).hub.cell m).susp =
    if m = n then (s.hub.cell n).susp - by_ else (s.hub.cell m).susp := s.scored_susp hn _ m

end

/-! ### A check fires in an unguarded bank (R225) -/

section
variable {s : State} (hcur : s.cur < 256)
include hcur

/-- R225: DATAPATH_ERROR acts on the running bank of its core. -/
theorem exec_datapathError_here (hkeep : s.checkFires.cur = s.cur) :
    exec (.datapathError s.cur) s = .next (s.checkFires.rouse s.cur) := by
  change execDatapathError s.cur s = _
  unfold execDatapathError
  rw [if_pos hcur, State.onCore_cur hkeep]

/-- R205, R225, R236: an unguarded bank stops with cause 0x20, and its cell is suspected. -/
theorem exec_datapathError_unguarded (hrun : s.core.bank.run = .active) (hguard : s.core.bank.status.guard = false) :
    ∃ t, exec (.datapathError s.cur) s = .next t ∧ t.core.bank.run = .stopped ∧ t.core.bank.cause.toNat % 256 = 0x20 ∧
      (t.hub.cell (cellOf s.cur)).susp = min 255 ((s.hub.cell (cellOf s.cur)).susp + 8) := by
  have hcell : cellOf s.cur < 64 := by
    rw [cellOf]
    omega
  obtain ⟨r, hr⟩ : ∃ r : Raised, r = { cause := 0x20, thread := none, cb := 0, addr := 0, aux := 0, late := true } := ⟨_, rfl⟩
  have hcause : (causeBits r.cause r.thread (s.core.bank.handler || r.nested) r.cb 0).toNat % 256 = 0x20 := by
    rw [hr]
    exact causeBits_mod 0x20 (by decide) (s.core.bank.handler || false)
  obtain ⟨v, hv⟩ : ∃ v, v = s.takeFault r := ⟨_, rfl⟩
  have hvcur : v.cur = s.cur := by
    rw [hv]
    exact (s.takeFault_frame r).2.2.1
  have hvcells : v.hub.cells = s.hub.cells := by
    rw [hv]
    unfold State.takeFault
    dsimp only
    split <;> rfl
  obtain ⟨u, hu⟩ : ∃ u, u = v.logCell v.cur 2 0x0012 := ⟨_, rfl⟩
  have hucore : v.KeepsCore u := by
    rw [hu]
    exact v.keepsCore_logMc _ _ _ _ _ _ _ _
  have hususp : v.KeepsSusp u := by
    rw [hu]
    exact v.keepsSusp_logMc _ _ _ _ _ _ _ _
  obtain ⟨qth, hfires⟩ : ∃ qth, s.checkFires = u.suspect (cellOf v.cur) 8 qth := by
    unfold State.checkFires
    dsimp only
    rw [hrun]
    dsimp only
    rw [if_neg (by rw [hguard]; decide), ← hr, ← hv, hu]
    exact ⟨_, rfl⟩
  have hkeeps := hucore.trans (u.keepsCore_suspect (n := cellOf v.cur) 8 qth)
  rw [← hfires] at hkeeps
  have hsusp := u.suspect_susp (n := cellOf v.cur) (hvcur ▸ hcell) 8 qth (cellOf v.cur)
  rw [if_pos rfl, hususp.susp, ← hfires, hvcur] at hsusp
  obtain ⟨hcore, hhub⟩ := rouse_frame s.checkFires s.cur
  refine ⟨_, exec_datapathError_here hcur (hkeeps.1.trans hvcur), ?_, ?_, ?_⟩
  · rw [hcore, hkeeps.bank, hv, State.takeFault_core]
  · rw [hcore, hkeeps.bank, hv, State.takeFault_core]
    exact hcause
  · rw [hhub, hsusp]
    exact congrArg (fun c : Cell => min 255 (c.susp + 8)) (by rw [Hub.cell, Hub.cell, hvcells])

/-! ### A guarded bank returns to its last CKPT (R223) -/

omit hcur in
/-- R222: a register that takes its old contents again leaves the window and the undo log. -/
theorem State.undoSys_frame (s : State) (x : Nat × Word) :
    (s.undoSys x).core.store = s.core.store ∧ (s.undoSys x).core.bank.undo = s.core.bank.undo ∧ (s.undoSys x).cur = s.cur := by
  unfold State.undoSys
  split
  · exact ⟨rfl, rfl, rfl⟩
  · unfold State.putSys
    dsimp only
    split <;> exact ⟨rfl, rfl, rfl⟩

omit hcur in
theorem State.undoSys_foldl (xs : List (Nat × Word)) (s : State) :
    (xs.foldl State.undoSys s).core.store = s.core.store ∧
    (xs.foldl State.undoSys s).core.bank.undo = s.core.bank.undo ∧ (xs.foldl State.undoSys s).cur = s.cur := by
  induction xs generalizing s with
  | nil => exact ⟨rfl, rfl, rfl⟩
  | cons x xs ih =>
    obtain ⟨h1, h2, h3⟩ := ih (s.undoSys x)
    obtain ⟨g1, g2, g3⟩ := s.undoSys_frame x
    exact ⟨h1.trans g1, h2.trans g2, h3.trans g3⟩

omit hcur in
/-- R223: a bank whose undo log is empty takes back the registers and planes of its CKPT, and the window stands. -/
theorem State.rollback_shadow {s : State} {b : Bank} (hshadow : s.core.shadow = some b) (hundo : s.core.bank.undo = [])
    (r : Rerun) :
    (s.rollback r).core.bank = { b with saved := Planes.none, rerun := some r } ∧ (s.rollback r).core.planes = b.saved ∧
    (s.rollback r).core.store = s.core.store ∧ (s.rollback r).cur = s.cur := by
  obtain ⟨u, hu⟩ : ∃ u, u = s.core.bank.sysUndo.foldl State.undoSys s := ⟨_, rfl⟩
  obtain ⟨hstore, hu', hcur⟩ := State.undoSys_foldl s.core.bank.sysUndo s
  rw [← hu] at hstore hu' hcur
  unfold State.rollback
  rw [hshadow]
  dsimp only
  rw [← hu, (rouse_frame _ _).1, hu', hundo]
  have hrouse (v : State) (c : Nat) : (v.rouse c).cur = v.cur := by
    unfold State.rouse
    split <;> rfl
  exact ⟨rfl, rfl, hstore, (hrouse _ _).trans hcur⟩

theorem exec_datapathError_guarded {b : Bank} (hrun : s.core.bank.run = .active) (hguard : s.core.bank.status.guard = true)
    (hrerun : s.core.bank.rerun = none) (hgang : s.gang = none) (hshadow : s.core.shadow = some b)
    (hundo : s.core.bank.undo = []) :
    ∃ t, exec (.datapathError s.cur) s = .next t ∧
      t.core.bank = { b with saved := Planes.none, rerun := some Rerun.first } ∧ t.core.planes = b.saved ∧
      t.core.store = s.core.store := by
  have hfires : s.checkFires = s.rollback Rerun.first := by
    unfold State.checkFires
    dsimp only
    rw [hrun]
    dsimp only
    rw [if_pos hguard, hrerun]
    dsimp only
    rw [hgang]
  obtain ⟨hbank, hplanes, hstore, hkeep⟩ := State.rollback_shadow hshadow hundo Rerun.first
  rw [← hfires] at hbank hplanes hstore hkeep
  refine ⟨_, exec_datapathError_here hcur hkeep, ?_⟩
  rw [(rouse_frame _ _).1]
  exact ⟨hbank, hplanes, hstore⟩

end

end Sys2Proof.Machine
end

section
/-! PROOFS. Audits, self-tests, spares and the cells of partitions. -/

namespace Sys2Proof.Machine

/-! ### The one audit there is (R236) -/

/-- R234, R236: an audit once it is decided. -/
def Audit.closed (a : Audit) : Audit := { a with decided := true, dies := [], data := [] }

/-- R236: a decision keeps every cell and closes the audits of its task. -/
theorem State.auditDecided_frame (s : State) (a : Audit) (t : Task) (mismatch : Bool) :
    (∀ n, (s.auditDecided a t mismatch).hub.cell n = s.hub.cell n) ∧
    (s.auditDecided a t mismatch).hub.audits = (s.hub.mapAudit a.task Audit.closed).audits := by
  unfold State.auditDecided
  dsimp only
  split
  · exact ⟨fun _ => rfl, rfl⟩
  · exact ⟨fun _ => rfl, rfl⟩

/-- R236: a rerun that is posted keeps every cell. -/
theorem State.postRerun_cell (s : State) (a : Audit) (t : Task) (n : Nat) :
    (s.postRerun a t).hub.cell n = s.hub.cell n := rfl

section
variable {s : State} {a : Audit} {k : Task} (haudits : s.hub.audits = [a]) (hk : s.hub.task? a.task = some k)
variable (hundecided : a.decided = false) (hrerun : a.rerun = none)
include haudits hk hundecided hrerun

/-- R236: AUDIT_RERUN of an audited task that has ended once posts its rerun. -/
theorem exec_auditRerun_posts (hid : k.id = a.task) (hone : a.digests.length = 1) :
    ∃ t x, exec (.auditRerun a.task) s = .next t ∧ t.hub.tasks = s.hub.tasks ++ [x] ∧
      x.id = s.hub.nextTask ∧ x.auditOf = some a.task ∧ x.prio = 0 ∧ x.run = .posted ∧ x.banned = a.cells ∧
      t.hub.nextTask = s.hub.nextTask + 1 := by
  have hexec : exec (.auditRerun a.task) s = .next (s.postRerun a k) := by
    change execAuditRerun a.task s = _
    unfold execAuditRerun
    rw [haudits, hk, List.find?_cons, beq_self_eq_true]
    dsimp only
    rw [hundecided, hrerun, if_neg (by simp [hone])]
  refine ⟨_, rerunOf k s.hub.nextTask a.cells, hexec, rfl, rfl, ?_, rfl, rfl, rfl, rfl⟩
  exact congrArg some hid

/-- R236: AUDIT_DECIDE of two digests that agree clears both cells a little. -/
theorem exec_auditDecide_agree {c0 c1 : Nat} (h0 : c0 < 64) (h1 : c1 < 64) (hne : c0 ≠ c1) {x : Word}
    (hcells : a.cells = [c0, c1]) (hdigests : a.digests = [x, x]) :
    ∃ t, exec (.auditDecide a.task) s = .next t ∧ (t.hub.cell c0).susp = (s.hub.cell c0).susp - 1 ∧
      (t.hub.cell c1).susp = (s.hub.cell c1).susp - 1 ∧ ∀ y ∈ t.hub.audits, y.decided = true := by
  obtain ⟨u, hu⟩ : ∃ u, u = (s.unsuspect c0 1).unsuspect c1 1 := ⟨_, rfl⟩
  have hexec : exec (.auditDecide a.task) s = .next (u.auditDecided a k false) := by
    change execAuditDecide a.task s = _
    unfold execAuditDecide
    rw [haudits, hk, List.find?_cons, beq_self_eq_true]
    dsimp only
    rw [hundecided, hrerun, if_neg (by decide), hdigests, hcells]
    dsimp only
    rw [if_pos rfl, hu]
    rfl
  obtain ⟨hcell, hclosed⟩ := u.auditDecided_frame a k false
  have hsusp (m : Nat) := (s.unsuspect c0 1).unsuspect_susp h1 1 m
  have hsusp0 (m : Nat) := s.unsuspect_susp h0 1 m
  have huaudits : u.hub.audits = [a] := by
    rw [hu, State.unsuspect_audits, State.unsuspect_audits, haudits]
  refine ⟨_, hexec, ?_, ?_, fun y hy => ?_⟩
  · rw [hcell, hu, hsusp, if_neg hne, hsusp0, if_pos rfl]
  · rw [hcell, hu, hsusp, if_pos rfl, hsusp0, if_neg hne.symm]
  · rw [hclosed, Hub.mapAudit, huaudits] at hy
    have hy' : y = a.closed := (List.mem_singleton.mp hy).trans (if_pos rfl)
    rw [hy']
    rfl

/-- R236: AUDIT_DECIDE of two digests that disagree suspects both cells. -/
theorem exec_auditDecide_disagree {c0 c1 : Nat} (h0 : c0 < 64) (h1 : c1 < 64) (hne : c0 ≠ c1) {x y : Word}
    (hcells : a.cells = [c0, c1]) (hdigests : a.digests = [x, y]) (hxy : x ≠ y) :
    ∃ t, exec (.auditDecide a.task) s = .next t ∧ (t.hub.cell c0).susp = min 255 ((s.hub.cell c0).susp + 8) ∧
      (t.hub.cell c1).susp = min 255 ((s.hub.cell c1).susp + 8) := by
  obtain ⟨v, hv⟩ : ∃ v, v = (s.suspect c0 8 k.qth).suspect c1 8 k.qth := ⟨_, rfl⟩
  have hsusp (m : Nat) := (s.suspect c0 8 k.qth).suspect_susp h1 8 k.qth m
  have hsusp0 (m : Nat) := s.suspect_susp h0 8 k.qth m
  have hv0 : (v.hub.cell c0).susp = min 255 ((s.hub.cell c0).susp + 8) := by
    rw [hv, hsusp, if_neg hne, hsusp0, if_pos rfl]
  have hv1 : (v.hub.cell c1).susp = min 255 ((s.hub.cell c1).susp + 8) := by
    rw [hv, hsusp, if_pos rfl, hsusp0, if_neg hne.symm]
  have hafter (u : State) (p : Prop) [Decidable p] (n : Nat) :
      (if p then u.postRerun a k else u.auditDecided a k true).hub.cell n = u.hub.cell n := by
    split
    · exact u.postRerun_cell a k n
    · exact (u.auditDecided_frame a k true).1 n
  have hexec : ∃ part t, exec (.auditDecide a.task) s = .next t ∧
      ∀ n, t.hub.cell n = (v.logMc 24 (if a.ends then 2 else 1) 16 0 0x0040 0 c0 (some part)).hub.cell n := by
    change ∃ part t, execAuditDecide a.task s = .next t ∧ _
    unfold execAuditDecide
    rw [haudits, hk, List.find?_cons, beq_self_eq_true]
    dsimp only
    rw [hundecided, hrerun, if_neg (by decide), hdigests, hcells]
    dsimp only
    rw [if_neg hxy]
    exact ⟨_, _, rfl, fun n => (hafter _ _ n).trans (by rw [hv]; rfl)⟩
  obtain ⟨part, t, hnext, hcell⟩ := hexec
  have hlog (n : Nat) := (v.keepsSusp_logMc 24 (if a.ends then 2 else 1) 16 0 0x0040 0 c0 (some part)).susp n
  exact ⟨t, hnext, by rw [hcell, hlog, hv0], by rw [hcell, hlog, hv1]⟩

/-- R236: a third digest suspects the cell it disagrees with and clears the two that agree. -/
theorem exec_auditDecide_third {c0 c1 c2 : Nat} {x y z : Word} (hcells : a.cells = [c0, c1, c2])
    (hdigests : a.digests = [x, y, z]) :
    ∃ t, exec (.auditDecide a.task) s = .next t ∧
      ∀ n, t.hub.cell n = (s.judgeThird [c0, c1, c2] [x, y, z] k.qth).hub.cell n := by
  refine ⟨(s.judgeThird [c0, c1, c2] [x, y, z] k.qth).auditDecided a k true, ?_, (State.auditDecided_frame _ a k true).1⟩
  change execAuditDecide a.task s = _
  unfold execAuditDecide
  rw [haudits, hk, List.find?_cons, beq_self_eq_true]
  dsimp only
  rw [hundecided, hrerun, if_neg (by decide), hdigests, hcells]

end

/-- R236: the odd cell of three is suspected, and the other two are cleared. -/
theorem State.oddCell_susp (s : State) {odd c d : Nat} (hodd : odd < 64) (hc : c < 64) (hd : d < 64) (hco : c ≠ odd)
    (hdo : d ≠ odd) (hcd : c ≠ d) (qth : Nat) :
    let t := ((s.suspect odd 32 qth).unsuspect c 4).unsuspect d 4
    (t.hub.cell odd).susp = min 255 ((s.hub.cell odd).susp + 32) ∧ (t.hub.cell c).susp = (s.hub.cell c).susp - 4 ∧
      (t.hub.cell d).susp = (s.hub.cell d).susp - 4 := by
  have h1 (m : Nat) := s.suspect_susp hodd 32 qth m
  have h2 (m : Nat) := (s.suspect odd 32 qth).unsuspect_susp hc 4 m
  have h3 (m : Nat) := ((s.suspect odd 32 qth).unsuspect c 4).unsuspect_susp hd 4 m
  refine ⟨?_, ?_, ?_⟩
  · rw [h3, if_neg hdo.symm, h2, if_neg hco.symm, h1, if_pos rfl]
  · rw [h3, if_neg hcd, h2, if_pos rfl, h1, if_neg hco]
  · rw [h3, if_pos rfl, h2, if_neg hcd.symm, h1, if_neg hdo]

/-! ### Self-tests (R232, R373) -/

/-- R218: PEND bits of a core are only ever set by an error or a test. -/
theorem State.setPend_here (s : State) (bit : Nat) :
    (s.setPend s.cur bit).core.pend = s.core.pend ||| BitVec.ofNat 4 (2 ^ bit) ∧
    ∀ n, ((s.setPend s.cur bit).coreAt n).store = (s.coreAt n).store := by
  have h : s.setPend s.cur bit = s.setCore { s.core with pend := s.core.pend ||| BitVec.ofNat 4 (2 ^ bit) } := if_pos rfl
  rw [h]
  refine ⟨rfl, fun n => ?_⟩
  rw [State.setCore_coreAt]
  split
  case isTrue hn => rw [State.coreAt, if_pos hn]
  case isFalse => rfl

theorem State.setPend_keepsBit (s : State) (c bit i : Nat) (h : s.core.pend.getLsbD i = true) :
    (s.setPend c bit).core.pend.getLsbD i = true := by
  unfold State.setPend
  dsimp only
  split
  · rw [State.setCore_core, BitVec.getLsbD_or, h, Bool.true_or]
  · exact h

theorem State.logMc_keepsBit (s : State) (n sev src unit code : Nat) (addr : Word) (synd : Nat) (part : Option Nat) (i : Nat)
    (h : s.core.pend.getLsbD i = true) : (s.logMc n sev src unit code addr synd part).core.pend.getLsbD i = true := by
  have hfold (cs : List Nat) (u : State) (hu : u.core.pend.getLsbD i = true) :
      (cs.foldl (fun s c => s.setPend c 2) u).core.pend.getLsbD i = true := by
    induction cs generalizing u with
    | nil => exact hu
    | cons c cs ih => exact ih _ (u.setPend_keepsBit c 2 i hu)
  unfold State.logMc
  dsimp only
  generalize (if hn : n < 32 then _ else false) = tell
  cases tell
  · exact h
  · exact hfold _ _ h

/-- R373: what a core holds in its window and its caches is gone. -/
def Core.emptied (c : Core) : Core := { c with store := [], dcache := [], ways := [] }

/-- A core of a number is emptied. -/
def State.emptyCore (s : State) (c : Nat) : State := s.onCore c fun s => s.setCore s.core.emptied

theorem State.emptyCore_eq (s : State) (c : Nat) : ∃ k o, s.emptyCore c = { s with core := k, others := o } :=
  State.onCore_eq (actsOnCore_setCore fun t => t.core.emptied) s c

theorem State.emptyCore_coreAt (s : State) (c n : Nat) :
    (s.emptyCore c).coreAt n = if n = c then (s.coreAt c).emptied else s.coreAt n := by
  refine (State.onCore_coreAt (actsOnCore_setCore fun t => t.core.emptied) s c n).trans ?_
  rw [State.setCore_core, State.focus_core]

theorem State.emptyCore_pend (s : State) (c : Nat) : (s.emptyCore c).core.pend = s.core.pend := by
  obtain ⟨k, o, h⟩ := s.emptyCore_eq c
  have hcur : (s.emptyCore c).cur = s.cur := by rw [h]
  rw [← State.coreAt_cur, hcur, State.emptyCore_coreAt, ← State.coreAt_cur s]
  split
  case isTrue hc => rw [hc]; rfl
  case isFalse => rfl

/-- R373: the cores of a list are emptied, and nothing else changes. -/
theorem State.emptyCores_frame (cs : List Nat) (s : State) :
    (cs.foldl State.emptyCore s).hub = s.hub ∧ (cs.foldl State.emptyCore s).svc = s.svc ∧
    (cs.foldl State.emptyCore s).cur = s.cur ∧ (cs.foldl State.emptyCore s).core.pend = s.core.pend ∧
    ∀ n, (n ∈ cs ∨ (s.coreAt n).store = []) → ((cs.foldl State.emptyCore s).coreAt n).store = [] := by
  induction cs generalizing s with
  | nil => exact ⟨rfl, rfl, rfl, rfl, fun n h => h.resolve_left (by simp)⟩
  | cons c cs ih =>
    obtain ⟨hhub, hsvc, hcur, hpend, hstore⟩ := ih (s.emptyCore c)
    obtain ⟨k, o, h⟩ := s.emptyCore_eq c
    have hpend' := s.emptyCore_pend c
    rw [List.foldl_cons, hhub, hsvc, hcur, hpend, hpend']
    refine ⟨by rw [h], by rw [h], by rw [h], rfl, fun n hn => hstore n ?_⟩
    rw [State.emptyCore_coreAt]
    split
    case isTrue => exact .inr rfl
    case isFalse hne =>
      rw [List.mem_cons] at hn
      exact hn.imp_left fun h => h.resolve_left hne

/-- R373: the four cores of a tested cell are emptied; nothing else changes. -/
theorem State.zeroCell_frame (s : State) (n : Nat) :
    (s.zeroCell n).hub = s.hub ∧ (s.zeroCell n).svc = s.svc ∧ (s.zeroCell n).cur = s.cur ∧
    (s.zeroCell n).core.pend = s.core.pend ∧ ∀ q < 4, ((s.zeroCell n).coreAt (4 * n + q)).store = [] := by
  have hzero : s.zeroCell n = ((List.range 4).map (4 * n + ·)).foldl State.emptyCore s := rfl
  obtain ⟨h1, h2, h3, h4, h5⟩ := State.emptyCores_frame ((List.range 4).map (4 * n + ·)) s
  rw [hzero]
  refine ⟨h1, h2, h3, h4, fun q hq => h5 _ (.inl ?_)⟩
  exact List.mem_map.mpr ⟨q, List.mem_range.mpr hq, rfl⟩

section
variable {s : State} {n kind : Nat} (hn : n < 64) (htest : (s.hub.cell n).testing = some (kind, some s.cur))
include hn htest

/-- R232, R373: a cell that passes its test returns to its partition with score 0, empty; the issuing core is told. -/
theorem exec_selftestDone_pass :
    ∃ t, exec (.selftestDone n true) s = .next t ∧ (t.hub.cell n).testing = none ∧ (t.hub.cell n).susp = 0 ∧
      (t.hub.cell n).run = (if (s.hub.cell n).run = .quarantined then .enabled else (s.hub.cell n).run) ∧
      t.core.pend = s.core.pend ||| 2 ∧ ∀ q < 4, (t.coreAt (4 * n + q)).store = [] := by
  obtain ⟨hhub, hsvc, hcur, hpend, hstore⟩ := s.zeroCell_frame n
  obtain ⟨u, hu⟩ : ∃ u, u = (s.zeroCell n).setPend s.cur 1 := ⟨_, rfl⟩
  obtain ⟨hupend, hustore⟩ := (s.zeroCell n).setPend_here 1
  rw [hcur, ← hu] at hupend hustore
  have huhub : u.hub = s.hub := by
    obtain ⟨k, o, h⟩ := (s.zeroCell n).setPend_eq s.cur 1
    rw [hu, h, hhub]
  obtain ⟨h, hh⟩ : ∃ h, h = u.hub.mapCell n fun c =>
    { c with testing := none, susp := 0, run := if c.run = .quarantined then .enabled else c.run } := ⟨_, rfl⟩
  have hexec : ∃ t, exec (.selftestDone n true) s = .next t ∧ t.hub = h ∧ t.core.pend = u.core.pend ∧
      ∀ m, t.coreAt m = u.coreAt m := by
    change ∃ t, execSelftestDone n true s = .next t ∧ _
    unfold execSelftestDone
    rw [htest]
    dsimp only
    rw [← hu, if_pos rfl, ← hh]
    split
    · exact ⟨_, rfl, rfl, rfl, fun _ => rfl⟩
    · exact ⟨_, rfl, rfl, rfl, fun _ => rfl⟩
  obtain ⟨t, hnext, hthub, htpend, htcore⟩ := hexec
  have hcell := Hub.mapCell_cell u.hub hn (fun c =>
    { c with testing := none, susp := 0, run := if c.run = .quarantined then .enabled else c.run }) n
  rw [← hh, if_pos rfl, huhub] at hcell
  refine ⟨t, hnext, ?_, ?_, ?_, ?_, fun q hq => ?_⟩
  · rw [hthub, hcell]
  · rw [hthub, hcell]
  · rw [hthub, hcell]
  · rw [htpend, hupend, hpend]
    rfl
  · rw [htcore, hustore, hstore q hq]

/-- R231, R232, R274: a cell that fails its test is retired. -/
theorem exec_selftestDone_fail :
    ∃ t, exec (.selftestDone n false) s = .next t ∧ (t.hub.cell n).run = .retired ∧
      t.svc.record.retired = s.svc.record.retired ++ [n] ∧ t.core.pend.getLsbD 1 = true := by
  obtain ⟨hhub, hsvc, hcur, hpend, -⟩ := s.zeroCell_frame n
  obtain ⟨u, hu⟩ : ∃ u, u = (s.zeroCell n).setPend s.cur 1 := ⟨_, rfl⟩
  obtain ⟨hupend, -⟩ := (s.zeroCell n).setPend_here 1
  rw [hcur, ← hu] at hupend
  have hubit : u.core.pend.getLsbD 1 = true := by
    rw [hupend, BitVec.getLsbD_or]
    simp
  have husvc : u.svc = s.svc := by
    obtain ⟨k, o, h⟩ := (s.zeroCell n).setPend_eq s.cur 1
    rw [hu, h, hsvc]
  have hretire : ∃ v, u.retireCell n = v ∧ v.hub = (u.hub.mapCell n fun c => { c with run := .retired, testing := none }) ∧
      v.svc.record.retired = s.svc.record.retired ++ [n] ∧ v.core.pend = u.core.pend := by
    rw [← husvc]
    unfold State.retireCell
    dsimp only
    split
    · exact ⟨_, rfl, rfl, rfl, rfl⟩
    · exact ⟨_, rfl, rfl, rfl, rfl⟩
  obtain ⟨v, hv, hvhub, hvrow, hvpend⟩ := hretire
  have hexec : exec (.selftestDone n false) s =
      .next (v.logMc (n / 16) 2 (n / 16) (n % 16) 0x0042 0 n (u.hub.cell n).part) := by
    change execSelftestDone n false s = _
    unfold execSelftestDone
    rw [htest]
    dsimp only
    rw [← hu, if_neg (by decide), hv]
  have hcell := Hub.mapCell_cell u.hub hn (fun c => { c with run := .retired, testing := none }) n
  rw [if_pos rfl, ← hvhub] at hcell
  obtain ⟨k, o, hlog⟩ := v.logMc_eq (n / 16) 2 (n / 16) (n % 16) 0x0042 0 n (u.hub.cell n).part
  refine ⟨_, hexec, ?_, ?_, State.logMc_keepsBit _ _ _ _ _ _ _ _ _ _ (by rw [hvpend, hubit])⟩
  · rw [State.logMc_hub, Hub.mcLog_eq]
    exact congrArg Cell.run hcell
  · rw [hlog]
    exact hvrow

end

end Sys2Proof.Machine
end

section
/-! PROOFS. Spares, the cells of partitions, and the steps of errors. -/

namespace Sys2Proof.Machine

/-- R231: SPARE_SUBSTITUTE of an idle partition gives it the spare in the place of the cell it has lost. -/
theorem exec_spareSubstitute_idle {s : State} {p n m : Nat} (hidle : s.hub.idle p = true)
    (hlost : (List.range 64).find? (fun c => (s.hub.cell c).run == .retired && (s.hub.cell c).part == some p) = some n)
    (hspare : (List.range 64).find? (fun c => (s.hub.cell c).run == .spare) = some m) :
    ∃ t, exec (.spareSubstitute p) s = .next t ∧ (t.hub.cell m).run = .enabled ∧ (t.hub.cell m).part = some p ∧
      (t.hub.cell n).part = none ∧ ∀ c < 64, c ≠ n → c ≠ m → t.hub.cell c = s.hub.cell c := by
  have hn : n < 64 := List.mem_range.mp (List.mem_of_find?_eq_some hlost)
  have hm : m < 64 := List.mem_range.mp (List.mem_of_find?_eq_some hspare)
  have hretired : (s.hub.cell n).run = .retired := by
    have h := List.find?_some hlost
    rw [Bool.and_eq_true, beq_iff_eq] at h
    exact h.1
  have hrun : (s.hub.cell m).run = .spare := by
    have h := List.find?_some hspare
    exact beq_iff_eq.mp h
  have hne : n ≠ m := by
    rintro rfl
    rw [hretired] at hrun
    exact absurd hrun (by decide)
  obtain ⟨g, hg⟩ : ∃ g, g = s.hub.mapCell n fun c => { c with part := none } := ⟨_, rfl⟩
  have hgcell (c : Nat) := Hub.mapCell_cell s.hub hn (fun c => { c with part := none }) c
  have hcell (c : Nat) := Hub.mapCell_cell g hm (fun c => { c with run := .enabled, part := some p }) c
  refine ⟨(s.setHub (g.mapCell m fun c => { c with run := .enabled, part := some p })).later
    [.event (.spareSubstitute p), .event (.taskPlace p)], ?_, ?_, ?_, ?_, fun c _ hcn hcm => ?_⟩
  · change execSpareSubstitute p s = _
    unfold execSpareSubstitute
    dsimp only
    rw [hlost, hspare]
    dsimp only
    rw [if_neg (by rw [hidle]; decide), hg]
  · rw [State.later_hub, State.setHub_hub, hcell, if_pos rfl]
  · rw [State.later_hub, State.setHub_hub, hcell, if_pos rfl]
  · rw [State.later_hub, State.setHub_hub, hcell, if_neg hne, hg, hgcell, if_pos rfl]
  · rw [State.later_hub, State.setHub_hub, hcell, if_neg hcm, hg, hgcell, if_neg hcn]

/-- R176: PARTITION_CELL_MOVE of a cell between partitions without launches. -/
theorem exec_partitionCellMove_idle {s : State} {n p : Nat} {dst : Option Nat} (hn : n < 64)
    (hrun : (s.hub.cell n).run = .enabled) (htest : (s.hub.cell n).testing = none) (hpart : (s.hub.cell n).part = some p)
    (hsrc : s.hub.idle p = true) (hdst : ∀ q, dst = some q → q < 4 ∧ s.hub.idle q = true) :
    ∃ t, exec (.partitionCellMove n dst) s = .next t ∧ (t.hub.cell n).part = dst ∧
      ∀ c < 64, c ≠ n → t.hub.cell c = s.hub.cell c := by
  have hcell (c : Nat) := Hub.mapCell_cell s.hub hn (fun c => { c with part := dst }) c
  have hexec : ∃ t, exec (.partitionCellMove n dst) s = .next t ∧
      t.hub = s.hub.mapCell n fun c => { c with part := dst } := by
    change ∃ t, execPartitionCellMove n dst s = .next t ∧ _
    unfold execPartitionCellMove
    dsimp only
    rw [hpart]
    cases dst with
    | none => exact ⟨_, if_neg (by simp [hrun, htest, hsrc]), rfl⟩
    | some q =>
      obtain ⟨hq, hidle⟩ := hdst q rfl
      exact ⟨_, if_neg (by simp [hrun, htest, hsrc, hq, hidle]), rfl⟩
  obtain ⟨t, hnext, hhub⟩ := hexec
  refine ⟨t, hnext, ?_, fun c _ hc => ?_⟩
  · rw [hhub, hcell, if_pos rfl]
  · rw [hhub, hcell, if_neg hc]

/-- R236: AUDIT_DECIDE of three digests of which one is odd. -/
theorem exec_auditDecide_odd {s : State} {a : Audit} {k : Task} {c0 c1 c2 odd c : Nat} {x y z : Word}
    (haudits : s.hub.audits = [a]) (hk : s.hub.task? a.task = some k) (hundecided : a.decided = false)
    (hrerun : a.rerun = none) (hcells : a.cells = [c0, c1, c2]) (hdigests : a.digests = [x, y, z])
    (hjudge : s.judgeThird [c0, c1, c2] [x, y, z] k.qth = ((s.suspect odd 32 k.qth).unsuspect c 4).unsuspect c2 4)
    (hodd : odd < 64) (hc : c < 64) (h2 : c2 < 64) (hco : c ≠ odd) (h2o : c2 ≠ odd) (hc2 : c ≠ c2) :
    ∃ t, exec (.auditDecide a.task) s = .next t ∧ (t.hub.cell odd).susp = min 255 ((s.hub.cell odd).susp + 32) ∧
      (t.hub.cell c).susp = (s.hub.cell c).susp - 4 ∧ (t.hub.cell c2).susp = (s.hub.cell c2).susp - 4 := by
  obtain ⟨t, hnext, hcell⟩ := exec_auditDecide_third haudits hk hundecided hrerun hcells hdigests
  obtain ⟨ho, hs, hs2⟩ := s.oddCell_susp hodd hc h2 hco h2o hc2 k.qth
  rw [hjudge] at hcell
  exact ⟨t, hnext, (congrArg Cell.susp (hcell odd)).trans ho, (congrArg Cell.susp (hcell c)).trans hs,
    (congrArg Cell.susp (hcell c2)).trans hs2⟩

/-- Settles O55, step by step. -/
theorem errorEvents : Obligations.ErrorEvents := by
  intro s
  refine ⟨fun e hbank hen hfree => ⟨exec_eccCorrected_records hbank hen hfree,
      fun h4 h16 haddr hcur hrun => exec_uncorrectableError_repairs hbank hen hfree h4 h16 haddr hcur hrun⟩,
    fun e c hbank hen hfree => exec_uncorrectableError_fatal e c hbank hen hfree,
    fun hcur hrun => ⟨fun hguard => exec_datapathError_unguarded hcur hrun hguard,
      fun b hguard hrerun hgang hshadow hundo =>
        exec_datapathError_guarded hcur hrun hguard hrerun hgang hshadow hundo⟩,
    ?audits,
    fun n kind hn htest => ⟨exec_selftestDone_pass hn htest, exec_selftestDone_fail hn htest⟩,
    fun p n m hidle hlost hspare => exec_spareSubstitute_idle hidle hlost hspare,
    fun n p q hn hp hq hrun htest hpart hsrc hdst => ?move, rfl⟩
  case audits =>
    intro a k haudits hk hid hundecided hrerun
    refine ⟨fun hone => exec_auditRerun_posts haudits hk hundecided hrerun hid hone, fun c0 c1 h0 h1 hne =>
      ⟨fun x hcells hdigests => exec_auditDecide_agree haudits hk hundecided hrerun h0 h1 hne hcells hdigests,
        fun x y hcells hdigests hxy =>
          exec_auditDecide_disagree haudits hk hundecided hrerun h0 h1 hne hcells hdigests hxy,
        fun c2 x y h2 h20 h21 hcells hxy => ⟨fun hdigests => ?_, fun hdigests => ?_⟩⟩⟩
    · exact exec_auditDecide_odd haudits hk hundecided hrerun hcells hdigests (if_pos rfl) h1 h0 h2 hne h21 h20.symm
    · exact exec_auditDecide_odd haudits hk hundecided hrerun hcells hdigests ((if_neg hxy).trans (if_pos rfl)) h0 h1 h2
        hne.symm h20 h21.symm
  case move =>
    obtain ⟨t, hnext, hto, hrest⟩ := exec_partitionCellMove_idle (dst := some q) hn hrun htest hpart hsrc
      fun x hx => by
        obtain rfl := Option.some.inj hx
        exact ⟨hq, hdst⟩
    obtain ⟨u, hnext', hout, -⟩ := exec_partitionCellMove_idle (dst := none) hn hrun htest hpart hsrc
      fun x hx => absurd hx (by simp)
    exact ⟨t, hnext, hto, hrest, u, hnext', hout⟩

end Sys2Proof.Machine
end

section
/-! PROOFS. ERET: the frames it refuses and the bank it restores. -/

namespace Sys2Proof.Machine

/-! ### A nested fault (R205) -/

theorem causeBits_nested {code : Nat} (h : code < 256) (handler : Bool) :
    (causeBits code none (handler || true) 0 0).toNat % 256 = code ∧
      (causeBits code none (handler || true) 0 0).getLsbD 12 = true := by
  rw [Bool.or_true]
  refine ⟨causeBits_mod code h true, ?_⟩
  have hword : (causeBits code none true 0 0).toNat = 4096 + code := by
    simp [causeBits]
    omega
  rw [BitVec.getLsbD, hword, Nat.testBit_eq_decide_div_mod_eq]
  simp
  omega

theorem raiseNested_next {s : State} {c : Nat} (ha : s.agent = .primary) (hc : c < 256) :
    ∃ t, s.raiseNested c = .next t ∧ t.core.bank.run = .stopped ∧ t.core.bank.cause.toNat % 256 = c ∧
      t.core.bank.cause.getLsbD 12 = true ∧ t.core.bank.epc = s.core.bank.pc ∧ t.core.bank.s = s.core.bank.s ∧
      t.core.store = s.core.store := by
  have hthread : s.agentThread = none := by rw [State.agentThread, ha]
  obtain ⟨r, hr⟩ : ∃ r : Raised, r = { cause := c, thread := s.agentThread, cb := 0, addr := 0, aux := 0, nested := true } :=
    ⟨_, rfl⟩
  have hnext : s.raiseNested c = .next ((s.takeFault r).setBank { (s.takeFault r).core.bank with raised := some r }) := by
    rw [hr]
    rfl
  have hcause : causeBits r.cause r.thread (s.core.bank.handler || r.nested) r.cb 0 =
      causeBits c none (s.core.bank.handler || true) 0 0 := by
    rw [hr, hthread]
  have hpc : faultPc s.core.bank r = s.core.bank.pc := by
    rw [hr, faultPc, hthread]
    rfl
  obtain ⟨hmod, hbit⟩ := causeBits_nested hc s.core.bank.handler
  refine ⟨_, hnext, ?_⟩
  rw [State.setBank_core, State.takeFault_core, hcause, hpc]
  exact ⟨rfl, hmod, hbit, rfl, rfl, rfl⟩

/-! ### The results behind barrier entries (R213, R216) -/

/-- A pair of an entry of the frame and, if any, a result that was held. -/
def BarPaired (held : List (Nat × BarRes)) (rs : List Rime) (y : Rime × Option (Nat × BarRes)) : Prop :=
  y.1 ∈ rs ∧ ∀ h, y.2 = some h → h ∈ held

/-- Results left of those held, and pairs of them. -/
def BarsPaired (held : List (Nat × BarRes)) (rs : List Rime) (a : List (Nat × BarRes) × List (Rime × Option (Nat × BarRes))) :
    Prop := (∀ h ∈ a.1, h ∈ held) ∧ ∀ y ∈ a.2, BarPaired held rs y

theorem BarsPaired.append {held left left' : List (Nat × BarRes)} {rs : List Rime}
    {ys : List (Rime × Option (Nat × BarRes))} {y : Rime × Option (Nat × BarRes)} (h : BarsPaired held rs (left, ys))
    (hleft : ∀ x ∈ left', x ∈ left) (hy : BarPaired held rs y) : BarsPaired held rs (left', ys ++ [y]) := by
  refine ⟨fun x hx => h.1 x (hleft x hx), fun z hz => ?_⟩
  rcases List.mem_append.mp hz with hz | hz
  · exact h.2 z hz
  · rw [List.mem_singleton.mp hz]
    exact hy

/-- R216: an entry that still names its result takes it. -/
def pairOwn (a : List (Nat × BarRes) × List (Rime × Option (Nat × BarRes))) (r : Rime) :
    List (Nat × BarRes) × List (Rime × Option (Nat × BarRes)) :=
  match a.1.find? r.names with
  | some x => (a.1.erase x, a.2 ++ [(r, some x)])
  | none => (a.1, a.2 ++ [(r, none)])

/-- R216: an entry without a result takes the first that is left. -/
def pairLeft (a : List (Nat × BarRes) × List (Rime × Option (Nat × BarRes))) (x : Rime × Option (Nat × BarRes)) :
    List (Nat × BarRes) × List (Rime × Option (Nat × BarRes)) :=
  match x.2, a.1 with
  | none, h :: hs => (hs, a.2 ++ [(x.1, some h)])
  | _, _ => (a.1, a.2 ++ [x])

theorem pairBars_eq (held : List (Nat × BarRes)) (rs : List Rime) :
    pairBars held rs =
      ((rs.foldl pairOwn (held, [])).2.foldl pairLeft ((rs.foldl pairOwn (held, [])).1, [])).2 := rfl

/-- Every pair names an entry of the frame, and a result that was held. -/
theorem mem_pairBars {held : List (Nat × BarRes)} {rs : List Rime} {y : Rime × Option (Nat × BarRes)}
    (hy : y ∈ pairBars held rs) : BarPaired held rs y := by
  have hown : BarsPaired held rs (rs.foldl pairOwn (held, [])) := by
    refine List.foldlRecOn rs pairOwn ⟨fun _ h => h, by simp⟩ fun a ha r hr => ?_
    unfold pairOwn
    split
    case h_1 x hx =>
      refine ha.append (fun z hz => List.mem_of_mem_erase hz) ⟨hr, fun h hh => ?_⟩
      rw [← Option.some.inj hh]
      exact ha.1 x (List.mem_of_find?_eq_some hx)
    case h_2 => exact ha.append (fun _ h => h) ⟨hr, fun h hh => absurd hh (by simp)⟩
  have hleft : BarsPaired held rs
      ((rs.foldl pairOwn (held, [])).2.foldl pairLeft ((rs.foldl pairOwn (held, [])).1, [])) := by
    refine List.foldlRecOn _ pairLeft ⟨hown.1, by simp⟩ fun a ha x hx => ?_
    unfold pairLeft
    split
    case h_1 h hs _ heq =>
      refine ha.append (fun z hz => by rw [heq]; exact List.mem_cons_of_mem h hz) ⟨(hown.2 x hx).1, fun z hz => ?_⟩
      rw [← Option.some.inj hz]
      exact ha.1 h (by rw [heq]; exact List.mem_cons_self)
    case h_2 => exact ha.append (fun _ h => h) (hown.2 x hx)
  rw [pairBars_eq] at hy
  exact hleft.2 y hy

/-- R213: one entry and one held result are paired, whatever the entry names. -/
theorem pairBars_single (h : Nat × BarRes) (r : Rime) : pairBars [h] [r] = [(r, some h)] := by
  rw [pairBars_eq]
  simp only [List.foldl_cons, List.foldl_nil]
  cases hn : r.names h with
  | true => simp [pairOwn, pairLeft, hn]
  | false => simp [pairOwn, pairLeft, hn]

/-! ### ERET (R216, R217) -/

section
variable {o : XOp} {s : State} (hr : s.primaryRuns o.g) (hsup : s.sup? = true)
include hr hsup

/-- R212: a frame outside the bank's pinned lines. -/
theorem exec_eret_unpinned (hpin : s.core.bank.framePinned = false) : exec (.eret o) s = s.raiseNested 0x06 := by
  change execEret o s = _
  rw [execEret, State.supOnly_runs hr hsup]
  dsimp only
  rw [if_pos (by rw [hpin]; rfl)]

/-- R213: an entry out of range, or more than 64 of them. -/
theorem exec_eret_illegal (hpin : s.core.bank.framePinned = true)
    (hbad : 64 < (rimesRead s.core.store (128 * s.core.bank.tfbase)).length ∨
      ∃ x ∈ rimesRead s.core.store (128 * s.core.bank.tfbase), s.core.bank.rimeLegal x = false) :
    exec (.eret o) s = s.raiseNested 0x01 := by
  have hall : (decide (64 < (rimesRead s.core.store (128 * s.core.bank.tfbase)).length) ||
      !((rimesRead s.core.store (128 * s.core.bank.tfbase)).all s.core.bank.rimeLegal)) = true := by
    rcases hbad with hlong | ⟨x, hx, hillegal⟩
    · rw [decide_eq_true hlong, Bool.true_or]
    · have hnot : (rimesRead s.core.store (128 * s.core.bank.tfbase)).all s.core.bank.rimeLegal = false :=
        List.all_eq_false.mpr ⟨x, hx, by rw [hillegal]; exact Bool.false_ne_true⟩
      rw [hnot, Bool.not_false, Bool.or_true]
  change execEret o s = _
  rw [execEret, State.supOnly_runs hr hsup]
  dsimp only
  rw [if_neg (by rw [hpin]; decide), if_pos (by rw [hall]; rfl)]

/-- R217: the FAULTED entry of an operation that has met an absent page becomes a translation event. -/
theorem exec_eret_faulted {x : Rime × Nat × Bool} {h : Nat × BarRes} (hpin : s.core.bank.framePinned = true)
    (hxs : rimesRead s.core.store (128 * s.core.bank.tfbase) = [x]) (hlegal : s.core.bank.rimeLegal x = true)
    (hbar : x.1.bar = true) (hfaulted : x.1.faulted = true) (hheld : s.core.bank.heldRes s.core.bank.heldBars = [h])
    (hstuck : s.opStuck h.2.op = true) :
    ∃ va, exec (.eret o) s = .next (s.takeEvent s.core.bank.pc x.1.cb va (some h.2.op) .reissue) := by
  have hbars : pairBars (s.core.bank.heldRes s.core.bank.heldBars)
      (((rimesRead s.core.store (128 * s.core.bank.tfbase)).map (·.1)).filter fun r => r.bar) = [(x.1, some h)] := by
    rw [hheld, hxs, List.map_cons, List.map_nil, List.filter_cons, if_pos hbar, List.filter_nil, pairBars_single]
  change ∃ va, execEret o s = _
  rw [execEret, State.supOnly_runs hr hsup]
  dsimp only
  rw [hbars, hxs, if_neg (by rw [hpin]; decide), if_neg (by simp [hlegal, hfaulted, hstuck]), List.find?_cons, hfaulted]
  exact ⟨_, rfl⟩

/-- R216: a frame whose entries are legal and none FAULTED, of operations none of which is stuck, is restored. -/
theorem exec_eret_restores (hpin : s.core.bank.framePinned = true)
    (hlen : (rimesRead s.core.store (128 * s.core.bank.tfbase)).length ≤ 64)
    (hlegal : ∀ x ∈ rimesRead s.core.store (128 * s.core.bank.tfbase),
      s.core.bank.rimeLegal x = true ∧ x.1.faulted = false)
    (hstuck : ∀ id ∈ s.core.bank.heldBars, s.opStuck id = false) {t : State}
    (ht : t = s.restore (s.core.bank.tick + 48) s.core.bank.epc
      ((rimesRead s.core.store (128 * s.core.bank.tfbase)).map (·.1))) :
    exec (.eret o) s = .next (t.setBank { t.core.bank with stall := 47 }) := by
  obtain ⟨xs, hxs⟩ : ∃ xs, xs = rimesRead s.core.store (128 * s.core.bank.tfbase) := ⟨_, rfl⟩
  obtain ⟨bars, hbars⟩ : ∃ bars, bars = pairBars (s.core.bank.heldRes s.core.bank.heldBars)
      ((xs.map (·.1)).filter fun r => r.bar) := ⟨_, rfl⟩
  rw [← hxs] at hlen hlegal
  have hsound (y : Rime × Option (Nat × BarRes)) (hy : y ∈ bars) :
      y.1.faulted = false ∧ (y.2.isSome && s.opStuck ((y.2.map (·.2.op)).getD 0)) = false := by
    rw [hbars] at hy
    obtain ⟨hentry, hres⟩ := mem_pairBars hy
    obtain ⟨x, hx, hxy⟩ := List.mem_map.mp (List.mem_filter.mp hentry).1
    refine ⟨by rw [← hxy]; exact (hlegal x hx).2, ?_⟩
    cases hy2 : y.2 with
    | none => rfl
    | some h =>
      have hop := (List.mem_filter.mp (hres h hy2)).2
      exact hstuck _ (List.contains_iff_mem.mp hop)
  have hgood : (decide (64 < xs.length) || !(xs.all s.core.bank.rimeLegal) ||
      !(bars.all fun x => x.1.faulted == (x.2.isSome && s.opStuck ((x.2.map (·.2.op)).getD 0)))) = false := by
    have h1 : xs.all s.core.bank.rimeLegal = true := List.all_eq_true.mpr fun x hx => (hlegal x hx).1
    have h2 : (bars.all fun x => x.1.faulted == (x.2.isSome && s.opStuck ((x.2.map (·.2.op)).getD 0))) = true :=
      List.all_eq_true.mpr fun y hy => by rw [(hsound y hy).1, (hsound y hy).2]; rfl
    rw [h1, h2, decide_eq_false (by omega)]
    rfl
  have hfind : bars.find? (fun x => x.1.faulted) = none :=
    List.find?_eq_none.mpr fun y hy => by rw [(hsound y hy).1]; exact Bool.false_ne_true
  change execEret o s = _
  rw [execEret, State.supOnly_runs hr hsup]
  dsimp only
  rw [if_neg (by rw [hpin]; decide), ← hxs, ← hbars, if_neg (Bool.eq_false_iff.mp hgood), hfind]
  dsimp only
  rw [hxs, ← ht]

end

end Sys2Proof.Machine
end

section
/-! PROOFS. The bank that ERET restores, read from the frame. -/

namespace Sys2Proof.Machine

/-! ### What a frame gives back (R212, R216) -/

theorem ofNat_readNat {w : Nat} (m : Mem) (a n : Nat) (h : w = 8 * n) : (BitVec.ofNat w (readNat m a n)).toNat = readNat m a n := by
  subst h
  exact Nat.mod_eq_of_lt (readNat_lt m a n)

section
variable (b : Bank) (m : Mem) (base : Nat)

theorem restoreFrame_pred {i : Nat} (h1 : 1 ≤ i) (hi : i < 16) :
    (b.restoreFrame m base).pred (BitVec.ofNat 4 i) = (readNat m (base + 0x28) 8).testBit i := by
  have htoNat : (BitVec.ofNat 4 i).toNat = i := Nat.mod_eq_of_lt hi
  unfold Bank.pred
  split
  case isTrue hzero =>
    have h0 : i = 0 := htoNat.symm.trans (congrArg BitVec.toNat hzero)
    omega
  case isFalse =>
    have hne : (i == 0) = false := beq_eq_false_iff_ne.mpr (by omega)
    simp only [Bank.restoreFrame, htoNat, Vector.getElem_ofFn, hne, Bool.or_false]

theorem restoreFrame_mask {i : Nat} (h1 : 1 ≤ i) (hi : i < 8) :
    (b.restoreFrame m base).mask (BitVec.ofNat 3 i) = BitVec.ofNat 2048 (readNat m (base + 256 * i) 256) := by
  have htoNat : (BitVec.ofNat 3 i).toNat = i := Nat.mod_eq_of_lt hi
  unfold Bank.mask
  split
  case isTrue hzero =>
    have h0 : i = 0 := htoNat.symm.trans (congrArg BitVec.toNat hzero)
    omega
  case isFalse =>
    simp only [Bank.restoreFrame, htoNat, Vector.getElem_ofFn]
    rw [if_neg (by omega)]

/-- R216: a restore leaves the scalar, the vector and the branch registers, EPC and TVEC. -/
theorem restoreFrame_regs :
    (b.restoreFrame m base).s = b.s ∧ (b.restoreFrame m base).v = b.v ∧ (b.restoreFrame m base).b = b.b ∧
    (b.restoreFrame m base).epc = b.epc ∧ (b.restoreFrame m base).tvec = b.tvec := by
  unfold Bank.restoreFrame
  exact ⟨rfl, rfl, rfl, rfl, rfl⟩

theorem restoreFrame_loop :
    (b.restoreFrame m base).loop.left = readNat m (base + 0x18) 8 % 2 ^ 32 ∧
    (b.restoreFrame m base).loop.active = (readNat m (base + 0x18) 8).testBit 35 ∧
    (b.restoreFrame m base).loop.drain = readNat m (base + 0x18) 8 / 2 ^ 32 % 8 := by
  exact ⟨congrArg (· % 2 ^ 32) (Nat.div_one _), rfl, rfl⟩

theorem restoreFrame_rot :
    (b.restoreFrame m base).rotSize = readNat m (base + 0x20) 8 % 256 ∧
    (b.restoreFrame m base).rotBase = readNat m (base + 0x20) 8 / 256 % 128 := by
  exact ⟨congrArg (· % 2 ^ 8) (Nat.div_one _), rfl⟩

theorem restoreFrame_loopBuf :
    (b.restoreFrame m base).loopBuf.first.toNat = readNat m (base + 0x30) 8 ∧
    (b.restoreFrame m base).loopBuf.count = readNat m (base + 0x38) 8 % 128 ∧
    (b.restoreFrame m base).loopBuf.valid = (readNat m (base + 0x38) 8).testBit 7 := by
  exact ⟨ofNat_readNat m _ 8 rfl, congrArg (· % 2 ^ 7) (Nat.div_one _), rfl⟩

/-- R212: a latch or a held value is the frame's. -/
theorem latchRead_bits (off i tags vbit valid : Nat) :
    (latchRead m base off i tags vbit valid).bits.toNat = readNat m (base + off) 256 := ofNat_readNat m _ 256 rfl

theorem restoreFrame_latches (i : Fin 4) :
    (b.restoreFrame m base).latS[i].val.toNat = readNat m (base + 0x60 + 8 * i) 8 ∧
    (b.restoreFrame m base).lat0[i].bits.toNat = readNat m (base + 0x800 + 256 * i) 256 ∧
    (b.restoreFrame m base).lat1[i].bits.toNat = readNat m (base + 0xC00 + 256 * i) 256 ∧
    (b.restoreFrame m base).latE[i].bits.toNat = readNat m (base + 0x1000 + 256 * i) 256 ∧
    (b.restoreFrame m base).latS[i].valid = (readNat m (base + 0x50) 8).testBit (12 + i) := by
  simp only [Bank.restoreFrame, Fin.getElem_fin, Vector.getElem_ofFn, latchRead_bits, Nat.add_assoc, and_true]
  exact ofNat_readNat m _ 8 rfl

theorem restoreFrame_held (i : Fin 3) :
    (b.restoreFrame m base).held0[i].bits.toNat = readNat m (base + 0x1400 + 256 * i) 256 ∧
    (b.restoreFrame m base).held1[i].bits.toNat = readNat m (base + 0x1700 + 256 * i) 256 := by
  simp only [Bank.restoreFrame, Fin.getElem_fin, Vector.getElem_ofFn, latchRead_bits, Nat.add_assoc, and_self]

end

/-- R216: a scalar entry is in flight, for REMAIN cycles after the resumed bundle. -/
theorem rimePend_scalar (f' : Nat) {r : Rime} (hcls : r.cls = 0) :
    (rimePend f' r).due = f' + r.remain ∧
      (rimePend f' r).eff = if r.unit = 2 then .s r.dest r.val else .sPlain r.dest r.val := by
  obtain ⟨dest, cls, bar, faulted, cb, remain, tag, unit, flags, val, bits⟩ := r
  obtain rfl : cls = 0 := hcls
  exact ⟨rfl, rfl⟩

section
variable {b c : Bank} {m : Mem} {base : Nat} (h : (b.restoreFrame m base).FrameRegs c)
include h

/-- A bank with the frame's registers, read register by register. -/
theorem Bank.FrameRegs.pred_eq (i : Nat) (h1 : 1 ≤ i) (hi : i < 16) :
    c.pred (BitVec.ofNat 4 i) = (readNat m (base + 0x28) 8).testBit i := by
  rw [← restoreFrame_pred b m base h1 hi, Bank.pred, Bank.pred]
  simp only [h.p]

theorem Bank.FrameRegs.mask_eq (i : Nat) (h1 : 1 ≤ i) (hi : i < 8) :
    c.mask (BitVec.ofNat 3 i) = BitVec.ofNat 2048 (readNat m (base + 256 * i) 256) := by
  rw [← restoreFrame_mask b m base h1 hi, Bank.mask, Bank.mask]
  simp only [h.k]

theorem Bank.FrameRegs.latches_eq (i : Fin 4) :
    c.latS[i].val.toNat = readNat m (base + 0x60 + 8 * i) 8 ∧
    c.lat0[i].bits.toNat = readNat m (base + 0x800 + 256 * i) 256 ∧
    c.lat1[i].bits.toNat = readNat m (base + 0xC00 + 256 * i) 256 ∧
    c.latE[i].bits.toNat = readNat m (base + 0x1000 + 256 * i) 256 ∧
    c.latS[i].valid = (readNat m (base + 0x50) 8).testBit (12 + i) := by
  rw [h.latS, h.lat0, h.lat1, h.latE]
  exact restoreFrame_latches b m base i

theorem Bank.FrameRegs.held_eq (i : Fin 3) :
    c.held0[i].bits.toNat = readNat m (base + 0x1400 + 256 * i) 256 ∧
    c.held1[i].bits.toNat = readNat m (base + 0x1700 + 256 * i) 256 := by
  rw [h.held0, h.held1]
  exact restoreFrame_held b m base i

end

/-- Settles O15: a frame is refused as a nested fault, becomes a translation event, or is restored whole. -/
theorem eretRestores : Obligations.EretRestores := by
  refine ⟨fun o s hr hsup => ⟨exec_eret_unpinned hr hsup, exec_eret_illegal hr hsup,
    fun c hc => raiseNested_next hr.1 hc, fun x h hpin hxs hlegal hbar hfaulted hheld hstuck => ?event⟩, ?restore⟩
  case event =>
    obtain ⟨va, hexec⟩ := exec_eret_faulted hr hsup hpin hxs hlegal hbar hfaulted hheld hstuck
    exact ⟨va, _, hexec, rfl⟩
  case restore =>
    intro o s hr hsup hpin b m base xs hlen hlegal hstuck
    obtain ⟨t, ht⟩ : ∃ t, t = s.restore (b.tick + 48) b.epc (xs.map (·.1)) := ⟨_, rfl⟩
    obtain ⟨hregs, hpc, hbranch, hrun, es, hpend⟩ := s.restore_bank (b.tick + 48) b.epc (xs.map (·.1))
    obtain ⟨b', heq⟩ := s.restore_eq (b.tick + 48) b.epc (xs.map (·.1))
    rw [← ht] at hregs hpc hbranch hrun hpend heq
    have hstore : t.core.store = m := by rw [heq]; rfl
    have hmem : t.mem = s.mem := by rw [heq]; rfl
    refine ⟨t.setBank { t.core.bank with stall := 47 }, exec_eret_restores hr hsup hpin hlen hlegal hstuck ht, ?_⟩
    obtain ⟨hleft, hactive, hdrain⟩ := restoreFrame_loop b m base
    obtain ⟨hsize, hbase⟩ := restoreFrame_rot b m base
    obtain ⟨hfirst, hcount, hvalid⟩ := restoreFrame_loopBuf b m base
    rw [← hregs.loop] at hleft hactive hdrain
    rw [← hregs.rotSize] at hsize
    rw [← hregs.rotBase] at hbase
    rw [← hregs.loopBuf] at hfirst hcount hvalid
    have hentry (x : Rime × Nat × Bool) (hx : x ∈ xs) (hcls : x.1.cls = 0) (hbar : x.1.bar = false) :
        ∃ e ∈ t.core.bank.pend, e.due = b.tick + 48 + x.1.remain ∧
          e.eff = if x.1.unit = 2 then .s x.1.dest x.1.val else .sPlain x.1.dest x.1.val := by
      refine ⟨rimePend (b.tick + 48) x.1, ?_, rimePend_scalar _ hcls⟩
      rw [hpend]
      refine List.mem_append_right _ (List.mem_map_of_mem (List.mem_filter.mpr ⟨List.mem_map_of_mem hx, ?_⟩))
      rw [hbar]
      rfl
    obtain ⟨hs, hv, hb, hepc, htvec⟩ := restoreFrame_regs b m base
    rw [← hregs.s] at hs
    rw [← hregs.v] at hv
    rw [← hregs.b] at hb
    rw [← hregs.epc] at hepc
    rw [← hregs.tvec] at htvec
    rw [State.setBank_core]
    exact ⟨hpc, hbranch, hrun, rfl, hregs.status, hregs.pred_eq, hregs.mask_eq, hleft, hactive, hsize, hdrain, hbase, hfirst,
      hcount, hvalid, hregs.latches_eq, hregs.held_eq, hentry, hs, hv, hb, hepc, htvec, hstore, hmem⟩

end Sys2Proof.Machine
end

section
/-! PROOFS. Writes to memory that has no entry yet in their range, whatever the order of its other entries, and the
frame that a trap writes. -/

namespace Sys2Proof.Machine

/-! ### One byte -/

theorem memByte_memDel_other (m : Mem) {a x : Nat} (h : x ≠ a) : memByte (memDel m a) x = memByte m x := by
  induction m with
  | nil => rfl
  | cons e m ih =>
    obtain ⟨j, v⟩ := e
    unfold memDel
    split
    case isTrue hj => rw [memByte, if_neg (by omega)]
    case isFalse =>
      split
      · rw [memByte, memByte, ih]
      · rfl

theorem memDel_absent {m : Mem} {a : Nat} (h : ∀ e ∈ m, e.1 ≠ a) : memDel m a = m := by
  induction m with
  | nil => rfl
  | cons e m ih =>
    unfold memDel
    rw [if_neg (h e List.mem_cons_self), ih fun x hx => h x (List.mem_cons_of_mem e hx), ite_self]

theorem memByte_absent {m : Mem} {a : Nat} (h : ∀ e ∈ m, e.1 ≠ a) : memByte m a = 0 := by
  induction m with
  | nil => rfl
  | cons e m ih => rw [memByte, if_neg (h e List.mem_cons_self), ih fun x hx => h x (List.mem_cons_of_mem e hx)]

theorem memByte_memPut_other (m : Mem) {a x : Nat} (b : Byte) (h : x ≠ a) : memByte (memPut m a b) x = memByte m x := by
  unfold memPut
  split
  · exact memByte_memDel_other m h
  · rw [memByte_memIns, if_neg h]

/-- A byte put where the memory has no entry reads back. -/
theorem memByte_memPut_absent {m : Mem} {a : Nat} (b : Byte) (h : ∀ e ∈ m, e.1 ≠ a) : memByte (memPut m a b) a = b := by
  unfold memPut
  split
  case isTrue hb => rw [memDel_absent h, memByte_absent h, hb]
  case isFalse => rw [memByte_memIns, if_pos rfl]

theorem mem_memDel {m : Mem} {a : Nat} {e : Nat × Byte} (he : e ∈ memDel m a) : e ∈ m := by
  induction m with
  | nil => exact he
  | cons x m ih =>
    unfold memDel at he
    split at he
    · exact List.mem_cons_of_mem x he
    · split at he
      · rcases List.mem_cons.mp he with rfl | he
        · exact List.mem_cons_self
        · exact List.mem_cons_of_mem x (ih he)
      · exact he

theorem mem_memIns {m : Mem} {a : Nat} {b : Byte} {e : Nat × Byte} (he : e ∈ memIns m a b) : e ∈ m ∨ e.1 = a := by
  induction m with
  | nil => exact .inr (by rw [List.mem_singleton.mp he])
  | cons x m ih =>
    unfold memIns at he
    split at he
    · rcases List.mem_cons.mp he with rfl | he
      · exact .inl List.mem_cons_self
      · exact (ih he).imp_left (List.mem_cons_of_mem x)
    · split at he
      · rcases List.mem_cons.mp he with rfl | he
        · exact .inr rfl
        · exact .inl (List.mem_cons_of_mem x he)
      · rcases List.mem_cons.mp he with rfl | he
        · exact .inr rfl
        · exact .inl he

theorem mem_memPut {m : Mem} {a : Nat} {b : Byte} {e : Nat × Byte} (he : e ∈ memPut m a b) : e ∈ m ∨ e.1 = a := by
  unfold memPut at he
  split at he
  · exact .inl (mem_memDel he)
  · exact mem_memIns he

/-! ### A memory changed in a range alone -/

/-- The memory has no entry from lo up to hi. -/
def Mem.Fresh (m : Mem) (lo hi : Nat) : Prop := ∀ e ∈ m, ¬(lo ≤ e.1 ∧ e.1 < hi)

/-- A memory that another one differs from in a range alone, in its bytes and in where it has entries. -/
structure Mem.ChangedIn (m m' : Mem) (lo hi : Nat) : Prop where
  bytes : ∀ x, x < lo ∨ hi ≤ x → memByte m' x = memByte m x
  entries : ∀ e ∈ m', e ∈ m ∨ (lo ≤ e.1 ∧ e.1 < hi)

namespace Mem.ChangedIn

theorem refl (m : Mem) (lo hi : Nat) : Mem.ChangedIn m m lo hi := ⟨fun _ _ => rfl, fun _ h => .inl h⟩

variable {m m' m'' : Mem} {lo hi : Nat}

theorem trans (h₁ : Mem.ChangedIn m m' lo hi) (h₂ : Mem.ChangedIn m' m'' lo hi) : Mem.ChangedIn m m'' lo hi :=
  ⟨fun x hx => (h₂.bytes x hx).trans (h₁.bytes x hx), fun e he => (h₂.entries e he).elim (h₁.entries e) .inr⟩

theorem mono (h : Mem.ChangedIn m m' lo hi) {lo' hi' : Nat} (hlo : lo' ≤ lo) (hhi : hi ≤ hi') : Mem.ChangedIn m m' lo' hi' :=
  ⟨fun x hx => h.bytes x (by omega), fun e he => (h.entries e he).imp_right fun h => by omega⟩

theorem fresh (h : Mem.ChangedIn m m' lo hi) {a b : Nat} (hfresh : Mem.Fresh m a b) (hout : b ≤ lo ∨ hi ≤ a) :
    Mem.Fresh m' a b := by
  intro e he
  rcases h.entries e he with he | he
  · exact hfresh e he
  · omega

theorem readNat_eq (h : Mem.ChangedIn m m' lo hi) {a n : Nat} (hout : a + n ≤ lo ∨ hi ≤ a) :
    readNat m' a n = readNat m a n := by
  have hbytes : readBytes m' a n = readBytes m a n :=
    List.map_congr_left fun i hi => h.bytes _ (by have := List.mem_range.mp hi; omega)
  rw [readNat, readNat, hbytes]

end Mem.ChangedIn

theorem Mem.Fresh.mono {m : Mem} {lo hi a b : Nat} (h : Mem.Fresh m lo hi) (ha : lo ≤ a) (hb : b ≤ hi) : Mem.Fresh m a b :=
  fun e he => by
    have := h e he
    omega

theorem fresh_zeroRange (m : Mem) (a n : Nat) : Mem.Fresh (zeroRange m a n) a (a + n) := by
  intro e he hin
  have h := (List.mem_filter.mp he).2
  simp [hin.1, hin.2] at h

theorem changedIn_zeroRange (m : Mem) (a n : Nat) : Mem.ChangedIn m (zeroRange m a n) a (a + n) :=
  ⟨fun _ hx => memByte_zeroRange_out m hx, fun _ he => .inl (List.mem_filter.mp he).1⟩

theorem changedIn_memPut (m : Mem) (a : Nat) (b : Byte) : Mem.ChangedIn m (memPut m a b) a (a + 1) :=
  ⟨fun x hx => memByte_memPut_other m b (by omega), fun e he => (mem_memPut he).imp_right fun h => by omega⟩

theorem changedIn_writeBytes (m : Mem) (a : Nat) (bs : List Byte) : Mem.ChangedIn m (writeBytes m a bs) a (a + bs.length) := by
  induction bs generalizing m a with
  | nil => exact .refl m _ _
  | cons b bs ih =>
    rw [List.length_cons]
    exact ((changedIn_memPut m a b).mono (le_refl a) (by omega)).trans ((ih _ _).mono (by omega) (by omega))

/-- Bytes written where the memory has no entry read back. -/
theorem readBytes_writeBytes_fresh {m : Mem} {a : Nat} {bs : List Byte} (h : Mem.Fresh m a (a + bs.length)) :
    readBytes (writeBytes m a bs) a bs.length = bs := by
  induction bs generalizing m a with
  | nil => rfl
  | cons b bs ih =>
    rw [List.length_cons] at h
    have hput := changedIn_memPut m a b
    have hrest := ih (m := memPut m a b) (a := a + 1) (hput.fresh (h.mono (by omega) (by omega)) (.inr (le_refl _)))
    have hfirst : memByte (writeBytes (memPut m a b) (a + 1) bs) a = b := by
      rw [(changedIn_writeBytes _ _ bs).bytes a (.inl (by omega)),
        memByte_memPut_absent b fun e he hea => h e he (by omega)]
    have hsplit (m : Mem) (a n : Nat) : readBytes m a (n + 1) = memByte m a :: readBytes m (a + 1) n := by
      rw [readBytes, List.range_succ_eq_map, List.map_cons, List.map_map, readBytes]
      congr 1
      refine List.map_congr_left fun i _ => ?_
      exact congrArg (memByte m) (by simp only [Nat.succ_eq_add_one]; omega)
    rw [List.length_cons, hsplit, writeBytes, hfirst, hrest]

/-! ### Numbers -/

theorem changedIn_putN (m : Mem) (a n v : Nat) : Mem.ChangedIn m (putN m a n v) a (a + n) := by
  have h := changedIn_writeBytes m a (leBytes n v)
  rwa [length_leBytes] at h

theorem readNat_putN_fresh {m : Mem} {a n v : Nat} (h : Mem.Fresh m a (a + n)) :
    readNat (putN m a n v) a n = v % 256 ^ n := by
  have hbytes := readBytes_writeBytes_fresh (m := m) (a := a) (bs := leBytes n v) (by rwa [length_leBytes])
  rw [length_leBytes] at hbytes
  rw [readNat, putN, hbytes, leNat_leBytes]

theorem leNat_cons_div_mod (b : Byte) (bs : List Byte) : leNat (b :: bs) % 256 = b.toNat ∧ leNat (b :: bs) / 256 = leNat bs := by
  have hb := b.isLt
  rw [leNat]
  omega

theorem leNat_mod (bs : List Byte) (n : Nat) : leNat bs % 256 ^ n = leNat (bs.take n) := by
  induction bs generalizing n with
  | nil => simp [leNat]
  | cons b bs ih =>
    cases n with
    | zero => simp [leNat, Nat.mod_one]
    | succ n =>
      obtain ⟨hmod, hdiv⟩ := leNat_cons_div_mod b bs
      rw [Nat.pow_succ', Nat.mod_mul, hmod, hdiv, ih, List.take_succ_cons, leNat]

theorem leNat_div (bs : List Byte) (k : Nat) : leNat bs / 256 ^ k = leNat (bs.drop k) := by
  induction bs generalizing k with
  | nil => simp [leNat]
  | cons b bs ih =>
    cases k with
    | zero => simp
    | succ k => rw [Nat.pow_succ', ← Nat.div_div_eq_div_mul, (leNat_cons_div_mod b bs).2, ih, List.drop_succ_cons]

/-- A number inside a longer one. -/
theorem readNat_slice (m : Mem) (a : Nat) {k n N : Nat} (h : k + n ≤ N) :
    readNat m (a + k) n = readNat m a N / 256 ^ k % 256 ^ n := by
  rw [readNat, readNat, leNat_div, leNat_mod]
  congr 1
  refine List.ext_getElem (by simp; omega) fun i h1 h2 => ?_
  simp [readBytes, Nat.add_assoc]

/-! ### Writes one after the other -/

/-- Numbers written at offsets from a base, each with its length, one after the other. -/
def putWrites (m : Mem) (base : Nat) (ws : List (Nat × Nat × Nat)) : Mem :=
  ws.foldl (fun m w => putN m (base + w.1) w.2.1 w.2.2) m

theorem putWrites_nil (m : Mem) (base : Nat) : putWrites m base [] = m := by
  rw [putWrites, List.foldl_nil]

theorem putWrites_cons (m : Mem) (base off n v : Nat) (ws : List (Nat × Nat × Nat)) :
    putWrites m base ((off, n, v) :: ws) = putWrites (putN m (base + off) n v) base ws := by
  rw [putWrites, List.foldl_cons, putWrites]

theorem putWrites_append (m : Mem) (base : Nat) (ws vs : List (Nat × Nat × Nat)) :
    putWrites m base (ws ++ vs) = putWrites (putWrites m base ws) base vs := List.foldl_append

/-- Writes in rising order that do not overlap, from an offset on and up to another. -/
def Rising (lo hi : Nat) : List (Nat × Nat × Nat) → Prop
  | [] => lo ≤ hi
  | w :: ws => lo ≤ w.1 ∧ Rising (w.1 + w.2.1) hi ws

theorem Rising.le {lo hi : Nat} {ws : List (Nat × Nat × Nat)} (h : Rising lo hi ws) : lo ≤ hi := by
  induction ws generalizing lo with
  | nil => exact h
  | cons w ws ih =>
    have := ih h.2
    have := h.1
    omega

theorem changedIn_putWrites {m : Mem} {base lo hi : Nat} {ws : List (Nat × Nat × Nat)} (h : Rising lo hi ws) :
    Mem.ChangedIn m (putWrites m base ws) (base + lo) (base + hi) := by
  induction ws generalizing m lo with
  | nil => exact .refl m _ _
  | cons w ws ih =>
    obtain ⟨hlo, hrest⟩ := h
    have hle := hrest.le
    exact ((changedIn_putN m (base + w.1) w.2.1 w.2.2).mono (by omega) (by omega)).trans
      ((ih hrest).mono (by omega) (le_refl _))

/-- Each of the writes reads back. -/
theorem readNat_putWrites {m : Mem} {base lo hi : Nat} {ws : List (Nat × Nat × Nat)} (h : Rising lo hi ws)
    (hfresh : Mem.Fresh m (base + lo) (base + hi)) {w : Nat × Nat × Nat} (hw : w ∈ ws) :
    readNat (putWrites m base ws) (base + w.1) w.2.1 = w.2.2 % 256 ^ w.2.1 := by
  induction ws generalizing m lo with
  | nil => exact absurd hw (by simp)
  | cons x ws ih =>
    obtain ⟨hlo, hrest⟩ := h
    have hle := hrest.le
    have hput := changedIn_putN m (base + x.1) x.2.1 x.2.2
    rcases List.mem_cons.mp hw with rfl | hw
    · have hafter := changedIn_putWrites (m := putN m (base + w.1) w.2.1 w.2.2) (base := base) hrest
      exact (hafter.readNat_eq (.inl (by omega))).trans
        (readNat_putN_fresh (hfresh.mono (by omega) (by omega)))
    · exact ih hrest (hput.fresh (hfresh.mono (by omega) (le_refl _)) (.inr (by omega))) hw

/-! ### The frame of a trap (R212) -/

/-- R212: the head of a frame: the registers, the predicates, the loop buffer, the scalar latches and the masks. -/
def Core.frameHead (c : Core) (b : Bank) (epc cause : Word) (n : Nat) : List (Nat × Nat × Nat) :=
  [(0, 8, epc.toNat), (0x08, 8, cause.toNat), (0x10, 8, b.status.word.toNat), (0x18, 8, b.loop.word.toNat),
    (0x20, 8, b.rotWord.toNat), (0x28, 8, b.predBits), (0x30, 8, b.loopBuf.first.toNat),
    (0x38, 8, b.loopBuf.count % 128 + if b.loopBuf.valid then 128 else 0),
    (0x40, 16, packLanes 4 (b.latchList.map fun l => l.tag.toNat)), (0x50, 8, b.validBits), (0x58, 8, n % 128),
    (0x60, 32, packLanes 64 (b.latS.toList.map fun l => l.val.toNat)), (0x80, 8, c.driftBits)] ++
  (List.range 7).map fun i => (0x100 + 256 * i, 256, (b.mask (BitVec.ofNat 3 (i + 1))).toNat)

/-- The offsets of the head rise, and end where the latches begin. -/
theorem rising_frameHead (c : Core) (b : Bank) (epc cause : Word) (n : Nat) : Rising 0 0x800 (c.frameHead b epc cause n) := by
  simp [Core.frameHead, Rising, List.range_succ]

theorem changedIn_putVecs (m : Mem) (a : Nat) (vs : List VBits) : Mem.ChangedIn m (putVecs m a vs) a (a + 256 * vs.length) := by
  induction vs generalizing m a with
  | nil => exact .refl m _ _
  | cons v vs ih =>
    rw [List.length_cons]
    exact ((changedIn_putN m a 256 v.toNat).mono (le_refl _) (by omega)).trans
      ((ih (putN m a 256 v.toNat) (a + 256)).mono (by omega) (by omega))

theorem length_latchList (b : Bank) : b.latchList.length = 18 := by simp [Bank.latchList]

/-- R212: a frame is its head, its vector latches and held values, and the Rime entries. -/
theorem putFrame_eq (c : Core) (b : Bank) (base : Nat) (epc cause : Word) (rs : List Rime) :
    c.putFrame b base epc cause rs false = putRimes
      (putVecs (putVecs (putVecs (putWrites (zeroRange c.store base 0x6000) base (c.frameHead b epc cause rs.length))
        (base + 0x800) ((b.latchList.take 8).map (·.bits)))
        (base + 0x1000) (((b.latchList.drop 8).take 4).map (·.bits)))
        (base + 0x1400) ((b.latchList.drop 12).map (·.bits))) base 0 0 rs := by
  obtain ⟨z, hz⟩ : ∃ z, z = zeroRange c.store base 0x6000 := ⟨_, rfl⟩
  have hmasks (m : Mem) : (List.range 7).foldl (fun m i => putN m (base + 0x100 + 256 * i) 256
      (b.mask (BitVec.ofNat 3 (i + 1))).toNat) m =
      putWrites m base ((List.range 7).map fun i => (0x100 + 256 * i, 256, (b.mask (BitVec.ofNat 3 (i + 1))).toNat)) := by
    rw [putWrites, List.foldl_map]
    congr 1
    funext m i
    rw [Nat.add_assoc]
  unfold Core.putFrame
  dsimp only
  rw [← hz, hmasks, if_neg Bool.false_ne_true]
  unfold Core.frameHead
  simp only [putWrites_append, putWrites_cons, putWrites_nil, Nat.add_zero]

/-- The latches and held values lie between the head and the Rime entries. -/
theorem changedIn_latches (m : Mem) (b : Bank) (base : Nat) :
    Mem.ChangedIn m (putVecs (putVecs (putVecs m (base + 0x800) ((b.latchList.take 8).map (·.bits)))
      (base + 0x1000) (((b.latchList.drop 8).take 4).map (·.bits)))
      (base + 0x1400) ((b.latchList.drop 12).map (·.bits))) (base + 0x800) (base + 0x1A00) := by
  have hlen := length_latchList b
  refine ((Mem.ChangedIn.mono (changedIn_putVecs _ _ _) ?_ ?_).trans
    (Mem.ChangedIn.mono (changedIn_putVecs _ _ _) ?_ ?_)).trans (Mem.ChangedIn.mono (changedIn_putVecs _ _ _) ?_ ?_) <;>
    simp [hlen]

/-! ### The Rime entries of a frame (R213) -/

/-- R211: how many entries have a value slot. -/
def slotCount (rs : List Rime) : Nat := (rs.filter fun r => rimeSlotted r.cls).length

/-- R212, R213: an entry with a value slot. -/
theorem putRimes_slotted (m : Mem) (base i slot : Nat) {r : Rime} (rs : List Rime) (h : rimeSlotted r.cls = true) :
    putRimes m base i slot (r :: rs) = putRimes (putN (putN m (base + 0x2200 + 16 * i) 16 (r.desc slot))
      (base + 0x2600 + 256 * slot) 256 r.bits.toNat) base (i + 1) (slot + 1) rs := by
  rw [putRimes, h]
  rfl

/-- R212, R213: an entry whose value is in its descriptor. -/
theorem putRimes_plain (m : Mem) (base i slot : Nat) {r : Rime} (rs : List Rime) (h : rimeSlotted r.cls = false) :
    putRimes m base i slot (r :: rs) = putRimes (putN m (base + 0x2200 + 16 * i) 16 (r.desc 0)) base (i + 1) slot rs := by
  rw [putRimes, h]
  rfl

/-- R212: the entries are written behind their first descriptor, and end with the last value slot. -/
theorem changedIn_putRimes {m : Mem} {base i slot : Nat} {rs : List Rime} (hi : i + rs.length ≤ 64)
    (hslot : slot + slotCount rs ≤ 56) :
    Mem.ChangedIn m (putRimes m base i slot rs) (base + 0x2200 + 16 * i) (base + 0x6000) := by
  induction rs generalizing m i slot with
  | nil => exact .refl m _ _
  | cons r rs ih =>
    rw [List.length_cons] at hi
    have hdesc (v : Nat) := (changedIn_putN m (base + 0x2200 + 16 * i) 16 v).mono (hi' := base + 0x6000) (le_refl _) (by omega)
    cases hs : rimeSlotted r.cls with
    | true =>
      have hcount : slotCount (r :: rs) = slotCount rs + 1 := by simp [slotCount, hs]
      have hval (m : Mem) (v : Nat) := (changedIn_putN m (base + 0x2600 + 256 * slot) 256 v).mono
        (lo' := base + 0x2200 + 16 * i) (hi' := base + 0x6000) (by omega) (by omega)
      rw [putRimes_slotted m base i slot rs hs]
      exact ((hdesc _).trans (hval _ _)).trans ((ih (by omega) (by omega)).mono (by omega) (le_refl _))
    | false =>
      have hcount : slotCount (r :: rs) = slotCount rs := by simp [slotCount, hs]
      rw [putRimes_plain m base i slot rs hs]
      exact (hdesc _).trans ((ih (by omega) (by omega)).mono (by omega) (le_refl _))

/-- R213: each entry's descriptor reads back. -/
theorem readNat_putRimes {m : Mem} {base i slot : Nat} {rs : List Rime} (hi : i + rs.length ≤ 64)
    (hslot : slot + slotCount rs ≤ 56) (hfresh : Mem.Fresh m (base + 0x2200 + 16 * i) (base + 0x2600)) {j : Nat} {r : Rime}
    (hj : rs[j]? = some r) :
    ∃ k, (rimeSlotted r.cls = false → k = 0) ∧
      readNat (putRimes m base i slot rs) (base + 0x2200 + 16 * (i + j)) 16 = r.desc k % 256 ^ 16 := by
  induction rs generalizing m i slot j with
  | nil => exact absurd hj (by simp)
  | cons x rs ih =>
    rw [List.length_cons] at hi
    have hdesc (v : Nat) := changedIn_putN m (base + 0x2200 + 16 * i) 16 v
    have hstep : ∃ m' slot', putRimes m base i slot (x :: rs) = putRimes m' base (i + 1) slot' rs ∧
        slot' + slotCount rs ≤ 56 ∧ Mem.Fresh m' (base + 0x2200 + 16 * (i + 1)) (base + 0x2600) ∧
        readNat m' (base + 0x2200 + 16 * i) 16 = x.desc (if rimeSlotted x.cls then slot else 0) % 256 ^ 16 := by
      have hread (v : Nat) := readNat_putN_fresh (v := v) (n := 16) (hfresh.mono (le_refl _) (by omega))
      have hrest (v : Nat) := (hdesc v).fresh (hfresh.mono (by omega) (le_refl _) (a := base + 0x2200 + 16 * (i + 1)))
        (.inr (by omega))
      cases hs : rimeSlotted x.cls with
      | true =>
        have hcount : slotCount (x :: rs) = slotCount rs + 1 := by simp [slotCount, hs]
        have hval (m : Mem) (v : Nat) := changedIn_putN m (base + 0x2600 + 256 * slot) 256 v
        exact ⟨_, slot + 1, putRimes_slotted m base i slot rs hs, by omega, (hval _ _).fresh (hrest _) (.inl (by omega)),
          ((hval _ _).readNat_eq (.inl (by omega))).trans (hread _)⟩
      | false =>
        have hcount : slotCount (x :: rs) = slotCount rs := by simp [slotCount, hs]
        exact ⟨_, slot, putRimes_plain m base i slot rs hs, by omega, hrest _, hread _⟩
    obtain ⟨m', slot', heq, hslot', hfresh', hread⟩ := hstep
    rw [heq]
    cases j with
    | zero =>
      obtain rfl := Option.some.inj hj
      refine ⟨if rimeSlotted x.cls then slot else 0, fun hs => if_neg (by rw [hs]; exact Bool.false_ne_true), ?_⟩
      exact ((changedIn_putRimes (by omega) hslot').readNat_eq (.inl (by omega))).trans hread
    | succ j =>
      have hshift : i + (j + 1) = i + 1 + j := by omega
      rw [hshift]
      exact ih (by omega) hslot' hfresh' hj

end Sys2Proof.Machine
end

section
/-! PROOFS. The Rime entries that a freeze captures. -/

namespace Sys2Proof.Machine

/-! ### A freeze keeps the results that Rime entries hold (R209, R210) -/

theorem filter_insertPend {p : Pend → Bool} {e : Pend} (he : p e = false) (ps : List Pend) :
    (insertPend e ps).filter p = ps.filter p := by
  induction ps with
  | nil => simp [insertPend, he]
  | cons x xs ih =>
    unfold insertPend
    split
    · rw [List.filter_cons, List.filter_cons, ih]
    · rw [List.filter_cons, if_neg (by rw [he]; exact Bool.false_ne_true)]

theorem filter_foldl_insertPend {p : Pend → Bool} (es ps : List Pend) (h : ∀ e ∈ es, p e = false) :
    (es.foldl (fun ps e => insertPend e ps) ps).filter p = ps.filter p := by
  induction es generalizing ps with
  | nil => rfl
  | cons e es ih =>
    rw [List.foldl_cons, ih _ fun x hx => h x (List.mem_cons_of_mem e hx), filter_insertPend (h e List.mem_cons_self)]

/-- The results in flight that a Rime entry holds. -/
def Bank.rimePends (b : Bank) : List Pend := b.pend.filter fun e => e.eff.inRime

/-- R82, R86, R78: what the matrix engine puts in flight, no Rime entry holds. -/
theorem streamTick_notInRime {b : Bank} {m : Mem} {st : Stream} {e : Pend} (he : e ∈ (streamTick b m st).2) :
    e.eff.inRime = false := by
  unfold streamTick at he
  dsimp only at he
  split at he
  · exact absurd he (by simp)
  · rw [List.mem_singleton.mp he]
    rfl

theorem epiTick_notInRime {b : Bank} {x : Epi} {e : Pend} (he : e ∈ epiTick b x) : e.eff.inRime = false := by
  unfold epiTick at he
  dsimp only at he
  split at he
  · exact absurd he (by simp)
  · rw [List.mem_singleton.mp he]
    rfl

theorem State.matrixTickWith_rimePends (s : State) :
    (s.matrixTickWith false).core.bank.rimePends = s.core.bank.rimePends := by
  unfold State.matrixTickWith Bank.rimePends
  dsimp only
  rw [State.setBank_core]
  refine filter_foldl_insertPend _ _ fun e he => ?_
  rw [if_neg Bool.false_ne_true, List.append_nil] at he
  rcases List.mem_append.mp he with he | he
  · rcases List.mem_append.mp he with he | he
    · obtain ⟨y, hy, hey⟩ := List.mem_flatMap.mp he
      obtain ⟨st, -, rfl⟩ := List.mem_map.mp hy
      exact streamTick_notInRime hey
    · obtain ⟨x, -, hex⟩ := List.mem_flatMap.mp he
      exact epiTick_notInRime hex
  · split at he
    · split at he
      · rw [List.mem_singleton.mp he]
        rfl
      · exact absurd he (by simp)
    · exact absurd he (by simp)

/-- R210: a tile result that lands in the copy leaves what is in flight. -/
theorem State.landOne_onTile_pend {s : State} {e : Pend} (h : e.eff.onTile = true) :
    (s.landOne e).core.bank.pend = s.core.bank.pend := by
  obtain ⟨due, seq, eff, unit, flags, pub⟩ := e
  cases eff with
  | tileZero a tag => rfl
  | accRow a r cols v tag => rfl
  | seg a r sg bits => rfl
  | _ => exact absurd h (by simp [Eff.onTile])

theorem State.readAhead_rimePends (n : Nat) (s : State) : (s.readAhead n).core.bank.rimePends = s.core.bank.rimePends := by
  induction n generalizing s with
  | zero => rfl
  | succ n ih =>
    have hland (es : List Pend) (u : State) (hes : ∀ e ∈ es, e.eff.onTile = true) :
        (es.foldl State.landOne u).core.bank.pend = u.core.bank.pend := by
      induction es generalizing u with
      | nil => rfl
      | cons e es ihes =>
        rw [List.foldl_cons, ihes _ fun x hx => hes x (List.mem_cons_of_mem e hx),
          State.landOne_onTile_pend (hes e List.mem_cons_self)]
    unfold State.readAhead
    dsimp only
    split
    · rfl
    · rw [ih, Bank.rimePends, hland _ _ fun e he => ?_]
      · exact s.matrixTickWith_rimePends
      · exact (Bool.and_eq_true_iff.mp (List.mem_filter.mp he).2).2

/-- R209, R210: a freeze keeps the results that Rime entries hold. -/
theorem State.freezeMatrix_rimePends (s : State) : s.freezeMatrix.core.bank.rimePends = s.core.bank.rimePends :=
  s.readAhead_rimePends 1000

/-! ### The order in which results land -/

theorem insertDue_perm (e : Pend) (ps : List Pend) : (insertDue e ps).Perm (e :: ps) := by
  induction ps with
  | nil => exact .refl _
  | cons x xs ih =>
    unfold insertDue
    split
    · exact (ih.cons x).trans (.swap e x xs)
    · exact .refl _

theorem byDue_perm (ps : List Pend) : (byDue ps).Perm ps := by
  have h (qs : List Pend) : (ps.foldl (fun xs e => insertDue e xs) qs).Perm (ps ++ qs) := by
    induction ps generalizing qs with
    | nil => exact .refl _
    | cons e ps ih =>
      rw [List.foldl_cons, List.cons_append]
      exact (ih _).trans (((insertDue_perm e qs).append_left ps).trans List.perm_middle)
  have h0 := h []
  rwa [List.append_nil] at h0

/-! ### The entries (R209, R211, R213) -/

theorem length_rimeList (s : State) (f : Nat) (es : List Pend) : (s.rimeList f es).length = es.length := by
  induction es generalizing s with
  | nil => rfl
  | cons e es ih => rw [State.rimeList, List.length_cons, List.length_cons, ih]

/-- R211, R213: an entry has a value slot exactly when it holds a vector or a mask. -/
theorem rimeSlotted_rimeOf (b : Bank) (f : Nat) (e : Pend) : rimeSlotted (rimeOf b f e).cls = e.eff.inSlot := by
  obtain ⟨due, seq, eff, unit, flags, pub⟩ := e
  cases eff <;> rfl

theorem slotCount_rimeList (s : State) (f : Nat) (es : List Pend) :
    slotCount (s.rimeList f es) = (es.filter fun e => e.eff.inSlot).length := by
  induction es generalizing s with
  | nil => rfl
  | cons e es ih =>
    have hih := ih (s.landOne e)
    unfold slotCount at hih ⊢
    rw [State.rimeList, List.filter_cons, List.filter_cons, rimeSlotted_rimeOf]
    split
    · rw [List.length_cons, List.length_cons, hih]
    · exact hih

/-- R209: the entry of a scalar result that lands in the scalar latch. -/
def scalarRime (f : Nat) (e : Pend) (n : Nat) (x : Word) : Rime :=
  { dest := n, cls := 0, bar := false, faulted := false, cb := 0, remain := e.due - f, tag := 0, unit := 2,
    flags := e.flags.toNat, val := x, bits := 0 }

theorem rimeOf_scalar (b : Bank) (f : Nat) {e : Pend} {n : Nat} {x : Word} (h : e.eff = .s n x) :
    rimeOf b f e = scalarRime f e n x := by
  rw [rimeOf, h]
  rfl

theorem rimeList_scalar {s : State} {f : Nat} {es : List Pend} {e : Pend} {n : Nat} {x : Word} (he : e ∈ es)
    (h : e.eff = .s n x) : scalarRime f e n x ∈ s.rimeList f es := by
  induction es generalizing s with
  | nil => exact absurd he (by simp)
  | cons y es ih =>
    rw [State.rimeList]
    rcases List.mem_cons.mp he with rfl | he
    · rw [rimeOf_scalar _ _ h]
      exact List.mem_cons_self
    · exact List.mem_cons_of_mem _ (ih he)

/-- R213: a scalar entry's descriptor is read back field by field. -/
theorem rimeRead_scalar {m : Mem} {base i f n : Nat} {e : Pend} {x : Word} (hn : n < 64) (hrem : e.due - f < 64)
    (hread : readNat m (base + 0x2200 + 16 * i) 16 = (scalarRime f e n x).desc 0 % 256 ^ 16) :
    (rimeRead m base i).1.cls = 0 ∧ (rimeRead m base i).1.dest = n ∧ (rimeRead m base i).1.bar = false ∧
      (rimeRead m base i).1.remain = e.due - f ∧ (rimeRead m base i).1.unit = 2 ∧ (rimeRead m base i).1.val = x := by
  have hx := x.isLt
  have hflags := e.flags.isLt
  have hd : (scalarRime f e n x).desc 0 = n + (e.due - f) * 2 ^ 17 + 2 * 2 ^ 27 + e.flags.toNat * 2 ^ 36 + x.toNat * 2 ^ 64 := by
    simp only [Rime.desc, scalarRime, Bool.false_eq_true, if_false]
    omega
  rw [hd] at hread
  unfold rimeRead
  dsimp only
  rw [hread]
  refine ⟨?_, ?_, ?_, ?_, ?_, ?_⟩
  · simp only [bitsAt]; omega
  · simp only [bitsAt]; omega
  · rw [Nat.testBit_eq_decide_div_mod_eq]
    exact decide_eq_false (by omega)
  · simp only [bitsAt]; omega
  · simp only [bitsAt]; omega
  · refine BitVec.eq_of_toNat_eq ?_
    rw [BitVec.toNat_ofNat]
    omega

end Sys2Proof.Machine
end

section
/-! PROOFS. What a trap's frame holds, and the trap entry. -/

namespace Sys2Proof.Machine

/-! ### Reading a frame (R212) -/

theorem foldl_bits_lt (f : Nat → Bool) (n : Nat) :
    (List.range n).foldl (fun x i => x + if f i then 2 ^ i else 0) 0 < 2 ^ n := by
  induction n with
  | zero => simp
  | succ n ih =>
    rw [List.range_succ, List.foldl_append, List.foldl_cons, List.foldl_nil, Nat.pow_succ]
    split <;> omega

/-- Tests packed one a bit read back by their bit. -/
theorem testBit_foldl_bits (f : Nat → Bool) {n i : Nat} (hi : i < n) :
    ((List.range n).foldl (fun x i => x + if f i then 2 ^ i else 0) 0).testBit i = f i := by
  induction n with
  | zero => exact absurd hi (by omega)
  | succ n ih =>
    have hlt := foldl_bits_lt f n
    have hmul : (if f n then 2 ^ n else 0) = 2 ^ n * (f n).toNat := by cases f n <;> simp
    rw [List.range_succ, List.foldl_append, List.foldl_cons, List.foldl_nil, hmul, Nat.add_comm,
      Nat.testBit_two_pow_mul_add _ hlt]
    split
    · exact ih ‹_›
    · obtain rfl : i = n := by omega
      rw [Nat.sub_self]
      cases f i <;> rfl

theorem pow_256 (n : Nat) : 256 ^ n = 2 ^ (8 * n) := (Nat.pow_mul 2 8 n).symm

/-- One of four words packed in 32 bytes. -/
theorem word_of_bytes (x : Nat) {i : Nat} (hi : i < 4) : x % 256 ^ 32 / 256 ^ (8 * i) % 256 ^ 8 = x / 2 ^ (64 * i) % 2 ^ 64 := by
  have hcut : 2 ^ (8 * 32) = 2 ^ (8 * (8 * i)) * 2 ^ (64 * (4 - i)) := by
    rw [← Nat.pow_add]
    congr 1
    omega
  have hdvd : 2 ^ (8 * 8) ∣ 2 ^ (64 * (4 - i)) := Nat.pow_dvd_pow 2 (by omega)
  have hshift : 8 * (8 * i) = 64 * i := by omega
  rw [pow_256, pow_256, pow_256, hcut, Nat.mod_mul_right_div_self, Nat.mod_mod_of_dvd _ hdvd, hshift]

section
variable {c : Core} {b : Bank} {base : Nat} {epc cause : Word} {rs : List Rime} (hlen : rs.length ≤ 64)
  (hslots : slotCount rs ≤ 56)
include hlen hslots

/-- R212: a trap writes its frame alone. -/
theorem Core.changedIn_putFrame :
    Mem.ChangedIn c.store (c.putFrame b base epc cause rs false) base (base + 0x6000) := by
  rw [putFrame_eq]
  have hhead (m : Mem) := changedIn_putWrites (m := m) (base := base) (rising_frameHead c b epc cause rs.length)
  exact (((changedIn_zeroRange c.store base 0x6000).trans ((hhead _).mono (by omega) (by omega))).trans
    ((changedIn_latches _ b base).mono (by omega) (by omega))).trans
      ((changedIn_putRimes (by omega) (by omega)).mono (by omega) (le_refl _))

/-- R212: each number of the frame's head reads back. -/
theorem Core.readNat_putFrame_head {off n x : Nat} (hw : (off, n, x) ∈ c.frameHead b epc cause rs.length)
    (hoff : off + n ≤ 0x800) :
    readNat (c.putFrame b base epc cause rs false) (base + off) n = x % 256 ^ n := by
  rw [putFrame_eq, (changedIn_putRimes (by omega) (by omega)).readNat_eq (.inl (by omega)),
    (changedIn_latches _ b base).readNat_eq (.inl (by omega))]
  exact readNat_putWrites (rising_frameHead c b epc cause rs.length)
    ((fresh_zeroRange c.store base 0x6000).mono (by omega) (by omega)) hw

/-- R212, R213: an entry of a scalar result reads back from the frame. -/
theorem Core.rimeRead_putFrame_scalar {f n : Nat} {e : Pend} {x : Word} (he : scalarRime f e n x ∈ rs) (hn : n < 64)
    (hrem : e.due - f < 64) :
    ∃ i < rs.length, let r := (rimeRead (c.putFrame b base epc cause rs false) base i).1
      r.cls = 0 ∧ r.dest = n ∧ r.bar = false ∧ r.remain = e.due - f ∧ r.unit = 2 ∧ r.val = x := by
  obtain ⟨i, hi⟩ := List.getElem?_of_mem he
  have hilt := (List.getElem?_eq_some_iff.mp hi).1
  refine ⟨i, hilt, ?_⟩
  have hfresh : Mem.Fresh (putVecs (putVecs (putVecs (putWrites (zeroRange c.store base 0x6000) base
      (c.frameHead b epc cause rs.length)) (base + 0x800) ((b.latchList.take 8).map (·.bits)))
      (base + 0x1000) (((b.latchList.drop 8).take 4).map (·.bits)))
      (base + 0x1400) ((b.latchList.drop 12).map (·.bits))) (base + 0x2200 + 16 * 0) (base + 0x2600) :=
    (changedIn_latches _ b base).fresh ((changedIn_putWrites (rising_frameHead c b epc cause rs.length)).fresh
      ((fresh_zeroRange c.store base 0x6000).mono (by omega) (by omega)) (.inr (by omega))) (.inr (by omega))
  obtain ⟨k, hk, hread⟩ := readNat_putRimes (slot := 0) (by omega) (by omega) hfresh hi
  rw [hk rfl, Nat.zero_add, ← putFrame_eq] at hread
  exact rimeRead_scalar hn hrem hread

/-- R212: a word of the head reads back whole. -/
theorem Core.readNat_putFrame_word {off : Nat} {x : Word} (hw : (off, 8, x.toNat) ∈ c.frameHead b epc cause rs.length)
    (hoff : off ≤ 0x100) : readNat (c.putFrame b base epc cause rs false) (base + off) 8 = x.toNat := by
  rw [Core.readNat_putFrame_head hlen hslots hw (by omega)]
  exact Nat.mod_eq_of_lt x.isLt

/-- R212: the scalar latches stand one after the other. -/
theorem Core.readNat_putFrame_latS (i : Fin 4) :
    readNat (c.putFrame b base epc cause rs false) (base + 0x60 + 8 * i) 8 = b.latS[i].val.toNat := by
  have hi := i.isLt
  have hall := Core.readNat_putFrame_head (base := base) (b := b) (c := c) (epc := epc) (cause := cause) hlen hslots
    (off := 0x60) (n := 32) (x := packLanes 64 (b.latS.toList.map fun l => l.val.toNat)) (by simp [Core.frameHead])
    (by omega)
  rw [readNat_slice _ _ (N := 32) (by omega), hall]
  have hlane := packLanes_lane 64 (b.latS.toList.map fun l => l.val.toNat) i
  have hget : (b.latS.toList.map fun l => l.val.toNat).getD i 0 = b.latS[i].val.toNat := by simp [List.getD]
  have hval := b.latS[i].val.isLt
  rw [hget, Nat.mod_eq_of_lt hval] at hlane
  rw [← hlane]
  exact word_of_bytes _ hi

theorem Core.testBit_putFrame_preds {i : Nat} (hi : i < 16) :
    (readNat (c.putFrame b base epc cause rs false) (base + 0x28) 8).testBit i = b.pred (BitVec.ofNat 4 i) := by
  rw [Core.readNat_putFrame_head hlen hslots (x := b.predBits) (by simp [Core.frameHead]) (by omega),
    pow_256, Nat.testBit_mod_two_pow, decide_eq_true (by omega : i < 8 * 8), Bool.true_and]
  exact testBit_foldl_bits (fun i => b.pred (BitVec.ofNat 4 i)) hi

theorem Core.readNat_putFrame_mask {i : Nat} (h1 : 1 ≤ i) (h8 : i < 8) :
    readNat (c.putFrame b base epc cause rs false) (base + 256 * i) 256 = (b.mask (BitVec.ofNat 3 i)).toNat := by
  obtain ⟨j, rfl⟩ : ∃ j, i = j + 1 := ⟨i - 1, by omega⟩
  have hmem : (0x100 + 256 * j, 256, (b.mask (BitVec.ofNat 3 (j + 1))).toNat) ∈ c.frameHead b epc cause rs.length :=
    List.mem_append_right _ (List.mem_map.mpr ⟨j, List.mem_range.mpr (by omega), rfl⟩)
  have hread := Core.readNat_putFrame_head (base := base) hlen hslots hmem (by omega)
  rw [show base + 256 * (j + 1) = base + (0x100 + 256 * j) by omega, hread, pow_256, show 8 * 256 = 2048 from rfl]
  exact BitVec.toNat_mod_cancel _
end

/-! ### The capture (R208 to R212) -/

/-- R210: the bank that a frame is written of: the matrix engine's reads are done, and a boundary that is due is taken. -/
def State.framedBank (s : State) : Bank :=
  if s.freezeMatrix.core.bank.atLoop then s.freezeMatrix.core.bank.shiftOn else s.freezeMatrix.core.bank

/-- R10: a bank whose iteration boundary is taken where it is due. -/
def Bank.shifted (b : Bank) : Bank := if b.atLoop then b.shiftOn else b

/-- R209, R211: the entries of a frame: the results in flight, then the results that wait on a barrier. -/
def State.frameRimes (s : State) (f : Nat) : List Rime :=
  s.freezeMatrix.rimeList f (byDue s.framedBank.rimePends) ++
    s.framedBank.barOps.map fun x => rimeBar (s.freezeMatrix.opStuck x.2.op) x

theorem State.capture_frame (s : State) (f : Nat) (epc cause : Word) : s.capture f epc cause false =
    s.freezeMatrix.setCore { s.freezeMatrix.core with
      store := s.freezeMatrix.core.putFrame s.framedBank (128 * s.framedBank.tfbase) epc cause (s.frameRimes f) false
      bank := s.framedBank.park f epc } := by
  unfold State.capture State.frameRimes State.framedBank Bank.rimePends
  rfl

/-- R210: the freeze changes what is in flight and the matrix engine, and nothing else of the bank. -/
theorem State.framedBank_eq (s : State) : ∃ p m, s.framedBank =
    { s.core.bank.shifted with pend := p, streams := [], epis := [], loader := none, mreds := m } := by
  obtain ⟨p, m, hfreeze⟩ := s.freezeMatrix_eq
  refine ⟨p, m, ?_⟩
  unfold State.framedBank Bank.shifted
  rw [hfreeze, State.setBank_core]
  cases h : s.core.bank.atLoop <;> simp [h, Bank.shiftOn]

theorem State.framedBank_rimePends (s : State) : s.framedBank.rimePends = s.core.bank.rimePends := by
  rw [← s.freezeMatrix_rimePends, State.framedBank]
  split
  · rfl
  · rfl

theorem State.framedBank_frameRegs (s : State) : s.core.bank.shifted.FrameRegs s.framedBank := by
  obtain ⟨p, m, heq⟩ := s.framedBank_eq
  rw [heq]
  constructor <;> rfl

theorem Bank.shifted_keeps (b : Bank) : b.shifted.s = b.s ∧ b.shifted.k = b.k ∧ b.shifted.v = b.v ∧ b.shifted.b = b.b ∧
    b.shifted.tvec = b.tvec ∧ b.shifted.tfbase = b.tfbase ∧ b.shifted.status = b.status ∧ b.shifted.latS = b.latS ∧
    b.shifted.cbs = b.cbs := by
  unfold Bank.shifted Bank.shiftOn
  dsimp only
  split
  · exact ⟨rfl, rfl, rfl, rfl, rfl, rfl, rfl, rfl, rfl⟩
  · exact ⟨rfl, rfl, rfl, rfl, rfl, rfl, rfl, rfl, rfl⟩

theorem State.framedBank_tfbase (s : State) : s.framedBank.tfbase = s.core.bank.tfbase := by
  obtain ⟨p, m, heq⟩ := s.framedBank_eq
  obtain ⟨-, -, -, -, -, htf, -⟩ := s.core.bank.shifted_keeps
  rw [heq, ← htf]

theorem State.framedBank_barOps (s : State) : s.framedBank.barOps = s.core.bank.barOps := by
  obtain ⟨p, m, heq⟩ := s.framedBank_eq
  obtain ⟨-, -, -, -, -, -, -, -, hbar⟩ := s.core.bank.shifted_keeps
  have hcbs : s.framedBank.cbs = s.core.bank.cbs := by rw [heq, hbar]
  unfold Bank.barOps Bank.cb
  rw [hcbs]

theorem State.length_frameRimes (s : State) (f : Nat) : (s.frameRimes f).length = s.core.bank.rimeCount.1 := by
  rw [State.frameRimes, List.length_append, length_rimeList, (byDue_perm _).length_eq, List.length_map,
    s.framedBank_rimePends, s.framedBank_barOps, Bank.rimeCount, Bank.rimePends]

theorem State.slotCount_frameRimes (s : State) (f : Nat) : slotCount (s.frameRimes f) = s.core.bank.rimeCount.2 := by
  have hbars : (s.framedBank.barOps.map fun x => rimeBar (s.freezeMatrix.opStuck x.2.op) x).filter
      (fun r => rimeSlotted r.cls) = [] := by
    refine List.filter_eq_nil_iff.mpr fun r hr => ?_
    obtain ⟨x, -, rfl⟩ := List.mem_map.mp hr
    exact Bool.false_ne_true
  have hlist := slotCount_rimeList s.freezeMatrix f (byDue s.framedBank.rimePends)
  rw [slotCount] at hlist
  rw [State.frameRimes, slotCount, List.filter_append, hbars, List.append_nil, hlist,
    ((byDue_perm _).filter _).length_eq, s.framedBank_rimePends, Bank.rimeCount, Bank.rimePends]

/-- R211: where both limits hold, the entries fit the frame. -/
theorem State.frameRimes_fit {s : State} (hfit : s.core.bank.rimeFits = true) (f : Nat) :
    (s.frameRimes f).length ≤ 64 ∧ slotCount (s.frameRimes f) ≤ 56 := by
  rw [s.length_frameRimes, s.slotCount_frameRimes]
  rw [Bank.rimeFits, Bool.and_eq_true, decide_eq_true_eq, decide_eq_true_eq] at hfit
  exact hfit

/-- R209: a scalar result in flight has its entry. -/
theorem State.scalarRime_mem {s : State} (f : Nat) {e : Pend} {n : Nat} {x : Word} (he : e ∈ s.core.bank.pend)
    (heff : e.eff = .s n x) : scalarRime f e n x ∈ s.frameRimes f := by
  refine List.mem_append_left _ (rimeList_scalar ((byDue_perm _).mem_iff.mpr ?_) heff)
  rw [s.framedBank_rimePends]
  exact List.mem_filter.mpr ⟨he, by rw [heff]; rfl⟩

/-! ### The entry (R208, R214) -/

/-- R208, R214: the bank of a handler: EPC, CAUSE, supervisor mode with interrupts off, no loop and no rotation, and the
bundle at TVEC 48 cycles after the freeze. -/
def Bank.entered (b : Bank) (epc cause : Word) : Bank :=
  { b with
    epc := epc, cause := cause, status := { b.status with sup := true, ie := false },
    loop := { b.loop with active := false }, rotSize := 0, rotBase := 0, handler := true, atLoop := false, atIter := false,
    pc := b.tvec, byBranch := true, branch := none, newBranch := none, prevCtl := false, prevBr := false,
    curCtl := false, curBr := false, isMbr := false, mid := false, leaf := none, run := .active, stall := 48 }

/-- R212: the frame of an exception, in the window of the core. -/
def State.framed (s : State) (f : Nat) (epc cause : Word) : Mem :=
  s.freezeMatrix.core.putFrame s.framedBank (128 * s.core.bank.tfbase) epc cause (s.frameRimes f) false

/-- R208: trap entry where the frame is pinned. -/
theorem State.trapEntry_pinned {s : State} (hpin : s.core.bank.framePinned = true) (code tcode f : Nat) (epc : Word) :
    (s.trapEntry code tcode f epc).core.bank =
      (s.framedBank.park f epc).entered epc (causeBits code none false 0 tcode) ∧
    (s.trapEntry code tcode f epc).core.store = s.framed f epc (causeBits code none false 0 tcode) ∧
    (s.trapEntry code tcode f epc).mem = s.mem := by
  unfold State.trapEntry
  dsimp only
  rw [hpin, Bool.not_true, if_neg Bool.false_ne_true, s.capture_frame, s.framedBank_tfbase, State.setBank_core, State.framed]
  have hmem : s.freezeMatrix.mem = s.mem := by
    obtain ⟨p, m, hfreeze⟩ := s.freezeMatrix_eq
    rw [hfreeze]
    rfl
  rw [← hmem]
  obtain ⟨d, hd⟩ : ∃ d, d = s.framedBank := ⟨_, rfl⟩
  obtain ⟨u, hu⟩ : ∃ u, u = s.freezeMatrix := ⟨_, rfl⟩
  rw [← hd, ← hu]
  exact ⟨rfl, rfl, rfl⟩

/-- R212: trap entry where the frame is not pinned. -/
theorem State.trapEntry_unpinned {s : State} (hpin : s.core.bank.framePinned = false) (code tcode f : Nat) (epc : Word) :
    let t := s.trapEntry code tcode f epc
    t.core.bank.run = .stopped ∧ t.core.bank.cause.toNat % 256 = 0x06 ∧ t.core.bank.cause.getLsbD 12 = true ∧
      t.core.store = s.core.store := by
  unfold State.trapEntry
  dsimp only
  rw [hpin, Bool.not_false, if_pos rfl, State.takeFault_core, State.setBank_core]
  dsimp only
  rw [Bool.true_or]
  have hcause := causeBits_nested (code := 0x06) (by omega) true
  rw [Bool.or_true] at hcause
  exact ⟨rfl, hcause.1, hcause.2, rfl⟩

theorem causeBits_trap (code : Nat) : (causeBits 0x0E none false 0 code).toNat % 256 = 0x0E ∧
    (causeBits 0x0E none false 0 code).toNat / 65536 = code % 65536 := by
  simp [causeBits]
  omega

/-! ### TRAP -/

/-- R215: TRAP of the primary alone. -/
theorem exec_trap {o : XOp} {s : State} (hr : s.primaryRuns o.g) (hgang : s.gang = none) : exec (.trap o) s =
    if s.core.bank.loop.active || s.core.bank.status.guard || s.core.bank.handler || !s.core.bank.rimeFits then s.raise 0x01
    else .next (s.trapAfter o.imm.toNat) := by
  obtain ⟨hagent, hg⟩ := hr
  show execTrap o s = _
  unfold execTrap
  rw [hagent]
  dsimp only
  rw [State.control_alone hgang, if_pos hg]

/-- R212, R213: what the frame of an exception holds. -/
theorem State.framed_reads {s : State} (hfit : s.core.bank.rimeFits = true) (f : Nat) (epc cause : Word) :
    let b := s.core.bank
    let v := b.shifted
    let base := 128 * b.tfbase
    let m := s.framed f epc cause
    (∀ a, a < base ∨ base + 0x6000 ≤ a → memByte m a = memByte s.core.store a) ∧
    (readNat m (base + 0x18) 8 = v.loop.word.toNat ∧ readNat m (base + 0x20) 8 = v.rotWord.toNat ∧
      (∀ i < 16, (readNat m (base + 0x28) 8).testBit i = v.pred (BitVec.ofNat 4 i)) ∧
      (∀ i, 1 ≤ i → i < 8 → readNat m (base + 256 * i) 256 = (b.mask (BitVec.ofNat 3 i)).toNat) ∧
      (∀ i : Fin 4, readNat m (base + 0x60 + 8 * i) 8 = b.latS[i].val.toNat) ∧
      readNat m (base + 0x58) 8 = b.rimeCount.1 ∧
      ∀ e ∈ b.pend, ∀ n x, e.eff = .s n x → n < 64 → e.due ≤ f + 63 →
        ∃ i < b.rimeCount.1, let r := (rimeRead m base i).1
          r.cls = 0 ∧ r.dest = n ∧ r.bar = false ∧ r.remain = e.due - f ∧ r.unit = 2 ∧ r.val = x) ∧
    readNat m base 8 = epc.toNat ∧ readNat m (base + 8) 8 = cause.toNat ∧
    readNat m (base + 16) 8 = b.status.word.toNat := by
  intro b v base m
  obtain ⟨hlen, hslots⟩ := State.frameRimes_fit hfit f
  obtain ⟨-, hk, -, -, -, -, hstatus, hlatS, -⟩ := b.shifted_keeps
  have hregs := s.framedBank_frameRegs
  have hword {off : Nat} {x : Word} (hw : (off, 8, x.toNat) ∈
      s.freezeMatrix.core.frameHead s.framedBank epc cause (s.frameRimes f).length) (hoff : off ≤ 0x100) :
      readNat m (base + off) 8 = x.toNat := Core.readNat_putFrame_word hlen hslots hw hoff
  have hmask (i : BitVec 3) : s.framedBank.mask i = b.mask i := by rw [Bank.mask, Bank.mask, hregs.k, hk]
  have hpred (i : BitVec 4) : s.framedBank.pred i = v.pred i := by rw [Bank.pred, Bank.pred, hregs.p]
  refine ⟨?outside, ⟨?lc, ?rotsz, ?preds, ?masks, ?latches, ?count, ?entries⟩, ?epc, ?cause, ?status⟩
  case outside =>
    intro a ha
    have hstore : s.freezeMatrix.core.store = s.core.store := by
      obtain ⟨p, m, hfreeze⟩ := s.freezeMatrix_eq
      rw [hfreeze]
      rfl
    rw [← hstore]
    exact (Core.changedIn_putFrame hlen hslots).bytes a ha
  case lc =>
    rw [← hregs.loop]
    exact hword (by simp [Core.frameHead]) (by omega)
  case rotsz =>
    have hrot : s.framedBank.rotWord = v.rotWord := by rw [Bank.rotWord, Bank.rotWord, hregs.rotSize, hregs.rotBase]
    rw [← hrot]
    exact hword (by simp [Core.frameHead]) (by omega)
  case preds =>
    intro i hi
    rw [← hpred]
    exact Core.testBit_putFrame_preds hlen hslots hi
  case masks =>
    intro i h1 h8
    rw [← hmask]
    exact Core.readNat_putFrame_mask hlen hslots h1 h8
  case latches =>
    intro i
    rw [← hlatS, ← hregs.latS]
    exact Core.readNat_putFrame_latS hlen hslots i
  case count =>
    have hread : readNat m (base + 0x58) 8 = (s.frameRimes f).length % 128 % 256 ^ 8 :=
      Core.readNat_putFrame_head hlen hslots (by simp [Core.frameHead]) (by omega)
    rw [hread, ← s.length_frameRimes f]
    omega
  case entries =>
    intro e he n x heff hn hdue
    rw [← s.length_frameRimes f]
    exact Core.rimeRead_putFrame_scalar hlen hslots (s.scalarRime_mem f he heff) hn (by omega)
  case epc => exact hword (off := 0) (by simp [Core.frameHead]) (by omega)
  case cause => exact hword (by simp [Core.frameHead]) (by omega)
  case status =>
    rw [← hstatus, ← hregs.status]
    exact hword (by simp [Core.frameHead]) (by omega)

/-- R208, R210, R214: the bank of the handler: its registers stand, and what a Rime entry holds is set aside. -/
theorem State.entered_bank (s : State) (f : Nat) (epc cause : Word) :
    let b := s.core.bank
    let c := (s.framedBank.park f epc).entered epc cause
    c.epc = epc ∧ c.cause = cause ∧ c.status = { b.status with sup := true, ie := false } ∧ c.pc = b.tvec ∧ c.stall = 48 ∧
      c.handler = true ∧ c.run = .active ∧ c.loop.active = false ∧ c.rotSize = 0 ∧ c.rotBase = 0 ∧
      (∀ e ∈ c.pend, e.eff.keepsRunning = true) ∧ c.s = b.s ∧ c.k = b.k ∧ c.v = b.v ∧ c.b = b.b ∧ c.tvec = b.tvec ∧
      c.tfbase = b.tfbase := by
  intro b c
  obtain ⟨hs, hk, hv, hb, htvec, -, hstatus, -, -⟩ := b.shifted_keeps
  have hregs := s.framedBank_frameRegs
  have htf := s.framedBank_tfbase
  rw [← hs, ← hk, ← hv, ← hb, ← htvec, ← hstatus, ← hregs.s, ← hregs.k, ← hregs.v, ← hregs.b, ← hregs.tvec,
    ← hregs.status, ← htf]
  refine ⟨rfl, rfl, rfl, rfl, rfl, rfl, rfl, rfl, rfl, rfl, fun e he => ?_, rfl, rfl, rfl, rfl, rfl, rfl⟩
  exact (List.mem_filter.mp he).2

/-- The bank at a TRAP's freeze, which no control transfer precedes (R291). -/
def Bank.noTransfer (b : Bank) : Bank := { b with prevCtl := false, prevBr := false }

theorem Bank.shifted_noTransfer (b : Bank) : b.noTransfer.shifted.loop = b.shifted.loop ∧
    b.noTransfer.shifted.rotWord = b.shifted.rotWord ∧ ∀ i, b.noTransfer.shifted.pred i = b.shifted.pred i := by
  have heq : b.noTransfer.shifted = b.shifted.noTransfer := by
    unfold Bank.shifted Bank.noTransfer
    dsimp only
    split
    · rfl
    · rfl
  rw [heq]
  exact ⟨rfl, rfl, fun _ => rfl⟩

/-- Settles O14: the entry of the frozen bank, and the frame read back field by field. -/
theorem trapEntry : Obligations.TrapEntry := by
  refine ⟨fun o s hr hgang hloop hguard hhandler hfit hpin => ?enters, fun o s hr hgang =>
    ⟨fun h => ?refused, fun code tcode f epc hpin => State.trapEntry_unpinned hpin code tcode f epc⟩⟩
  case refused =>
    rw [exec_trap hr hgang, if_pos]
    rcases h with h | h | h <;> simp [h]
  case enters =>
    intro b base
    obtain ⟨u, hu⟩ : ∃ u, u = s.setBank b.noTransfer := ⟨_, rfl⟩
    have hub : u.core.bank = b.noTransfer := by rw [hu, State.setBank_core]
    have hustore : u.core.store = s.core.store := by rw [hu, State.setBank_core]
    have humem : u.mem = s.mem := by rw [hu, State.setBank_mem]
    have hufit : u.core.bank.rimeFits = true := by rw [hub]; exact hfit
    have hupin : u.core.bank.framePinned = true := by rw [hub]; exact hpin
    obtain ⟨cause, hcause⟩ : ∃ w, w = causeBits 0x0E none false 0 o.imm.toNat := ⟨_, rfl⟩
    obtain ⟨hbank, hstore, hmem⟩ := State.trapEntry_pinned hupin 0x0E o.imm.toNat (b.tick + 1) b.nextPc
    obtain ⟨hcode, htcode⟩ := causeBits_trap o.imm.toNat
    rw [← hcause] at hbank hstore hcode htcode
    have hreads := State.framed_reads hufit (b.tick + 1) b.nextPc cause
    have hentered := u.entered_bank (b.tick + 1) b.nextPc cause
    obtain ⟨hloopv, hrotv, hpredv⟩ := b.shifted_noTransfer
    rw [← hstore] at hreads
    rw [← hbank] at hentered
    dsimp only at hreads hentered
    rw [hub] at hreads hentered
    rw [hloopv, hrotv, hustore] at hreads
    simp only [hpredv] at hreads
    refine ⟨u.trapEntry 0x0E o.imm.toNat (b.tick + 1) b.nextPc, ?_, ?_⟩
    · rw [exec_trap hr hgang, if_neg (by simp [hloop, hguard, hhandler, hfit]), hu]
      rfl
    · intro c
      obtain ⟨hepc, hcauseIs, hmode, hpc, hstall, hhandlerOn, hrun, hloopOff, hrotSize, hrotBase, hpend, hs, hk,
        hv, hb, htvec, htfbase⟩ := hentered
      obtain ⟨hout, hhead, hepcRead, hcauseRead, hstatusRead⟩ := hreads
      obtain ⟨hlc, hrot, hpreds, hmasks, hlat, hcount, hentries⟩ := hhead
      have hc : c.cause = cause := hcauseIs
      refine ⟨hepc, by rw [hc]; exact hcode, by rw [hc]; exact htcode, hmode, hpc, hstall, hhandlerOn, hrun, hloopOff,
        hrotSize, hrotBase, hpend, hs, hk, hv, hb, htvec, htfbase, hout, ⟨hlc, hrot, hpreds, hmasks, hlat, hcount, ?_⟩, hepcRead,
        by rw [hc]; exact hcauseRead, hstatusRead, hmem.trans humem⟩
      exact fun e he n x heff hn _ hdue => hentries e he n x heff hn (by omega)

end Sys2Proof.Machine
end
